-- ==== Sys2Proof/Word.lean ====
section
/-! DEFINITION. The word types of the CK960: bytes, 64-bit register values, and their plainest arithmetic. -/

namespace Sys2Proof

/-- A byte of memory. -/
abbrev Byte := BitVec 8

/-- A 64-bit register or queue-entry word. -/
abbrev Word := BitVec 64

end Sys2Proof
end

