-- ==== Sys2Proof/Machine/Bits.lean ====
section
/-! DEFINITION. Bit fields, little-endian byte lists (R6), bounded counters, and the sparse maps in one canonical
form that hold registers, memory and every other sparse store of the state. -/

namespace Sys2Proof.Machine

/-- Bits `hi` to `lo` of a number. -/
def bits (x hi lo : Nat) : Nat := (x >>> lo) % 2 ^ (hi + 1 - lo)

/-- Bit `n` of a number. -/
def bit (x n : Nat) : Bool := x.testBit n

/-- A Boolean as a bit. -/
def b2n (b : Bool) : Nat := if b then 1 else 0

/-- Field of width `w` at bit `lo` of a register word. -/
def fieldGet (x : Word) (lo w : Nat) : Nat := (x.toNat >>> lo) % 2 ^ w

/-- A register word with the field of width `w` at bit `lo` replaced. -/
def fieldSet (x : Word) (lo w v : Nat) : Word :=
  (x &&& ~~~(BitVec.ofNat 64 ((2 ^ w - 1) <<< lo))) ||| BitVec.ofNat 64 ((v % 2 ^ w) <<< lo)

/-- Little-endian value of a byte list (R6). -/
def le : List Byte → Nat
  | [] => 0
  | b :: bs => b.toNat + 256 * le bs

/-- The `n` little-endian bytes of a value (R6). -/
def toLE : Nat → Nat → List Byte
  | 0, _ => []
  | n + 1, v => BitVec.ofNat 8 v :: toLE n (v / 256)

/-- Little-endian value of bytes `lo` to `lo + n - 1` of a byte list; bytes past the end read 0. -/
def leAt (bs : List Byte) (lo n : Nat) : Nat := le ((bs.drop lo).take n)

/-- A sum that stops at the largest value of `w` bits. -/
def satAdd (w a b : Nat) : Nat := min (a + b) (2 ^ w - 1)

/-- A bounded parameter: values below `lo` act as `lo`, above `hi` as `hi`. -/
def clampN (lo hi x : Nat) : Nat := max lo (min hi x)

/-- Ceiling division. -/
def ceilDiv (a b : Nat) : Nat := (a + b - 1) / b

/-- Rounding up to a multiple of `b`. -/
def roundUp (a b : Nat) : Nat := ceilDiv a b * b

/-- Two's complement value of the low `w` bits. -/
def toSigned (w x : Nat) : Int :=
  let y := x % 2 ^ w
  if y < 2 ^ (w - 1) then (y : Int) else (y : Int) - (2 ^ w : Nat)

/-- Low `w` bits of the two's complement of an integer. -/
def ofSigned (w : Nat) (x : Int) : Nat := (x % (2 ^ w : Nat)).toNat

/-- Value at a key of a sparse map; an unlisted key holds `dflt`. -/
def smGet {α : Type} : List (Nat × α) → Nat → α → α
  | [], _, dflt => dflt
  | (k', v) :: m, k, dflt => if k' = k then v else smGet m k dflt

/-- Sorted insertion, replacing an entry of the same key. -/
def smIns {α : Type} : List (Nat × α) → Nat → α → List (Nat × α)
  | [], k, v => [(k, v)]
  | (k', v') :: m, k, v =>
    if k < k' then (k, v) :: (k', v') :: m
    else if k' = k then (k, v) :: m
    else (k', v') :: smIns m k v

/-- Removal of a key. -/
def smDel {α : Type} (m : List (Nat × α)) (k : Nat) : List (Nat × α) := m.filter fun e => e.1 != k

/-- Update of a sparse map in canonical form: writing the value an unlisted key reads as removes the entry. -/
def smSet {α : Type} [DecidableEq α] (m : List (Nat × α)) (k : Nat) (dflt v : α) : List (Nat × α) :=
  if v = dflt then smDel m k else smIns m k v

/-- Removal of every key in a range, so that each reads as an unlisted key again. -/
def smClear {α : Type} (m : List (Nat × α)) (lo len : Nat) : List (Nat × α) :=
  m.filter fun e => !(decide (lo ≤ e.1) && decide (e.1 < lo + len))

/-- Keys strictly rising. -/
def smSorted {α : Type} : List (Nat × α) → Bool
  | [] => true
  | [_] => true
  | (k, _) :: (k', v) :: m => decide (k < k') && smSorted ((k', v) :: m)

/-- The canonical form of a sparse map whose unlisted keys read as `dflt`. -/
def smWf {α : Type} [DecidableEq α] (dflt : Nat → α) (m : List (Nat × α)) : Bool :=
  smSorted m && m.all fun e => e.2 != dflt e.1

/-- The first element of a list that meets a test, with its position. -/
def findIdxFrom {α : Type} (p : α → Bool) : List α → Nat → Option Nat
  | [], _ => none
  | x :: xs, i => if p x then some i else findIdxFrom p xs (i + 1)

/-- The least number below `n` that meets a test. -/
def leastBelow (n : Nat) (p : Nat → Bool) : Option Nat := (List.range n).find? p

/-- A number is within a half-open range. -/
def inRange (x lo len : Nat) : Bool := decide (lo ≤ x) && decide (x < lo + len)

end Sys2Proof.Machine
end

