-- ==== Sys2Proof/Machine/TypesFab.lean ====
section
/-! DEFINITION. State of the fabric: links, streams, remote requests at both ends, the reply cache, peer crossings (chapter 10). -/

namespace Sys2Proof.Machine

/-- A sequenced flit to send or kept for replay; a control flit has `ctl` set. -/
structure TxFlit where
  cls : Nat
  sop : Bool
  eop : Bool
  data : List Byte
  ctl : Bool := false
  seq : Nat := 0
  ten : Nat := 0
  deriving DecidableEq, Repr

/-- What a control flit's payload carries (R298): cumulative credits of each class, lane status, device ID, membership epoch. -/
structure Ctl where
  credits : List Nat
  lanes : Nat
  dev : Nat
  epoch : Nat
  deriving DecidableEq, Repr

/-- One port's link: next numbers to send and to expect, whether anything was received, flits not yet acknowledged and flits waiting, replays without an ack,
whether a nak stands, credits granted and used and credits returned by class, packets in reassembly, flits since the last control flit,
place in the round robin of FT2 and FT3; credits last told to the other end, the 10 µs window that `ft1` counts FT1 flits of, data flits served by class and
tenancy (64 · class + tenancy), and the tenancy of the packet that each class is sending. -/
structure Link where
  tx : Nat := 0
  rx : Nat := 0
  seen : Bool := false
  unacked : List TxFlit := []
  queue : List TxFlit := []
  replays : Nat := 0
  nakOut : Bool := false
  granted : List Nat := [0, 0, 0, 0]
  used : List Nat := [0, 0, 0, 0]
  freed : List Nat := [0, 0, 0, 0]
  parts : List (Nat × List Byte) := []
  sinceCtl : Nat := 0
  wrr : Nat := 0
  told : List Nat := []
  ft1Win : Nat := 0
  ft1 : Nat := 0
  served : List (Nat × Nat) := []
  opened : List (Nat × Nat) := []
  deriving DecidableEq, Repr

/-- Whom a request serves: a remote operation of a leg (core, leg serial, tile-store address or scalar register, token), a piece of a channel's chunk
(channel, chunk, offset within it), a chunk of a collective (command, peer rank, chunk), or a page or record of the fault-tolerance engine. -/
inductive ReqFor where
  | rload (core serial ts tok : Nat)
  | rstore (core serial tok : Nat)
  | ratom (core serial sd tok : Nat)
  | chunk (ch k off : Nat)
  | coll (sn rank chunk : Nat)
  | ftp (what idx : Nat)
  deriving DecidableEq, Repr

/-- A request of this device that has no answer yet (R306, R308, R320). Times are device times; `base` and `limit` are the resend interval and the timeout
in force at issue (Table 10-10); `sent` counts transmissions. -/
structure Req where
  id : Nat
  op : Nat
  dst : Nat
  path : Nat
  cls : Nat
  seq : Option Nat := none
  unit : Nat
  reqId : Nat
  ga : Nat
  len : Nat
  code : Nat := 0
  tag : List Byte
  payload : List Byte
  sn : Nat
  who : ReqFor
  clock : Nat := 0
  sentAt : Nat := 0
  interval : Nat := 0
  base : Nat := 0
  limit : Nat := 0
  sent : Nat := 0
  deriving DecidableEq, Repr

/-- Sending end and receiving end of a stream (R306, R307). -/
structure OutStream where
  next : Nat := 0
  grant : Nat := 4
  deriving DecidableEq, Repr

structure InStream where
  expect : Nat := 0
  grant : Nat := 4
  xnakAt : Option Nat := none
  resetEpoch : Nat := 0
  deriving DecidableEq, Repr

/-- A request accepted at this device and not answered (R317, R318). -/
structure TReq where
  src : Nat
  path : Nat
  cls : Nat
  op : Nat
  code : Nat
  seq : Nat
  unit : Nat
  reqId : Nat
  ga : Nat
  len : Nat
  tag : List Byte
  payload : List Byte
  arrived : Nat
  receipt : Bool := false
  counted : Bool := false
  asked : Bool := false
  deriving DecidableEq, Repr

/-- A packet that has passed the common checks, its payload in clear. -/
structure Pkt where
  src : Nat
  op : Nat
  path : Nat
  cls : Nat
  code : Nat
  seq : Nat
  unit : Nat
  reqId : Nat
  ga : Nat
  len : Nat
  epoch : Nat
  tag : List Byte
  payload : List Byte
  deriving DecidableEq, Repr

/-- A reply cache entry (R322): op and status code of the answer, and its old value. -/
structure Reply where
  src : Nat
  unit : Nat
  reqId : Nat
  seq : Nat
  op : Nat
  code : Nat
  value : List Byte
  deriving DecidableEq, Repr

/-- A crossing whose flip reaches a peer (R327): `phase` 0 PREPARE sent, 1 OPEN sent. -/
structure PeerFlip where
  ch : Nat
  dst : Nat
  first : Nat
  len : Nat
  phase : Nat
  since : Nat
  tag : List Byte
  deriving DecidableEq, Repr

/-- Fabric keys of a tenancy (R479, R482): generation and 32 key bytes each; `activate` when next becomes current at the next step boundary. -/
structure FabKeys where
  cur : Option (Nat × List Byte) := none
  next : Option (Nat × List Byte) := none
  prev : Option (Nat × List Byte) := none
  activate : Bool := false
  deriving DecidableEq, Repr

/-- The fabric. Streams are keyed by peer device · 64 + path · 4 + class. `ids` are the next request IDs of each unit, `counters` the
packets protected by port and tenancy, `members` the devices of the current epoch. -/
structure FabCtx where
  links : List (Nat × Link) := []
  outs : List (Nat × OutStream) := []
  ins : List (Nat × InStream) := []
  reqs : List Req := []
  nextId : Nat := 1
  ids : List (Nat × Nat) := []
  intake : List TReq := []
  replies : List Reply := []
  hot : List Nat := []
  arrived : List (List Byte) := []
  flips : List PeerFlip := []
  arriving : List (Nat × Nat) := []
  counters : List (Nat × Nat) := []
  members : List Nat := []
  keys : List (Nat × FabKeys) := []
  deriving DecidableEq, Repr

end Sys2Proof.Machine
end

