-- ==== Sys2Proof/Machine/Regs.lean ====
section
/-! DEFINITION. The BAR0 registers of the CK960: every register of Table 19-2 and, field by field, the
defining tables of the chapters (bits, access type of Table 0-3, reset value). A field is written
`REGISTER.field`, as the manual writes it. -/

namespace Sys2Proof.Machine

/-- The registers of Table 19-2 (R526). An indexed register is one constructor; its index is kept apart. -/
inductive Reg where
  | GEN_ID | GEN_SVC | TXN_STAT | TXN_CTL | TEN_CFG | TEN_CORES | TEN_QUOTA | TEN_CTL | TEN_STAT
  | TEN_IRQ_CFG | TEN_IRQ_RATE | TEN_DLOG_HBASE | TEN_DLOG_HRANGE | TEN_DLOG_DBASE | TEN_DLOG_CTL | TEN_QPOS0
  | TEN_QPOS1 | QUE_SQ_BASE | QUE_CQ_BASE | QUE_CFG | QUE_STAT | QUE_CTL | QUE_EVT_BASE | SCH_CLASS
  | SCH_RESERVE | SCH_THR_STAT | SCH_RADIO_STAT | SCH_TT_STAT | SCH_KV_POOL | SCH_KV_STAT | SCH_BATCH_CFG
  | SCH_ACCT_CFG | SCH_ACCT_WAIT | SCH_ACCT_PRE | COR_LMAP | COR_TIMING | COR_CUBE_REPAIR | COR_BANKSTAT
  | COR_TSPART | COR_SEQ_STAT | COR_BANK_WDT | COR_ARITH_STAT | RTE_MAP | RTE_STAT | RTE_STALL | RTE_TEN_DROP
  | MEM_XT_BASE | MEM_XT_CFG | MEM_LAND_CFG | MEM_XT_OP0 | MEM_XT_OP1 | MEM_FAULT_CTL | MEM_CHAN_CTL
  | MEM_ARB_WDT | MEM_ARB_STAT | MEM_SCRUB_CFG | MEM_FILL_STAT | MEM_CHAN_STAT | MEM_CHAN_ADDR | FAB_DEV_CFG
  | FAB_RMT_CFG | FAB_CLASS_CFG | FAB_PATH_MAP | FAB_XPORT_STAT | FAB_RMT_STAT | FAB_HOT_ADDR | FAB_PORT_CFG
  | FAB_PORT_STAT | FAB_LANE_SPARE | FAB_TEN_CFG | FAB_REGION0 | FAB_REGION1 | COL_STAT | COL_LAST_SUSPECT
  | COL_INFLIGHT | RAD_PORT_CFG | RAD_PORT_STAT | RAD_MUTE_CTL | RAD_QSAMP_CFG | RAD_QSTAT | RAD_CAR_CFG
  | RAD_CAR_FH | RAD_CAR_DLWIN | RAD_CAR_ULWIN | RAD_CAR_UL | RAD_CAR_DLRING | RAD_CAR_ULRING | RAD_CAR_STAT
  | RAD_FLOW_CFG | RAD_FLOW_STAT | TIM_NOW_S | TIM_NOW_NS | TIM_STAT | TIM_DOM_CFG | TIM_DOM_STAT
  | TIM_SEL_CTL | TIM_HOLD_CTL | TIM_SYNCE_CTL | TIM_PORT_LAT | TIM_AIR_CFG | TIM_FRAME_NOW | TIM_SLOT_NOW
  | TIM_PPS_CTL | TIM_PPS_START | TIM_CAP_CTL | TIM_CAP_S | TIM_CAP_NS | TIM_PPSIN_STAT | TIM_TOD_NEXT
  | RAS_LOG_STAT | RAS_LOG_CNT | RAS_CTL | RAS_BUCKET_CFG | RAS_TASTE_CFG | RAS_POLICY | RAS_RETIRE
  | RAS_REPAIR_OP | RAS_REPAIR_STAT | RAS_BIN_CFG | RAS_RESET_CAUSE | RAS_CP_STAT | RAS_ECC_CNT
  | RAS_CORE_HEALTH | RAS_TASTE_CNT | FTP_CFG | FTP_STAT | FTP_MGR | FTP_MEMB_CFG | FTP_PARTNER
  | FTP_SHADOW_HOST | FTP_TEN_CFG | FTP_TEN_STAT | FTP_RESTORE | FTP_REHOME0 | FTP_REHOME1 | FTP_EVT
  | FTP_CNT | FTP_ACCT_LOST | FTP_ACCT_STALL | FTP_ACCT_CNT | FTP_JOB_CFG | DET_TEN_CFG | DET_TEN_STAT
  | DET_WSET | DET_TIME_LAST | SEC_BOOT_STAT | SEC_ARB | SEC_SERIAL | SEC_OP_ADDR | SEC_OP_CTL | SEC_TEN_CFG
  | SEC_TEN_STAT | SEC_FAB_STAT | SEC_DBG_NONCE | PWR_STATE_CTL | PWR_STATE_STAT | PWR_LIMIT_CFG
  | PWR_POWER_STAT | PWR_THERM_STAT | PWR_SAVE_CFG | PWR_SAVE_CTL | PWR_SAVE_STAT | PWR_START_STAT | MGT_CFG
  | MGT_ACL | MGT_STAT | MGT_TELEM_STAT
  deriving DecidableEq, Repr

/-- Access types of register fields, Table 0-3 (R7). RSV bits are the bits no field covers. -/
inductive Acc where
  | RW | RO | W1C | WO | RWT | RWL
  deriving DecidableEq, Repr

/-- A register field: its register, its most and least significant bits, its access type and the reset value of
its table (where the table gives a fuse, OTP, boot or kept value: see `Reg.resetAt`). -/
structure Fld where
  reg : Reg
  hi : Nat
  lo : Nat
  acc : Acc
  rst : Nat
  deriving DecidableEq, Repr

/-- Width of a field in bits. -/
def Fld.width (f : Fld) : Nat := f.hi + 1 - f.lo

/-- Table 0-2 (R4). -/
def GEN_ID.part_code : Fld := ⟨.GEN_ID, 63, 48, .RO, 0x960⟩
def GEN_ID.numerics_level : Fld := ⟨.GEN_ID, 47, 40, .RO, 3⟩
def GEN_ID.stepping_major : Fld := ⟨.GEN_ID, 39, 36, .RO, 1⟩
def GEN_ID.stepping_minor : Fld := ⟨.GEN_ID, 35, 32, .RO, 0⟩
def GEN_ID.variant : Fld := ⟨.GEN_ID, 31, 28, .RO, 1⟩
/-- Table 1-4 (R25). -/
def GEN_SVC.missing_unit : Fld := ⟨.GEN_SVC, 63, 48, .RO, 0xffff⟩
def GEN_SVC.cores_die_max : Fld := ⟨.GEN_SVC, 47, 40, .RO, 0⟩
def GEN_SVC.cores_total : Fld := ⟨.GEN_SVC, 39, 32, .RO, 0⟩
def GEN_SVC.hbm_ok : Fld := ⟨.GEN_SVC, 31, 24, .RO, 0⟩
def GEN_SVC.cp_count : Fld := ⟨.GEN_SVC, 18, 16, .RO, 0⟩
def GEN_SVC.fh_ok : Fld := ⟨.GEN_SVC, 15, 12, .RO, 0⟩
def GEN_SVC.md_ok : Fld := ⟨.GEN_SVC, 9, 8, .RO, 0⟩
def GEN_SVC.timing_ok : Fld := ⟨.GEN_SVC, 7, 7, .RO, 0⟩
def GEN_SVC.eval_done : Fld := ⟨.GEN_SVC, 6, 6, .RO, 0⟩
def GEN_SVC.svc_changed : Fld := ⟨.GEN_SVC, 2, 2, .W1C, 0⟩
def GEN_SVC.svc_level : Fld := ⟨.GEN_SVC, 1, 0, .RO, 0⟩
/-- Table 4-16 (R147). -/
def TXN_STAT.committed : Fld := ⟨.TXN_STAT, 63, 48, .RO, 0⟩
def TXN_STAT.staged : Fld := ⟨.TXN_STAT, 47, 37, .RO, 0⟩
def TXN_STAT.discarded : Fld := ⟨.TXN_STAT, 31, 16, .RW, 0⟩
def TXN_STAT.cause : Fld := ⟨.TXN_STAT, 15, 8, .RO, 0⟩
def TXN_STAT.slot_aligned : Fld := ⟨.TXN_STAT, 5, 5, .RO, 0⟩
def TXN_STAT.overflow : Fld := ⟨.TXN_STAT, 4, 4, .RO, 0⟩
def TXN_STAT.conflict : Fld := ⟨.TXN_STAT, 3, 3, .W1C, 0⟩
def TXN_STAT.state : Fld := ⟨.TXN_STAT, 1, 0, .RO, 0⟩
/-- Table 4-17 (R147). -/
def TXN_CTL.commit_timeout_ms : Fld := ⟨.TXN_CTL, 13, 0, .RW, 0x64⟩
/-- Table 15-6 (R466). -/
def TEN_CFG.share : Fld := ⟨.TEN_CFG, 23, 16, .RWT, 1⟩
/-- Table 15-7 (R466). -/
def TEN_CORES.cores : Fld := ⟨.TEN_CORES, 63, 0, .RWT, 0⟩
/-- Table 15-8 (R466). -/
def TEN_QUOTA.t1_max : Fld := ⟨.TEN_QUOTA, 63, 45, .RWT, 0⟩
def TEN_QUOTA.t2_max : Fld := ⟨.TEN_QUOTA, 44, 26, .RWT, 0⟩
def TEN_QUOTA.dp_max : Fld := ⟨.TEN_QUOTA, 25, 18, .RWT, 0⟩
def TEN_QUOTA.queues : Fld := ⟨.TEN_QUOTA, 12, 0, .RWT, 0⟩
/-- Table 15-9 (R466). -/
def TEN_CTL.op : Fld := ⟨.TEN_CTL, 1, 0, .WO, 0⟩
/-- Table 15-10 (R466). -/
def TEN_STAT.t1_mapped : Fld := ⟨.TEN_STAT, 63, 45, .RO, 0⟩
def TEN_STAT.t2_mapped : Fld := ⟨.TEN_STAT, 44, 26, .RO, 0⟩
def TEN_STAT.dp_mapped : Fld := ⟨.TEN_STAT, 25, 18, .RO, 0⟩
def TEN_STAT.queues : Fld := ⟨.TEN_STAT, 17, 5, .RO, 0⟩
def TEN_STAT.state : Fld := ⟨.TEN_STAT, 2, 0, .RO, 0⟩
/-- Table 15-11 (R466). -/
def TEN_IRQ_CFG.vf_vectors : Fld := ⟨.TEN_IRQ_CFG, 6, 0, .RW, 0x10⟩
/-- Table 15-12 (R466). -/
def TEN_IRQ_RATE.coalesced : Fld := ⟨.TEN_IRQ_RATE, 63, 32, .RW, 0⟩
def TEN_IRQ_RATE.min_gap_us : Fld := ⟨.TEN_IRQ_RATE, 15, 0, .RW, 4⟩
/-- Table 15-13 (R466). -/
def TEN_DLOG_HBASE.base : Fld := ⟨.TEN_DLOG_HBASE, 63, 12, .RW, 0⟩
/-- Table 15-13 (R466). -/
def TEN_DLOG_HRANGE.start : Fld := ⟨.TEN_DLOG_HRANGE, 63, 12, .RW, 0⟩
def TEN_DLOG_HRANGE.size_log2 : Fld := ⟨.TEN_DLOG_HRANGE, 5, 0, .RW, 0x16⟩
/-- Table 15-13 (R466). -/
def TEN_DLOG_DBASE.base : Fld := ⟨.TEN_DLOG_DBASE, 39, 12, .RW, 0⟩
/-- Table 15-14 (R466). -/
def TEN_DLOG_CTL.swaps : Fld := ⟨.TEN_DLOG_CTL, 63, 32, .RO, 0⟩
def TEN_DLOG_CTL.out_of_range : Fld := ⟨.TEN_DLOG_CTL, 4, 4, .W1C, 0⟩
def TEN_DLOG_CTL.b_active : Fld := ⟨.TEN_DLOG_CTL, 3, 3, .RO, 0⟩
def TEN_DLOG_CTL.busy : Fld := ⟨.TEN_DLOG_CTL, 2, 2, .RO, 0⟩
def TEN_DLOG_CTL.swap : Fld := ⟨.TEN_DLOG_CTL, 1, 1, .WO, 0⟩
def TEN_DLOG_CTL.enable : Fld := ⟨.TEN_DLOG_CTL, 0, 0, .RW, 0⟩
/-- Table 15-15 (R466). -/
def TEN_QPOS0.sq_head : Fld := ⟨.TEN_QPOS0, 63, 32, .RW, 0⟩
def TEN_QPOS0.cq_tail : Fld := ⟨.TEN_QPOS0, 31, 0, .RW, 0⟩
/-- Table 15-15 (R466). -/
def TEN_QPOS1.go : Fld := ⟨.TEN_QPOS1, 63, 63, .WO, 0⟩
def TEN_QPOS1.err : Fld := ⟨.TEN_QPOS1, 62, 62, .W1C, 0⟩
def TEN_QPOS1.phase : Fld := ⟨.TEN_QPOS1, 61, 61, .RW, 1⟩
def TEN_QPOS1.queue : Fld := ⟨.TEN_QPOS1, 11, 0, .RW, 0⟩
/-- Table 4-6 (R123). -/
def QUE_SQ_BASE.base : Fld := ⟨.QUE_SQ_BASE, 63, 12, .RW, 0⟩
/-- Table 4-6 (R123). -/
def QUE_CQ_BASE.base : Fld := ⟨.QUE_CQ_BASE, 63, 12, .RW, 0⟩
/-- Table 4-7 (R123). -/
def QUE_CFG.tenancy : Fld := ⟨.QUE_CFG, 63, 58, .RW, 0⟩
def QUE_CFG.sq_log2 : Fld := ⟨.QUE_CFG, 56, 52, .RW, 6⟩
def QUE_CFG.cq_log2 : Fld := ⟨.QUE_CFG, 51, 47, .RW, 6⟩
def QUE_CFG.class_mask : Fld := ⟨.QUE_CFG, 46, 44, .RW, 0⟩
def QUE_CFG.halt_on_fail : Fld := ⟨.QUE_CFG, 43, 43, .RW, 1⟩
def QUE_CFG.irq_vector : Fld := ⟨.QUE_CFG, 42, 32, .RW, 0⟩
def QUE_CFG.priority : Fld := ⟨.QUE_CFG, 1, 0, .RW, 0⟩
/-- Table 4-8 (R123). -/
def QUE_STAT.sq_head : Fld := ⟨.QUE_STAT, 63, 32, .RO, 0⟩
def QUE_STAT.in_flight : Fld := ⟨.QUE_STAT, 31, 14, .RO, 0⟩
def QUE_STAT.db_err : Fld := ⟨.QUE_STAT, 7, 4, .RO, 0⟩
def QUE_STAT.cq_full : Fld := ⟨.QUE_STAT, 3, 3, .RO, 0⟩
def QUE_STAT.state : Fld := ⟨.QUE_STAT, 2, 0, .RO, 0⟩
/-- Table 4-9 (R123). -/
def QUE_CTL.op : Fld := ⟨.QUE_CTL, 1, 0, .WO, 0⟩
/-- Table 4-10 (R123). -/
def QUE_EVT_BASE.base : Fld := ⟨.QUE_EVT_BASE, 39, 19, .RW, 0⟩
def QUE_EVT_BASE.valid : Fld := ⟨.QUE_EVT_BASE, 0, 0, .RW, 0⟩
/-- Table 5-2 (R151). -/
def SCH_CLASS.preempt_wait_us : Fld := ⟨.SCH_CLASS, 29, 16, .RW, 0x14⟩
/-- Table 5-7 (R162). -/
def SCH_RESERVE.short_bound : Fld := ⟨.SCH_RESERVE, 19, 8, .RWT, 0xe10⟩
def SCH_RESERVE.count : Fld := ⟨.SCH_RESERVE, 3, 0, .RWT, 2⟩
/-- Table 5-11 (R168). -/
def SCH_THR_STAT.starts_withheld : Fld := ⟨.SCH_THR_STAT, 63, 32, .RW, 0⟩
def SCH_THR_STAT.spare_duty : Fld := ⟨.SCH_THR_STAT, 24, 16, .RO, 0⟩
def SCH_THR_STAT.prompt_duty : Fld := ⟨.SCH_THR_STAT, 8, 0, .RO, 0⟩
/-- Table 5-8 (R166). -/
def SCH_RADIO_STAT.moves : Fld := ⟨.SCH_RADIO_STAT, 63, 32, .RW, 0⟩
def SCH_RADIO_STAT.misses : Fld := ⟨.SCH_RADIO_STAT, 31, 16, .RW, 0⟩
def SCH_RADIO_STAT.last_move_core : Fld := ⟨.SCH_RADIO_STAT, 15, 8, .RO, 0xff⟩
def SCH_RADIO_STAT.reserve_busy : Fld := ⟨.SCH_RADIO_STAT, 5, 0, .RO, 0⟩
/-- Table 5-9 (R166). -/
def SCH_TT_STAT.windows : Fld := ⟨.SCH_TT_STAT, 63, 48, .RO, 0⟩
def SCH_TT_STAT.jobs : Fld := ⟨.SCH_TT_STAT, 47, 39, .RO, 0⟩
def SCH_TT_STAT.period : Fld := ⟨.SCH_TT_STAT, 38, 32, .RO, 0⟩
def SCH_TT_STAT.tenancy : Fld := ⟨.SCH_TT_STAT, 31, 26, .RO, 0⟩
def SCH_TT_STAT.mu : Fld := ⟨.SCH_TT_STAT, 25, 24, .RO, 0⟩
def SCH_TT_STAT.state : Fld := ⟨.SCH_TT_STAT, 1, 0, .RO, 0⟩
/-- Table 5-12 (R169). -/
def SCH_KV_POOL.base_page : Fld := ⟨.SCH_KV_POOL, 58, 40, .RWT, 0⟩
def SCH_KV_POOL.pages : Fld := ⟨.SCH_KV_POOL, 39, 21, .RWT, 0⟩
def SCH_KV_POOL.reserve : Fld := ⟨.SCH_KV_POOL, 15, 0, .RWT, 0x10⟩
/-- Table 5-13 (R169). -/
def SCH_KV_STAT.free_pages : Fld := ⟨.SCH_KV_STAT, 63, 45, .RO, 0⟩
def SCH_KV_STAT.reserve_avail : Fld := ⟨.SCH_KV_STAT, 44, 29, .RO, 0⟩
def SCH_KV_STAT.deferred : Fld := ⟨.SCH_KV_STAT, 28, 13, .RO, 0⟩
/-- Table 5-15 (R175). -/
def SCH_BATCH_CFG.table_page : Fld := ⟨.SCH_BATCH_CFG, 58, 40, .RWT, 0⟩
def SCH_BATCH_CFG.max_seq : Fld := ⟨.SCH_BATCH_CFG, 16, 0, .RWT, 0⟩
/-- Table 5-17 (R177). -/
def SCH_ACCT_CFG.base : Fld := ⟨.SCH_ACCT_CFG, 39, 12, .RW, 0⟩
def SCH_ACCT_CFG.enable : Fld := ⟨.SCH_ACCT_CFG, 5, 5, .RW, 0⟩
def SCH_ACCT_CFG.log2_entries : Fld := ⟨.SCH_ACCT_CFG, 4, 0, .RW, 0⟩
/-- Table 5-18 (R177). -/
def SCH_ACCT_WAIT.wait_ns : Fld := ⟨.SCH_ACCT_WAIT, 63, 0, .RW, 0⟩
/-- Table 5-19 (R177). -/
def SCH_ACCT_PRE.seq_preempted : Fld := ⟨.SCH_ACCT_PRE, 63, 32, .RW, 0⟩
def SCH_ACCT_PRE.cmd_preempted : Fld := ⟨.SCH_ACCT_PRE, 31, 0, .RW, 0⟩
/-- Table 2-10 (R71). -/
def COR_LMAP.state : Fld := ⟨.COR_LMAP, 31, 28, .RO, 1⟩
def COR_LMAP.die_spares : Fld := ⟨.COR_LMAP, 18, 16, .RO, 4⟩
def COR_LMAP.remapped : Fld := ⟨.COR_LMAP, 8, 8, .RO, 0⟩
def COR_LMAP.phys : Fld := ⟨.COR_LMAP, 7, 0, .RO, 0⟩
/-- Table 2-11 (R71). -/
def COR_TIMING.generation : Fld := ⟨.COR_TIMING, 63, 48, .RO, 0⟩
def COR_TIMING.leg_start : Fld := ⟨.COR_TIMING, 47, 40, .RO, 0x18⟩
def COR_TIMING.cube_depth : Fld := ⟨.COR_TIMING, 39, 36, .RO, 4⟩
def COR_TIMING.perturbed : Fld := ⟨.COR_TIMING, 32, 32, .W1C, 0⟩
def COR_TIMING.last_leg_cycles : Fld := ⟨.COR_TIMING, 31, 0, .RO, 0⟩
/-- Table 2-12 (R71). -/
def COR_CUBE_REPAIR.cube_u : Fld := ⟨.COR_CUBE_REPAIR, 63, 0, .RO, 0⟩
/-- Table 2-14 (R71). -/
def COR_BANKSTAT.conflict_stalls : Fld := ⟨.COR_BANKSTAT, 63, 32, .RW, 0⟩
def COR_BANKSTAT.stale_grants : Fld := ⟨.COR_BANKSTAT, 31, 16, .RW, 0⟩
def COR_BANKSTAT.wdt_fires : Fld := ⟨.COR_BANKSTAT, 15, 8, .RW, 0⟩
def COR_BANKSTAT.last_wdt_bank : Fld := ⟨.COR_BANKSTAT, 4, 0, .RO, 0⟩
/-- Table 2-15 (R71). -/
def COR_TSPART.part3 : Fld := ⟨.COR_TSPART, 63, 48, .RWT, 0⟩
def COR_TSPART.part2 : Fld := ⟨.COR_TSPART, 47, 32, .RWT, 0⟩
def COR_TSPART.part1 : Fld := ⟨.COR_TSPART, 31, 16, .RWT, 0⟩
def COR_TSPART.part0 : Fld := ⟨.COR_TSPART, 15, 0, .RWT, 0xbc00⟩
/-- Table 2-16 (R71). -/
def COR_SEQ_STAT.manifest_id : Fld := ⟨.COR_SEQ_STAT, 63, 40, .RO, 0⟩
def COR_SEQ_STAT.tenancy : Fld := ⟨.COR_SEQ_STAT, 39, 34, .RO, 0⟩
def COR_SEQ_STAT.class_ : Fld := ⟨.COR_SEQ_STAT, 33, 32, .RO, 0⟩
def COR_SEQ_STAT.leg_index : Fld := ⟨.COR_SEQ_STAT, 31, 16, .RO, 0⟩
def COR_SEQ_STAT.overrun : Fld := ⟨.COR_SEQ_STAT, 3, 3, .RO, 0⟩
def COR_SEQ_STAT.running : Fld := ⟨.COR_SEQ_STAT, 2, 2, .RO, 0⟩
def COR_SEQ_STAT.mailbox : Fld := ⟨.COR_SEQ_STAT, 1, 0, .RO, 0⟩
/-- Table 2-17 (R71). -/
def COR_BANK_WDT.period_us : Fld := ⟨.COR_BANK_WDT, 19, 0, .RW, 0x3e8⟩
/-- Table 3-11 (R110). -/
def COR_ARITH_STAT.last_leg : Fld := ⟨.COR_ARITH_STAT, 31, 16, .RO, 0⟩
def COR_ARITH_STAT.rsqrt_domain : Fld := ⟨.COR_ARITH_STAT, 10, 10, .W1C, 0⟩
def COR_ARITH_STAT.div_sat : Fld := ⟨.COR_ARITH_STAT, 9, 9, .W1C, 0⟩
def COR_ARITH_STAT.mant_sat : Fld := ⟨.COR_ARITH_STAT, 8, 8, .W1C, 0⟩
def COR_ARITH_STAT.cbf_exp_clamp : Fld := ⟨.COR_ARITH_STAT, 7, 7, .W1C, 0⟩
def COR_ARITH_STAT.acc40_sat : Fld := ⟨.COR_ARITH_STAT, 6, 6, .W1C, 0⟩
def COR_ARITH_STAT.int_sat : Fld := ⟨.COR_ARITH_STAT, 5, 5, .W1C, 0⟩
def COR_ARITH_STAT.fmt_sat : Fld := ⟨.COR_ARITH_STAT, 4, 4, .W1C, 0⟩
def COR_ARITH_STAT.inf_made : Fld := ⟨.COR_ARITH_STAT, 3, 3, .W1C, 0⟩
def COR_ARITH_STAT.nan_made : Fld := ⟨.COR_ARITH_STAT, 2, 2, .W1C, 0⟩
def COR_ARITH_STAT.nan_in : Fld := ⟨.COR_ARITH_STAT, 1, 1, .W1C, 0⟩
def COR_ARITH_STAT.sub_made : Fld := ⟨.COR_ARITH_STAT, 0, 0, .W1C, 0⟩
/-- Table 8-14 (R260). -/
def RTE_MAP.state : Fld := ⟨.RTE_MAP, 31, 28, .RO, 1⟩
def RTE_MAP.ctx_bound : Fld := ⟨.RTE_MAP, 19, 16, .RO, 0⟩
def RTE_MAP.spare_avail : Fld := ⟨.RTE_MAP, 9, 9, .RO, 1⟩
def RTE_MAP.remapped : Fld := ⟨.RTE_MAP, 8, 8, .RO, 0⟩
def RTE_MAP.phys : Fld := ⟨.RTE_MAP, 3, 0, .RO, 0⟩
/-- Table 8-15 (R260). -/
def RTE_STAT.ended : Fld := ⟨.RTE_STAT, 63, 32, .RO, 0⟩
def RTE_STAT.pairs_dropped : Fld := ⟨.RTE_STAT, 31, 0, .RW, 0⟩
/-- Table 8-16 (R260). -/
def RTE_STALL.intake_stall : Fld := ⟨.RTE_STALL, 63, 32, .RW, 0⟩
def RTE_STALL.fenced : Fld := ⟨.RTE_STALL, 31, 16, .RW, 0⟩
def RTE_STALL.dup_tiles : Fld := ⟨.RTE_STALL, 15, 0, .RW, 0⟩
/-- Table 8-17 (R260). -/
def RTE_TEN_DROP.pairs_dropped : Fld := ⟨.RTE_TEN_DROP, 63, 0, .RW, 0⟩
/-- Table 9-10 (R294). -/
def MEM_XT_BASE.base : Fld := ⟨.MEM_XT_BASE, 39, 21, .RW, 0⟩
def MEM_XT_BASE.fault_vector : Fld := ⟨.MEM_XT_BASE, 12, 2, .RW, 0⟩
def MEM_XT_BASE.enable : Fld := ⟨.MEM_XT_BASE, 0, 0, .RW, 0⟩
/-- Table 9-11 (R294). -/
def MEM_XT_CFG.t1_pages : Fld := ⟨.MEM_XT_CFG, 56, 38, .RW, 0⟩
def MEM_XT_CFG.t2_pages : Fld := ⟨.MEM_XT_CFG, 37, 19, .RW, 0⟩
def MEM_XT_CFG.dp_pages : Fld := ⟨.MEM_XT_CFG, 15, 8, .RW, 0⟩
/-- Table 9-12 (R294). -/
def MEM_LAND_CFG.base : Fld := ⟨.MEM_LAND_CFG, 58, 40, .RWT, 0⟩
def MEM_LAND_CFG.count : Fld := ⟨.MEM_LAND_CFG, 39, 21, .RWT, 0⟩
def MEM_LAND_CFG.hash : Fld := ⟨.MEM_LAND_CFG, 0, 0, .RWT, 0⟩
/-- Table 9-13 (R294). -/
def MEM_XT_OP0.tenancy : Fld := ⟨.MEM_XT_OP0, 47, 42, .RW, 0⟩
def MEM_XT_OP0.space : Fld := ⟨.MEM_XT_OP0, 41, 40, .RW, 0⟩
def MEM_XT_OP0.count : Fld := ⟨.MEM_XT_OP0, 39, 19, .RW, 0⟩
def MEM_XT_OP0.page : Fld := ⟨.MEM_XT_OP0, 18, 0, .RW, 0⟩
/-- Table 9-14 (R294). -/
def MEM_XT_OP1.busy : Fld := ⟨.MEM_XT_OP1, 63, 63, .RO, 0⟩
def MEM_XT_OP1.err : Fld := ⟨.MEM_XT_OP1, 62, 62, .W1C, 0⟩
def MEM_XT_OP1.op : Fld := ⟨.MEM_XT_OP1, 61, 60, .WO, 0⟩
def MEM_XT_OP1.write : Fld := ⟨.MEM_XT_OP1, 59, 59, .WO, 0⟩
def MEM_XT_OP1.ppn : Fld := ⟨.MEM_XT_OP1, 18, 0, .WO, 0⟩
/-- Table 9-15 (R294). -/
def MEM_FAULT_CTL.pri_timeout_ms : Fld := ⟨.MEM_FAULT_CTL, 47, 32, .RW, 0x3e8⟩
def MEM_FAULT_CTL.dev_timeout_ms : Fld := ⟨.MEM_FAULT_CTL, 15, 0, .RW, 0x64⟩
/-- Table 9-16 (R294). -/
def MEM_CHAN_CTL.op : Fld := ⟨.MEM_CHAN_CTL, 9, 8, .WO, 0⟩
def MEM_CHAN_CTL.channel : Fld := ⟨.MEM_CHAN_CTL, 7, 0, .WO, 0⟩
/-- Table 9-17 (R294). -/
def MEM_ARB_WDT.period_us : Fld := ⟨.MEM_ARB_WDT, 19, 0, .RW, 0x3e8⟩
/-- Table 9-18 (R294). -/
def MEM_ARB_STAT.stale_grants : Fld := ⟨.MEM_ARB_STAT, 63, 32, .RW, 0⟩
def MEM_ARB_STAT.wdt_fires : Fld := ⟨.MEM_ARB_STAT, 31, 16, .RW, 0⟩
def MEM_ARB_STAT.last_unit : Fld := ⟨.MEM_ARB_STAT, 15, 0, .RO, 0xffff⟩
/-- Table 9-19 (R294). -/
def MEM_SCRUB_CFG.t1_hours : Fld := ⟨.MEM_SCRUB_CFG, 63, 48, .RW, 0x18⟩
def MEM_SCRUB_CFG.t2_hours : Fld := ⟨.MEM_SCRUB_CFG, 47, 32, .RW, 0x18⟩
def MEM_SCRUB_CFG.dp_minutes : Fld := ⟨.MEM_SCRUB_CFG, 31, 16, .RW, 0x3c⟩
def MEM_SCRUB_CFG.enable : Fld := ⟨.MEM_SCRUB_CFG, 0, 0, .RW, 1⟩
/-- Table 9-20 (R294). -/
def MEM_FILL_STAT.t2_done : Fld := ⟨.MEM_FILL_STAT, 3, 3, .RO, 0⟩
def MEM_FILL_STAT.t1_done : Fld := ⟨.MEM_FILL_STAT, 2, 2, .RO, 0⟩
def MEM_FILL_STAT.dp_done : Fld := ⟨.MEM_FILL_STAT, 1, 1, .RO, 0⟩
def MEM_FILL_STAT.ts_done : Fld := ⟨.MEM_FILL_STAT, 0, 0, .RO, 0⟩
/-- Table 9-21 (R294). -/
def MEM_CHAN_STAT.tenancy : Fld := ⟨.MEM_CHAN_STAT, 63, 58, .RO, 0⟩
def MEM_CHAN_STAT.kind : Fld := ⟨.MEM_CHAN_STAT, 57, 55, .RO, 0⟩
def MEM_CHAN_STAT.state : Fld := ⟨.MEM_CHAN_STAT, 54, 52, .RO, 0⟩
def MEM_CHAN_STAT.fault_repeat : Fld := ⟨.MEM_CHAN_STAT, 51, 50, .RO, 0⟩
def MEM_CHAN_STAT.queue : Fld := ⟨.MEM_CHAN_STAT, 43, 32, .RO, 0⟩
def MEM_CHAN_STAT.done : Fld := ⟨.MEM_CHAN_STAT, 31, 0, .RO, 0⟩
/-- Table 9-21 (R294). -/
def MEM_CHAN_ADDR.fault_addr : Fld := ⟨.MEM_CHAN_ADDR, 63, 0, .RO, 0⟩
/-- Table 10-9 (R328). -/
def FAB_DEV_CFG.lock : Fld := ⟨.FAB_DEV_CFG, 12, 12, .RWL, 0⟩
def FAB_DEV_CFG.dev_id : Fld := ⟨.FAB_DEV_CFG, 11, 0, .RWL, 0⟩
/-- Table 10-10 (R328). -/
def FAB_RMT_CFG.retry_us : Fld := ⟨.FAB_RMT_CFG, 47, 32, .RW, 0xa⟩
def FAB_RMT_CFG.timeout_us : Fld := ⟨.FAB_RMT_CFG, 23, 0, .RW, 0x64⟩
/-- Table 10-11 (R328). -/
def FAB_CLASS_CFG.ft1_max_pct : Fld := ⟨.FAB_CLASS_CFG, 23, 16, .RW, 0x19⟩
def FAB_CLASS_CFG.ft2_weight : Fld := ⟨.FAB_CLASS_CFG, 15, 8, .RW, 3⟩
def FAB_CLASS_CFG.ft3_weight : Fld := ⟨.FAB_CLASS_CFG, 7, 0, .RW, 1⟩
/-- Table 10-12 (R328). -/
def FAB_PATH_MAP.port_i : Fld := ⟨.FAB_PATH_MAP, 63, 0, .RO, 0xfedcba9876543210⟩
/-- Table 10-13 (R328). -/
def FAB_XPORT_STAT.resends : Fld := ⟨.FAB_XPORT_STAT, 63, 32, .RW, 0⟩
def FAB_XPORT_STAT.duplicates : Fld := ⟨.FAB_XPORT_STAT, 31, 16, .RW, 0⟩
def FAB_XPORT_STAT.out_of_order : Fld := ⟨.FAB_XPORT_STAT, 15, 8, .RW, 0⟩
def FAB_XPORT_STAT.malformed : Fld := ⟨.FAB_XPORT_STAT, 7, 0, .RW, 0⟩
/-- Table 10-14 (R328). -/
def FAB_RMT_STAT.timeouts : Fld := ⟨.FAB_RMT_STAT, 63, 48, .RW, 0⟩
def FAB_RMT_STAT.indeterminate : Fld := ⟨.FAB_RMT_STAT, 47, 32, .RW, 0⟩
def FAB_RMT_STAT.hot_events : Fld := ⟨.FAB_RMT_STAT, 31, 16, .RW, 0⟩
def FAB_RMT_STAT.reply_full : Fld := ⟨.FAB_RMT_STAT, 15, 0, .RW, 0⟩
/-- Table 10-15 (R328). -/
def FAB_HOT_ADDR.block : Fld := ⟨.FAB_HOT_ADDR, 63, 0, .RO, 0⟩
/-- Table 10-16 (R328). -/
def FAB_PORT_CFG.max_width : Fld := ⟨.FAB_PORT_CFG, 5, 4, .RWT, 0⟩
def FAB_PORT_CFG.enable : Fld := ⟨.FAB_PORT_CFG, 0, 0, .RWT, 1⟩
/-- Table 10-17 (R328). -/
def FAB_PORT_STAT.link_retries : Fld := ⟨.FAB_PORT_STAT, 63, 48, .RW, 0⟩
def FAB_PORT_STAT.crc_errors : Fld := ⟨.FAB_PORT_STAT, 47, 32, .RW, 0⟩
def FAB_PORT_STAT.retrains : Fld := ⟨.FAB_PORT_STAT, 31, 24, .RW, 0⟩
def FAB_PORT_STAT.lanes_ok : Fld := ⟨.FAB_PORT_STAT, 15, 12, .RO, 0⟩
def FAB_PORT_STAT.width : Fld := ⟨.FAB_PORT_STAT, 11, 10, .RO, 3⟩
def FAB_PORT_STAT.spare_in : Fld := ⟨.FAB_PORT_STAT, 9, 9, .RO, 0⟩
def FAB_PORT_STAT.state : Fld := ⟨.FAB_PORT_STAT, 7, 4, .RO, 0⟩
/-- Table 10-18 (R328). -/
def FAB_LANE_SPARE.in_use : Fld := ⟨.FAB_LANE_SPARE, 7, 7, .RO, 0⟩
def FAB_LANE_SPARE.port : Fld := ⟨.FAB_LANE_SPARE, 6, 5, .RO, 0⟩
def FAB_LANE_SPARE.lane : Fld := ⟨.FAB_LANE_SPARE, 4, 3, .RO, 0⟩
def FAB_LANE_SPARE.avail : Fld := ⟨.FAB_LANE_SPARE, 0, 0, .RO, 1⟩
/-- Table 10-19 (R328). -/
def FAB_TEN_CFG.remote_en : Fld := ⟨.FAB_TEN_CFG, 16, 16, .RWT, 0⟩
def FAB_TEN_CFG.share : Fld := ⟨.FAB_TEN_CFG, 7, 0, .RWT, 1⟩
/-- Table 10-19 (R328). -/
def FAB_REGION0.valid : Fld := ⟨.FAB_REGION0, 63, 63, .RWT, 0⟩
def FAB_REGION0.tenancy : Fld := ⟨.FAB_REGION0, 62, 57, .RWT, 0⟩
def FAB_REGION0.space : Fld := ⟨.FAB_REGION0, 56, 55, .RWT, 0⟩
def FAB_REGION0.base_page : Fld := ⟨.FAB_REGION0, 54, 36, .RWT, 0⟩
def FAB_REGION0.pages : Fld := ⟨.FAB_REGION0, 35, 17, .RWT, 0⟩
/-- Table 10-19 (R328). -/
def FAB_REGION1.grant : Fld := ⟨.FAB_REGION1, 63, 62, .RWT, 0⟩
def FAB_REGION1.grantee : Fld := ⟨.FAB_REGION1, 61, 50, .RWT, 0⟩
def FAB_REGION1.owner : Fld := ⟨.FAB_REGION1, 11, 0, .RWT, 0⟩
/-- Table 11-8 (R356). -/
def COL_STAT.declines : Fld := ⟨.COL_STAT, 63, 48, .RW, 0⟩
def COL_STAT.fallbacks : Fld := ⟨.COL_STAT, 47, 32, .RW, 0⟩
def COL_STAT.suspects : Fld := ⟨.COL_STAT, 31, 16, .RW, 0⟩
def COL_STAT.crc_drops : Fld := ⟨.COL_STAT, 15, 0, .RW, 0⟩
/-- Table 11-9 (R356). -/
def COL_LAST_SUSPECT.group_id : Fld := ⟨.COL_LAST_SUSPECT, 63, 48, .RO, 0⟩
def COL_LAST_SUSPECT.coll_seq : Fld := ⟨.COL_LAST_SUSPECT, 47, 16, .RO, 0⟩
def COL_LAST_SUSPECT.finder : Fld := ⟨.COL_LAST_SUSPECT, 11, 0, .RO, 0⟩
/-- Table 11-10 (R356). -/
def COL_INFLIGHT.count : Fld := ⟨.COL_INFLIGHT, 6, 0, .RO, 0⟩
/-- Table 7-3 (R205). -/
def RAD_PORT_CFG.mtu : Fld := ⟨.RAD_PORT_CFG, 47, 32, .RWT, 0x2580⟩
def RAD_PORT_CFG.ovh_bytes : Fld := ⟨.RAD_PORT_CFG, 23, 16, .RWT, 0x14⟩
def RAD_PORT_CFG.speed : Fld := ⟨.RAD_PORT_CFG, 3, 0, .RWT, 0⟩
/-- Table 7-4 (R205). -/
def RAD_PORT_STAT.unknown : Fld := ⟨.RAD_PORT_STAT, 63, 32, .RW, 0⟩
def RAD_PORT_STAT.window : Fld := ⟨.RAD_PORT_STAT, 31, 16, .RW, 0⟩
def RAD_PORT_STAT.seq_gaps : Fld := ⟨.RAD_PORT_STAT, 15, 1, .RW, 0⟩
def RAD_PORT_STAT.link_up : Fld := ⟨.RAD_PORT_STAT, 0, 0, .RO, 0⟩
/-- Table 7-12 (R216). -/
def RAD_MUTE_CTL.host_mute : Fld := ⟨.RAD_MUTE_CTL, 63, 0, .RW, 0⟩
/-- Table 7-20 (R231). -/
def RAD_QSAMP_CFG.enable : Fld := ⟨.RAD_QSAMP_CFG, 16, 16, .RW, 0⟩
def RAD_QSAMP_CFG.interval_us : Fld := ⟨.RAD_QSAMP_CFG, 15, 0, .RW, 0x64⟩
/-- Table 7-21 (R231). -/
def RAD_QSTAT.max_delay_ns : Fld := ⟨.RAD_QSTAT, 63, 44, .RW, 0⟩
def RAD_QSTAT.last_delay_ns : Fld := ⟨.RAD_QSTAT, 43, 24, .RO, 0⟩
def RAD_QSTAT.max_depth_kib : Fld := ⟨.RAD_QSTAT, 23, 12, .RW, 0⟩
def RAD_QSTAT.last_depth_kib : Fld := ⟨.RAD_QSTAT, 11, 0, .RO, 0⟩
/-- Table 7-5 (R205). -/
def RAD_CAR_CFG.enable : Fld := ⟨.RAD_CAR_CFG, 63, 63, .RWT, 0⟩
def RAD_CAR_CFG.td_mode : Fld := ⟨.RAD_CAR_CFG, 62, 62, .RWT, 0⟩
def RAD_CAR_CFG.category : Fld := ⟨.RAD_CAR_CFG, 61, 61, .RWT, 0⟩
def RAD_CAR_CFG.port : Fld := ⟨.RAD_CAR_CFG, 59, 58, .RWT, 0⟩
def RAD_CAR_CFG.mu : Fld := ⟨.RAD_CAR_CFG, 57, 56, .RWT, 1⟩
def RAD_CAR_CFG.owner : Fld := ⟨.RAD_CAR_CFG, 55, 50, .RWT, 0⟩
def RAD_CAR_CFG.prbs : Fld := ⟨.RAD_CAR_CFG, 47, 39, .RWT, 0x111⟩
def RAD_CAR_CFG.tx_ant : Fld := ⟨.RAD_CAR_CFG, 38, 32, .RWT, 4⟩
def RAD_CAR_CFG.rx_ant : Fld := ⟨.RAD_CAR_CFG, 31, 25, .RWT, 4⟩
def RAD_CAR_CFG.dl_layers : Fld := ⟨.RAD_CAR_CFG, 24, 20, .RWT, 4⟩
def RAD_CAR_CFG.ul_layers : Fld := ⟨.RAD_CAR_CFG, 19, 15, .RWT, 4⟩
def RAD_CAR_CFG.fft : Fld := ⟨.RAD_CAR_CFG, 14, 12, .RWT, 3⟩
/-- Table 7-6 (R205). -/
def RAD_CAR_FH.eaxc_base : Fld := ⟨.RAD_CAR_FH, 63, 48, .RWT, 0⟩
def RAD_CAR_FH.dl_comp : Fld := ⟨.RAD_CAR_FH, 47, 44, .RWT, 1⟩
def RAD_CAR_FH.dl_width : Fld := ⟨.RAD_CAR_FH, 43, 40, .RWT, 9⟩
def RAD_CAR_FH.ul_comp : Fld := ⟨.RAD_CAR_FH, 39, 36, .RWT, 1⟩
def RAD_CAR_FH.ul_width : Fld := ⟨.RAD_CAR_FH, 35, 32, .RWT, 9⟩
def RAD_CAR_FH.tagged : Fld := ⟨.RAD_CAR_FH, 31, 31, .RWT, 1⟩
def RAD_CAR_FH.vid : Fld := ⟨.RAD_CAR_FH, 27, 16, .RWT, 0⟩
def RAD_CAR_FH.ramp_w : Fld := ⟨.RAD_CAR_FH, 8, 0, .RWT, 0x40⟩
/-- Table 7-10 (R213). -/
def RAD_CAR_DLWIN.cp_adv_ns : Fld := ⟨.RAD_CAR_DLWIN, 59, 40, .RWT, 0x445c0⟩
def RAD_CAR_DLWIN.max_ns : Fld := ⟨.RAD_CAR_DLWIN, 39, 20, .RWT, 0x186a0⟩
def RAD_CAR_DLWIN.min_ns : Fld := ⟨.RAD_CAR_DLWIN, 19, 0, .RWT, 0xc350⟩
/-- Table 7-10 (R213). -/
def RAD_CAR_ULWIN.cp_adv_ns : Fld := ⟨.RAD_CAR_ULWIN, 59, 40, .RWT, 0x445c0⟩
def RAD_CAR_ULWIN.max_ns : Fld := ⟨.RAD_CAR_ULWIN, 39, 20, .RWT, 0x186a0⟩
def RAD_CAR_ULWIN.min_ns : Fld := ⟨.RAD_CAR_ULWIN, 19, 0, .RWT, 0x7530⟩
/-- Table 7-14 (R221). -/
def RAD_CAR_UL.fo_max_hz : Fld := ⟨.RAD_CAR_UL, 63, 48, .RWT, 0x3e8⟩
def RAD_CAR_UL.fo_ref_slots : Fld := ⟨.RAD_CAR_UL, 47, 40, .RWT, 4⟩
def RAD_CAR_UL.prach_thr : Fld := ⟨.RAD_CAR_UL, 39, 32, .RWT, 0x90⟩
def RAD_CAR_UL.prach_max : Fld := ⟨.RAD_CAR_UL, 31, 24, .RWT, 0x40⟩
/-- Table 7-7 (R207). -/
def RAD_CAR_DLRING.depth_log2 : Fld := ⟨.RAD_CAR_DLRING, 35, 32, .RWT, 2⟩
def RAD_CAR_DLRING.base : Fld := ⟨.RAD_CAR_DLRING, 31, 12, .RWT, 0⟩
def RAD_CAR_DLRING.entry_kib : Fld := ⟨.RAD_CAR_DLRING, 11, 0, .RWT, 0⟩
/-- Table 7-7 (R207). -/
def RAD_CAR_ULRING.depth_log2 : Fld := ⟨.RAD_CAR_ULRING, 35, 32, .RWT, 2⟩
def RAD_CAR_ULRING.base : Fld := ⟨.RAD_CAR_ULRING, 31, 12, .RWT, 0⟩
def RAD_CAR_ULRING.entry_kib : Fld := ⟨.RAD_CAR_ULRING, 11, 0, .RWT, 0⟩
/-- Table 7-13 (R216). -/
def RAD_CAR_STAT.mute_slots : Fld := ⟨.RAD_CAR_STAT, 63, 32, .RW, 0⟩
def RAD_CAR_STAT.late_posts : Fld := ⟨.RAD_CAR_STAT, 31, 16, .RW, 0⟩
def RAD_CAR_STAT.muted : Fld := ⟨.RAD_CAR_STAT, 4, 4, .RO, 0⟩
def RAD_CAR_STAT.by_host : Fld := ⟨.RAD_CAR_STAT, 3, 3, .RO, 0⟩
def RAD_CAR_STAT.by_svc : Fld := ⟨.RAD_CAR_STAT, 2, 2, .RO, 0⟩
def RAD_CAR_STAT.by_doubt : Fld := ⟨.RAD_CAR_STAT, 1, 1, .RO, 0⟩
def RAD_CAR_STAT.by_late : Fld := ⟨.RAD_CAR_STAT, 0, 0, .RO, 0⟩
/-- Table 7-17 (R227). -/
def RAD_FLOW_CFG.valid : Fld := ⟨.RAD_FLOW_CFG, 63, 63, .RWT, 0⟩
def RAD_FLOW_CFG.ingress : Fld := ⟨.RAD_FLOW_CFG, 62, 62, .RWT, 0⟩
def RAD_FLOW_CFG.port : Fld := ⟨.RAD_FLOW_CFG, 61, 60, .RWT, 0⟩
def RAD_FLOW_CFG.queue : Fld := ⟨.RAD_FLOW_CFG, 59, 57, .RWT, 6⟩
def RAD_FLOW_CFG.cplane : Fld := ⟨.RAD_FLOW_CFG, 56, 56, .RWT, 0⟩
def RAD_FLOW_CFG.carrier : Fld := ⟨.RAD_FLOW_CFG, 55, 50, .RWT, 0⟩
def RAD_FLOW_CFG.eaxc : Fld := ⟨.RAD_FLOW_CFG, 47, 32, .RWT, 0⟩
def RAD_FLOW_CFG.rate_mbps : Fld := ⟨.RAD_FLOW_CFG, 31, 12, .RWT, 0⟩
def RAD_FLOW_CFG.burst_kib : Fld := ⟨.RAD_FLOW_CFG, 11, 0, .RWT, 0x10⟩
/-- Table 7-18 (R227). -/
def RAD_FLOW_STAT.passed : Fld := ⟨.RAD_FLOW_STAT, 63, 32, .RO, 0⟩
def RAD_FLOW_STAT.dropped : Fld := ⟨.RAD_FLOW_STAT, 31, 0, .RW, 0⟩
/-- Table 6-1 (R180). -/
def TIM_NOW_S.seconds : Fld := ⟨.TIM_NOW_S, 47, 0, .RO, 0x12d53d93⟩
/-- Table 6-2 (R180). -/
def TIM_NOW_NS.ns : Fld := ⟨.TIM_NOW_NS, 35, 4, .RO, 0⟩
def TIM_NOW_NS.frac : Fld := ⟨.TIM_NOW_NS, 3, 0, .RO, 0⟩
/-- Table 6-9 (R191). -/
def TIM_STAT.hold_err_ns : Fld := ⟨.TIM_STAT, 63, 32, .RO, 0⟩
def TIM_STAT.doubt_count : Fld := ⟨.TIM_STAT, 31, 24, .RW, 0⟩
def TIM_STAT.steps : Fld := ⟨.TIM_STAT, 23, 16, .RO, 0⟩
def TIM_STAT.step_blocked : Fld := ⟨.TIM_STAT, 11, 11, .RO, 0⟩
def TIM_STAT.inconsistent : Fld := ⟨.TIM_STAT, 10, 10, .RO, 0⟩
def TIM_STAT.synce_locked : Fld := ⟨.TIM_STAT, 9, 9, .RO, 0⟩
def TIM_STAT.doubt_changed : Fld := ⟨.TIM_STAT, 8, 8, .W1C, 0⟩
def TIM_STAT.doubt : Fld := ⟨.TIM_STAT, 7, 7, .RO, 1⟩
def TIM_STAT.state : Fld := ⟨.TIM_STAT, 6, 4, .RO, 0⟩
def TIM_STAT.selected : Fld := ⟨.TIM_STAT, 1, 0, .RO, 3⟩
/-- Table 6-5 (R184). -/
def TIM_DOM_CFG.loss_ms : Fld := ⟨.TIM_DOM_CFG, 63, 48, .RWT, 0xfa⟩
def TIM_DOM_CFG.ptp_domain : Fld := ⟨.TIM_DOM_CFG, 47, 40, .RWT, 0x18⟩
def TIM_DOM_CFG.max_class : Fld := ⟨.TIM_DOM_CFG, 39, 32, .RWT, 7⟩
def TIM_DOM_CFG.port_mask : Fld := ⟨.TIM_DOM_CFG, 31, 27, .RWT, 0⟩
def TIM_DOM_CFG.master_mask : Fld := ⟨.TIM_DOM_CFG, 26, 22, .RWT, 0⟩
def TIM_DOM_CFG.priority : Fld := ⟨.TIM_DOM_CFG, 19, 16, .RWT, 0⟩
def TIM_DOM_CFG.source : Fld := ⟨.TIM_DOM_CFG, 2, 0, .RWT, 0⟩
/-- Table 6-6 (R185). -/
def TIM_DOM_STAT.offset_ns : Fld := ⟨.TIM_DOM_STAT, 63, 32, .RO, 0⟩
def TIM_DOM_STAT.losses : Fld := ⟨.TIM_DOM_STAT, 31, 16, .RW, 0⟩
def TIM_DOM_STAT.gm_class : Fld := ⟨.TIM_DOM_STAT, 15, 8, .RO, 0xff⟩
def TIM_DOM_STAT.state : Fld := ⟨.TIM_DOM_STAT, 2, 0, .RO, 0⟩
/-- Table 6-7 (R187). -/
def TIM_SEL_CTL.requalify_ms : Fld := ⟨.TIM_SEL_CTL, 63, 48, .RWT, 0x3e8⟩
def TIM_SEL_CTL.max_delta_ns : Fld := ⟨.TIM_SEL_CTL, 47, 32, .RWT, 0xfa⟩
def TIM_SEL_CTL.slew_ppb : Fld := ⟨.TIM_SEL_CTL, 31, 16, .RWT, 0x32⟩
def TIM_SEL_CTL.revertive : Fld := ⟨.TIM_SEL_CTL, 0, 0, .RWT, 0⟩
/-- Table 6-8 (R191). -/
def TIM_HOLD_CTL.budget_ns : Fld := ⟨.TIM_HOLD_CTL, 63, 48, .RWT, 0x44c⟩
def TIM_HOLD_CTL.freq_unc_ppt : Fld := ⟨.TIM_HOLD_CTL, 47, 32, .RWT, 0x3e8⟩
def TIM_HOLD_CTL.ageing_ppt_h : Fld := ⟨.TIM_HOLD_CTL, 31, 20, .RWT, 0x168⟩
def TIM_HOLD_CTL.synce_unc_ppt : Fld := ⟨.TIM_HOLD_CTL, 19, 12, .RWT, 0xa⟩
def TIM_HOLD_CTL.entry_ns : Fld := ⟨.TIM_HOLD_CTL, 11, 4, .RWT, 0x32⟩
def TIM_HOLD_CTL.hold_en : Fld := ⟨.TIM_HOLD_CTL, 0, 0, .RWT, 1⟩
/-- Table 6-10 (R192). -/
def TIM_SYNCE_CTL.ssm : Fld := ⟨.TIM_SYNCE_CTL, 15, 12, .RO, 0xf⟩
def TIM_SYNCE_CTL.state : Fld := ⟨.TIM_SYNCE_CTL, 9, 8, .RO, 0⟩
def TIM_SYNCE_CTL.tx_lock : Fld := ⟨.TIM_SYNCE_CTL, 4, 4, .RWT, 0⟩
def TIM_SYNCE_CTL.ref_port : Fld := ⟨.TIM_SYNCE_CTL, 2, 1, .RWT, 0⟩
def TIM_SYNCE_CTL.enable : Fld := ⟨.TIM_SYNCE_CTL, 0, 0, .RWT, 0⟩
/-- Table 6-4 (R183). -/
def TIM_PORT_LAT.tx_adj_ps : Fld := ⟨.TIM_PORT_LAT, 31, 16, .RW, 0⟩
def TIM_PORT_LAT.rx_adj_ps : Fld := ⟨.TIM_PORT_LAT, 15, 0, .RW, 0⟩
/-- Table 6-12 (R196). -/
def TIM_AIR_CFG.air_offset_ns : Fld := ⟨.TIM_AIR_CFG, 29, 0, .RWT, 0⟩
/-- Table 6-13 (R196). -/
def TIM_FRAME_NOW.hsfn : Fld := ⟨.TIM_FRAME_NOW, 25, 16, .RO, 0⟩
def TIM_FRAME_NOW.sfn : Fld := ⟨.TIM_FRAME_NOW, 15, 6, .RO, 0⟩
def TIM_FRAME_NOW.subframe : Fld := ⟨.TIM_FRAME_NOW, 3, 0, .RO, 0⟩
/-- Table 6-14 (R196). -/
def TIM_SLOT_NOW.slot_count : Fld := ⟨.TIM_SLOT_NOW, 63, 0, .RO, 0⟩
/-- Table 6-16 (R198). -/
def TIM_PPS_CTL.period_ns : Fld := ⟨.TIM_PPS_CTL, 63, 32, .RW, 0x3b9aca00⟩
def TIM_PPS_CTL.width_ns : Fld := ⟨.TIM_PPS_CTL, 31, 16, .RW, 0x64⟩
def TIM_PPS_CTL.start_frac : Fld := ⟨.TIM_PPS_CTL, 15, 12, .RW, 0⟩
def TIM_PPS_CTL.missed : Fld := ⟨.TIM_PPS_CTL, 7, 7, .W1C, 0⟩
def TIM_PPS_CTL.squelch : Fld := ⟨.TIM_PPS_CTL, 6, 6, .RW, 0⟩
def TIM_PPS_CTL.timebase : Fld := ⟨.TIM_PPS_CTL, 5, 5, .RW, 0⟩
def TIM_PPS_CTL.periodic : Fld := ⟨.TIM_PPS_CTL, 1, 1, .RW, 1⟩
def TIM_PPS_CTL.enable : Fld := ⟨.TIM_PPS_CTL, 0, 0, .RW, 0⟩
/-- Table 6-17 (R198). -/
def TIM_PPS_START.start_ns : Fld := ⟨.TIM_PPS_START, 63, 0, .RW, 0⟩
/-- Table 6-18 (R202). -/
def TIM_CAP_CTL.overflows : Fld := ⟨.TIM_CAP_CTL, 63, 32, .RW, 0⟩
def TIM_CAP_CTL.rejected : Fld := ⟨.TIM_CAP_CTL, 31, 16, .RW, 0⟩
def TIM_CAP_CTL.count : Fld := ⟨.TIM_CAP_CTL, 10, 6, .RO, 0⟩
def TIM_CAP_CTL.edges : Fld := ⟨.TIM_CAP_CTL, 1, 0, .RW, 0⟩
/-- Table 6-19 (R202). -/
def TIM_CAP_S.valid : Fld := ⟨.TIM_CAP_S, 63, 63, .RO, 0⟩
def TIM_CAP_S.falling : Fld := ⟨.TIM_CAP_S, 62, 62, .RO, 0⟩
def TIM_CAP_S.step_gen : Fld := ⟨.TIM_CAP_S, 61, 56, .RO, 0⟩
def TIM_CAP_S.seconds : Fld := ⟨.TIM_CAP_S, 47, 0, .RO, 0⟩
/-- Table 6-20 (R202). -/
def TIM_CAP_NS.ns : Fld := ⟨.TIM_CAP_NS, 35, 4, .RO, 0⟩
def TIM_CAP_NS.frac : Fld := ⟨.TIM_CAP_NS, 3, 0, .RO, 0⟩
/-- Table 6-21 (R202). -/
def TIM_PPSIN_STAT.rejected : Fld := ⟨.TIM_PPSIN_STAT, 63, 32, .RW, 0⟩
def TIM_PPSIN_STAT.glitches : Fld := ⟨.TIM_PPSIN_STAT, 31, 16, .RW, 0⟩
def TIM_PPSIN_STAT.tod_assumed : Fld := ⟨.TIM_PPSIN_STAT, 15, 8, .RW, 0⟩
/-- Table 6-22 (R202). -/
def TIM_TOD_NEXT.delay_ns : Fld := ⟨.TIM_TOD_NEXT, 63, 48, .RW, 0⟩
def TIM_TOD_NEXT.seconds : Fld := ⟨.TIM_TOD_NEXT, 47, 0, .RW, 0⟩
/-- Table 12-11 (R388). -/
def RAS_LOG_STAT.head : Fld := ⟨.RAS_LOG_STAT, 63, 32, .RO, 0⟩
def RAS_LOG_STAT.consumed : Fld := ⟨.RAS_LOG_STAT, 31, 0, .RW, 0⟩
/-- Table 12-12 (R388). -/
def RAS_LOG_CNT.overwrites : Fld := ⟨.RAS_LOG_CNT, 63, 32, .RW, 0⟩
def RAS_LOG_CNT.lost : Fld := ⟨.RAS_LOG_CNT, 31, 16, .RW, 0⟩
def RAS_LOG_CNT.inflight : Fld := ⟨.RAS_LOG_CNT, 6, 0, .RO, 0⟩
/-- Table 12-13 (R388). -/
def RAS_CTL.vector : Fld := ⟨.RAS_CTL, 42, 32, .RW, 0⟩
def RAS_CTL.irq_record : Fld := ⟨.RAS_CTL, 3, 3, .RW, 0⟩
def RAS_CTL.irq_taste : Fld := ⟨.RAS_CTL, 2, 2, .RW, 1⟩
def RAS_CTL.irq_bucket : Fld := ⟨.RAS_CTL, 1, 1, .RW, 1⟩
def RAS_CTL.irq_retire : Fld := ⟨.RAS_CTL, 0, 0, .RW, 1⟩
/-- Table 12-14 (R388). -/
def RAS_BUCKET_CFG.leak_s : Fld := ⟨.RAS_BUCKET_CFG, 31, 16, .RW, 0xa⟩
def RAS_BUCKET_CFG.depth : Fld := ⟨.RAS_BUCKET_CFG, 15, 8, .RW, 0x10⟩
/-- Table 12-15 (R388). -/
def RAS_TASTE_CFG.seed : Fld := ⟨.RAS_TASTE_CFG, 63, 32, .RW, 0⟩
def RAS_TASTE_CFG.radio : Fld := ⟨.RAS_TASTE_CFG, 2, 2, .RW, 0⟩
def RAS_TASTE_CFG.fraction : Fld := ⟨.RAS_TASTE_CFG, 1, 0, .RW, 1⟩
/-- Table 12-16 (R388). -/
def RAS_POLICY.test_normal_s : Fld := ⟨.RAS_POLICY, 63, 48, .RW, 0x258⟩
def RAS_POLICY.test_steep_s : Fld := ⟨.RAS_POLICY, 47, 32, .RW, 0xa⟩
def RAS_POLICY.steep_hours : Fld := ⟨.RAS_POLICY, 31, 16, .RW, 0x18⟩
def RAS_POLICY.auto : Fld := ⟨.RAS_POLICY, 0, 0, .RW, 1⟩
/-- Table 12-17 (R388). -/
def RAS_RETIRE.op : Fld := ⟨.RAS_RETIRE, 17, 16, .WO, 0⟩
def RAS_RETIRE.unit : Fld := ⟨.RAS_RETIRE, 15, 0, .WO, 0⟩
/-- Table 12-18 (R388). -/
def RAS_REPAIR_OP.entry : Fld := ⟨.RAS_REPAIR_OP, 63, 0, .RW, 0⟩
/-- Table 12-18 (R388). -/
def RAS_REPAIR_STAT.go : Fld := ⟨.RAS_REPAIR_STAT, 17, 17, .WO, 0⟩
def RAS_REPAIR_STAT.free : Fld := ⟨.RAS_REPAIR_STAT, 16, 8, .RO, 0x100⟩
def RAS_REPAIR_STAT.fail : Fld := ⟨.RAS_REPAIR_STAT, 2, 2, .W1C, 0⟩
def RAS_REPAIR_STAT.ok : Fld := ⟨.RAS_REPAIR_STAT, 1, 1, .W1C, 0⟩
def RAS_REPAIR_STAT.busy : Fld := ⟨.RAS_REPAIR_STAT, 0, 0, .RO, 0⟩
/-- Table 12-22 (R388). -/
def RAS_BIN_CFG.base : Fld := ⟨.RAS_BIN_CFG, 39, 21, .RW, 0⟩
def RAS_BIN_CFG.enable : Fld := ⟨.RAS_BIN_CFG, 0, 0, .RW, 0⟩
/-- Table 12-23 (R388). -/
def RAS_RESET_CAUSE.resets : Fld := ⟨.RAS_RESET_CAUSE, 63, 48, .RO, 0⟩
def RAS_RESET_CAUSE.unit : Fld := ⟨.RAS_RESET_CAUSE, 47, 32, .RO, 0⟩
def RAS_RESET_CAUSE.cause : Fld := ⟨.RAS_RESET_CAUSE, 15, 8, .RO, 0⟩
/-- Table 12-24 (R388). -/
def RAS_CP_STAT.takeovers : Fld := ⟨.RAS_CP_STAT, 63, 48, .RW, 0⟩
def RAS_CP_STAT.working : Fld := ⟨.RAS_CP_STAT, 11, 8, .RO, 0xf⟩
def RAS_CP_STAT.active : Fld := ⟨.RAS_CP_STAT, 7, 4, .RO, 7⟩
def RAS_CP_STAT.no_spare : Fld := ⟨.RAS_CP_STAT, 2, 2, .RO, 0⟩
def RAS_CP_STAT.spare : Fld := ⟨.RAS_CP_STAT, 1, 0, .RO, 3⟩
/-- Table 12-19 (R388). -/
def RAS_ECC_CNT.corrected : Fld := ⟨.RAS_ECC_CNT, 63, 32, .RW, 0⟩
def RAS_ECC_CNT.uncorrectable : Fld := ⟨.RAS_ECC_CNT, 31, 0, .RW, 0⟩
/-- Table 12-20 (R388). -/
def RAS_CORE_HEALTH.as_original : Fld := ⟨.RAS_CORE_HEALTH, 63, 48, .RW, 0⟩
def RAS_CORE_HEALTH.as_taster : Fld := ⟨.RAS_CORE_HEALTH, 47, 32, .RW, 0⟩
def RAS_CORE_HEALTH.test_fails : Fld := ⟨.RAS_CORE_HEALTH, 31, 24, .RW, 0⟩
def RAS_CORE_HEALTH.tests_late : Fld := ⟨.RAS_CORE_HEALTH, 23, 16, .RW, 0⟩
def RAS_CORE_HEALTH.skipped : Fld := ⟨.RAS_CORE_HEALTH, 15, 8, .RW, 0⟩
def RAS_CORE_HEALTH.bucket : Fld := ⟨.RAS_CORE_HEALTH, 4, 1, .RO, 0⟩
def RAS_CORE_HEALTH.steeping : Fld := ⟨.RAS_CORE_HEALTH, 0, 0, .RO, 0⟩
/-- Table 12-21 (R388). -/
def RAS_TASTE_CNT.tasted : Fld := ⟨.RAS_TASTE_CNT, 63, 0, .RO, 0⟩
/-- Table 13-8 (R417). -/
def FTP_CFG.isolate_ms : Fld := ⟨.FTP_CFG, 31, 24, .RW, 0xa⟩
def FTP_CFG.mgr_capable : Fld := ⟨.FTP_CFG, 1, 1, .RW, 1⟩
def FTP_CFG.enable : Fld := ⟨.FTP_CFG, 0, 0, .RW, 0⟩
/-- Table 13-9 (R417). -/
def FTP_STAT.epoch : Fld := ⟨.FTP_STAT, 63, 32, .RO, 0⟩
def FTP_STAT.rank : Fld := ⟨.FTP_STAT, 31, 24, .RO, 0xff⟩
def FTP_STAT.span_members : Fld := ⟨.FTP_STAT, 23, 15, .RO, 0⟩
def FTP_STAT.sys_deputy : Fld := ⟨.FTP_STAT, 11, 11, .RO, 0⟩
def FTP_STAT.sys_manager : Fld := ⟨.FTP_STAT, 10, 10, .RO, 0⟩
def FTP_STAT.join_err : Fld := ⟨.FTP_STAT, 7, 4, .RO, 0⟩
def FTP_STAT.state : Fld := ⟨.FTP_STAT, 2, 0, .RO, 0⟩
/-- Table 13-10 (R417). -/
def FTP_MGR.valid : Fld := ⟨.FTP_MGR, 63, 63, .RO, 0⟩
def FTP_MGR.sys_manager : Fld := ⟨.FTP_MGR, 59, 48, .RO, 0⟩
def FTP_MGR.sys_deputy : Fld := ⟨.FTP_MGR, 47, 36, .RO, 0⟩
def FTP_MGR.span_manager : Fld := ⟨.FTP_MGR, 35, 24, .RO, 0⟩
def FTP_MGR.span_deputy : Fld := ⟨.FTP_MGR, 23, 12, .RO, 0⟩
/-- Table 13-11 (R417). -/
def FTP_MEMB_CFG.base : Fld := ⟨.FTP_MEMB_CFG, 39, 12, .RW, 0⟩
def FTP_MEMB_CFG.enable : Fld := ⟨.FTP_MEMB_CFG, 0, 0, .RW, 0⟩
/-- Table 13-12 (R417). -/
def FTP_PARTNER.valid : Fld := ⟨.FTP_PARTNER, 63, 63, .RWT, 0⟩
def FTP_PARTNER.partner : Fld := ⟨.FTP_PARTNER, 59, 48, .RWT, 0⟩
def FTP_PARTNER.shadow_steps : Fld := ⟨.FTP_PARTNER, 31, 24, .RWT, 4⟩
def FTP_PARTNER.state : Fld := ⟨.FTP_PARTNER, 2, 0, .RO, 0⟩
/-- Table 13-13 (R417). -/
def FTP_SHADOW_HOST.valid : Fld := ⟨.FTP_SHADOW_HOST, 63, 63, .RWT, 0⟩
def FTP_SHADOW_HOST.guest : Fld := ⟨.FTP_SHADOW_HOST, 62, 51, .RWT, 0⟩
def FTP_SHADOW_HOST.base_page : Fld := ⟨.FTP_SHADOW_HOST, 37, 19, .RWT, 0⟩
def FTP_SHADOW_HOST.pages : Fld := ⟨.FTP_SHADOW_HOST, 18, 0, .RWT, 0⟩
/-- Table 13-14 (R417). -/
def FTP_TEN_CFG.mode : Fld := ⟨.FTP_TEN_CFG, 63, 62, .RWT, 0⟩
def FTP_TEN_CFG.replay : Fld := ⟨.FTP_TEN_CFG, 61, 61, .RW, 0⟩
def FTP_TEN_CFG.job_devices : Fld := ⟨.FTP_TEN_CFG, 60, 48, .RWT, 0⟩
def FTP_TEN_CFG.log_base : Fld := ⟨.FTP_TEN_CFG, 44, 26, .RWT, 0⟩
def FTP_TEN_CFG.log_gib : Fld := ⟨.FTP_TEN_CFG, 25, 16, .RWT, 0x40⟩
def FTP_TEN_CFG.hold_ms : Fld := ⟨.FTP_TEN_CFG, 15, 8, .RWT, 0x64⟩
/-- Table 13-15 (R417). -/
def FTP_TEN_STAT.gen_step : Fld := ⟨.FTP_TEN_STAT, 63, 32, .RO, 0⟩
def FTP_TEN_STAT.skipped : Fld := ⟨.FTP_TEN_STAT, 15, 8, .RW, 0⟩
def FTP_TEN_STAT.unprotected : Fld := ⟨.FTP_TEN_STAT, 3, 3, .RO, 0⟩
def FTP_TEN_STAT.marked : Fld := ⟨.FTP_TEN_STAT, 2, 2, .RO, 0⟩
def FTP_TEN_STAT.log_state : Fld := ⟨.FTP_TEN_STAT, 1, 0, .RO, 0⟩
/-- Table 13-16 (R417). -/
def FTP_RESTORE.go : Fld := ⟨.FTP_RESTORE, 63, 63, .WO, 0⟩
def FTP_RESTORE.busy : Fld := ⟨.FTP_RESTORE, 62, 62, .RO, 0⟩
def FTP_RESTORE.err : Fld := ⟨.FTP_RESTORE, 61, 61, .W1C, 0⟩
def FTP_RESTORE.tenancy : Fld := ⟨.FTP_RESTORE, 60, 55, .RW, 0⟩
def FTP_RESTORE.guest : Fld := ⟨.FTP_RESTORE, 54, 43, .RW, 0⟩
def FTP_RESTORE.source : Fld := ⟨.FTP_RESTORE, 42, 31, .RW, 0⟩
/-- Table 13-17 (R417). -/
def FTP_REHOME0.valid : Fld := ⟨.FTP_REHOME0, 63, 63, .RW, 0⟩
def FTP_REHOME0.covers : Fld := ⟨.FTP_REHOME0, 11, 0, .RW, 0⟩
/-- Table 13-17 (R417). -/
def FTP_REHOME1.carriers : Fld := ⟨.FTP_REHOME1, 63, 0, .RW, 0⟩
/-- Table 13-18 (R417). -/
def FTP_EVT.vector : Fld := ⟨.FTP_EVT, 42, 32, .RW, 0⟩
def FTP_EVT.double_loss : Fld := ⟨.FTP_EVT, 3, 3, .W1C, 0⟩
def FTP_EVT.rehomed : Fld := ⟨.FTP_EVT, 2, 2, .W1C, 0⟩
def FTP_EVT.isolated : Fld := ⟨.FTP_EVT, 1, 1, .W1C, 0⟩
def FTP_EVT.epoch : Fld := ⟨.FTP_EVT, 0, 0, .W1C, 0⟩
/-- Table 13-19 (R417). -/
def FTP_CNT.suspicions : Fld := ⟨.FTP_CNT, 63, 48, .RW, 0⟩
def FTP_CNT.removals : Fld := ⟨.FTP_CNT, 47, 32, .RW, 0⟩
def FTP_CNT.takeovers : Fld := ⟨.FTP_CNT, 31, 16, .RW, 0⟩
def FTP_CNT.double_losses : Fld := ⟨.FTP_CNT, 15, 0, .RW, 0⟩
/-- Table 13-20 (R417). -/
def FTP_ACCT_LOST.lost_ns : Fld := ⟨.FTP_ACCT_LOST, 63, 0, .RW, 0⟩
/-- Table 13-20 (R417). -/
def FTP_ACCT_STALL.stall_ns : Fld := ⟨.FTP_ACCT_STALL, 63, 0, .RW, 0⟩
/-- Table 13-20 (R417). -/
def FTP_ACCT_CNT.recoveries : Fld := ⟨.FTP_ACCT_CNT, 63, 48, .RW, 0⟩
def FTP_ACCT_CNT.double_losses : Fld := ⟨.FTP_ACCT_CNT, 47, 32, .RW, 0⟩
def FTP_ACCT_CNT.steps_rolled_back : Fld := ⟨.FTP_ACCT_CNT, 31, 0, .RW, 0⟩
/-- Table 13-22 (R417). -/
def FTP_JOB_CFG.valid : Fld := ⟨.FTP_JOB_CFG, 63, 63, .RWT, 0⟩
def FTP_JOB_CFG.base : Fld := ⟨.FTP_JOB_CFG, 39, 9, .RWT, 0⟩
/-- Table 14-6 (R439). -/
def DET_TEN_CFG.time_check : Fld := ⟨.DET_TEN_CFG, 1, 1, .RW, 0⟩
def DET_TEN_CFG.fixed_order : Fld := ⟨.DET_TEN_CFG, 0, 0, .RWT, 0⟩
/-- Table 14-7 (R439). -/
def DET_TEN_STAT.time_mismatch : Fld := ⟨.DET_TEN_STAT, 63, 40, .RW, 0⟩
def DET_TEN_STAT.caddies : Fld := ⟨.DET_TEN_STAT, 39, 8, .RW, 0⟩
def DET_TEN_STAT.fixed_now : Fld := ⟨.DET_TEN_STAT, 0, 0, .RO, 0⟩
/-- Table 14-8 (R439). -/
def DET_WSET.count : Fld := ⟨.DET_WSET, 63, 51, .RWT, 0⟩
def DET_WSET.base : Fld := ⟨.DET_WSET, 39, 6, .RWT, 0⟩
/-- Table 14-9 (R439). -/
def DET_TIME_LAST.leg_index : Fld := ⟨.DET_TIME_LAST, 63, 48, .RO, 0⟩
def DET_TIME_LAST.core : Fld := ⟨.DET_TIME_LAST, 47, 40, .RO, 0xff⟩
def DET_TIME_LAST.tenancy : Fld := ⟨.DET_TIME_LAST, 39, 34, .RO, 0⟩
def DET_TIME_LAST.cycles : Fld := ⟨.DET_TIME_LAST, 31, 0, .RO, 0⟩
/-- Table 16-7 (R487). -/
def SEC_BOOT_STAT.srf_svn : Fld := ⟨.SEC_BOOT_STAT, 63, 56, .RO, 0⟩
def SEC_BOOT_STAT.cpf_svn : Fld := ⟨.SEC_BOOT_STAT, 55, 48, .RO, 0⟩
def SEC_BOOT_STAT.aof_svn : Fld := ⟨.SEC_BOOT_STAT, 47, 40, .RO, 0⟩
def SEC_BOOT_STAT.boot_failures : Fld := ⟨.SEC_BOOT_STAT, 39, 32, .RO, 0⟩
def SEC_BOOT_STAT.revoked : Fld := ⟨.SEC_BOOT_STAT, 31, 28, .RO, 0⟩
def SEC_BOOT_STAT.owners : Fld := ⟨.SEC_BOOT_STAT, 27, 25, .RO, 0⟩
def SEC_BOOT_STAT.recovery : Fld := ⟨.SEC_BOOT_STAT, 24, 24, .RO, 0⟩
def SEC_BOOT_STAT.dbg_scope : Fld := ⟨.SEC_BOOT_STAT, 17, 16, .RO, 0⟩
def SEC_BOOT_STAT.aof_slot : Fld := ⟨.SEC_BOOT_STAT, 5, 4, .RO, 0⟩
def SEC_BOOT_STAT.cpf_slot : Fld := ⟨.SEC_BOOT_STAT, 3, 2, .RO, 0⟩
def SEC_BOOT_STAT.srf_slot : Fld := ⟨.SEC_BOOT_STAT, 1, 0, .RO, 0⟩
/-- Table 16-8 (R487). -/
def SEC_ARB.srf_count : Fld := ⟨.SEC_ARB, 63, 56, .RO, 0⟩
def SEC_ARB.cpf_count : Fld := ⟨.SEC_ARB, 55, 48, .RO, 0⟩
def SEC_ARB.aof_count : Fld := ⟨.SEC_ARB, 47, 40, .RO, 0⟩
def SEC_ARB.busy : Fld := ⟨.SEC_ARB, 1, 1, .RO, 0⟩
def SEC_ARB.advance : Fld := ⟨.SEC_ARB, 0, 0, .WO, 0⟩
/-- Table 16-9 (R487). -/
def SEC_SERIAL.serial : Fld := ⟨.SEC_SERIAL, 63, 0, .RO, 0⟩
/-- Table 16-10 (R487). -/
def SEC_OP_ADDR.addr : Fld := ⟨.SEC_OP_ADDR, 63, 6, .RW, 0⟩
/-- Table 16-11 (R487). -/
def SEC_OP_CTL.busy : Fld := ⟨.SEC_OP_CTL, 63, 63, .RO, 0⟩
def SEC_OP_CTL.err : Fld := ⟨.SEC_OP_CTL, 62, 62, .W1C, 0⟩
def SEC_OP_CTL.ok : Fld := ⟨.SEC_OP_CTL, 61, 61, .W1C, 0⟩
def SEC_OP_CTL.code : Fld := ⟨.SEC_OP_CTL, 55, 48, .RO, 0⟩
def SEC_OP_CTL.tenancy : Fld := ⟨.SEC_OP_CTL, 13, 8, .RW, 0⟩
def SEC_OP_CTL.op : Fld := ⟨.SEC_OP_CTL, 3, 0, .WO, 0⟩
/-- Table 16-12 (R487). -/
def SEC_TEN_CFG.reduce_clear : Fld := ⟨.SEC_TEN_CFG, 1, 1, .RWT, 0⟩
def SEC_TEN_CFG.fab_protect : Fld := ⟨.SEC_TEN_CFG, 0, 0, .RWT, 0⟩
/-- Table 16-13 (R487). -/
def SEC_TEN_STAT.fkey_gen : Fld := ⟨.SEC_TEN_STAT, 63, 32, .RO, 0⟩
def SEC_TEN_STAT.mkey_rolls : Fld := ⟨.SEC_TEN_STAT, 31, 16, .RO, 0⟩
def SEC_TEN_STAT.activate_pending : Fld := ⟨.SEC_TEN_STAT, 4, 4, .RO, 0⟩
def SEC_TEN_STAT.prev_valid : Fld := ⟨.SEC_TEN_STAT, 3, 3, .RO, 0⟩
def SEC_TEN_STAT.next_valid : Fld := ⟨.SEC_TEN_STAT, 2, 2, .RO, 0⟩
def SEC_TEN_STAT.cur_valid : Fld := ⟨.SEC_TEN_STAT, 1, 1, .RO, 0⟩
def SEC_TEN_STAT.fab_now : Fld := ⟨.SEC_TEN_STAT, 0, 0, .RO, 0⟩
/-- Table 16-14 (R487). -/
def SEC_FAB_STAT.auth_fail : Fld := ⟨.SEC_FAB_STAT, 63, 32, .RW, 0⟩
def SEC_FAB_STAT.prev_accept : Fld := ⟨.SEC_FAB_STAT, 31, 0, .RW, 0⟩
/-- Table 16-15 (R487). -/
def SEC_DBG_NONCE.nonce : Fld := ⟨.SEC_DBG_NONCE, 63, 0, .RO, 0⟩
/-- Table 17-9 (R511). -/
def PWR_STATE_CTL.deep_port : Fld := ⟨.PWR_STATE_CTL, 35, 32, .RW, 0⟩
def PWR_STATE_CTL.idle_ms : Fld := ⟨.PWR_STATE_CTL, 31, 16, .RW, 0x64⟩
def PWR_STATE_CTL.auto_idle : Fld := ⟨.PWR_STATE_CTL, 8, 8, .RW, 0⟩
def PWR_STATE_CTL.req : Fld := ⟨.PWR_STATE_CTL, 1, 0, .WO, 0⟩
/-- Table 17-10 (R511). -/
def PWR_STATE_STAT.deny : Fld := ⟨.PWR_STATE_STAT, 23, 20, .RO, 0⟩
def PWR_STATE_STAT.wake_src : Fld := ⟨.PWR_STATE_STAT, 19, 16, .RO, 0⟩
def PWR_STATE_STAT.tripped : Fld := ⟨.PWR_STATE_STAT, 7, 7, .W1C, 0⟩
def PWR_STATE_STAT.crit : Fld := ⟨.PWR_STATE_STAT, 6, 6, .RO, 0⟩
def PWR_STATE_STAT.radio_over : Fld := ⟨.PWR_STATE_STAT, 5, 5, .W1C, 0⟩
def PWR_STATE_STAT.deep_armed : Fld := ⟨.PWR_STATE_STAT, 4, 4, .RO, 0⟩
def PWR_STATE_STAT.state : Fld := ⟨.PWR_STATE_STAT, 3, 0, .RO, 4⟩
/-- Table 17-11 (R511). -/
def PWR_LIMIT_CFG.pkg_limit_w : Fld := ⟨.PWR_LIMIT_CFG, 63, 48, .RW, 0x578⟩
def PWR_LIMIT_CFG.t_hot_c : Fld := ⟨.PWR_LIMIT_CFG, 47, 40, .RW, 0x64⟩
def PWR_LIMIT_CFG.die_limit_w : Fld := ⟨.PWR_LIMIT_CFG, 39, 30, .RW, 0xe1⟩
/-- Table 17-12 (R511). -/
def PWR_POWER_STAT.pkg_w : Fld := ⟨.PWR_POWER_STAT, 63, 52, .RO, 0⟩
def PWR_POWER_STAT.cd0_w : Fld := ⟨.PWR_POWER_STAT, 51, 40, .RO, 0⟩
def PWR_POWER_STAT.cd1_w : Fld := ⟨.PWR_POWER_STAT, 39, 28, .RO, 0⟩
def PWR_POWER_STAT.cd2_w : Fld := ⟨.PWR_POWER_STAT, 27, 16, .RO, 0⟩
def PWR_POWER_STAT.cd3_w : Fld := ⟨.PWR_POWER_STAT, 15, 4, .RO, 0⟩
/-- Table 17-13 (R511). -/
def PWR_THERM_STAT.hbm_c : Fld := ⟨.PWR_THERM_STAT, 63, 56, .RO, 0⟩
def PWR_THERM_STAT.iod_c : Fld := ⟨.PWR_THERM_STAT, 55, 48, .RO, 0⟩
def PWR_THERM_STAT.md1_c : Fld := ⟨.PWR_THERM_STAT, 47, 40, .RO, 0⟩
def PWR_THERM_STAT.md0_c : Fld := ⟨.PWR_THERM_STAT, 39, 32, .RO, 0⟩
def PWR_THERM_STAT.cd_c : Fld := ⟨.PWR_THERM_STAT, 31, 0, .RO, 0⟩
/-- Table 17-14 (R511). -/
def PWR_SAVE_CFG.list : Fld := ⟨.PWR_SAVE_CFG, 39, 12, .RW, 0⟩
def PWR_SAVE_CFG.count : Fld := ⟨.PWR_SAVE_CFG, 11, 6, .RW, 0⟩
def PWR_SAVE_CFG.auto_ms : Fld := ⟨.PWR_SAVE_CFG, 5, 0, .RW, 0⟩
/-- Table 17-15 (R511). -/
def PWR_SAVE_CTL.dest : Fld := ⟨.PWR_SAVE_CTL, 39, 21, .RW, 0⟩
def PWR_SAVE_CTL.op : Fld := ⟨.PWR_SAVE_CTL, 1, 0, .WO, 0⟩
/-- Table 17-16 (R511). -/
def PWR_SAVE_STAT.snap_seq : Fld := ⟨.PWR_SAVE_STAT, 63, 32, .RO, 0⟩
def PWR_SAVE_STAT.unread_lost : Fld := ⟨.PWR_SAVE_STAT, 31, 16, .RO, 0⟩
def PWR_SAVE_STAT.busy : Fld := ⟨.PWR_SAVE_STAT, 5, 5, .RO, 0⟩
def PWR_SAVE_STAT.snap_err : Fld := ⟨.PWR_SAVE_STAT, 4, 4, .W1C, 0⟩
def PWR_SAVE_STAT.torn : Fld := ⟨.PWR_SAVE_STAT, 3, 3, .RO, 0⟩
def PWR_SAVE_STAT.invalid_blocks : Fld := ⟨.PWR_SAVE_STAT, 2, 2, .RO, 0⟩
def PWR_SAVE_STAT.armed : Fld := ⟨.PWR_SAVE_STAT, 1, 1, .RO, 0⟩
def PWR_SAVE_STAT.valid : Fld := ⟨.PWR_SAVE_STAT, 0, 0, .RO, 0⟩
/-- Table 17-17 (R511). -/
def PWR_START_STAT.start_ms : Fld := ⟨.PWR_START_STAT, 63, 32, .RO, 0⟩
def PWR_START_STAT.t1_stacks : Fld := ⟨.PWR_START_STAT, 15, 8, .RO, 0⟩
def PWR_START_STAT.t1_w : Fld := ⟨.PWR_START_STAT, 7, 4, .RO, 0⟩
def PWR_START_STAT.step : Fld := ⟨.PWR_START_STAT, 3, 0, .RO, 1⟩
/-- Table 17-18 (R511). -/
def MGT_CFG.ipv4_addr : Fld := ⟨.MGT_CFG, 63, 32, .RW, 0⟩
def MGT_CFG.alert_mask : Fld := ⟨.MGT_CFG, 31, 24, .RW, 0xff⟩
def MGT_CFG.i3c_addr : Fld := ⟨.MGT_CFG, 23, 17, .RW, 0x4a⟩
def MGT_CFG.ipv4_en : Fld := ⟨.MGT_CFG, 3, 3, .RW, 0⟩
def MGT_CFG.ctl_en : Fld := ⟨.MGT_CFG, 2, 2, .RW, 0⟩
def MGT_CFG.i3c_en : Fld := ⟨.MGT_CFG, 1, 1, .RW, 1⟩
def MGT_CFG.m0_en : Fld := ⟨.MGT_CFG, 0, 0, .RW, 1⟩
/-- Table 17-19 (R511). -/
def MGT_ACL.valid : Fld := ⟨.MGT_ACL, 63, 63, .RW, 0⟩
def MGT_ACL.mac : Fld := ⟨.MGT_ACL, 47, 0, .RW, 0⟩
/-- Table 17-20 (R511). -/
def MGT_STAT.dropped : Fld := ⟨.MGT_STAT, 63, 32, .RW, 0⟩
def MGT_STAT.denied : Fld := ⟨.MGT_STAT, 31, 16, .RW, 0⟩
def MGT_STAT.i3c_addr_valid : Fld := ⟨.MGT_STAT, 1, 1, .RO, 0⟩
def MGT_STAT.link_up : Fld := ⟨.MGT_STAT, 0, 0, .RO, 0⟩
/-- Table 17-21 (R511). -/
def MGT_TELEM_STAT.head : Fld := ⟨.MGT_TELEM_STAT, 63, 32, .RO, 0⟩

/-- The fields of each register, most significant first; bits outside them are reserved and read 0. -/
def Reg.fields : Reg → List Fld
  | .GEN_ID => [GEN_ID.part_code, GEN_ID.numerics_level, GEN_ID.stepping_major, GEN_ID.stepping_minor,
      GEN_ID.variant]
  | .GEN_SVC => [GEN_SVC.missing_unit, GEN_SVC.cores_die_max, GEN_SVC.cores_total, GEN_SVC.hbm_ok,
      GEN_SVC.cp_count, GEN_SVC.fh_ok, GEN_SVC.md_ok, GEN_SVC.timing_ok, GEN_SVC.eval_done, GEN_SVC.svc_changed,
      GEN_SVC.svc_level]
  | .TXN_STAT => [TXN_STAT.committed, TXN_STAT.staged, TXN_STAT.discarded, TXN_STAT.cause, TXN_STAT.slot_aligned,
      TXN_STAT.overflow, TXN_STAT.conflict, TXN_STAT.state]
  | .TXN_CTL => [TXN_CTL.commit_timeout_ms]
  | .TEN_CFG => [TEN_CFG.share]
  | .TEN_CORES => [TEN_CORES.cores]
  | .TEN_QUOTA => [TEN_QUOTA.t1_max, TEN_QUOTA.t2_max, TEN_QUOTA.dp_max, TEN_QUOTA.queues]
  | .TEN_CTL => [TEN_CTL.op]
  | .TEN_STAT => [TEN_STAT.t1_mapped, TEN_STAT.t2_mapped, TEN_STAT.dp_mapped, TEN_STAT.queues, TEN_STAT.state]
  | .TEN_IRQ_CFG => [TEN_IRQ_CFG.vf_vectors]
  | .TEN_IRQ_RATE => [TEN_IRQ_RATE.coalesced, TEN_IRQ_RATE.min_gap_us]
  | .TEN_DLOG_HBASE => [TEN_DLOG_HBASE.base]
  | .TEN_DLOG_HRANGE => [TEN_DLOG_HRANGE.start, TEN_DLOG_HRANGE.size_log2]
  | .TEN_DLOG_DBASE => [TEN_DLOG_DBASE.base]
  | .TEN_DLOG_CTL => [TEN_DLOG_CTL.swaps, TEN_DLOG_CTL.out_of_range, TEN_DLOG_CTL.b_active, TEN_DLOG_CTL.busy,
      TEN_DLOG_CTL.swap, TEN_DLOG_CTL.enable]
  | .TEN_QPOS0 => [TEN_QPOS0.sq_head, TEN_QPOS0.cq_tail]
  | .TEN_QPOS1 => [TEN_QPOS1.go, TEN_QPOS1.err, TEN_QPOS1.phase, TEN_QPOS1.queue]
  | .QUE_SQ_BASE => [QUE_SQ_BASE.base]
  | .QUE_CQ_BASE => [QUE_CQ_BASE.base]
  | .QUE_CFG => [QUE_CFG.tenancy, QUE_CFG.sq_log2, QUE_CFG.cq_log2, QUE_CFG.class_mask, QUE_CFG.halt_on_fail,
      QUE_CFG.irq_vector, QUE_CFG.priority]
  | .QUE_STAT => [QUE_STAT.sq_head, QUE_STAT.in_flight, QUE_STAT.db_err, QUE_STAT.cq_full, QUE_STAT.state]
  | .QUE_CTL => [QUE_CTL.op]
  | .QUE_EVT_BASE => [QUE_EVT_BASE.base, QUE_EVT_BASE.valid]
  | .SCH_CLASS => [SCH_CLASS.preempt_wait_us]
  | .SCH_RESERVE => [SCH_RESERVE.short_bound, SCH_RESERVE.count]
  | .SCH_THR_STAT => [SCH_THR_STAT.starts_withheld, SCH_THR_STAT.spare_duty, SCH_THR_STAT.prompt_duty]
  | .SCH_RADIO_STAT => [SCH_RADIO_STAT.moves, SCH_RADIO_STAT.misses, SCH_RADIO_STAT.last_move_core,
      SCH_RADIO_STAT.reserve_busy]
  | .SCH_TT_STAT => [SCH_TT_STAT.windows, SCH_TT_STAT.jobs, SCH_TT_STAT.period, SCH_TT_STAT.tenancy,
      SCH_TT_STAT.mu, SCH_TT_STAT.state]
  | .SCH_KV_POOL => [SCH_KV_POOL.base_page, SCH_KV_POOL.pages, SCH_KV_POOL.reserve]
  | .SCH_KV_STAT => [SCH_KV_STAT.free_pages, SCH_KV_STAT.reserve_avail, SCH_KV_STAT.deferred]
  | .SCH_BATCH_CFG => [SCH_BATCH_CFG.table_page, SCH_BATCH_CFG.max_seq]
  | .SCH_ACCT_CFG => [SCH_ACCT_CFG.base, SCH_ACCT_CFG.enable, SCH_ACCT_CFG.log2_entries]
  | .SCH_ACCT_WAIT => [SCH_ACCT_WAIT.wait_ns]
  | .SCH_ACCT_PRE => [SCH_ACCT_PRE.seq_preempted, SCH_ACCT_PRE.cmd_preempted]
  | .COR_LMAP => [COR_LMAP.state, COR_LMAP.die_spares, COR_LMAP.remapped, COR_LMAP.phys]
  | .COR_TIMING => [COR_TIMING.generation, COR_TIMING.leg_start, COR_TIMING.cube_depth, COR_TIMING.perturbed,
      COR_TIMING.last_leg_cycles]
  | .COR_CUBE_REPAIR => [COR_CUBE_REPAIR.cube_u]
  | .COR_BANKSTAT => [COR_BANKSTAT.conflict_stalls, COR_BANKSTAT.stale_grants, COR_BANKSTAT.wdt_fires,
      COR_BANKSTAT.last_wdt_bank]
  | .COR_TSPART => [COR_TSPART.part3, COR_TSPART.part2, COR_TSPART.part1, COR_TSPART.part0]
  | .COR_SEQ_STAT => [COR_SEQ_STAT.manifest_id, COR_SEQ_STAT.tenancy, COR_SEQ_STAT.class_, COR_SEQ_STAT.leg_index,
      COR_SEQ_STAT.overrun, COR_SEQ_STAT.running, COR_SEQ_STAT.mailbox]
  | .COR_BANK_WDT => [COR_BANK_WDT.period_us]
  | .COR_ARITH_STAT => [COR_ARITH_STAT.last_leg, COR_ARITH_STAT.rsqrt_domain, COR_ARITH_STAT.div_sat,
      COR_ARITH_STAT.mant_sat, COR_ARITH_STAT.cbf_exp_clamp, COR_ARITH_STAT.acc40_sat, COR_ARITH_STAT.int_sat,
      COR_ARITH_STAT.fmt_sat, COR_ARITH_STAT.inf_made, COR_ARITH_STAT.nan_made, COR_ARITH_STAT.nan_in,
      COR_ARITH_STAT.sub_made]
  | .RTE_MAP => [RTE_MAP.state, RTE_MAP.ctx_bound, RTE_MAP.spare_avail, RTE_MAP.remapped, RTE_MAP.phys]
  | .RTE_STAT => [RTE_STAT.ended, RTE_STAT.pairs_dropped]
  | .RTE_STALL => [RTE_STALL.intake_stall, RTE_STALL.fenced, RTE_STALL.dup_tiles]
  | .RTE_TEN_DROP => [RTE_TEN_DROP.pairs_dropped]
  | .MEM_XT_BASE => [MEM_XT_BASE.base, MEM_XT_BASE.fault_vector, MEM_XT_BASE.enable]
  | .MEM_XT_CFG => [MEM_XT_CFG.t1_pages, MEM_XT_CFG.t2_pages, MEM_XT_CFG.dp_pages]
  | .MEM_LAND_CFG => [MEM_LAND_CFG.base, MEM_LAND_CFG.count, MEM_LAND_CFG.hash]
  | .MEM_XT_OP0 => [MEM_XT_OP0.tenancy, MEM_XT_OP0.space, MEM_XT_OP0.count, MEM_XT_OP0.page]
  | .MEM_XT_OP1 => [MEM_XT_OP1.busy, MEM_XT_OP1.err, MEM_XT_OP1.op, MEM_XT_OP1.write, MEM_XT_OP1.ppn]
  | .MEM_FAULT_CTL => [MEM_FAULT_CTL.pri_timeout_ms, MEM_FAULT_CTL.dev_timeout_ms]
  | .MEM_CHAN_CTL => [MEM_CHAN_CTL.op, MEM_CHAN_CTL.channel]
  | .MEM_ARB_WDT => [MEM_ARB_WDT.period_us]
  | .MEM_ARB_STAT => [MEM_ARB_STAT.stale_grants, MEM_ARB_STAT.wdt_fires, MEM_ARB_STAT.last_unit]
  | .MEM_SCRUB_CFG => [MEM_SCRUB_CFG.t1_hours, MEM_SCRUB_CFG.t2_hours, MEM_SCRUB_CFG.dp_minutes,
      MEM_SCRUB_CFG.enable]
  | .MEM_FILL_STAT => [MEM_FILL_STAT.t2_done, MEM_FILL_STAT.t1_done, MEM_FILL_STAT.dp_done, MEM_FILL_STAT.ts_done]
  | .MEM_CHAN_STAT => [MEM_CHAN_STAT.tenancy, MEM_CHAN_STAT.kind, MEM_CHAN_STAT.state, MEM_CHAN_STAT.fault_repeat,
      MEM_CHAN_STAT.queue, MEM_CHAN_STAT.done]
  | .MEM_CHAN_ADDR => [MEM_CHAN_ADDR.fault_addr]
  | .FAB_DEV_CFG => [FAB_DEV_CFG.lock, FAB_DEV_CFG.dev_id]
  | .FAB_RMT_CFG => [FAB_RMT_CFG.retry_us, FAB_RMT_CFG.timeout_us]
  | .FAB_CLASS_CFG => [FAB_CLASS_CFG.ft1_max_pct, FAB_CLASS_CFG.ft2_weight, FAB_CLASS_CFG.ft3_weight]
  | .FAB_PATH_MAP => [FAB_PATH_MAP.port_i]
  | .FAB_XPORT_STAT => [FAB_XPORT_STAT.resends, FAB_XPORT_STAT.duplicates, FAB_XPORT_STAT.out_of_order,
      FAB_XPORT_STAT.malformed]
  | .FAB_RMT_STAT => [FAB_RMT_STAT.timeouts, FAB_RMT_STAT.indeterminate, FAB_RMT_STAT.hot_events,
      FAB_RMT_STAT.reply_full]
  | .FAB_HOT_ADDR => [FAB_HOT_ADDR.block]
  | .FAB_PORT_CFG => [FAB_PORT_CFG.max_width, FAB_PORT_CFG.enable]
  | .FAB_PORT_STAT => [FAB_PORT_STAT.link_retries, FAB_PORT_STAT.crc_errors, FAB_PORT_STAT.retrains,
      FAB_PORT_STAT.lanes_ok, FAB_PORT_STAT.width, FAB_PORT_STAT.spare_in, FAB_PORT_STAT.state]
  | .FAB_LANE_SPARE => [FAB_LANE_SPARE.in_use, FAB_LANE_SPARE.port, FAB_LANE_SPARE.lane, FAB_LANE_SPARE.avail]
  | .FAB_TEN_CFG => [FAB_TEN_CFG.remote_en, FAB_TEN_CFG.share]
  | .FAB_REGION0 => [FAB_REGION0.valid, FAB_REGION0.tenancy, FAB_REGION0.space, FAB_REGION0.base_page,
      FAB_REGION0.pages]
  | .FAB_REGION1 => [FAB_REGION1.grant, FAB_REGION1.grantee, FAB_REGION1.owner]
  | .COL_STAT => [COL_STAT.declines, COL_STAT.fallbacks, COL_STAT.suspects, COL_STAT.crc_drops]
  | .COL_LAST_SUSPECT => [COL_LAST_SUSPECT.group_id, COL_LAST_SUSPECT.coll_seq, COL_LAST_SUSPECT.finder]
  | .COL_INFLIGHT => [COL_INFLIGHT.count]
  | .RAD_PORT_CFG => [RAD_PORT_CFG.mtu, RAD_PORT_CFG.ovh_bytes, RAD_PORT_CFG.speed]
  | .RAD_PORT_STAT => [RAD_PORT_STAT.unknown, RAD_PORT_STAT.window, RAD_PORT_STAT.seq_gaps, RAD_PORT_STAT.link_up]
  | .RAD_MUTE_CTL => [RAD_MUTE_CTL.host_mute]
  | .RAD_QSAMP_CFG => [RAD_QSAMP_CFG.enable, RAD_QSAMP_CFG.interval_us]
  | .RAD_QSTAT => [RAD_QSTAT.max_delay_ns, RAD_QSTAT.last_delay_ns, RAD_QSTAT.max_depth_kib,
      RAD_QSTAT.last_depth_kib]
  | .RAD_CAR_CFG => [RAD_CAR_CFG.enable, RAD_CAR_CFG.td_mode, RAD_CAR_CFG.category, RAD_CAR_CFG.port,
      RAD_CAR_CFG.mu, RAD_CAR_CFG.owner, RAD_CAR_CFG.prbs, RAD_CAR_CFG.tx_ant, RAD_CAR_CFG.rx_ant,
      RAD_CAR_CFG.dl_layers, RAD_CAR_CFG.ul_layers, RAD_CAR_CFG.fft]
  | .RAD_CAR_FH => [RAD_CAR_FH.eaxc_base, RAD_CAR_FH.dl_comp, RAD_CAR_FH.dl_width, RAD_CAR_FH.ul_comp,
      RAD_CAR_FH.ul_width, RAD_CAR_FH.tagged, RAD_CAR_FH.vid, RAD_CAR_FH.ramp_w]
  | .RAD_CAR_DLWIN => [RAD_CAR_DLWIN.cp_adv_ns, RAD_CAR_DLWIN.max_ns, RAD_CAR_DLWIN.min_ns]
  | .RAD_CAR_ULWIN => [RAD_CAR_ULWIN.cp_adv_ns, RAD_CAR_ULWIN.max_ns, RAD_CAR_ULWIN.min_ns]
  | .RAD_CAR_UL => [RAD_CAR_UL.fo_max_hz, RAD_CAR_UL.fo_ref_slots, RAD_CAR_UL.prach_thr, RAD_CAR_UL.prach_max]
  | .RAD_CAR_DLRING => [RAD_CAR_DLRING.depth_log2, RAD_CAR_DLRING.base, RAD_CAR_DLRING.entry_kib]
  | .RAD_CAR_ULRING => [RAD_CAR_ULRING.depth_log2, RAD_CAR_ULRING.base, RAD_CAR_ULRING.entry_kib]
  | .RAD_CAR_STAT => [RAD_CAR_STAT.mute_slots, RAD_CAR_STAT.late_posts, RAD_CAR_STAT.muted, RAD_CAR_STAT.by_host,
      RAD_CAR_STAT.by_svc, RAD_CAR_STAT.by_doubt, RAD_CAR_STAT.by_late]
  | .RAD_FLOW_CFG => [RAD_FLOW_CFG.valid, RAD_FLOW_CFG.ingress, RAD_FLOW_CFG.port, RAD_FLOW_CFG.queue,
      RAD_FLOW_CFG.cplane, RAD_FLOW_CFG.carrier, RAD_FLOW_CFG.eaxc, RAD_FLOW_CFG.rate_mbps, RAD_FLOW_CFG.burst_kib]
  | .RAD_FLOW_STAT => [RAD_FLOW_STAT.passed, RAD_FLOW_STAT.dropped]
  | .TIM_NOW_S => [TIM_NOW_S.seconds]
  | .TIM_NOW_NS => [TIM_NOW_NS.ns, TIM_NOW_NS.frac]
  | .TIM_STAT => [TIM_STAT.hold_err_ns, TIM_STAT.doubt_count, TIM_STAT.steps, TIM_STAT.step_blocked,
      TIM_STAT.inconsistent, TIM_STAT.synce_locked, TIM_STAT.doubt_changed, TIM_STAT.doubt, TIM_STAT.state,
      TIM_STAT.selected]
  | .TIM_DOM_CFG => [TIM_DOM_CFG.loss_ms, TIM_DOM_CFG.ptp_domain, TIM_DOM_CFG.max_class, TIM_DOM_CFG.port_mask,
      TIM_DOM_CFG.master_mask, TIM_DOM_CFG.priority, TIM_DOM_CFG.source]
  | .TIM_DOM_STAT => [TIM_DOM_STAT.offset_ns, TIM_DOM_STAT.losses, TIM_DOM_STAT.gm_class, TIM_DOM_STAT.state]
  | .TIM_SEL_CTL => [TIM_SEL_CTL.requalify_ms, TIM_SEL_CTL.max_delta_ns, TIM_SEL_CTL.slew_ppb,
      TIM_SEL_CTL.revertive]
  | .TIM_HOLD_CTL => [TIM_HOLD_CTL.budget_ns, TIM_HOLD_CTL.freq_unc_ppt, TIM_HOLD_CTL.ageing_ppt_h,
      TIM_HOLD_CTL.synce_unc_ppt, TIM_HOLD_CTL.entry_ns, TIM_HOLD_CTL.hold_en]
  | .TIM_SYNCE_CTL => [TIM_SYNCE_CTL.ssm, TIM_SYNCE_CTL.state, TIM_SYNCE_CTL.tx_lock, TIM_SYNCE_CTL.ref_port,
      TIM_SYNCE_CTL.enable]
  | .TIM_PORT_LAT => [TIM_PORT_LAT.tx_adj_ps, TIM_PORT_LAT.rx_adj_ps]
  | .TIM_AIR_CFG => [TIM_AIR_CFG.air_offset_ns]
  | .TIM_FRAME_NOW => [TIM_FRAME_NOW.hsfn, TIM_FRAME_NOW.sfn, TIM_FRAME_NOW.subframe]
  | .TIM_SLOT_NOW => [TIM_SLOT_NOW.slot_count]
  | .TIM_PPS_CTL => [TIM_PPS_CTL.period_ns, TIM_PPS_CTL.width_ns, TIM_PPS_CTL.start_frac, TIM_PPS_CTL.missed,
      TIM_PPS_CTL.squelch, TIM_PPS_CTL.timebase, TIM_PPS_CTL.periodic, TIM_PPS_CTL.enable]
  | .TIM_PPS_START => [TIM_PPS_START.start_ns]
  | .TIM_CAP_CTL => [TIM_CAP_CTL.overflows, TIM_CAP_CTL.rejected, TIM_CAP_CTL.count, TIM_CAP_CTL.edges]
  | .TIM_CAP_S => [TIM_CAP_S.valid, TIM_CAP_S.falling, TIM_CAP_S.step_gen, TIM_CAP_S.seconds]
  | .TIM_CAP_NS => [TIM_CAP_NS.ns, TIM_CAP_NS.frac]
  | .TIM_PPSIN_STAT => [TIM_PPSIN_STAT.rejected, TIM_PPSIN_STAT.glitches, TIM_PPSIN_STAT.tod_assumed]
  | .TIM_TOD_NEXT => [TIM_TOD_NEXT.delay_ns, TIM_TOD_NEXT.seconds]
  | .RAS_LOG_STAT => [RAS_LOG_STAT.head, RAS_LOG_STAT.consumed]
  | .RAS_LOG_CNT => [RAS_LOG_CNT.overwrites, RAS_LOG_CNT.lost, RAS_LOG_CNT.inflight]
  | .RAS_CTL => [RAS_CTL.vector, RAS_CTL.irq_record, RAS_CTL.irq_taste, RAS_CTL.irq_bucket, RAS_CTL.irq_retire]
  | .RAS_BUCKET_CFG => [RAS_BUCKET_CFG.leak_s, RAS_BUCKET_CFG.depth]
  | .RAS_TASTE_CFG => [RAS_TASTE_CFG.seed, RAS_TASTE_CFG.radio, RAS_TASTE_CFG.fraction]
  | .RAS_POLICY => [RAS_POLICY.test_normal_s, RAS_POLICY.test_steep_s, RAS_POLICY.steep_hours, RAS_POLICY.auto]
  | .RAS_RETIRE => [RAS_RETIRE.op, RAS_RETIRE.unit]
  | .RAS_REPAIR_OP => [RAS_REPAIR_OP.entry]
  | .RAS_REPAIR_STAT => [RAS_REPAIR_STAT.go, RAS_REPAIR_STAT.free, RAS_REPAIR_STAT.fail, RAS_REPAIR_STAT.ok,
      RAS_REPAIR_STAT.busy]
  | .RAS_BIN_CFG => [RAS_BIN_CFG.base, RAS_BIN_CFG.enable]
  | .RAS_RESET_CAUSE => [RAS_RESET_CAUSE.resets, RAS_RESET_CAUSE.unit, RAS_RESET_CAUSE.cause]
  | .RAS_CP_STAT => [RAS_CP_STAT.takeovers, RAS_CP_STAT.working, RAS_CP_STAT.active, RAS_CP_STAT.no_spare,
      RAS_CP_STAT.spare]
  | .RAS_ECC_CNT => [RAS_ECC_CNT.corrected, RAS_ECC_CNT.uncorrectable]
  | .RAS_CORE_HEALTH => [RAS_CORE_HEALTH.as_original, RAS_CORE_HEALTH.as_taster, RAS_CORE_HEALTH.test_fails,
      RAS_CORE_HEALTH.tests_late, RAS_CORE_HEALTH.skipped, RAS_CORE_HEALTH.bucket, RAS_CORE_HEALTH.steeping]
  | .RAS_TASTE_CNT => [RAS_TASTE_CNT.tasted]
  | .FTP_CFG => [FTP_CFG.isolate_ms, FTP_CFG.mgr_capable, FTP_CFG.enable]
  | .FTP_STAT => [FTP_STAT.epoch, FTP_STAT.rank, FTP_STAT.span_members, FTP_STAT.sys_deputy, FTP_STAT.sys_manager,
      FTP_STAT.join_err, FTP_STAT.state]
  | .FTP_MGR => [FTP_MGR.valid, FTP_MGR.sys_manager, FTP_MGR.sys_deputy, FTP_MGR.span_manager, FTP_MGR.span_deputy]
  | .FTP_MEMB_CFG => [FTP_MEMB_CFG.base, FTP_MEMB_CFG.enable]
  | .FTP_PARTNER => [FTP_PARTNER.valid, FTP_PARTNER.partner, FTP_PARTNER.shadow_steps, FTP_PARTNER.state]
  | .FTP_SHADOW_HOST => [FTP_SHADOW_HOST.valid, FTP_SHADOW_HOST.guest, FTP_SHADOW_HOST.base_page,
      FTP_SHADOW_HOST.pages]
  | .FTP_TEN_CFG => [FTP_TEN_CFG.mode, FTP_TEN_CFG.replay, FTP_TEN_CFG.job_devices, FTP_TEN_CFG.log_base,
      FTP_TEN_CFG.log_gib, FTP_TEN_CFG.hold_ms]
  | .FTP_TEN_STAT => [FTP_TEN_STAT.gen_step, FTP_TEN_STAT.skipped, FTP_TEN_STAT.unprotected, FTP_TEN_STAT.marked,
      FTP_TEN_STAT.log_state]
  | .FTP_RESTORE => [FTP_RESTORE.go, FTP_RESTORE.busy, FTP_RESTORE.err, FTP_RESTORE.tenancy, FTP_RESTORE.guest,
      FTP_RESTORE.source]
  | .FTP_REHOME0 => [FTP_REHOME0.valid, FTP_REHOME0.covers]
  | .FTP_REHOME1 => [FTP_REHOME1.carriers]
  | .FTP_EVT => [FTP_EVT.vector, FTP_EVT.double_loss, FTP_EVT.rehomed, FTP_EVT.isolated, FTP_EVT.epoch]
  | .FTP_CNT => [FTP_CNT.suspicions, FTP_CNT.removals, FTP_CNT.takeovers, FTP_CNT.double_losses]
  | .FTP_ACCT_LOST => [FTP_ACCT_LOST.lost_ns]
  | .FTP_ACCT_STALL => [FTP_ACCT_STALL.stall_ns]
  | .FTP_ACCT_CNT => [FTP_ACCT_CNT.recoveries, FTP_ACCT_CNT.double_losses, FTP_ACCT_CNT.steps_rolled_back]
  | .FTP_JOB_CFG => [FTP_JOB_CFG.valid, FTP_JOB_CFG.base]
  | .DET_TEN_CFG => [DET_TEN_CFG.time_check, DET_TEN_CFG.fixed_order]
  | .DET_TEN_STAT => [DET_TEN_STAT.time_mismatch, DET_TEN_STAT.caddies, DET_TEN_STAT.fixed_now]
  | .DET_WSET => [DET_WSET.count, DET_WSET.base]
  | .DET_TIME_LAST => [DET_TIME_LAST.leg_index, DET_TIME_LAST.core, DET_TIME_LAST.tenancy, DET_TIME_LAST.cycles]
  | .SEC_BOOT_STAT => [SEC_BOOT_STAT.srf_svn, SEC_BOOT_STAT.cpf_svn, SEC_BOOT_STAT.aof_svn,
      SEC_BOOT_STAT.boot_failures, SEC_BOOT_STAT.revoked, SEC_BOOT_STAT.owners, SEC_BOOT_STAT.recovery,
      SEC_BOOT_STAT.dbg_scope, SEC_BOOT_STAT.aof_slot, SEC_BOOT_STAT.cpf_slot, SEC_BOOT_STAT.srf_slot]
  | .SEC_ARB => [SEC_ARB.srf_count, SEC_ARB.cpf_count, SEC_ARB.aof_count, SEC_ARB.busy, SEC_ARB.advance]
  | .SEC_SERIAL => [SEC_SERIAL.serial]
  | .SEC_OP_ADDR => [SEC_OP_ADDR.addr]
  | .SEC_OP_CTL => [SEC_OP_CTL.busy, SEC_OP_CTL.err, SEC_OP_CTL.ok, SEC_OP_CTL.code, SEC_OP_CTL.tenancy,
      SEC_OP_CTL.op]
  | .SEC_TEN_CFG => [SEC_TEN_CFG.reduce_clear, SEC_TEN_CFG.fab_protect]
  | .SEC_TEN_STAT => [SEC_TEN_STAT.fkey_gen, SEC_TEN_STAT.mkey_rolls, SEC_TEN_STAT.activate_pending,
      SEC_TEN_STAT.prev_valid, SEC_TEN_STAT.next_valid, SEC_TEN_STAT.cur_valid, SEC_TEN_STAT.fab_now]
  | .SEC_FAB_STAT => [SEC_FAB_STAT.auth_fail, SEC_FAB_STAT.prev_accept]
  | .SEC_DBG_NONCE => [SEC_DBG_NONCE.nonce]
  | .PWR_STATE_CTL => [PWR_STATE_CTL.deep_port, PWR_STATE_CTL.idle_ms, PWR_STATE_CTL.auto_idle, PWR_STATE_CTL.req]
  | .PWR_STATE_STAT => [PWR_STATE_STAT.deny, PWR_STATE_STAT.wake_src, PWR_STATE_STAT.tripped, PWR_STATE_STAT.crit,
      PWR_STATE_STAT.radio_over, PWR_STATE_STAT.deep_armed, PWR_STATE_STAT.state]
  | .PWR_LIMIT_CFG => [PWR_LIMIT_CFG.pkg_limit_w, PWR_LIMIT_CFG.t_hot_c, PWR_LIMIT_CFG.die_limit_w]
  | .PWR_POWER_STAT => [PWR_POWER_STAT.pkg_w, PWR_POWER_STAT.cd0_w, PWR_POWER_STAT.cd1_w, PWR_POWER_STAT.cd2_w,
      PWR_POWER_STAT.cd3_w]
  | .PWR_THERM_STAT => [PWR_THERM_STAT.hbm_c, PWR_THERM_STAT.iod_c, PWR_THERM_STAT.md1_c, PWR_THERM_STAT.md0_c,
      PWR_THERM_STAT.cd_c]
  | .PWR_SAVE_CFG => [PWR_SAVE_CFG.list, PWR_SAVE_CFG.count, PWR_SAVE_CFG.auto_ms]
  | .PWR_SAVE_CTL => [PWR_SAVE_CTL.dest, PWR_SAVE_CTL.op]
  | .PWR_SAVE_STAT => [PWR_SAVE_STAT.snap_seq, PWR_SAVE_STAT.unread_lost, PWR_SAVE_STAT.busy,
      PWR_SAVE_STAT.snap_err, PWR_SAVE_STAT.torn, PWR_SAVE_STAT.invalid_blocks, PWR_SAVE_STAT.armed,
      PWR_SAVE_STAT.valid]
  | .PWR_START_STAT => [PWR_START_STAT.start_ms, PWR_START_STAT.t1_stacks, PWR_START_STAT.t1_w, PWR_START_STAT.step]
  | .MGT_CFG => [MGT_CFG.ipv4_addr, MGT_CFG.alert_mask, MGT_CFG.i3c_addr, MGT_CFG.ipv4_en, MGT_CFG.ctl_en,
      MGT_CFG.i3c_en, MGT_CFG.m0_en]
  | .MGT_ACL => [MGT_ACL.valid, MGT_ACL.mac]
  | .MGT_STAT => [MGT_STAT.dropped, MGT_STAT.denied, MGT_STAT.i3c_addr_valid, MGT_STAT.link_up]
  | .MGT_TELEM_STAT => [MGT_TELEM_STAT.head]

/-- BAR0 offset, index stride and number of indices of each register (Table 19-2 and the defining tables; TEN_CORES[t][w]
has index 3t + w). -/
def Reg.layout : Reg → Nat × Nat × Nat
  | .GEN_ID => (0x0000000, 0x0, 1)
  | .GEN_SVC => (0x0000020, 0x0, 1)
  | .TXN_STAT => (0x0080000, 0x8, 64)
  | .TXN_CTL => (0x0080200, 0x0, 1)
  | .TEN_CFG => (0x0100000, 0x8, 64)
  | .TEN_CORES => (0x0100200, 0x8, 192)
  | .TEN_QUOTA => (0x0100800, 0x8, 64)
  | .TEN_CTL => (0x0100A00, 0x8, 64)
  | .TEN_STAT => (0x0100C00, 0x8, 64)
  | .TEN_IRQ_CFG => (0x0100E00, 0x0, 1)
  | .TEN_IRQ_RATE => (0x0101000, 0x8, 64)
  | .TEN_DLOG_HBASE => (0x0101200, 0x8, 64)
  | .TEN_DLOG_HRANGE => (0x0101400, 0x8, 64)
  | .TEN_DLOG_DBASE => (0x0101600, 0x8, 64)
  | .TEN_DLOG_CTL => (0x0101800, 0x8, 64)
  | .TEN_QPOS0 => (0x0101A00, 0x0, 1)
  | .TEN_QPOS1 => (0x0101A08, 0x0, 1)
  | .QUE_SQ_BASE => (0x0200000, 0x8, 4096)
  | .QUE_CQ_BASE => (0x0208000, 0x8, 4096)
  | .QUE_CFG => (0x0210000, 0x8, 4096)
  | .QUE_STAT => (0x0218000, 0x8, 4096)
  | .QUE_CTL => (0x0220000, 0x8, 4096)
  | .QUE_EVT_BASE => (0x0228000, 0x8, 64)
  | .SCH_CLASS => (0x0300000, 0x0, 1)
  | .SCH_RESERVE => (0x0300100, 0x8, 4)
  | .SCH_THR_STAT => (0x0300200, 0x8, 4)
  | .SCH_RADIO_STAT => (0x0300300, 0x0, 1)
  | .SCH_TT_STAT => (0x0300400, 0x8, 8)
  | .SCH_KV_POOL => (0x0301000, 0x8, 64)
  | .SCH_KV_STAT => (0x0301200, 0x8, 64)
  | .SCH_BATCH_CFG => (0x0301400, 0x8, 64)
  | .SCH_ACCT_CFG => (0x0301600, 0x8, 64)
  | .SCH_ACCT_WAIT => (0x0301800, 0x8, 64)
  | .SCH_ACCT_PRE => (0x0301A00, 0x8, 64)
  | .COR_LMAP => (0x0400000, 0x8, 192)
  | .COR_TIMING => (0x0401000, 0x8, 192)
  | .COR_CUBE_REPAIR => (0x0402000, 0x8, 192)
  | .COR_BANKSTAT => (0x0403000, 0x8, 192)
  | .COR_TSPART => (0x0404000, 0x8, 192)
  | .COR_SEQ_STAT => (0x0405000, 0x8, 192)
  | .COR_BANK_WDT => (0x0406000, 0x0, 1)
  | .COR_ARITH_STAT => (0x0407000, 0x8, 192)
  | .RTE_MAP => (0x0600000, 0x8, 8)
  | .RTE_STAT => (0x0600040, 0x8, 8)
  | .RTE_STALL => (0x0600080, 0x8, 8)
  | .RTE_TEN_DROP => (0x0600200, 0x8, 64)
  | .MEM_XT_BASE => (0x0800000, 0x8, 64)
  | .MEM_XT_CFG => (0x0800200, 0x8, 64)
  | .MEM_LAND_CFG => (0x0800400, 0x8, 64)
  | .MEM_XT_OP0 => (0x0800600, 0x0, 1)
  | .MEM_XT_OP1 => (0x0800608, 0x0, 1)
  | .MEM_FAULT_CTL => (0x0800610, 0x0, 1)
  | .MEM_CHAN_CTL => (0x0800618, 0x0, 1)
  | .MEM_ARB_WDT => (0x0800620, 0x0, 1)
  | .MEM_ARB_STAT => (0x0800628, 0x0, 1)
  | .MEM_SCRUB_CFG => (0x0800630, 0x0, 1)
  | .MEM_FILL_STAT => (0x0800638, 0x0, 1)
  | .MEM_CHAN_STAT => (0x0801000, 0x10, 256)
  | .MEM_CHAN_ADDR => (0x0801008, 0x10, 256)
  | .FAB_DEV_CFG => (0x0A00000, 0x0, 1)
  | .FAB_RMT_CFG => (0x0A00008, 0x0, 1)
  | .FAB_CLASS_CFG => (0x0A00010, 0x0, 1)
  | .FAB_PATH_MAP => (0x0A00018, 0x0, 1)
  | .FAB_XPORT_STAT => (0x0A00020, 0x0, 1)
  | .FAB_RMT_STAT => (0x0A00028, 0x0, 1)
  | .FAB_HOT_ADDR => (0x0A00030, 0x0, 1)
  | .FAB_PORT_CFG => (0x0A00100, 0x8, 16)
  | .FAB_PORT_STAT => (0x0A00180, 0x8, 16)
  | .FAB_LANE_SPARE => (0x0A00200, 0x8, 4)
  | .FAB_TEN_CFG => (0x0A00400, 0x8, 64)
  | .FAB_REGION0 => (0x0A01000, 0x10, 256)
  | .FAB_REGION1 => (0x0A01008, 0x10, 256)
  | .COL_STAT => (0x0B00000, 0x0, 1)
  | .COL_LAST_SUSPECT => (0x0B00008, 0x0, 1)
  | .COL_INFLIGHT => (0x0B00010, 0x0, 1)
  | .RAD_PORT_CFG => (0x0C00000, 0x8, 4)
  | .RAD_PORT_STAT => (0x0C00040, 0x8, 4)
  | .RAD_MUTE_CTL => (0x0C00080, 0x0, 1)
  | .RAD_QSAMP_CFG => (0x0C00100, 0x0, 1)
  | .RAD_QSTAT => (0x0C00200, 0x8, 36)
  | .RAD_CAR_CFG => (0x0C01000, 0x40, 64)
  | .RAD_CAR_FH => (0x0C01008, 0x40, 64)
  | .RAD_CAR_DLWIN => (0x0C01010, 0x40, 64)
  | .RAD_CAR_ULWIN => (0x0C01018, 0x40, 64)
  | .RAD_CAR_UL => (0x0C01020, 0x40, 64)
  | .RAD_CAR_DLRING => (0x0C01028, 0x40, 64)
  | .RAD_CAR_ULRING => (0x0C01030, 0x40, 64)
  | .RAD_CAR_STAT => (0x0C01038, 0x40, 64)
  | .RAD_FLOW_CFG => (0x0C04000, 0x8, 2048)
  | .RAD_FLOW_STAT => (0x0C08000, 0x8, 2048)
  | .TIM_NOW_S => (0x0D00000, 0x0, 1)
  | .TIM_NOW_NS => (0x0D00008, 0x0, 1)
  | .TIM_STAT => (0x0D00010, 0x0, 1)
  | .TIM_DOM_CFG => (0x0D00100, 0x8, 2)
  | .TIM_DOM_STAT => (0x0D00200, 0x8, 2)
  | .TIM_SEL_CTL => (0x0D00300, 0x0, 1)
  | .TIM_HOLD_CTL => (0x0D00308, 0x0, 1)
  | .TIM_SYNCE_CTL => (0x0D00310, 0x0, 1)
  | .TIM_PORT_LAT => (0x0D00380, 0x8, 5)
  | .TIM_AIR_CFG => (0x0D00400, 0x0, 1)
  | .TIM_FRAME_NOW => (0x0D00408, 0x0, 1)
  | .TIM_SLOT_NOW => (0x0D00410, 0x8, 4)
  | .TIM_PPS_CTL => (0x0D00600, 0x20, 4)
  | .TIM_PPS_START => (0x0D00608, 0x20, 4)
  | .TIM_CAP_CTL => (0x0D00700, 0x20, 4)
  | .TIM_CAP_S => (0x0D00708, 0x20, 4)
  | .TIM_CAP_NS => (0x0D00710, 0x20, 4)
  | .TIM_PPSIN_STAT => (0x0D00780, 0x0, 1)
  | .TIM_TOD_NEXT => (0x0D00788, 0x0, 1)
  | .RAS_LOG_STAT => (0x0E00000, 0x0, 1)
  | .RAS_LOG_CNT => (0x0E00008, 0x0, 1)
  | .RAS_CTL => (0x0E00010, 0x0, 1)
  | .RAS_BUCKET_CFG => (0x0E00018, 0x0, 1)
  | .RAS_TASTE_CFG => (0x0E00020, 0x0, 1)
  | .RAS_POLICY => (0x0E00028, 0x0, 1)
  | .RAS_RETIRE => (0x0E00030, 0x0, 1)
  | .RAS_REPAIR_OP => (0x0E00038, 0x0, 1)
  | .RAS_REPAIR_STAT => (0x0E00040, 0x0, 1)
  | .RAS_BIN_CFG => (0x0E00048, 0x0, 1)
  | .RAS_RESET_CAUSE => (0x0E00050, 0x0, 1)
  | .RAS_CP_STAT => (0x0E00058, 0x0, 1)
  | .RAS_ECC_CNT => (0x0E00100, 0x8, 6)
  | .RAS_CORE_HEALTH => (0x0E01000, 0x8, 192)
  | .RAS_TASTE_CNT => (0x0E01800, 0x8, 192)
  | .FTP_CFG => (0x0F00000, 0x0, 1)
  | .FTP_STAT => (0x0F00008, 0x0, 1)
  | .FTP_MGR => (0x0F00010, 0x0, 1)
  | .FTP_MEMB_CFG => (0x0F00018, 0x0, 1)
  | .FTP_PARTNER => (0x0F00020, 0x0, 1)
  | .FTP_SHADOW_HOST => (0x0F00040, 0x8, 4)
  | .FTP_TEN_CFG => (0x0F00100, 0x8, 64)
  | .FTP_TEN_STAT => (0x0F00300, 0x8, 64)
  | .FTP_RESTORE => (0x0F00500, 0x0, 1)
  | .FTP_REHOME0 => (0x0F00600, 0x10, 8)
  | .FTP_REHOME1 => (0x0F00608, 0x10, 8)
  | .FTP_EVT => (0x0F00700, 0x0, 1)
  | .FTP_CNT => (0x0F00708, 0x0, 1)
  | .FTP_ACCT_LOST => (0x0F00800, 0x8, 64)
  | .FTP_ACCT_STALL => (0x0F00A00, 0x8, 64)
  | .FTP_ACCT_CNT => (0x0F00C00, 0x8, 64)
  | .FTP_JOB_CFG => (0x0F00E00, 0x8, 64)
  | .DET_TEN_CFG => (0x1000000, 0x8, 64)
  | .DET_TEN_STAT => (0x1000200, 0x8, 64)
  | .DET_WSET => (0x1000400, 0x8, 64)
  | .DET_TIME_LAST => (0x1000600, 0x0, 1)
  | .SEC_BOOT_STAT => (0x1100000, 0x0, 1)
  | .SEC_ARB => (0x1100008, 0x0, 1)
  | .SEC_SERIAL => (0x1100010, 0x0, 1)
  | .SEC_OP_ADDR => (0x1100018, 0x0, 1)
  | .SEC_OP_CTL => (0x1100020, 0x0, 1)
  | .SEC_TEN_CFG => (0x1100100, 0x8, 64)
  | .SEC_TEN_STAT => (0x1100300, 0x8, 64)
  | .SEC_FAB_STAT => (0x1100500, 0x0, 1)
  | .SEC_DBG_NONCE => (0x1100600, 0x8, 4)
  | .PWR_STATE_CTL => (0x1200000, 0x0, 1)
  | .PWR_STATE_STAT => (0x1200008, 0x0, 1)
  | .PWR_LIMIT_CFG => (0x1200010, 0x0, 1)
  | .PWR_POWER_STAT => (0x1200018, 0x0, 1)
  | .PWR_THERM_STAT => (0x1200020, 0x0, 1)
  | .PWR_SAVE_CFG => (0x1200030, 0x0, 1)
  | .PWR_SAVE_CTL => (0x1200038, 0x0, 1)
  | .PWR_SAVE_STAT => (0x1200040, 0x0, 1)
  | .PWR_START_STAT => (0x1200048, 0x0, 1)
  | .MGT_CFG => (0x1300000, 0x0, 1)
  | .MGT_ACL => (0x1300010, 0x8, 4)
  | .MGT_STAT => (0x1300040, 0x0, 1)
  | .MGT_TELEM_STAT => (0x1300048, 0x0, 1)

/-- A number for each register, the key of its cells in the register file. -/
def Reg.code : Reg → Nat
  | .GEN_ID => 0
  | .GEN_SVC => 1
  | .TXN_STAT => 2
  | .TXN_CTL => 3
  | .TEN_CFG => 4
  | .TEN_CORES => 5
  | .TEN_QUOTA => 6
  | .TEN_CTL => 7
  | .TEN_STAT => 8
  | .TEN_IRQ_CFG => 9
  | .TEN_IRQ_RATE => 10
  | .TEN_DLOG_HBASE => 11
  | .TEN_DLOG_HRANGE => 12
  | .TEN_DLOG_DBASE => 13
  | .TEN_DLOG_CTL => 14
  | .TEN_QPOS0 => 15
  | .TEN_QPOS1 => 16
  | .QUE_SQ_BASE => 17
  | .QUE_CQ_BASE => 18
  | .QUE_CFG => 19
  | .QUE_STAT => 20
  | .QUE_CTL => 21
  | .QUE_EVT_BASE => 22
  | .SCH_CLASS => 23
  | .SCH_RESERVE => 24
  | .SCH_THR_STAT => 25
  | .SCH_RADIO_STAT => 26
  | .SCH_TT_STAT => 27
  | .SCH_KV_POOL => 28
  | .SCH_KV_STAT => 29
  | .SCH_BATCH_CFG => 30
  | .SCH_ACCT_CFG => 31
  | .SCH_ACCT_WAIT => 32
  | .SCH_ACCT_PRE => 33
  | .COR_LMAP => 34
  | .COR_TIMING => 35
  | .COR_CUBE_REPAIR => 36
  | .COR_BANKSTAT => 37
  | .COR_TSPART => 38
  | .COR_SEQ_STAT => 39
  | .COR_BANK_WDT => 40
  | .COR_ARITH_STAT => 41
  | .RTE_MAP => 42
  | .RTE_STAT => 43
  | .RTE_STALL => 44
  | .RTE_TEN_DROP => 45
  | .MEM_XT_BASE => 46
  | .MEM_XT_CFG => 47
  | .MEM_LAND_CFG => 48
  | .MEM_XT_OP0 => 49
  | .MEM_XT_OP1 => 50
  | .MEM_FAULT_CTL => 51
  | .MEM_CHAN_CTL => 52
  | .MEM_ARB_WDT => 53
  | .MEM_ARB_STAT => 54
  | .MEM_SCRUB_CFG => 55
  | .MEM_FILL_STAT => 56
  | .MEM_CHAN_STAT => 57
  | .MEM_CHAN_ADDR => 58
  | .FAB_DEV_CFG => 59
  | .FAB_RMT_CFG => 60
  | .FAB_CLASS_CFG => 61
  | .FAB_PATH_MAP => 62
  | .FAB_XPORT_STAT => 63
  | .FAB_RMT_STAT => 64
  | .FAB_HOT_ADDR => 65
  | .FAB_PORT_CFG => 66
  | .FAB_PORT_STAT => 67
  | .FAB_LANE_SPARE => 68
  | .FAB_TEN_CFG => 69
  | .FAB_REGION0 => 70
  | .FAB_REGION1 => 71
  | .COL_STAT => 72
  | .COL_LAST_SUSPECT => 73
  | .COL_INFLIGHT => 74
  | .RAD_PORT_CFG => 75
  | .RAD_PORT_STAT => 76
  | .RAD_MUTE_CTL => 77
  | .RAD_QSAMP_CFG => 78
  | .RAD_QSTAT => 79
  | .RAD_CAR_CFG => 80
  | .RAD_CAR_FH => 81
  | .RAD_CAR_DLWIN => 82
  | .RAD_CAR_ULWIN => 83
  | .RAD_CAR_UL => 84
  | .RAD_CAR_DLRING => 85
  | .RAD_CAR_ULRING => 86
  | .RAD_CAR_STAT => 87
  | .RAD_FLOW_CFG => 88
  | .RAD_FLOW_STAT => 89
  | .TIM_NOW_S => 90
  | .TIM_NOW_NS => 91
  | .TIM_STAT => 92
  | .TIM_DOM_CFG => 93
  | .TIM_DOM_STAT => 94
  | .TIM_SEL_CTL => 95
  | .TIM_HOLD_CTL => 96
  | .TIM_SYNCE_CTL => 97
  | .TIM_PORT_LAT => 98
  | .TIM_AIR_CFG => 99
  | .TIM_FRAME_NOW => 100
  | .TIM_SLOT_NOW => 101
  | .TIM_PPS_CTL => 102
  | .TIM_PPS_START => 103
  | .TIM_CAP_CTL => 104
  | .TIM_CAP_S => 105
  | .TIM_CAP_NS => 106
  | .TIM_PPSIN_STAT => 107
  | .TIM_TOD_NEXT => 108
  | .RAS_LOG_STAT => 109
  | .RAS_LOG_CNT => 110
  | .RAS_CTL => 111
  | .RAS_BUCKET_CFG => 112
  | .RAS_TASTE_CFG => 113
  | .RAS_POLICY => 114
  | .RAS_RETIRE => 115
  | .RAS_REPAIR_OP => 116
  | .RAS_REPAIR_STAT => 117
  | .RAS_BIN_CFG => 118
  | .RAS_RESET_CAUSE => 119
  | .RAS_CP_STAT => 120
  | .RAS_ECC_CNT => 121
  | .RAS_CORE_HEALTH => 122
  | .RAS_TASTE_CNT => 123
  | .FTP_CFG => 124
  | .FTP_STAT => 125
  | .FTP_MGR => 126
  | .FTP_MEMB_CFG => 127
  | .FTP_PARTNER => 128
  | .FTP_SHADOW_HOST => 129
  | .FTP_TEN_CFG => 130
  | .FTP_TEN_STAT => 131
  | .FTP_RESTORE => 132
  | .FTP_REHOME0 => 133
  | .FTP_REHOME1 => 134
  | .FTP_EVT => 135
  | .FTP_CNT => 136
  | .FTP_ACCT_LOST => 137
  | .FTP_ACCT_STALL => 138
  | .FTP_ACCT_CNT => 139
  | .FTP_JOB_CFG => 140
  | .DET_TEN_CFG => 141
  | .DET_TEN_STAT => 142
  | .DET_WSET => 143
  | .DET_TIME_LAST => 144
  | .SEC_BOOT_STAT => 145
  | .SEC_ARB => 146
  | .SEC_SERIAL => 147
  | .SEC_OP_ADDR => 148
  | .SEC_OP_CTL => 149
  | .SEC_TEN_CFG => 150
  | .SEC_TEN_STAT => 151
  | .SEC_FAB_STAT => 152
  | .SEC_DBG_NONCE => 153
  | .PWR_STATE_CTL => 154
  | .PWR_STATE_STAT => 155
  | .PWR_LIMIT_CFG => 156
  | .PWR_POWER_STAT => 157
  | .PWR_THERM_STAT => 158
  | .PWR_SAVE_CFG => 159
  | .PWR_SAVE_CTL => 160
  | .PWR_SAVE_STAT => 161
  | .PWR_START_STAT => 162
  | .MGT_CFG => 163
  | .MGT_ACL => 164
  | .MGT_STAT => 165
  | .MGT_TELEM_STAT => 166

/-- Every register, in the order of Table 19-2; register `r` stands at position `r.code`. -/
def allRegs0 : List Reg :=
  [.GEN_ID, .GEN_SVC, .TXN_STAT, .TXN_CTL, .TEN_CFG, .TEN_CORES, .TEN_QUOTA, .TEN_CTL, .TEN_STAT, .TEN_IRQ_CFG,
   .TEN_IRQ_RATE, .TEN_DLOG_HBASE, .TEN_DLOG_HRANGE, .TEN_DLOG_DBASE, .TEN_DLOG_CTL, .TEN_QPOS0, .TEN_QPOS1,
   .QUE_SQ_BASE, .QUE_CQ_BASE, .QUE_CFG, .QUE_STAT, .QUE_CTL, .QUE_EVT_BASE, .SCH_CLASS, .SCH_RESERVE,
   .SCH_THR_STAT, .SCH_RADIO_STAT, .SCH_TT_STAT, .SCH_KV_POOL, .SCH_KV_STAT, .SCH_BATCH_CFG, .SCH_ACCT_CFG,
   .SCH_ACCT_WAIT, .SCH_ACCT_PRE, .COR_LMAP, .COR_TIMING, .COR_CUBE_REPAIR, .COR_BANKSTAT, .COR_TSPART,
   .COR_SEQ_STAT]
def allRegs1 : List Reg :=
  [.COR_BANK_WDT, .COR_ARITH_STAT, .RTE_MAP, .RTE_STAT, .RTE_STALL, .RTE_TEN_DROP, .MEM_XT_BASE, .MEM_XT_CFG,
   .MEM_LAND_CFG, .MEM_XT_OP0, .MEM_XT_OP1, .MEM_FAULT_CTL, .MEM_CHAN_CTL, .MEM_ARB_WDT, .MEM_ARB_STAT,
   .MEM_SCRUB_CFG, .MEM_FILL_STAT, .MEM_CHAN_STAT, .MEM_CHAN_ADDR, .FAB_DEV_CFG, .FAB_RMT_CFG, .FAB_CLASS_CFG,
   .FAB_PATH_MAP, .FAB_XPORT_STAT, .FAB_RMT_STAT, .FAB_HOT_ADDR, .FAB_PORT_CFG, .FAB_PORT_STAT, .FAB_LANE_SPARE,
   .FAB_TEN_CFG, .FAB_REGION0, .FAB_REGION1, .COL_STAT, .COL_LAST_SUSPECT, .COL_INFLIGHT, .RAD_PORT_CFG,
   .RAD_PORT_STAT, .RAD_MUTE_CTL, .RAD_QSAMP_CFG, .RAD_QSTAT]
def allRegs2 : List Reg :=
  [.RAD_CAR_CFG, .RAD_CAR_FH, .RAD_CAR_DLWIN, .RAD_CAR_ULWIN, .RAD_CAR_UL, .RAD_CAR_DLRING, .RAD_CAR_ULRING,
   .RAD_CAR_STAT, .RAD_FLOW_CFG, .RAD_FLOW_STAT, .TIM_NOW_S, .TIM_NOW_NS, .TIM_STAT, .TIM_DOM_CFG, .TIM_DOM_STAT,
   .TIM_SEL_CTL, .TIM_HOLD_CTL, .TIM_SYNCE_CTL, .TIM_PORT_LAT, .TIM_AIR_CFG, .TIM_FRAME_NOW, .TIM_SLOT_NOW,
   .TIM_PPS_CTL, .TIM_PPS_START, .TIM_CAP_CTL, .TIM_CAP_S, .TIM_CAP_NS, .TIM_PPSIN_STAT, .TIM_TOD_NEXT,
   .RAS_LOG_STAT, .RAS_LOG_CNT, .RAS_CTL, .RAS_BUCKET_CFG, .RAS_TASTE_CFG, .RAS_POLICY, .RAS_RETIRE,
   .RAS_REPAIR_OP, .RAS_REPAIR_STAT, .RAS_BIN_CFG, .RAS_RESET_CAUSE]
def allRegs3 : List Reg :=
  [.RAS_CP_STAT, .RAS_ECC_CNT, .RAS_CORE_HEALTH, .RAS_TASTE_CNT, .FTP_CFG, .FTP_STAT, .FTP_MGR, .FTP_MEMB_CFG,
   .FTP_PARTNER, .FTP_SHADOW_HOST, .FTP_TEN_CFG, .FTP_TEN_STAT, .FTP_RESTORE, .FTP_REHOME0, .FTP_REHOME1, .FTP_EVT,
   .FTP_CNT, .FTP_ACCT_LOST, .FTP_ACCT_STALL, .FTP_ACCT_CNT, .FTP_JOB_CFG, .DET_TEN_CFG, .DET_TEN_STAT, .DET_WSET,
   .DET_TIME_LAST, .SEC_BOOT_STAT, .SEC_ARB, .SEC_SERIAL, .SEC_OP_ADDR, .SEC_OP_CTL, .SEC_TEN_CFG, .SEC_TEN_STAT,
   .SEC_FAB_STAT, .SEC_DBG_NONCE, .PWR_STATE_CTL, .PWR_STATE_STAT, .PWR_LIMIT_CFG, .PWR_POWER_STAT,
   .PWR_THERM_STAT, .PWR_SAVE_CFG]
def allRegs4 : List Reg :=
  [.PWR_SAVE_CTL, .PWR_SAVE_STAT, .PWR_START_STAT, .MGT_CFG, .MGT_ACL, .MGT_STAT, .MGT_TELEM_STAT]
/-- Every register of Table 19-2. -/
def allRegs : List Reg := allRegs0 ++ allRegs1 ++ allRegs2 ++ allRegs3 ++ allRegs4

end Sys2Proof.Machine
end

