-- ==== Sys2Proof/Machine/TypesCmd.lean ====
section
/-! DEFINITION. State of the command side of the block: fault records, completions, queues, started commands, legs of a RUN,
configuration transactions, tenancies, the scheduler and the batch controller (chapters 4, 5, 12, 15). -/

namespace Sys2Proof.Machine

/-- A fault record (Table 12-2) before its encoding; `time` is device time in 1/144 ns. -/
structure FaultRec where
  unit : Nat
  sev : Nat
  op : Nat
  index : Nat := 0
  time : Nat := 0
  flags : Nat := 0
  temp : Nat := 0
  volt : Nat := 0
  ten : Nat := 0
  cls : Nat := 0
  mid : Nat := 0
  client : Nat := 0
  addr : Nat := 0
  step : Nat := 0
  detail : Nat := 0
  leg : Nat := 0xFFFF
  tbin : Nat := 0
  vbin : Nat := 0
  deriving DecidableEq, Repr

/-- What a peer device answers to a read that a command makes of it: status 0 with the bytes, or 2 FAULT_XLATE, or 3 ECC_UNCORR. -/
structure PeerAns where
  st : Nat
  data : List Byte
  deriving DecidableEq, Repr

/-- A command that has ended and whose completion entry waits to be written (R136, R137). -/
structure Completion where
  cmdId : Nat
  opcode : Nat
  status : Nat
  detail : Nat
  step : Nat
  irq : Bool
  quiet : Bool
  deriving DecidableEq, Repr

/-- Hidden state of one queue beside its registers: the doorbell values last accepted, the completion tail and phase, the
fetched entries that have not started (oldest first, each with the device time at which it was fetched), the completions
not yet written, whether an enable waits, and how many CFG_TXN commits its accepted tails have made visible that have not started (R143). -/
structure QueueCtx where
  tail : Nat := 0
  cqHead : Nat := 0
  cqTail : Nat := 0
  phase : Bool := true
  fetched : List (Nat × List Byte) := []
  toPost : List Completion := []
  enableWaits : Bool := false
  commits : Nat := 0
  deriving DecidableEq, Repr

/-- Progress of one leg of a RUN. -/
inductive LegSt where
  | waiting | placed | running | ended
  deriving DecidableEq, Repr

/-- A RUN command that has passed its checks: the parts of the manifest it uses with its hash, its binding and its progress
(R116–R121, R149). -/
structure RunCtx where
  mid : Nat := 0
  image : Nat := 0
  args : Nat := 0
  diePref : Nat := 0xFF
  legs : List (List Byte) := []
  forms : List (List Byte) := []
  code : Nat := 0
  res : List Byte := []
  flags : Nat := 0
  legSt : List LegSt := []
  cores : List Nat := []
  engines : List (Nat × Nat) := []
  readyAt : Nat := 0
  started : Bool := false
  fail : Option (Nat × Nat) := none
  late : List Nat := []
  unposted : Bool := false
  dropped : Nat := 0
  tastes : Nat := 0
  movers : Nat := 0
  preempted : Bool := false
  slot : Option Nat := none
  job : Nat := 0
  tt : Nat := 0
  hash : List Byte := []
  deriving DecidableEq, Repr

/-- A started command that has not completed: its start number, queue, tenancy and submission entry, and, for a RUN, its
run context. `note` is the
opcode's own progress value; a STEP_COMMIT also keeps the place in its release list and the status it will end with. -/
structure Cmd where
  sn : Nat
  queue : Nat
  ten : Nat
  entry : List Byte
  note : Nat := 0
  idx : Nat := 0
  fin : Option (Nat × Nat) := none
  run : Option RunCtx := none
  deriving DecidableEq, Repr

/-- A staged RWT field of an open transaction (R140, R141). -/
structure Staged where
  fld : Fld
  idx : Nat
  val : Nat
  deriving DecidableEq, Repr

/-- Hidden state of a tenancy's configuration transaction: staged fields, commits already made visible by a doorbell
(R143), the commit command in progress, whether validation has passed and the device time at which it ended, and commits past their boundary with the cores that have
still to adopt a value (R62, R145). -/
structure TxnCtx where
  staged : List Staged := []
  visible : Nat := 0
  commit : Option Nat := none
  valid : Bool := false
  validAt : Nat := 0
  late : List (Nat × List Nat) := []
  weights : List (Nat × List Nat × List Byte) := []
  jobs : List (Nat × List Nat) := []
  deriving DecidableEq, Repr

/-- What a command takes from a manifest image that passed its checks: header, resource block, leg table, epilogue forms and manifest hash (R112, R113). -/
structure ManImg where
  hdr : List Byte
  res : List Byte
  legs : List (List Byte)
  forms : List (List Byte)
  hash : List Byte
  deriving DecidableEq, Repr

/-- A verified manifest (R118): tenancy, manifest ID, image address, the sealed physical pages, the
start number of the RUN that last used it, and what the checks read of the image. -/
structure Verified where
  ten : Nat
  mid : Nat
  image : Nat
  pages : List Nat
  used : Nat
  im : ManImg
  deriving DecidableEq, Repr

/-- A sequence of a tenancy's batches (R169–R175). `state`: 0 active, 1 resuming, 2 suspended. -/
structure Seq where
  id : Nat
  batch : Nat
  prio : Nat
  cls : Nat
  client : Nat
  joinStep : Nat := 0
  area : Nat := 0
  pages : List Nat := []
  need : Nat := 0
  state : Nat := 0
  void : Bool := false
  arrival : Nat := 0
  moving : List Nat := []
  stuck : Bool := false
  deriving DecidableEq, Repr

/-- Batch-controller state of a tenancy: sequences held, pending joins and resumptions (each with the start number of its
command, 0 for a resumption), pending leaves, free and reserve pool pages. -/
structure BatchCtx where
  seqs : List Seq := []
  pending : List (Nat × Seq) := []
  leaves : List (Nat × Nat × Nat) := []
  free : List Nat := []
  reserve : List Nat := []
  arrivals : Nat := 0
  deriving DecidableEq, Repr

/-- A window of a timetable image (Table 5-5), offset in signed ns. -/
structure Window where
  off : Int
  job : Nat
  leg : Nat
  core : Nat
  bound : Nat
  deriving DecidableEq, Repr

/-- A job of a timetable (Table 5-4) with the leg entries and code base of its manifest, read at admission. -/
structure TtJob where
  mid : Nat
  image : Nat
  mask : Nat
  legs : List (List Byte)
  forms : List (List Byte)
  code : Nat
  res : List Byte
  deriving DecidableEq, Repr

/-- A timetable: numerology, period, jobs, windows, the first target slot it governs, and its issuing tenancy. -/
structure Timetable where
  mu : Nat := 0
  period : Nat := 0
  jobs : List TtJob := []
  windows : List Window := []
  from_ : Nat := 0
  ten : Nat := 0
  deriving DecidableEq, Repr

/-- Timetable k: the image in force, the one it replaced (which still governs earlier target slots, R158), the pending images whose load has completed, by
rising first target slot, and the image whose code is being placed, with the start number of its TIMETABLE_LOAD. -/
structure TtSlot where
  cur : Option Timetable := none
  prev : Option Timetable := none
  next : List Timetable := []
  load : Option (Timetable × Nat) := none
  deriving DecidableEq, Repr

/-- Scheduler state: timetables, accepted Radio RUNs (timetable, job, slot), windows moved (core, start cycle, bound),
the round-robin position of tenancies, duty frame cycles withheld, reserve counts still to apply. -/
structure SchedCtx where
  tts : List (Nat × TtSlot) := []
  loads : List Nat := []
  accepted : List (Nat × Nat × Nat) := []
  moved : List (Nat × Nat × Nat) := []
  rrPrompt : Nat := 0
  rrSpare : Nat := 0
  reserveNow : List (Nat × Nat) := []
  withheld : List (Nat × Nat) := []
  deriving DecidableEq, Repr

/-- One MSI-X vector (R451, R452). -/
structure Vec where
  addr : Nat := 0
  data : Nat := 0
  masked : Bool := true
  pending : Bool := false
  gap : Bool := false
  again : Bool := false
  deriving DecidableEq, Repr

/-- Hidden state of a tenancy (chapter 15): dirty-log ranges and shadow set, function power state. -/
structure TenCtx where
  shadow : List Nat := []
  d3hot : Bool := false
  rollback : Nat := 0
  step : Nat := 0
  deriving DecidableEq, Repr

end Sys2Proof.Machine
end

