-- ==== Sys2Proof/Machine/TypesFt.lean ====
section
/-! DEFINITION. State of the collectives (chapter 11) and of membership, input logs, shadows and restores (chapter 13). -/

namespace Sys2Proof.Machine

/-- A collective of this device (R329–R350). `devs` are the members in rank order; `seq` its number. `phase`: 0 RED_OPEN sent, 1 granted, 2 RED_CLOSE sent,
3 ring, 4 any kind but reduce. `window` and `sent` serve the switch reduction; `landed` lists the chunks of results in place or found
suspect; `counts` what each rank's count chunk announced, as its data bytes; `got` the data chunks taken, by rank and chunk index; `todo` the chunks not
yet issued (rank, chunk header, source bytes); `token` the passes of the verdict token seen. -/
structure Coll where
  sn : Nat
  ten : Nat
  cls : Nat
  client : Nat
  step : Nat
  kind : Nat
  desc : List Byte
  gid : Nat
  seq : Nat
  rank : Nat
  devs : List Nat
  fixed : Bool
  phase : Nat := 4
  window : Nat := 0
  sent : Nat := 0
  landed : List Nat := []
  suspect : Bool := false
  finder : Option Nat := none
  counts : List (Nat × List Byte) := []
  got : List (Nat × Nat) := []
  held : List (Nat × List Byte) := []
  token : Nat := 0
  heard : Nat := 0
  deriving DecidableEq, Repr

/-- A record of an input log (Table 13-4) with its payload. -/
structure LogRec where
  kind : Nat
  src : Nat
  step : Nat
  tag : List Byte
  addr : Nat
  order : Nat
  time : Nat
  payload : List Byte
  deriving DecidableEq, Repr

/-- Input log of a tenancy (R406, R407): next record number, bytes written in all, the records still needed, each with its place in byte order, the
step of the newest complete generation, the number of records the partner holds, records that wait because a needed one would be overwritten, and
under replay the records not yet used. -/
structure LogCtx where
  next : Nat := 0
  pos : Nat := 0
  kept : List (Nat × LogRec) := []
  gen : Option Nat := none
  acked : Nat := 0
  waiting : List LogRec := []
  replay : List LogRec := []
  deriving DecidableEq, Repr

/-- What a shadow carries beside its pages (R402): step counter, translation table, landing table, event array, batch table, batch state. -/
structure ShadowMeta where
  step : Nat
  xt : List Byte
  land : List Byte
  events : List Byte
  batchTab : List Byte
  batch : BatchCtx
  deriving DecidableEq, Repr

/-- A generation under way at the protected device: its step, the pages (translation index, physical page) not yet read, their number, and the
metadata; `pages` lists the translation indices it covers. -/
structure ShadowGen where
  step : Nat
  pages : List Nat
  left : List (Nat × Nat)
  count : Nat
  info : ShadowMeta
  deriving DecidableEq, Repr

/-- One item of a shadow: a page by its translation index, or the metadata with the number of pages of the generation. -/
inductive ShadowItem where
  | page (idx : Nat) (data : List Byte)
  | info (count : Nat) (m : ShadowMeta)
  deriving DecidableEq, Repr

/-- A guest's generation in a hosting area: guest, tenancy, step, pages (translation index, physical page), metadata and page count once landed, whether
complete, and whether its pages may be used again. -/
structure HostGen where
  guest : Nat
  ten : Nat
  step : Nat
  pages : List (Nat × Nat) := []
  info : Option (Nat × ShadowMeta) := none
  complete : Bool := false
  freed : Bool := false
  deriving DecidableEq, Repr

/-- What a restore fetches (R409): the generation's pages and metadata, and the log records after it. -/
structure Restored where
  pages : List (Nat × List Byte)
  info : ShadowMeta
  recs : List LogRec
  deriving DecidableEq, Repr

/-- What a muster packet says (Table 13-1; the manual gives no payload layouts, log 40): a device the packet is about, an epoch, its members, those of
them that may be managers, those that joined, and removed devices whose loss is a double loss (R415). -/
structure Muster where
  dev : Nat := 0
  epoch : Nat := 0
  members : List Nat := []
  capable : List Nat := []
  joins : List Nat := []
  lossy : List Nat := []
  deriving DecidableEq, Repr

/-- Membership and recovery beside the FTP registers. `heard` are the members whose HEARTBEAT came since the last tick, `misses` consecutive
misses; `hearts` and `beacons` the clock at each member's last HEARTBEAT and BEACON; `remove` and `join` what is gathered for an epoch since
`gatherAt`; `restore` the tenancy, guest and source of the restore in progress; `jobs` the committed
job bitmaps (R400); `commits` the device times of a tenancy's last commits (tenancy, new step count, time), for its accounting (R413); `full` the tenancies with a complete
generation at the present partner. -/
structure FtpCtx where
  capable : List Nat := []
  left : Bool := false
  heard : List Nat := []
  misses : List (Nat × Nat) := []
  suspected : List Nat := []
  hearts : List (Nat × Nat) := []
  beacons : List (Nat × Nat) := []
  remove : List Nat := []
  join : List (Nat × Bool) := []
  gatherAt : Option Nat := none
  lastIssue : Option Nat := none
  acks : List Nat := []
  jobs : List (Nat × List Nat) := []
  double : List (Nat × Nat) := []
  stall : List (Nat × Nat) := []
  commits : List (Nat × Nat × Nat) := []
  logs : List (Nat × LogCtx) := []
  gens : List (Nat × ShadowGen) := []
  full : List Nat := []
  hosted : List HostGen := []
  mirrored : List (Nat × Nat × LogRec) := []
  restore : Option (Nat × Nat × Nat) := none
  deriving DecidableEq, Repr

end Sys2Proof.Machine
end

