-- ==== Sys2Proof/Machine/TypesCore.lean ====
section
/-! DEFINITION. State inside a core: feeder queues, cubes, epilogue units, the signal lane, the sequencer and its leg mailbox,
the tile-store arbiters (chapters 2 and 3). -/

namespace Sys2Proof.Machine

/-- Pass formats of Table 2-2, with the element variant. -/
inductive CFmt where
  | fp8e4m3 | fp8e5m2 | mxfp8e4m3 | mxfp8e5m2 | mxfp6e2m3 | mxfp6e3m2 | mxint8 | int8 | mxfp4 | bf16 | fp16 | cbf16
  deriving DecidableEq, Repr

/-- A feeder entry: 16 data bytes and the 8-bit scale field (R31). -/
structure Feed where
  data : List Byte
  scale : Nat
  deriving DecidableEq, Repr

/-- A pass descriptor, as one cube sees it: what the manual says a pass names. Operand
addresses are tile-store addresses of the first K-step, 128 bytes per K-step, with eight scale bytes per K-step at the scale
addresses. `form` is relative to the leg's form_base (R99). A descriptor that starts passes on several cubes is a list, one part per cube. The
manual gives no layout of a pass descriptor (log 20). -/
structure PassDesc where
  cube : Nat
  fmt : CFmt
  n : Nat
  form : Nat
  token : Option Nat
  shareA : Bool
  shareB : Bool
  a : Nat
  b : Nat
  aScale : Nat
  bScale : Nat
  rowBase : Nat
  colScale : Nat
  bias : Nat
  dest : Nat
  destExp : Nat
  towCore : Nat
  towDev : Nat
  towTok : Option Nat
  band : Nat
  colTile : Nat
  lastTile : Bool
  rowMask : Nat
  trailAddr : Nat
  trailTok : Option Nat
  towRe : Option Nat := none
  deriving DecidableEq, Repr

/-- An accumulator position: an FP32 code, or integer mantissas with a shared exponent, and the NaN mark of R86. -/
structure Accu where
  f : Nat := 0
  re : Int := 0
  im : Int := 0
  e : Int := 0
  nan : Bool := false
  deriving DecidableEq, Repr

/-- A pass in a cube: its descriptor, its number within the leg (R380), the K-steps popped, the bank it uses, and the
feeder entries it popped (kept for the taster, R381). -/
structure Pass where
  desc : PassDesc
  num : Nat
  cube : Nat
  done : Nat := 0
  bank : Nat := 0
  pops : List (List Feed × List Feed) := []
  deriving DecidableEq, Repr

/-- One cube: A and B feeder queues (a fill places one entry in each of the eight queues, so a queue set is a list of
rows of eight entries), passes waiting and running, two accumulator banks, the
completed pass of each bank that the epilogue has not read, the held partial tile (R97), and the earliest leg cycle of the next pop (R34). -/
structure Cube where
  aq : List (List Feed) := []
  bq : List (List Feed) := []
  queue : List Pass := []
  bank0 : List Accu := []
  bank1 : List Accu := []
  full0 : Option Pass := none
  full1 : Option Pass := none
  nextBank : Nat := 0
  partialT : Option (List Accu) := none
  free : Nat := 0
  deriving DecidableEq, Repr

/-- A band in progress (R104): the sums of its rows, the column tiles emitted, and whether a sum overflowed. -/
structure Band where
  sums : List Nat := List.replicate 8 0
  tiles : Nat := 0
  inf : Bool := false
  deriving DecidableEq, Repr

/-- One quad: its row-scale buffer (R106), and the bands in progress by their number (R104). -/
structure Quad where
  rowScale : List (Nat × Nat) := []
  bands : List (Nat × Band) := []
  deriving DecidableEq, Repr

/-- Bus Z address generator (R44). -/
structure ZGen where
  base : Nat := 0
  stride : Nat := 0
  lenLog : Nat := 7
  pos : Nat := 0
  deriving DecidableEq, Repr

/-- One lane of the division unit (R93–R95): remainder, quotient, divisor, result sign, big, and for FP32 division the
exponent and the special result. -/
structure DivLane where
  r : Nat := 0
  q : Nat := 0
  dd : Nat := 0
  neg : Bool := false
  big : Bool := false
  same : Bool := false
  dneg : Bool := false
  nzero : Bool := false
  e : Int := 0
  special : Option Nat := none
  fl : Nat := 0
  deriving DecidableEq, Repr

/-- A REPEAT in progress (R47, R48): body address and length, iterations left with the present one, and the address at which issue goes on after the last. -/
structure Rep where
  body : Nat
  len : Nat
  left : Nat
  ret : Nat
  deriving DecidableEq, Repr

/-- A W store on its way to the tile store (Table 2-6): the leg cycle in which it is written, its address and bytes. -/
structure WPend where
  due : Nat
  addr : Nat
  data : List Byte
  deriving DecidableEq, Repr

/-- The signal lane: the address of the instruction that issues next and the earliest leg cycle in which it may (R42), vector registers, results not yet
visible in order of issue (cycle from which they read, register, value; R43), stores not yet written, block exponent registers, SH, EXP, the Z generator, the
division lanes, the nest of REPEATs (outer first), and the addresses that the repeat cache holds (R47). -/
structure Lane where
  pc : Nat := 0
  running : Bool := false
  next : Nat := 0
  v : List (Nat × List Byte) := []
  late : List (Nat × Nat × List Byte) := []
  stores : List WPend := []
  be : Nat := 0
  bem : Nat := 0
  sh : Int := 0
  exp : Int := 0
  z : ZGen := {}
  div : List DivLane := []
  reps : List Rep := []
  cache : List Nat := []
  deriving DecidableEq, Repr

/-- State of one leg token: set, possibly with an error mark (R139) and the status that a wait on it stops with, 0 for ECC_UNCORR (R236). A token not listed is
clear. -/
structure Tok where
  err : Bool
  st : Nat := 0
  deriving DecidableEq, Repr

/-- A running leg. `serial` tells this leg from every other leg of the core, so that a write into an ended leg is dropped
(R235, R286). `waits` are the tokens the sequencer and the signal lane wait on. `tows`, `ops` and `moves` count towed tiles not yet
accepted, remote operations and independent copies not yet ended; `posts` the FHPOSTs (direction, carrier, slot) that take effect at its
end (R209); `kv` the page that KVGET gave with a token (R172); `dmas` counts its DMAGO instructions; `lostBuf` is set by a soft move over an uncorrectable error (R225);
`stall` is the sequencer instruction, as a code with its operands, that stalls issue (R235, R286, R312);
`lostFills` are the cubes whose fill lost its last arbitration, and `stalled` the first leg cycle that conflict_stalls has not counted (Table 2-14). -/
structure Leg where
  serial : Nat
  sn : Nat
  idx : Nat
  ten : Nat
  cls : Nat
  mid : Nat
  client : Nat
  step : Nat
  bound : Nat
  args : Nat
  formBase : Nat
  granules : Nat
  body : Nat
  internal : Nat := 0
  moved : Bool := false
  origin : Nat := 0
  count : Nat := 0
  withheld : Nat := 0
  tokens : List (Nat × Tok) := []
  seqWait : Option Nat := none
  laneWait : Option Nat := none
  s : List (Nat × Nat) := []
  passes : Nat := 0
  flags : Nat := 0
  endIssued : Bool := false
  tows : Nat := 0
  ops : Nat := 0
  overrun : Bool := false
  perturbed : Bool := false
  lane : Lane := {}
  quads : List (Nat × Quad) := []
  cubes : List (Nat × Cube) := []
  posts : List (Nat × Nat × Nat) := []
  kv : List (Nat × Nat) := []
  lostBuf : Bool := false
  dmas : Nat := 0
  stall : Option (List Nat) := none
  lostFills : List Nat := []
  stalled : Nat := 0
  deriving DecidableEq, Repr

/-- A leg descriptor waiting in the mailbox (R120): the 64 descriptor bytes, its command (0 for an internal leg of R386), the
window start for a Radio leg, and whether the window was moved there. -/
structure Mail where
  sn : Nat
  idx : Nat
  desc : List Byte
  start : Option Nat := none
  moved : Bool := false
  internal : Nat := 0
  fromCore : Nat := 0
  withheld : Bool := false
  hold : Int := 0
  deriving DecidableEq, Repr

/-- A tile-store bank arbiter (R51–R56): present holder, whether it holds across cycles, the grant decided for the next
cycle, the fill-port rotation pointer, and the watchdog period in force while a write of COR_BANK_WDT waits for the next grant change (R72). -/
structure Bank where
  holder : Option Nat := none
  locked : Bool := false
  grant : Option Nat := none
  rot : Nat := 0
  period : Option Nat := none
  deriving DecidableEq, Repr

/-- One logical core beside its COR registers: mailbox (head first), running leg, fenced requesters, bank arbiters, the
COR_TSPART value a commit waits to adopt with the tenancy of that commit (R62), and the record index of a bring-in in progress. -/
structure Core where
  mail : List Mail := []
  leg : Option Leg := none
  serials : Nat := 0
  fenced : List Nat := []
  banks : List (Nat × Bank) := []
  newPart : Option (Nat × Nat) := none
  bringIn : Bool := false
  testDue : Bool := false
  legsSince : Nat := 0
  deriving DecidableEq, Repr

/-- A tile or trailer under way on a towline (R103): the core it comes from, its command, destination, landing token, tag fields, payload, and the element size
information needed to land it. -/
structure Tow where
  src : Nat
  sn : Nat
  dst : Nat
  addr : Nat
  tok : Option Nat
  kind : Nat
  ten : Nat
  cls : Nat
  client : Nat
  step : Nat
  mid : Nat
  data : List Byte
  expAddr : Option Nat
  deriving DecidableEq, Repr

/-- A taste record (R381): where the pass ran, its descriptor, form, popped entries, partial, row-scale entries, and the
output tile and sums the original produced, with temperature and voltage then. `phase`: 0 waiting for the taster, 1 waiting for
the third core; `other` is the core that tasted; `placed` once its internal leg is in a mailbox. -/
structure Taste where
  id : Nat
  core : Nat
  cube : Nat
  sn : Nat
  ten : Nat
  mid : Nat
  leg : Nat
  fmt : CFmt
  pass : Pass
  form : List Byte
  part : Option (List Accu)
  scales : List Nat
  out : List Byte
  sums : List Nat
  die : Nat
  temp : Nat
  volt : Nat
  phase : Nat := 0
  other : Nat := 0
  placed : Bool := false
  deriving DecidableEq, Repr

/-- Signal-lane instructions of Table 2-6 with their rules in Table 3-3. Vector operands are register numbers. The manual gives the
groups and their arithmetic, not an instruction format; the operand shapes are the model's (log 20). -/
inductive LaneOp where
  | fma32 (d a b c : Nat)
  | add32 (d a b : Nat)
  | mul32 (d a b : Nat)
  | fmaBf16 (d a b : Nat)
  | fmaFp16 (d a b : Nat)
  | addI16 (d a b : Nat)
  | subI16 (d a b : Nat)
  | mulQ15 (d a b : Nat)
  | shiftI16 (d a : Nat) (sh : Int)
  | addI8 (d a b : Nat)
  | minI8 (d a b : Nat)
  | maxI8 (d a b : Nat)
  | selI8 (d a b c e : Nat)
  | signI8 (d a b : Nat)
  | cmul (d a b : Nat) (hi : Bool)
  | cmulTw (d a b : Nat) (hi : Bool)
  | butterfly (d a : Nat) (k : Nat)
  | shuffle (d a : Nat) (rot : Nat)
  | gather (d a idx : Nat)
  | recip (d a : Nat)
  | rsqrt (d a : Nat)
  | exp2 (d a : Nat)
  | sum32 (d a : Nat)
  | max32 (d a : Nat)
  | toI16 (d a : Nat)
  deriving DecidableEq, Repr

/-- Element types of a W store source (Table 3-4, R88). -/
inductive WTy where
  | f32 | i32 | i16 | i8
  deriving DecidableEq, Repr

/-- Destination formats of a W store (Tables 3-4 and 3-5, R226). -/
inductive WDst where
  | f32 | bf16 | fp16 | e4m3 | e5m2 | i8 | i16 | i32
  | mxfp8e4m3 | mxfp8e5m2 | mxfp6e2m3 | mxfp6e3m2 | mxfp4 | mxint8 | cbf16
  | bfp (w : Nat) | mulaw (w : Nat)
  deriving DecidableEq, Repr

end Sys2Proof.Machine
end

