-- ==== Sys2Proof/Machine/TypesMem.lean ====
section
/-! DEFINITION. State of the memory side: transfers and their channels, held accesses, translation operations, the address
translation cache (chapter 9), and the reliability unit (chapter 12). -/

namespace Sys2Proof.Machine

/-- What an access or transfer that ends late must notify: nothing, a token of a leg (core, leg serial, token), or a remote request
at this target (its stream source device and number). -/
inductive Notify where
  | none
  | token (core serial tok : Nat)
  | remote (req : Nat)
  | move (core serial : Nat)
  deriving DecidableEq, Repr

/-- A transfer waiting for or holding a channel (R285). `kind`: 0 crossing, 1 DMAGO, 2 release, 3 batch crossing. `chunk` is the
chunk size; `issued` counts chunks issued, `landed` lists landed chunks at or beyond `done`. `entry` is the landing-table index
of a crossing or the pool page of a batch crossing, `seq` its sequence. `asked` counts the chunks whose requests to a peer have been issued, `got` holds the
answers by chunk and offset, `ingest` what the chunks of a host source held; `ord` counts the DMAGO instructions its leg `leg` issued before this one (R434). -/
structure Xfer where
  kind : Nat
  sn : Nat
  queue : Nat
  ten : Nat
  cls : Nat
  client : Nat
  step : Nat
  mid : Nat
  src : Nat
  dst : Nat
  len : Nat
  chunk : Nat
  entry : Nat := 0
  seq : Nat := 0
  notify : Notify := .none
  issued : Nat := 0
  landed : List Nat := []
  departing : List Nat := []
  arriving : List Nat := []
  peerPhase : Nat := 0
  list : List (Nat × Nat × Nat) := []
  err : Option (Nat × Nat) := none
  asked : Nat := 0
  got : List (Nat × Nat × List Byte) := []
  ingest : List (Nat × List Byte) := []
  ord : Nat := 0
  leg : Nat := 0
  deriving DecidableEq, Repr

/-- An access held on a Departing or Arriving page (Table 9-4): tenancy, global address, data of a write or length of a read, and
what it notifies. `ch` is the channel of the crossing it waits for. -/
structure Held where
  ch : Nat
  ten : Nat
  ga : Nat
  write : Bool
  data : List Byte
  len : Nat
  dest : Option (Nat × Nat) := none
  notify : Notify
  deriving DecidableEq, Repr

/-- A translation operation in progress (R272): tenancy and the pages whose crossings it waits for. -/
structure XtOp where
  ten : Nat
  waits : List Nat
  deriving DecidableEq, Repr

/-- One translation of the address translation cache, or an outstanding Translation or Page Request (R273): function, 4 KiB page,
write permission, and for a request the channel it serves. -/
structure Atc where
  fn : Nat
  page : Nat
  write : Bool
  target : Nat := 0
  deriving DecidableEq, Repr

structure AtsReq where
  fn : Nat
  page : Nat
  write : Bool
  ch : Nat
  pri : Bool
  deriving DecidableEq, Repr

/-- A requester fenced at a memory arbiter (R290). -/
structure Arb where
  holder : Option Nat := none
  grant : Option Nat := none
  deriving DecidableEq, Repr

/-- A request at a memory arbiter: requester unit, whether it is the debug port, whether its tag is of Radio class. -/
structure MReq where
  unit : Nat
  debug : Bool
  radio : Bool
  deriving DecidableEq, Repr

/-- Address translation services of the functions (R273, R274). -/
structure AtsCtx where
  enabled : List Nat := []
  pri : List Nat := []
  priMax : List (Nat × Nat) := []
  cache : List Atc := []
  reqs : List AtsReq := []
  deriving DecidableEq, Repr

/-- Memory side of the device. `shadowing` are pages not yet read for a shadow (R403). `hashing` lists the declarations waiting for the hash engine, the first in progress
(tenancy, entry, command). -/
structure MemCtx where
  chans : List (Nat × Xfer) := []
  waiting : List Xfer := []
  held : List Held := []
  xtOp : Option XtOp := none
  xtFill : List Nat := []
  hashing : List (Nat × Nat × Nat) := []
  crossWait : List Nat := []
  ats : AtsCtx := {}
  fenced : List Nat := []
  arbs : List (Nat × Arb) := []
  refreshing : List Nat := []
  shadowing : List Nat := []
  deriving DecidableEq, Repr

/-- Bring-in of a spare in progress: logical unit number, spare physical unit. -/
structure BringIn where
  unit : Nat
  logical : Nat
  spare : Nat
  old : Nat
  deriving DecidableEq, Repr

/-- One control processor's checkpoint (R377): number of checkpoints taken and journal entries since the last. -/
structure CpTask where
  seq : Nat := 0
  journal : Nat := 0
  deriving DecidableEq, Repr

/-- The reliability unit beside its registers (chapter 12). `events` are the events that retirement policy counts over 24 hours
(unit, kind, place, time); `lost` lists unit IDs that do not work; `retiring` the units being retired, each with the index of the
record of its retirement; `causes` their cause ops; `lostRecs` the records of losses without a spare. `array` is the field repair array, one entry a used position, a bad position as 0; `repairing` the
entry being programmed and `pendingRepair` those that wait. `cpBusy` is a takeover in progress, the failed control processor and those that take over, and
`cpNext` the processors that failed meanwhile. `temps` and `volts` are the last sensor readings: by unit in 1/4 °C,
by die in mV (R496). -/
structure RasCtx where
  inflight : List FaultRec := []
  ring : List (Nat × FaultRec) := []
  kept : List FaultRec := []
  corr : List Nat := []
  buckets : List (Nat × Nat × Nat) := []
  steeping : List (Nat × Nat) := []
  events : List (Nat × Nat × Nat × Nat) := []
  retiring : List (Nat × Nat) := []
  lost : List Nat := []
  causes : List (Nat × Nat) := []
  lostRecs : List (Nat × Nat) := []
  array : List Nat := []
  repairing : Option Nat := none
  pendingRepair : List Nat := []
  rowMove : List Nat := []
  temps : List (Nat × Int) := []
  volts : List (Nat × Nat) := []
  cores : List BringIn := []
  rows : List (Nat × Nat × Nat) := []
  engines : List BringIn := []
  psCopies : List (Nat × Nat) := []
  psMap : List (Nat × Nat) := []
  cpTasks : List (Nat × CpTask) := []
  cpBusy : Option (Nat × Nat) := none
  cpNext : List Nat := []
  tastes : List Taste := []
  tasteSeq : Nat := 0
  escLost : Bool := false
  memEvents : List Nat := []
  deriving DecidableEq, Repr

end Sys2Proof.Machine
end

