-- ==== Sys2Proof/Machine/TypesPwr.lean ====
section
/-! DEFINITION. State of power, start-up, the save, the security root and the management side (chapters 16 to 18), and what they answer. -/

namespace Sys2Proof.Machine

/-- The hardware section of a save (R500): fault log, registers as they stood (key and value), device time, the last telemetry records. The manual gives
the section no byte layout. -/
structure HwSave where
  records : List FaultRec
  regs : List (Nat × Word)
  time : Nat
  telem : List (Nat × List Byte)
  deriving DecidableEq, Repr

/-- The header of the stored save (R502). -/
structure SaveHeader where
  time : Nat
  snapSeq : Nat
  torn : Bool
  validBlocks : Nat
  deriving DecidableEq, Repr

/-- An operation of SEC_OP_CTL under way (R487): op, tenancy, its result code (0 success), and for a passed unlock the scope. -/
structure SecOp where
  op : Nat
  ten : Nat
  code : Nat
  scope : Nat := 0
  deriving DecidableEq, Repr

/-- An answer of the management port or the I3C target (R507): op, status, sequence, payload, and for READ_SAVE the header. -/
structure MgtAns where
  op : Nat
  status : Nat
  seq : Nat
  data : List Byte
  header : Option SaveHeader := none
  deriving DecidableEq, Repr

/-- A management request as its fields name it (R507, Table 17-7). -/
inductive MgtReq where
  | readReg (off count : Nat)
  | readLog (idx count : Nat)
  | readTelem (idx count : Nat)
  | readSave
  | wake
  | deviceReset
  | setPkgLimit (w : Nat)
  | other (op : Nat)
  deriving DecidableEq, Repr

/-- An SPDM response (R473), as its fields name it. -/
inductive Spdm where
  | version
  | capabilities (ctExponent : Nat)
  | algorithms
  | digests (d : List Byte)
  | certificate (off : Nat) (data : List Byte)
  | challengeAuth (nonce : List Byte) (chain meas : List Byte) (sig : List Byte)
  | measurements (nonce : List Byte) (ms : List (Nat × List Byte)) (sig : List Byte)
  | unsupported
  deriving DecidableEq, Repr

/-- Power, start-up, save, security root and management beside their registers. Pins: `perst` PERST# low, `pwrfail` PWRFAIL_N low or high for less than 100 ms,
`saveAct`, `thermTrip`, `wakeN` the outputs as asserted. `linkDown` the PCIe link is down, `l23` it is in L2/L3 Ready, `removing` a removal waits for its
reset, `refDown` the reference clocks lost (group 0–3, 4 EREF). `held` is true from a reset until start-up begins, `deepExit` when start-up leaves Deep, `gated`
after a save or trip has gated the domains. `cut` is the thermal cut of a die in hundredths with the clock at its last change, `crit` the dies in critical
action with the clock since which they are cool, `hbmSlow` the stacks that accept one request in four cycles. `stagedTorn` marks the software section in the
staging buffer, `snapOk` the result of the snapshot under way, `restoring` a restore's destination not yet copied. `save` is the stored save, `saved` the
saving one, `saveRead` whether the stored one was read. `meas` are the measurements, `owners` the OTP owner records, oldest first
(owner modulus, KWK; log 44), `tap` and `tapHeld` the JTAG instruction in force and the one that waits for an unlock. `mgtWin` and
`i3cWin` hold a second of the clock and the requests counted in it. -/
structure PwrCtx where
  perst : Bool := false
  pwrfail : Bool := false
  saveAct : Bool := false
  thermTrip : Bool := false
  wakeN : Bool := false
  linkDown : Bool := false
  l23 : Bool := false
  removing : Bool := false
  refDown : List Nat := []
  held : Bool := true
  deepExit : Bool := false
  gated : Bool := false
  cut : List (Nat × Nat × Nat) := []
  crit : List (Nat × Option Nat) := []
  hbmSlow : List Nat := []
  spareMax : Nat := 0
  promptMax : Nat := 0
  startAt : Nat := 0
  stagedTorn : Bool := false
  snapOk : Option Bool := none
  restoring : Option Nat := none
  saving : Option HwSave := none
  save : Option (SaveHeader × HwSave) := none
  saveRead : Bool := false
  secOp : Option SecOp := none
  meas : List (Nat × List Byte) := []
  owners : List (List Byte × List Byte) := []
  tap : Option Nat := none
  tapHeld : Option Nat := none
  telem : List (Nat × List Byte) := []
  mgtWin : Nat × Nat := (0, 0)
  i3cWin : Nat × Nat := (0, 0)
  i3cDyn : Option Nat := none
  i3cAnswer : Option MgtAns := none
  alerts : List (Nat × Nat) := []
  deriving DecidableEq, Repr

end Sys2Proof.Machine
end

