-- ==== Sys2Proof/Machine/TypesRadio.lean ====
section
/-! DEFINITION. State of the fronthaul engine beside its registers (chapter 7). -/

namespace Sys2Proof.Machine

/-- A post in effect (R209): carrier, direction, slot, and the command whose leg posted. -/
structure Post where
  car : Nat
  dir : Nat
  slot : Nat
  sn : Nat
  deriving DecidableEq, Repr

/-- What was decided for a slot of a carrier at its deadline (R210, R215), and whether the slot is counted as muted. -/
structure SlotDec where
  car : Nat
  slot : Nat
  dl : Bool
  ul : Bool
  host : Bool
  counted : Bool := false
  deriving DecidableEq, Repr

/-- An egress frame (R204, R228, R231): queue, length with FCS, cost, arrival, close of its window for a U-plane frame; eCPRI message type (0 IQ data, 2
real-time control, 5 one-way delay), 802.1Q tag, eAxC ID, direction (0 downlink, 1 uplink), C-plane section type; carrier, slot, stream, symbol, and
what is sent. -/
structure EgFrame where
  q : Nat := 7
  len : Nat
  cost : Nat
  arr : Nat := 0
  close : Option Int := none
  mt : Nat
  vid : Option Nat
  eaxc : Nat := 0
  dir : Nat := 0
  sect : Nat := 0
  car : Nat := 0
  slot : Nat := 0
  stream : Nat := 0
  sym : Nat := 0
  startPrb : Nat := 0
  numPrb : Nat := 0
  reMask : Nat := 0xFFF
  beam : Nat := 0
  section_ : Nat := 0
  numSym : Nat := 1
  data : List Byte := []
  deriving DecidableEq, Repr

/-- A received fronthaul frame as its fields name it: EtherType after any tag, destination port where it is UDP, VLAN ID, eCPRI message type,
eAxC ID, sequence number, slot count and symbol, PRBs and payload of its section (of a PTP frame or a one-way delay message, its bytes), and its length
with FCS. -/
structure FhFrame where
  etherType : Nat
  udpPort : Option Nat
  vid : Option Nat
  mt : Nat
  eaxc : Nat
  seq : Nat
  slot : Nat
  sym : Nat
  startPrb : Nat
  numPrb : Nat
  payload : List Byte
  len : Nat
  deriving DecidableEq, Repr

/-- An accepted section: PRBs of one stream, or of PRACH for one antenna, for a symbol, with the data tag it carries (R138, R218). -/
structure Landed where
  car : Nat
  slot : Nat
  sym : Nat
  stream : Nat
  prach : Bool
  startPrb : Nat
  numPrb : Nat
  tag : List Byte
  deriving DecidableEq, Repr

/-- An accepted frame not yet landed (R231): its length, arrival, section and payload. -/
structure InFrame where
  len : Nat
  arr : Nat
  sect : Landed
  data : List Byte
  deriving DecidableEq, Repr

/-- The fronthaul engine. `buckets` are flow token counts in 1/1,024 byte with the device time of their last update; `frames`
counts landed and window-dropped frames of an uplink symbol (carrier, slot, symbol, landed, dropped); `waits` are the frames of each port that wait for their
flow's tokens, with their flow, in order; `lateSyms` the
stream and symbol whose egress frames are dropped; `busy` the time at which each port's line is free; `isoFrom` and `isoUntil` bound the
mute of an isolated or removed device (R399). -/
structure RadioCtx where
  posts : List Post := []
  decs : List SlotDec := []
  svcFrom : Option Int := none
  svcUntil : Option Int := none
  isoFrom : Option Int := none
  isoUntil : Option Int := none
  buckets : List (Nat × Nat × Nat) := []
  waits : List (Nat × List (Option Nat × EgFrame)) := []
  egress : List (Nat × List EgFrame) := []
  ingress : List (Nat × List InFrame) := []
  busy : List (Nat × Nat) := []
  landed : List Landed := []
  frames : List (Nat × Nat × Nat × Nat × Nat) := []
  lateSyms : List (Nat × Nat × Nat × Nat) := []
  seqs : List (Nat × Nat) := []
  deriving DecidableEq, Repr

end Sys2Proof.Machine
end

