-- ==== Sys2Proof/Machine/TypesRoute.lean ====
section
/-! DEFINITION. State of the routing engines beside their registers (chapter 8), and of determinism (chapter 14). -/

namespace Sys2Proof.Machine

/-- A logit tile taken by a route: band, column tile, order of arrival, FP32 codes of its 64 elements. -/
structure LTile where
  band : Nat
  col : Nat
  order : Nat
  vals : List Nat
  deriving DecidableEq, Repr

/-- A route or blend in a context: its 128-byte descriptor, what the RTSUBMIT named, the mode then in force, the bias store once loaded, the
tiles taken, bad tiles, and the cycle of the RTSUBMIT. -/
structure Route where
  desc : List Byte
  core : Nat
  serial : Nat
  tok : Nat
  leg : Nat
  ten : Nat
  mid : Nat
  sn : Nat
  fixed : Bool
  started : Nat
  bias : Option (List Nat) := none
  tiles : List LTile := []
  dup : Nat := 0
  deriving DecidableEq, Repr

/-- A logit tile at an engine's input (R243, R244): engine, context, sending core, the serial of its leg while that leg waits with it (0 for none), data tag, band,
column tile, out_fmt, payload. -/
structure RIn where
  e : Nat
  x : Nat
  src : Nat
  serial : Nat := 0
  tag : List Byte
  band : Nat
  col : Nat
  fmt : Nat
  data : List Byte
  deriving DecidableEq, Repr

/-- Inputs of the engines: waiting tiles in order of arrival, tiles taken by an engine in a cycle (engine, cycle, tiles), and the context last served
(8 · engine + class). -/
structure RteIn where
  waiting : List RIn := []
  took : List (Nat × Nat × Nat) := []
  last : List (Nat × Nat) := []
  deriving DecidableEq, Repr

/-- A route context: the start number of the command it is bound to (0 free), its engine position, its route or blend. -/
structure RCtx where
  sn : Nat := 0
  pos : Nat := 0
  route : Option Route := none
  deriving DecidableEq, Repr

/-- One ingest of a step (R434): step, key bytes, digest. -/
structure Ingest where
  step : Nat
  key : List Byte
  digest : List Byte
  deriving DecidableEq, Repr

/-- Determinism state of a tenancy: ingests, manifest hashes of RUNs that ran a leg, with the step and the caddy flag, the weight list and
weight-set hash of the last commit, its pages, its ranges in space 8, and whether fixed order changed with work already started. -/
structure DetCtx where
  ingests : List Ingest := []
  manifests : List (Nat × List Byte × Bool) := []
  wlist : List Nat := []
  whash : List Byte := []
  wpages : List Nat := []
  wranges : List (Nat × Nat) := []
  mixed : Bool := false
  deriving DecidableEq, Repr

end Sys2Proof.Machine
end

