-- ==== Sys2Proof/Machine/TypesTime.lean ====
section
/-! DEFINITION. State of the timing unit beside its registers: domains, holdover, SyncE, pulse outputs, capture FIFOs, PPS_IN (chapter 6). -/

namespace Sys2Proof.Machine

/-- A timing domain: its last offset estimates, newest first and at most 16 (R185), whether it has been locked for
requalify_ms, its offset from device time now, which offset_ns shows saturated, and the absolute value of the last estimate (R189). -/
structure Dom where
  hist : List Int := []
  qual : Bool := false
  off : Int := 0
  last : Nat := 0
  deriving DecidableEq, Repr

/-- A capture stamp (Tables 6-19 and 6-20). -/
structure Stamp where
  falling : Bool
  gen : Nat
  time : Nat
  deriving DecidableEq, Repr

/-- A pulse output: whether a rising edge is scheduled and its device time, whether a pulse is under way and the device time of its falling edge, and
whether the pin is driven. -/
structure Pulse where
  armed : Bool := false
  next : Nat := 0
  high : Bool := false
  fall : Nat := 0
  level : Bool := false
  deriving DecidableEq, Repr

/-- A PTP frame with its stamp at the reference plane in 1/144 ns: one received and diverted to the timing unit, or an event message sent in two-step form. -/
structure PtpFrame where
  port : Nat
  stamp : Int
  data : List Byte
  deriving DecidableEq, Repr

/-- The timing unit. `holdMs` counts milliseconds of holdover, `holdErr` is the estimate in ns times
7,200,000,000,000, `holdE0` the entry error in ns. `slewAcc` is the phase correction due and not yet taken, in 10⁻⁹ of
1/144 ns, and `slewFrac` the sixteenths of a nanosecond taken since offset_ns last moved (R186). Symbols whose
window opens from `doubtFrom` on and that start before `doubtUntil` are muted for doubt (Table 7-11). `capLast` and `ppsLast` are ACLK cycles of the last accepted edges,
so that a step of device time does not move them (R199, R201). `locked` tells that a domain has been selected since reset, and `announced` is the clockClass
that master ports announce (R191). -/
structure TimeCtx where
  latch : List (Nat × Nat × Nat) := []
  doms : List (Nat × Dom) := []
  holdMs : Nat := 0
  holdE0 : Nat := 0
  holdErr : Nat := 0
  doubtFrom : Option Int := some 0
  doubtUntil : Option Int := none
  trefBad : Bool := false
  trefQual : Bool := true
  frames : List PtpFrame := []
  txStamps : List PtpFrame := []
  locked : Bool := false
  announced : Nat := 248
  fifos : List (Nat × List Stamp) := []
  slewAcc : Nat := 0
  slewFrac : Nat := 0
  capLast : List (Nat × Nat) := []
  ppsLast : Option Nat := none
  todFresh : Bool := false
  todPrev : Nat := 0
  pulses : List (Nat × Pulse) := []
  deriving DecidableEq, Repr

end Sys2Proof.Machine
end

