-- ==== Sys2Proof/Machine/TypesOut.lean ====
section
/-! DEFINITION. What the block has put on its pins and links since reset: one record per message, packet, frame or edge, newest
first. The list is the model's own (log 4): it makes the outward side of a command part of the state. -/

namespace Sys2Proof.Machine

/-- Something the device sent. -/
inductive Sent where
  | readAnswer (fn off size value : Nat)
  | debugAnswer (off : Nat) (data : List Byte)
  | msix (fn vec addr data : Nat)
  | towed (core dev dst : Nat) (data : List Byte)
  | atsRequest (fn page : Nat) (write : Bool)
  | pageRequest (fn page : Nat) (write : Bool)
  | atsInvalidated (fn page : Nat)
  | chunk (ch dst : Nat) (data : List Byte)
  | sync (port : Nat) (data : List Byte)
  | announce (ports cls : Nat)
  | pulse (n : Nat) (high : Bool) (time : Nat)
  | packet (port : Nat) (data : List Byte)
  | flit (port header : Nat) (data : List Byte)
  | control (port header : Nat) (c : Ctl)
  | nak (port last : Nat)
  | replay (port first count : Nat)
  | muster (port dst op : Nat) (m : Muster)
  | shadow (dst ten step : Nat) (x : ShadowItem)
  | shadowAck (dst ten step : Nat) (ok : Bool)
  | logMirror (dst ten : Nat) (r : LogRec)
  | logAck (dst ten order : Nat)
  | pmeAck
  | ibi (code : Nat)
  | i3cId (pid : Nat)
  | mgt (i3c : Bool) (a : MgtAns)
  | spdm (r : Spdm)
  | fronthaul (port : Nat) (f : EgFrame) (time : Nat)
  deriving DecidableEq, Repr

/-- Where and when an instruction of a leg issues: a logical core and the cycle of its leg. -/
structure LegAt where
  n : Nat
  cyc : Nat
  deriving DecidableEq, Repr

/-- An access of BAR0: offset, size in bytes, whether it writes. -/
structure BadAccess where
  off : Nat
  size : Nat
  write : Bool
  deriving DecidableEq, Repr

/-- What a fronthaul frame is made of: section record `k` of a slot's buffer, or with `m` the mute of stream `k`. -/
structure TxSect where
  k : Nat
  m : Bool
  deriving DecidableEq, Repr

/-- An error of stored data: the store kind (R366) and the address. -/
structure StoreErr where
  kind : Nat
  ga : Nat
  deriving DecidableEq, Repr

/-- Addresses of a management datagram: the sender's MAC, and the IPv4 address it is sent to, none over IPv6. -/
structure MgtPeer where
  mac : Nat
  ip : Option Nat
  deriving DecidableEq, Repr

end Sys2Proof.Machine
end

