-- ==== Sys2Proof/Syntax.lean ====
section
/-! DEFINITION. The commands of the block: one constructor per row of the opcode table, with the operands that the row's rule gives it (the table's rows
carry none; log 20). A command is a write or read from the host, a packet, frame or datagram that arrives, an event on a pin, or an event of one of the
block's own engines, each of which the table lists. Throughout, `fn` is the PCIe function of a host access (0 the PF, t VF t), `value` the value
written, `t` a tenancy, `q` a queue, `n` a logical core, `cyc` a leg cycle, `tok` a token, `e` and `x` a routing engine and context, `c` a carrier, `sl` a slot
count, `l` a symbol, `ch` a transfer channel, `u` a unit ID, `src` and `dev` device IDs, `p` a port, `b` the bytes of a packet; what else a command
carries stands at its constructor. Lean's runtime builds at most 245 kinds of constructor that have fields, so the rows most seldom run on values
come last of those. -/

namespace Sys2Proof

open Machine in
/-- A command from outside, or an event of the block's own engines, as the opcode table lists them. -/
inductive Instr where
  /-- REGISTER_WRITE (R7): a write of `size` bytes at BAR0 offset `off`. -/
  | registerWrite (fn off size value : Nat)
  /-- BAR0_BAD_ACCESS (R11): `a` its BAR0 offset and size, and whether it writes. -/
  | bar0BadAccess (fn : Nat) (a : BadAccess)
  /-- LEG_START (R63). -/
  | legStart (n : Nat)
  /-- LEG_END (R65): `cyc` the leg cycle of the end instruction, `test` the outcome of a periodic test leg, 0 for another leg. -/
  | legEnd (n cyc test : Nat)
  /-- LEG_OVERRUN (R66). -/
  | legOverrun (n : Nat)
  /-- LEG_DISCARD (R66). -/
  | legDiscard (n : Nat)
  /-- CORE_RECOVERY_DONE (R66). -/
  | coreRecoveryDone (n : Nat)
  /-- PASS_DESCRIPTOR_ISSUE (R33): `q` the quad, `parts` one part for each cube. -/
  | passDescriptorIssue (n cyc q : Nat) (parts : List PassDesc)
  /-- FEEDER_POP (R35): `u` the cube. -/
  | feederPop (w : LegAt) (u : Nat)
  /-- FEEDER_FILL (R36): `isB` a fill of the B queue. -/
  | feederFill (n u : Nat) (isB : Bool)
  /-- EPILOGUE_PASS (R97): `u` the cube whose accumulator bank is complete. -/
  | epiloguePass (n u : Nat)
  /-- TOWED_TILE_ARRIVAL (R103): `tag` the 16 tag bytes, `tok` the landing token, `expAddr` the place of a CBF16 exponent. -/
  | towedTileArrival (n : Nat) (tag : List Byte) (addr : Nat) (tok expAddr : Option Nat) (data : List Byte)
  /-- TOKEN_SET (R63). -/
  | tokenSet (n tok : Nat)
  /-- TOKEN_WAIT (R63): `lane` a wait of the signal lane. -/
  | tokenWait (w : LegAt) (tok : Nat) (lane : Bool)
  /-- START_SIGNAL_LANE (R42). -/
  | startSignalLane (n addr : Nat)
  /-- SEQ_MOVE (R287): `ts` the tile-store address, `pool` the die-pool offset. -/
  | seqMove (n : Nat) (toPool : Bool) (ts pool len : Nat) (tok : Option Nat)
  /-- SIGNAL_LANE_OP (R42): `cyc` the leg cycle of issue. -/
  | signalLaneOp (n cyc : Nat) (op : LaneOp)
  /-- SIGNAL_LANE_LOAD (R44): `bus` 0 X, 1 Y, 2 Z; `v` the vector register; `setup` a new Z generator. -/
  | signalLaneLoad (n cyc bus v addr : Nat) (setup : Option ZGen)
  /-- W_STORE (R91): `srcs` the vector registers, `recAddr` the place of the exponent record. -/
  | wStore (n cyc : Nat) (srcs : List Nat) (ty : WTy) (dst : WDst) (scaled : Bool) (addr recAddr : Nat)
  /-- REPEAT (R47): `body` the address of the body, `len` its instructions. -/
  | repeat_ (n cyc body len count : Nat)
  /-- REPEAT_CACHE_PARITY_ERROR (R49). -/
  | repeatCacheParityError (n : Nat)
  /-- SHSET (R90). -/
  | shset (w : LegAt) (t lo hi : Int)
  /-- EXPSET (R90): `value` the scalar register's value. -/
  | expset (w : LegAt) (sreg value : Nat)
  /-- BECLR (R89). -/
  | beclr (w : LegAt)
  /-- DIVSETUP (R94): `a`, `b` the vector registers of dividend and divisor. -/
  | divsetup (n cyc a b : Nat)
  /-- DIVSETUP_F (R95). -/
  | divsetupF (n cyc a b : Nat)
  /-- DIVISION_STEP (R93). -/
  | divisionStep (n cyc : Nat)
  /-- DIVQ15 (R94). -/
  | divq15 (n cyc v : Nat)
  /-- DIVRND (R95). -/
  | divrnd (n cyc v : Nat)
  /-- RSLOAD (R106): `base` the first entry of the row-scale buffer. -/
  | rsload (n q ts base count : Nat)
  /-- TILE_STORE_BANK_GRANT (R51): `b` the bank, `reqs` the requesters present with the address each asks for, `cyc` the leg cycle that the grant is for. -/
  | tileStoreBankGrant (n b : Nat) (reqs : List (Nat × Nat)) (withdrawn keep : Bool) (cyc : Option Nat)
  /-- BANK_WATCHDOG_FIRE (R56). -/
  | bankWatchdogFire (n b : Nat)
  /-- DEBUG_ACCESS (R57): `data` the bytes of a write, none for a read. -/
  | debugAccess (off len : Nat) (data : Option (List Byte))
  /-- TILE_STORE_UNCORRECTABLE (R59). -/
  | tileStoreUncorrectable (n addr : Nat)
  /-- TSPART_ADOPTION (R62). -/
  | tspartAdoption (n : Nat)
  /-- DUTY_FRAME (R167). -/
  | dutyFrame (die : Nat)
  /-- POWER_CONTROL_UPDATE (R497): package power and that of the compute dies in mW. -/
  | powerControlUpdate (pkg p0 p1 p2 p3 : Nat)
  /-- SQ_DOORBELL (R128): a write of 32 or 64 bits, of which the lower 32 act. -/
  | sqDoorbell (fn q value : Nat)
  /-- CQ_DOORBELL (R128): a write of 32 or 64 bits, of which the lower 32 act. -/
  | cqDoorbell (fn q value : Nat)
  /-- DOORBELL_BAD_WRITE (R127): `off` the offset in BAR2. -/
  | doorbellBadWrite (fn off : Nat)
  /-- SUBMISSION_FETCH (R129): `resp` the host's answer: 0 data, 1 poisoned, 2 refused. -/
  | submissionFetch (q resp : Nat)
  /-- COMPLETION_POST (R136). -/
  | completionPost (q : Nat)
  /-- RUN (R116): `img`, `hdr` what a peer answers where the image or the argument block lies there. -/
  | run (q : Nat) (img hdr : PeerAns)
  /-- CROSS_DECLARE (R278). -/
  | crossDeclare (q : Nat)
  /-- CROSS_CROSSING (R279). -/
  | crossCrossing (q : Nat)
  /-- CROSS_RELEASE (R278). -/
  | crossRelease (q : Nat)
  /-- COLL_SHIFT (R338). -/
  | collShift (q : Nat)
  /-- COLL_PERMUTE (R339). -/
  | collPermute (q : Nat)
  /-- COLL_DISPATCH (R340). -/
  | collDispatch (q : Nat)
  /-- COLL_RETURN (R341). -/
  | collReturn (q : Nat)
  /-- COLL_REDUCE (R344). -/
  | collReduce (q : Nat)
  /-- SIGNAL (R131). -/
  | signal (q : Nat)
  /-- WAIT (R131). -/
  | wait (q : Nat)
  /-- FENCE (R131). -/
  | fence (q : Nat)
  /-- BATCH_JOIN (R171). -/
  | batchJoin (q : Nat)
  /-- BATCH_LEAVE (R170). -/
  | batchLeave (q : Nat)
  /-- CFG_TXN_BEGIN (R147). -/
  | cfgTxnBegin (q : Nat)
  /-- CFG_TXN_COMMIT (R143). -/
  | cfgTxnCommit (q : Nat)
  /-- CFG_TXN_ROLLBACK (R147). -/
  | cfgTxnRollback (q : Nat)
  /-- TXN_VALIDATION (R144). -/
  | txnValidation (t : Nat)
  /-- TXN_TAKE_EFFECT (R145). -/
  | txnTakeEffect (t : Nat)
  /-- TXN_COMMIT_TIMEOUT (R146). -/
  | txnCommitTimeout (t : Nat)
  /-- TIMETABLE_LOAD (R156): `a` what a peer answers where the image lies there. -/
  | timetableLoad (q : Nat) (a : PeerAns)
  /-- TIMETABLE_PLACEMENT_DONE (R158): `k` the timetable slot. -/
  | timetablePlacementDone (k : Nat) (a : PeerAns)
  /-- TIMETABLE_IN_FORCE (R158). -/
  | timetableInForce (k : Nat)
  /-- STEP_COMMIT (R435). -/
  | stepCommit (q : Nat)
  /-- LOG_MARK (R406). -/
  | logMark (q : Nat)
  /-- STEP_BOUNDARY (R170). -/
  | stepBoundary (t : Nat)
  /-- QUE_CFG_WRITE (R123). -/
  | queCfgWrite (fn q value : Nat)
  /-- QUEUE_ENABLE (R124). -/
  | queueEnable (fn q : Nat)
  /-- QUEUE_RESUME (R126). -/
  | queueResume (fn q : Nat)
  /-- QUEUE_RESET (R126). -/
  | queueReset (fn q : Nat)
  /-- QUEUE_DRAINED (R126). -/
  | queueDrained (q : Nat)
  /-- EVENT_ARRAY_SETUP (R125). -/
  | eventArraySetup (fn t value : Nat)
  /-- EVENT_ARRAY_FILL_DONE (R125). -/
  | eventArrayFillDone (t : Nat)
  /-- LEG_PLACE (R161): `a` what a peer answers where code lies there. -/
  | legPlace (n : Nat) (a : PeerAns)
  /-- PREEMPT_WAIT_EXPIRY (R151): `sn` the serial number of the started command. -/
  | preemptWaitExpiry (sn : Nat)
  /-- RADIO_WINDOW_CHECK (R163): `k` the timetable slot, `sl` the target slot, `w` the window. -/
  | radioWindowCheck (k sl w : Nat)
  /-- RESERVE_COUNT_APPLY (R162). -/
  | reserveCountApply (n : Nat)
  /-- KVGET (R172). -/
  | kvget (n tok seq : Nat)
  /-- EVICTION_CROSSING_DONE (R174). -/
  | evictionCrossingDone (t seq page : Nat)
  /-- TIM_NOW_S_READ (R180). -/
  | timNowSRead (fn : Nat)
  /-- PTP_FRAME_RX (R181): `port` 0–3 E0–E3, 4 M0; `frame` the Ethernet frame without its check sequence. -/
  | ptpFrameRx (port : Nat) (frame : List Byte)
  /-- SYNC_TX (R183): `frame` the Ethernet frame without its check sequence. -/
  | syncTx (port : Nat) (frame : List Byte)
  /-- DOMAIN_UPDATE (R185): `off` the offset in ns, `cls` the clock class. -/
  | domainUpdate (k : Nat) (off : Int) (cls : Nat)
  /-- DOMAIN_LOSS_TIMEOUT (R185). -/
  | domainLossTimeout (k : Nat)
  /-- REQUALIFY_EXPIRY (R190). -/
  | requalifyExpiry (k : Nat)
  /-- ESMC_RX (R192). -/
  | esmcRx (port ssm : Nat)
  /-- SLOT_BOUNDARY (R194): `mu` the numerology. -/
  | slotBoundary (mu : Nat)
  /-- PPS_ENABLE (R197): `k` the pulse output. -/
  | ppsEnable (fn k value : Nat)
  /-- PULSE_EDGE (R198). -/
  | pulseEdge (k : Nat)
  /-- CAPTURE_EDGE (R199): `k` the capture input. -/
  | captureEdge (k : Nat) (falling : Bool)
  /-- CAP_NS_READ (R200). -/
  | capNsRead (fn k : Nat)
  /-- PPS_IN_EDGE (R201): `held` the level lasted long enough. -/
  | ppsInEdge (held : Bool)
  /-- FHPOST (R209): `dir` 0 downlink, 1 uplink; `sl` the slot. -/
  | fhpost (n dir c sl : Nat)
  /-- SLOT_DEADLINE (R210). -/
  | slotDeadline (c sl : Nat)
  /-- CPLANE_TX (R213): `x` the section. -/
  | cplaneTx (c dir sl : Nat) (x : TxSect)
  /-- UPLANE_TX (R228): `l` the symbol, `x` the section, `part` the part of a long section. -/
  | uplaneTx (c sl : Nat) (x : TxSect) (l part : Nat)
  /-- FRONTHAUL_FRAME_RX (R217). -/
  | fronthaulFrameRx (port : Nat) (f : FhFrame)
  /-- UL_WINDOW_OPEN (R218). -/
  | ulWindowOpen (c sl l : Nat)
  /-- UL_WINDOW_CLOSE (R219). -/
  | ulWindowClose (c sl l : Nat)
  /-- MUTE_CTL_WRITE (R215). -/
  | muteCtlWrite (fn value : Nat)
  /-- SOFT_MOVE (R225): `ga` the global address of the soft buffer, `ts` the tile-store address. -/
  | softMove (n ga ts len : Nat) (tok : Option Nat)
  /-- RTSUBMIT (R235): `pos` the position among the command's engine contexts, `desc` the descriptor's tile-store address. -/
  | rtsubmit (n pos desc tok : Nat)
  /-- LOGIT_TILE_ARRIVAL (R241): `src` the sending core, `fmt` the form's out_fmt. -/
  | logitTileArrival (e x src : Nat) (tag : List Byte) (band col fmt : Nat) (data : List Byte)
  /-- ROUTE_SORT (R251). -/
  | routeSort (e x : Nat)
  /-- BLEND (R256). -/
  | blend (e x : Nat)
  /-- ENGINE_BRING_IN (R375): `passed` the outcome of the spare's test. -/
  | engineBringIn (e : Nat) (passed : Bool)
  /-- XT_ENABLE (R271). -/
  | xtEnable (fn t : Nat)
  /-- XT_DISABLE (R271). -/
  | xtDisable (fn t : Nat)
  /-- XT_MAP (R272): `write` and `ppn` of the entry. -/
  | xtMap (fn : Nat) (write : Bool) (ppn : Nat)
  /-- XT_UNMAP (R272). -/
  | xtUnmap (fn : Nat)
  /-- XT_RECLAIM (R272). -/
  | xtReclaim (fn : Nat)
  /-- PRG_RESPONSE_RX (R273): `page` the host page, `code` 0 Success. -/
  | prgResponseRx (fn page code : Nat)
  /-- PRI_TIMEOUT (R273). -/
  | priTimeout (fn page : Nat)
  /-- ATS_INVALIDATION_RX (R274). -/
  | atsInvalidationRx (fn page : Nat)
  /-- CHUNK_LANDED (R279): `k` the chunk, `data` what a peer answered where the source lies there. -/
  | chunkLanded (ch k : Nat) (data : List Byte)
  /-- CROSSING_FLIP (R279). -/
  | crossingFlip (ch : Nat)
  /-- DMAGO (R286): `src`, `dst` global addresses. -/
  | dmago (n src dst len tok : Nat)
  /-- CHUNK_FAULT (R288): `hostErr` the host answered an untranslated request with an error. -/
  | chunkFault (ch : Nat) (hostErr : Bool)
  /-- CHAN_RESUME (R288). -/
  | chanResume (fn ch : Nat)
  /-- CHAN_ABORT (R288). -/
  | chanAbort (fn ch : Nat)
  /-- CHAN_SERVICE_TIMEOUT (R288). -/
  | chanServiceTimeout (ch : Nat)
  /-- CHANNEL_UNCORRECTABLE (R289): `w` the error. -/
  | channelUncorrectable (ch : Nat) (w : StoreErr)
  /-- MEM_ARBITER_GRANT (R290): `unit` the bank or channel. -/
  | memArbiterGrant (unit : Nat) (reqs : List MReq) (withdrawn inService : Bool)
  /-- MEM_ARB_WATCHDOG_FIRE (R290): `u` the fenced requester. -/
  | memArbWatchdogFire (u : Nat)
  /-- REFRESH (R291). -/
  | refresh (u : Nat) (begins : Bool)
  /-- SCRUB_READ (R292): `res` 0 clean, 1 corrected, 2 uncorrectable. -/
  | scrubRead (sp off res row : Nat)
  /-- CORRECTED_WRITE_BACK (R358). -/
  | correctedWriteBack (u : Nat)
  /-- LANE_FAIL (R296): `p` the port. -/
  | laneFail (p lane : Nat)
  /-- PORT_TRAINED (R297). -/
  | portTrained (p lanes : Nat)
  /-- PORT_DOWN (R302). -/
  | portDown (p : Nat)
  /-- FLIT_RX (R301): `ctl` what a control flit's payload says. -/
  | flitRx (p hdr : Nat) (payload : List Byte) (crc : Nat) (ctl : Ctl)
  /-- REPLAY_TIMEOUT (R302). -/
  | replayTimeout (p : Nat)
  /-- PATH_RETURN (R310). -/
  | pathReturn (p : Nat)
  /-- RLOAD (R311). -/
  | rload (n ts ga len tok : Nat)
  /-- RSTORE (R311). -/
  | rstore (n ga ts len tok : Nat)
  /-- RATOM (R311): `sv`, `sc`, `sd` scalar registers of value, comparand and result. -/
  | ratom (n op ga sv sc sd tok : Nat)
  /-- READ_RX (R317): `b` the packet's bytes. -/
  | readRx (b : List Byte)
  /-- WRITE_RX (R317). -/
  | writeRx (b : List Byte)
  /-- ATOMIC_RX (R322). -/
  | atomicRx (b : List Byte)
  /-- LINE_SERIALISER_ACCESS (R324): `k` the place of the waiting request. -/
  | lineSerialiserAccess (k : Nat)
  /-- READ_RSP_RX (R319). -/
  | readRspRx (b : List Byte)
  /-- WRITE_ACK_RX (R319). -/
  | writeAckRx (b : List Byte)
  /-- ATOMIC_RSP_RX (R322). -/
  | atomicRspRx (b : List Byte)
  /-- ERROR_RSP_RX (R319). -/
  | errorRspRx (b : List Byte)
  /-- RECEIPT_RX (R308). -/
  | receiptRx (b : List Byte)
  /-- XNAK_RX (R308). -/
  | xnakRx (b : List Byte)
  /-- HOLD_RX (R320). -/
  | holdRx (b : List Byte)
  /-- CREDIT_RX (R306). -/
  | creditRx (b : List Byte)
  /-- REPLY_ACK_RX (R322). -/
  | replyAckRx (b : List Byte)
  /-- RESEND_TIMEOUT (R308): `k` the place of the unanswered request. -/
  | resendTimeout (k : Nat)
  /-- REMOTE_REQUEST_TIMEOUT (R320). -/
  | remoteRequestTimeout (k : Nat)
  /-- RECEIPT_TIMER (R318). -/
  | receiptTimer (k : Nat)
  /-- REPLY_CACHE_EXPIRY (R322): `k` the place in the reply cache. -/
  | replyCacheExpiry (k : Nat)
  /-- PREPARE_RX (R327). -/
  | prepareRx (b : List Byte)
  /-- PREPARE_ACK_RX (R327). -/
  | prepareAckRx (b : List Byte)
  /-- OPEN_RX (R327). -/
  | openRx (b : List Byte)
  /-- OPEN_ACK_RX (R327). -/
  | openAckRx (b : List Byte)
  /-- PEER_FLIP_RESEND (R327): `k` the place of the peer flip. -/
  | peerFlipResend (k : Nat)
  /-- PREPARE_TIMEOUT (R327). -/
  | prepareTimeout (k : Nat)
  /-- COLL_DATA_RX (R336). -/
  | collDataRx (b : List Byte)
  /-- RED_GRANT_RX (R345). -/
  | redGrantRx (b : List Byte)
  /-- RED_DECLINED_RX (R348). -/
  | redDeclinedRx (b : List Byte)
  /-- RED_RESULT_RX (R345). -/
  | redResultRx (b : List Byte)
  /-- RED_DONE_RX (R346). -/
  | redDoneRx (b : List Byte)
  /-- RED_WAIT_RX (R347). -/
  | redWaitRx (b : List Byte)
  /-- RED_ABORT_RX (R347). -/
  | redAbortRx (b : List Byte)
  /-- RED_OPEN_TIMEOUT (R344): `k` the place of the collective. -/
  | redOpenTimeout (k : Nat)
  /-- RED_WAIT_TIMEOUT (R347). -/
  | redWaitTimeout (k : Nat)
  /-- CORRECTABLE_ERROR (R366): `row` the row, `place` 0 operand read or fetch, 1 System page, 2 control-complex SRAM, 3 elsewhere. -/
  | correctableError (u kind row place : Nat)
  /-- FAULT_RECORD_LOGGED (R361): `k` the place in the in-flight queue. -/
  | faultRecordLogged (k : Nat)
  /-- DEVICE_RESET (R368): `page` an error in a System page. -/
  | deviceReset (unit kind : Nat) (page : Bool)
  /-- REPAIR_PROGRAM (R371). -/
  | repairProgram (fn : Nat)
  /-- REPAIR_PROGRAM_DONE (R371): `good` verified. -/
  | repairProgramDone (good : Bool)
  /-- RETIRE_UNIT (R372). -/
  | retireUnit (fn u : Nat)
  /-- START_STEEPING (R384). -/
  | startSteeping (fn u : Nat)
  /-- END_STEEPING (R384). -/
  | endSteeping (fn u : Nat)
  /-- STEEPING_EXPIRY (R384). -/
  | steepingExpiry (u : Nat)
  /-- CORE_BRING_IN (R373). -/
  | coreBringIn (n : Nat)
  /-- CUBE_ROW_BRING_IN (R374). -/
  | cubeRowBringIn (n : Nat)
  /-- PSEUDO_CHANNEL_COPY (R376). -/
  | pseudoChannelCopy (u : Nat)
  /-- PSEUDO_CHANNEL_COPY_DONE (R376). -/
  | pseudoChannelCopyDone (u : Nat)
  /-- CP_CHECKPOINT (R377): `k` the control processor. -/
  | cpCheckpoint (k : Nat)
  /-- CP_FAILURE (R378). -/
  | cpFailure (k : Nat)
  /-- TASTE_LEG (R381): `equal` the outcome of the comparison. -/
  | tasteLeg (n : Nat) (equal : Bool)
  /-- TASTE_ARBITRATION (R382): `verdict` 1 original wrong, 2 taster wrong, 3 undecided. -/
  | tasteArbitration (n verdict : Nat)
  /-- PERIODIC_TEST_DUE (R385): `late` its interval plus 10 % has passed. -/
  | periodicTestDue (n : Nat) (late : Bool)
  /-- MUSTER_ENABLE (R391). -/
  | musterEnable (fn value : Nat)
  /-- HEARTBEAT_RX (R393): `src` the sending device. -/
  | heartbeatRx (src : Nat)
  /-- BEACON_RX (R395). -/
  | beaconRx (src : Nat)
  /-- PROBE_RX (R393). -/
  | probeRx (src : Nat)
  /-- PROBE_ACK_RX (R393). -/
  | probeAckRx (src : Nat)
  /-- PROBE_TIMEOUT (R393). -/
  | probeTimeout (dev : Nat)
  /-- REMOVE_RX (R394). -/
  | removeRx (src dev : Nat)
  /-- JOIN_RX (R391): `capable` it may be a manager. -/
  | joinRx (dev : Nat) (capable : Bool)
  /-- LEAVE_RX (R394). -/
  | leaveRx (src : Nat)
  /-- EPOCH_ISSUE (R394): `lossy` the removed devices whose loss is a double loss. -/
  | epochIssue (lossy : List Nat)
  /-- EPOCH_RX (R397). -/
  | epochRx (src : Nat) (m : Muster)
  /-- EPOCH_ACK_RX (R397). -/
  | epochAckRx (src : Nat)
  /-- MANAGER_TAKEOVER (R395): `sys` the system manager's role. -/
  | managerTakeover (sys : Bool)
  /-- ISOLATE_RX (R399). -/
  | isolateRx (src : Nat)
  /-- SHADOW_PAGE_READ (R403). -/
  | shadowPageRead (t : Nat)
  /-- SHADOW_ACK_RX (R403). -/
  | shadowAckRx (src t step : Nat) (ok : Bool)
  /-- LOG_HOLD_TIMEOUT (R407). -/
  | logHoldTimeout (t : Nat)
  /-- RESTORE_START (R409). -/
  | restoreStart (fn value : Nat)
  /-- RESTORE_DONE (R409): `img` what was fetched. -/
  | restoreDone (ok : Bool) (img : Restored)
  /-- TENANCY_QUIESCE (R453). -/
  | tenancyQuiesce (fn t : Nat)
  /-- TENANCY_QUIESCED (R453). -/
  | tenancyQuiesced (t : Nat)
  /-- TENANCY_RESUME (R454). -/
  | tenancyResume (fn t : Nat)
  /-- TENANCY_RESET (R455): `flr` a Function Level Reset of VF t. -/
  | tenancyReset (fn t : Nat) (flr : Bool)
  /-- TENANCY_RESET_DONE (R455). -/
  | tenancyResetDone (t : Nat)
  /-- IRQ_GAP_EXPIRY (R452): `v` the vector. -/
  | irqGapExpiry (fn v : Nat)
  /-- DLOG_ENABLE (R459). -/
  | dlogEnable (fn t value : Nat)
  /-- DLOG_SWAP (R459). -/
  | dlogSwap (fn t value : Nat)
  /-- DLOG_SWAP_DONE (R459). -/
  | dlogSwapDone (t : Nat)
  /-- QUEUE_POSITION_START (R462). -/
  | queuePositionStart (fn value : Nat)
  /-- STARTUP (R494): `deassert` PERST# has been high for 1 µs; else a device reset has ended. -/
  | startup (deassert : Bool)
  /-- IMAGE_VERIFIED (R469): `a`, `b` the copies as the flash holds them. -/
  | imageVerified (a b : List Byte)
  /-- BUILT_IN_TEST_DONE (R360): `failing` the units that failed. -/
  | builtInTestDone (failing : List Nat)
  /-- ARB_ADVANCE (R471). -/
  | arbAdvance (fn : Nat)
  /-- OWNER_ENROL (R474): `resp` the host's answer to the read of the blob. -/
  | ownerEnrol (fn value resp : Nat)
  /-- FABRIC_KEY_IMPORT (R482). -/
  | fabricKeyImport (fn value resp : Nat)
  /-- FABRIC_KEY_ACTIVATE (R482). -/
  | fabricKeyActivate (fn value : Nat)
  /-- FABRIC_KEY_RETIRE_PREVIOUS (R482). -/
  | fabricKeyRetirePrevious (fn value : Nat)
  /-- MEMORY_KEY_ROLL (R477). -/
  | memoryKeyRoll (fn value : Nat)
  /-- DEBUG_UNLOCK (R485). -/
  | debugUnlock (fn value resp : Nat)
  /-- DEBUG_LOCK (R486). -/
  | debugLock (fn value : Nat)
  /-- REQ_D0 (R490). -/
  | reqD0 (fn value : Nat)
  /-- REQ_IDLE_HOLD (R489). -/
  | reqIdleHold (fn value : Nat)
  /-- REQ_DEEP (R491). -/
  | reqDeep (fn value : Nat)
  /-- IDLE_WAKE (R490): `src` 1 a doorbell, 2 a remote request, 3 a BAR0 write. -/
  | idleWake (src : Nat)
  /-- DEEP_WAKE (R493): `src` 4 M0, 5 I3C, 6 the keep-alive lane. -/
  | deepWake (src : Nat)
  /-- THERMAL_SAMPLE (R498): `temp` quarter degrees, `mv` the die's voltage. -/
  | thermalSample (unit : Nat) (temp : Int) (mv : Nat)
  /-- SAVE_COMPLETE (R501): `bad` blocks that failed their code. -/
  | saveComplete (bad : Nat)
  /-- SAVE_SNAP (R500). -/
  | saveSnap (fn value : Nat)
  /-- SAVE_RESTORE (R505). -/
  | saveRestore (fn value : Nat)
  /-- SAVE_CLEAR (R505). -/
  | saveClear (fn value : Nat)
  /-- FRONTHAUL_LINK_CHANGE (R205): `p` the fronthaul port. -/
  | fronthaulLinkChange (p : Nat) (up : Bool)
  /-- VF_ENABLE_CHANGE (R446): `num` NumVFs. -/
  | vfEnableChange (enable : Bool) (num : Nat)
  /-- FUNCTION_POWER_STATE_WRITE (R441):  `d3` D3hot. -/
  | functionPowerStateWrite (fn : Nat) (d3 : Bool)
  /-- MSIX_UNMASK (R452). -/
  | msixUnmask (fn v : Nat)
  /-- TRANSLATION_COMPLETION_RX (R273): `ok` with the permission, `target` the translated page. -/
  | translationCompletionRx (fn page : Nat) (ok write : Bool) (target : Nat)
  /-- XT_ENABLE_DONE (R271). -/
  | xtEnableDone (t : Nat)
  /-- DEBUG_NONCE (R485). -/
  | debugNonce (fn value : Nat)
  /-- RECOVERY_IMAGE (R469). -/
  | recoveryImage (fn value resp : Nat)
  /-- SPDM_GET_CERTIFICATE (R473). -/
  | spdmGetCertificate (off len : Nat)
  /-- SPDM_CHALLENGE (R473). -/
  | spdmChallenge (nonce : List Byte)
  /-- SPDM_GET_MEASUREMENTS (R473). -/
  | spdmGetMeasurements (index : Nat) (signed : Bool) (nonce : List Byte)
  /-- FREF_LOSS (R520): `g` the lane group. -/
  | frefLoss (g : Nat)
  /-- MGT_READ_REG (R507): `peer` its addresses. -/
  | mgtReadReg (seq : Nat) (peer : MgtPeer) (off count : Nat)
  /-- MGT_READ_LOG (R507). -/
  | mgtReadLog (seq : Nat) (peer : MgtPeer) (idx count : Nat)
  /-- MGT_READ_TELEM (R507). -/
  | mgtReadTelem (seq : Nat) (peer : MgtPeer) (idx count : Nat)
  /-- MGT_READ_SAVE (R507). -/
  | mgtReadSave (seq : Nat) (peer : MgtPeer)
  /-- MGT_WAKE (R507). -/
  | mgtWake (seq : Nat) (peer : MgtPeer)
  /-- MGT_DEVICE_RESET (R507). -/
  | mgtDeviceReset (seq : Nat) (peer : MgtPeer)
  /-- MGT_SET_PKG_LIMIT (R507). -/
  | mgtSetPkgLimit (seq : Nat) (peer : MgtPeer) (w : Nat)
  /-- MGT_BAD_REQUEST (R507). -/
  | mgtBadRequest (seq : Nat) (peer : MgtPeer) (op : Nat)
  /-- I3C_PRIVATE_WRITE (R508): `r` the request. -/
  | i3cPrivateWrite (seq : Nat) (r : MgtReq)
  /-- I3C_ADDRESS_ASSIGN (R508): `entdaa` ENTDAA, else SETDASA to `static`. -/
  | i3cAddressAssign (entdaa : Bool) (static dyn : Nat)
  /-- TELEMETRY_TICK (R510): the powers of MD0, MD1 and IOD in W. -/
  | telemetryTick (md0 md1 iod : Nat)
  /-- FREF_RETURN (R520). -/
  | frefReturn (g : Nat)
  /-- ENGINE_INPUT_WATCHDOG_FIRE (R244): `src` the sending core. -/
  | engineInputWatchdogFire (e src : Nat)
  /-- CORE_BRING_IN_DONE (R373). -/
  | coreBringInDone (n : Nat) (passed : Bool)
  /-- CUBE_ROW_BRING_IN_DONE (R374). -/
  | cubeRowBringInDone (n : Nat)
  /-- DRAM_ROW_REPAIR_DONE (R371). -/
  | dramRowRepairDone (u : Nat)
  /-- SHADOW_PAGE_RX (R403): `guest` the device that protects. -/
  | shadowPageRx (guest t step : Nat) (x : ShadowItem)
  /-- LOG_RECORD_MIRROR_RX (R406). -/
  | logRecordMirrorRx (guest t : Nat) (r : LogRec)
  /-- LOG_MIRROR_ACK_RX (R406): `num` the records that the partner holds. -/
  | logMirrorAckRx (t num : Nat)
  /-- JTAG_INSTRUCTION (R484). -/
  | jtagInstruction (ir : Nat) (isPublic : Bool)
  /-- SERVICE_EVALUATION (R25). -/
  | serviceEvaluation
  /-- PKG_EXCESS_TIMEOUT (R497). -/
  | pkgExcessTimeout
  /-- COMMAND_BIND (R149). -/
  | commandBind
  /-- DOMAIN_SWITCHOVER (R187). -/
  | domainSwitchover
  /-- HOLDOVER_TICK (R189). -/
  | holdoverTick
  /-- SYNCE_QUAL_TIMEOUT (R192). -/
  | synceQualTimeout
  /-- TREF_LOSS (R520). -/
  | trefLoss
  /-- QSAMP_TICK (R231). -/
  | qsampTick
  /-- XT_OP_DONE (R272). -/
  | xtOpDone
  /-- DECLARATION_DIGEST_DONE (R278). -/
  | declarationDigestDone
  /-- CHANNEL_GRANT (R285). -/
  | channelGrant
  /-- TIER1_FILL_DONE (R293). -/
  | tier1FillDone
  /-- TIER2_FILL_DONE (R293). -/
  | tier2FillDone
  /-- HOLD_TICK (R318). -/
  | holdTick
  /-- BUCKET_LEAK_TICK (R366). -/
  | bucketLeakTick
  /-- CP_SPARE_ROTATION (R379). -/
  | cpSpareRotation
  /-- JOIN_TICK (R391). -/
  | joinTick
  /-- HEARTBEAT_TICK (R393). -/
  | heartbeatTick
  /-- ISOLATE_TIMEOUT (R399). -/
  | isolateTimeout
  /-- LINK_DOWN (R464). -/
  | linkDown
  /-- PERST_ASSERT (R464). -/
  | perstAssert
  /-- ARB_PROGRAM_DONE (R471). -/
  | arbProgramDone
  /-- SPDM_GET_VERSION (R473). -/
  | spdmGetVersion
  /-- SPDM_GET_CAPABILITIES (R473). -/
  | spdmGetCapabilities
  /-- SPDM_NEGOTIATE_ALGORITHMS (R473). -/
  | spdmNegotiateAlgorithms
  /-- SPDM_GET_DIGESTS (R473). -/
  | spdmGetDigests
  /-- SPDM_UNSUPPORTED (R473). -/
  | spdmUnsupported
  /-- AUTO_IDLE_EXPIRY (R489). -/
  | autoIdleExpiry
  /-- POWER_FAIL (R501). -/
  | powerFail
  /-- AUTO_SNAPSHOT (R500). -/
  | autoSnapshot
  /-- SYSCLK_LOSS (R520). -/
  | sysclkLoss
  /-- EREF_LOSS (R520). -/
  | erefLoss
  /-- PWRFAIL_N_RISE (R494). -/
  | pwrfailNRise
  /-- POWER_ON (R517). -/
  | powerOn
  /-- AON_SUPPLY_LOSS (R518). -/
  | aonSupplyLoss
  /-- TREF_RETURN (R520). -/
  | trefReturn
  /-- EREF_RETURN (R520). -/
  | erefReturn
  /-- REMOVAL_RESET_TIMEOUT (R464). -/
  | removalResetTimeout
  /-- PME_TURN_OFF_RX (R491). -/
  | pmeTurnOffRx
  /-- SNAPSHOT_DONE (R500). -/
  | snapshotDone
  /-- SAVE_RESTORE_DONE (R505). -/
  | saveRestoreDone
  /-- CP_TAKEOVER_DONE (R378). -/
  | cpTakeoverDone
  /-- SEC_OPERATION_DONE (R487). -/
  | secOperationDone
  deriving DecidableEq, Repr

end Sys2Proof
end

