-- ==== Sys2Proof/Machine/Hash.lean ====
section
/-! DEFINITION. The check codes and digests the manual names: SHA-512 (FIPS 180-4), CRC-16 of the data tag (R139), CRC-32C (R335),
CRC-12 of field repair entries (Table 12-8), and a general most-significant-bit-first CRC. -/

namespace Sys2Proof.Machine

/-- CRC of width `w` over bits, most significant first, no reflection. -/
def crcBits (w poly : Nat) : Nat → List Bool → Nat
  | r, [] => r
  | r, b :: bs =>
    let top := bit r (w - 1) != b
    let r' := (2 * r) % 2 ^ w
    crcBits w poly (if top then r' ^^^ poly else r') bs

/-- Bits of a byte, most significant first. -/
def msbBits (b : Byte) : List Bool := (List.range 8).map fun i => b.toNat.testBit (7 - i)

/-- Bits of a byte, least significant first. -/
def lsbBits (b : Byte) : List Bool := (List.range 8).map fun i => b.toNat.testBit i

/-- The CRC-16 of the data tag (R139). -/
def crc16 (bs : List Byte) : Nat := crcBits 16 0x1021 0xFFFF (bs.flatMap msbBits)

/-- Bit reversal of the low `w` bits. -/
def revBits (w x : Nat) : Nat := ((List.range w).map fun i => (b2n (bit x i)) <<< (w - 1 - i)).foldl (· + ·) 0

/-- CRC-32C: polynomial 0x1EDC_6F41, reflected, initial value and final XOR all ones (R335). -/
def crc32c (bs : List Byte) : Nat := revBits 32 (crcBits 32 0x1EDC6F41 0xFFFFFFFF (bs.flatMap lsbBits)) ^^^ 0xFFFFFFFF

/-- The CRC-32 of an Ethernet frame check sequence (IEEE 802.3): polynomial 0x04C1_1DB7, reflected, initial value and final XOR all ones. -/
def crc32 (bs : List Byte) : Nat := revBits 32 (crcBits 32 0x04C11DB7 0xFFFFFFFF (bs.flatMap lsbBits)) ^^^ 0xFFFFFFFF

/-- CRC-12 of a field repair entry over bits 63 to 12 (Table 12-8). -/
def crc12 (entry : Nat) : Nat := crcBits 12 0x80F 0 ((List.range 52).map fun i => bit entry (63 - i))

/-- Whether a number has no divisor from 2 to n. -/
def noDivisor : Nat → Nat → Bool
  | 0, _ => true
  | n + 1, x => (n == 0 || x % (n + 1) != 0) && noDivisor n x

/-- The primes below a bound, ascending. -/
def primesBelow (n : Nat) : List Nat := (List.range n).filter fun x => decide (2 ≤ x) && noDivisor (x / 2) x

/-- Largest r with r^k ≤ x, its bits from number n − 1 down joined to those of r. -/
def rootFloor (k x : Nat) : Nat → Nat → Nat
  | 0, r => r
  | n + 1, r => rootFloor k x n (if (r + 2 ^ n) ^ k ≤ x then r + 2 ^ n else r)

/-- First 64 bits of the fraction of the k-th root of p. -/
def rootBits (k p : Nat) : Nat := rootFloor k (p * 2 ^ (64 * k)) 69 0 % 2 ^ 64

/-- Constants of SHA-512 (FIPS 180-4): the cube roots of the first 80 primes for its rounds, the square roots of the first eight for its start. -/
def shaRoundWords : List Nat := (primesBelow 410).map (rootBits 3)
def shaStartWords : List Nat := (primesBelow 20).map (rootBits 2)

def rotr64 (x n : Nat) : Nat := (x >>> n) ||| ((x <<< (64 - n)) % 2 ^ 64)
def add64 (a b : Nat) : Nat := (a + b) % 2 ^ 64

/-- Message schedule, newest word first: from the 16 words of a block to 80. -/
def shaSched : Nat → List Nat → List Nat
  | 0, w => w
  | n + 1, w =>
    let a := w.getD 1 0
    let b := w.getD 14 0
    let s1 := rotr64 a 19 ^^^ rotr64 a 61 ^^^ (a >>> 6)
    let s0 := rotr64 b 1 ^^^ rotr64 b 8 ^^^ (b >>> 7)
    shaSched n (add64 (add64 s1 (w.getD 6 0)) (add64 s0 (w.getD 15 0)) :: w)

/-- One round of the compression function. -/
def shaRound (v : List Nat) (kw : Nat × Nat) : List Nat :=
  match v with
  | [a, b, c, d, e, f, g, h] =>
    let S1 := rotr64 e 14 ^^^ rotr64 e 18 ^^^ rotr64 e 41
    let ch := (e &&& f) ^^^ ((2 ^ 64 - 1 - e) &&& g)
    let t1 := add64 (add64 h S1) (add64 ch (add64 kw.1 kw.2))
    let S0 := rotr64 a 28 ^^^ rotr64 a 34 ^^^ rotr64 a 39
    let maj := (a &&& b) ^^^ (a &&& c) ^^^ (b &&& c)
    [add64 t1 (add64 S0 maj), a, b, c, add64 d t1, e, f, g]
  | v => v

/-- Big-endian value of bytes. -/
def beNat (bs : List Byte) : Nat := bs.foldl (fun a b => 256 * a + b.toNat) 0

/-- Big-endian bytes of a value. -/
def toBE (n v : Nat) : List Byte := (toLE n v).reverse

/-- Words of a block. -/
def blockWords (bs : List Byte) : List Nat := (List.range 16).map fun i => beNat ((bs.drop (8 * i)).take 8)

def shaBlock (h : List Nat) (bs : List Byte) : List Nat :=
  let w := (shaSched 64 (blockWords bs).reverse).reverse
  let v := (shaRoundWords.zip w).foldl shaRound h
  List.zipWith add64 h v

def shaBlocks : Nat → List Nat → List Byte → List Nat
  | 0, h, _ => h
  | n + 1, h, bs => shaBlocks n (shaBlock h (bs.take 128)) (bs.drop 128)

/-- SHA-512 digest of a byte string, 64 bytes. -/
def sha512 (bs : List Byte) : List Byte :=
  let n := bs.length
  let pad := (239 - n % 128) % 128
  let m := bs ++ [0x80] ++ List.replicate pad 0 ++ toBE 16 (8 * n)
  (shaBlocks (m.length / 128) shaStartWords m).flatMap (toBE 8)

end Sys2Proof.Machine
end

