-- ==== Sys2Proof/Machine/Aes.lean ====
section
/-! DEFINITION. AES-256-GCM of NIST SP 800-38D, with which fabric packets and wrapped blobs are protected (R478, R482), and the CRC-64 of flits
(R299). -/

namespace Sys2Proof.Machine

/-- Product in GF(2^8) modulo x^8 + x^4 + x^3 + x + 1, over the low n bits of the second factor. -/
def gf8Mul : Nat → Nat → Nat → Nat
  | 0, _, _ => 0
  | n + 1, a, b =>
    let a2 := if 128 ≤ a then (2 * a) % 256 ^^^ 0x1B else 2 * a
    (if b % 2 = 1 then a else 0) ^^^ gf8Mul n a2 (b / 2)

def gfm (a b : Nat) : Nat := gf8Mul 8 a b

/-- x^254, the inverse of a nonzero byte. -/
def gfInv (x : Nat) : Nat :=
  let x2 := gfm x x
  let x3 := gfm x2 x
  let x12 := gfm (gfm x3 x3) (gfm x3 x3)
  let x15 := gfm x12 x3
  let x60 := gfm (gfm x15 x15) (gfm x15 x15)
  let x240 := gfm (gfm x60 x60) (gfm x60 x60)
  gfm x240 (gfm x12 x2)

def rotl8 (x n : Nat) : Nat := (x <<< n ||| x >>> (8 - n)) % 256

/-- The S-box. -/
def aesSub (x : Nat) : Nat :=
  let i := gfInv x
  i ^^^ rotl8 i 1 ^^^ rotl8 i 2 ^^^ rotl8 i 3 ^^^ rotl8 i 4 ^^^ 0x63

def aesBox : List Nat := (List.range 256).map aesSub
def subByte (x : Nat) : Nat := aesBox.getD x 0

def xorL (a b : List Nat) : List Nat := List.zipWith (· ^^^ ·) a b

/-- Words of the expanded key, four bytes each, newest last (FIPS 197). -/
def expandKey : Nat → Nat → Nat → List (List Nat) → List (List Nat)
  | 0, _, _, ws => ws
  | n + 1, i, rcon, ws =>
    let t := ws.getD (i - 1) []
    let t' := if i % 8 = 0 then
        let r := (t.drop 1 ++ t.take 1).map subByte
        xorL r [rcon, 0, 0, 0]
      else if i % 8 = 4 then t.map subByte else t
    expandKey n (i + 1) (if i % 8 = 0 then gfm rcon 2 else rcon) (ws ++ [xorL (ws.getD (i - 8) []) t'])

def aesKeys (key : List Nat) : List (List Nat) :=
  let w := (List.range 8).map fun i => (key.drop (4 * i)).take 4
  let ws := expandKey 52 8 1 w
  (List.range 15).map fun r => ((ws.drop (4 * r)).take 4).flatten

def shiftRows (s : List Nat) : List Nat := (List.range 16).map fun i => s.getD ((i + 4 * (i % 4)) % 16) 0

def mixColumn (c : List Nat) : List Nat :=
  (List.range 4).map fun i =>
    gfm (c.getD i 0) 2 ^^^ gfm (c.getD ((i + 1) % 4) 0) 3 ^^^ c.getD ((i + 2) % 4) 0 ^^^ c.getD ((i + 3) % 4) 0

def mixColumns (s : List Nat) : List Nat := (List.range 4).flatMap fun j => mixColumn ((s.drop (4 * j)).take 4)

/-- One block under the round keys. -/
def aesBlock (ks : List (List Nat)) (b : List Nat) : List Nat :=
  let s := (ks.drop 1).take 13 |>.foldl (fun s k => xorL (mixColumns (shiftRows (s.map subByte))) k) (xorL b (ks.getD 0 []))
  xorL (shiftRows (s.map subByte)) (ks.getD 14 [])

/-- Product in GF(2^128) of GCM, bit 0 leftmost, over the bits of x from the left. -/
def ghMul : Nat → Nat → Nat → Nat → Nat
  | 0, _, _, z => z
  | n + 1, x, v, z =>
    let z := if bit x n then z ^^^ v else z
    ghMul n x (if v % 2 = 1 then v / 2 ^^^ (0xE1 <<< 120) else v / 2) z

def natL (bs : List Nat) : Nat := bs.foldl (fun a b => 256 * a + b) 0
def bytesN (n v : Nat) : List Nat := ((List.range n).map fun i => v / 256 ^ i % 256).reverse

def pad16 (bs : List Nat) : List Nat := bs ++ List.replicate ((16 - bs.length % 16) % 16) 0

def ghash (h : Nat) (bs : List Nat) : Nat :=
  (List.range (bs.length / 16)).foldl (fun y i => ghMul 128 (y ^^^ natL ((bs.drop (16 * i)).take 16)) h 0) 0

/-- Key stream from counter c on, applied to bytes. -/
def gctr (ks : List (List Nat)) (iv : List Nat) (c : Nat) (bs : List Nat) : List Nat :=
  ((List.range ((bs.length + 15) / 16)).flatMap fun i =>
    xorL (aesBlock ks (iv ++ bytesN 4 (c + i))) ((bs.drop (16 * i)).take 16 ++ List.replicate 16 0)).take bs.length

/-- The 16-byte tag of a ciphertext. -/
def gcmTag (ks : List (List Nat)) (iv aad ct : List Nat) : List Nat :=
  let h := natL (aesBlock ks (List.replicate 16 0))
  let s := ghash h (pad16 aad ++ pad16 ct ++ bytesN 8 (8 * aad.length) ++ bytesN 8 (8 * ct.length))
  gctr ks iv 1 (bytesN 16 s)

def toNats (bs : List Byte) : List Nat := bs.map BitVec.toNat
def ofNats (xs : List Nat) : List Byte := xs.map fun x => BitVec.ofNat 8 x

/-- Authenticated encryption with a 32-byte key and a 12-byte IV: ciphertext and tag. -/
def gcmSeal (key iv aad pt : List Byte) : List Byte × List Byte :=
  let ks := aesKeys (toNats key)
  let ct := gctr ks (toNats iv) 2 (toNats pt)
  (ofNats ct, ofNats (gcmTag ks (toNats iv) (toNats aad) ct))

/-- The plaintext, and the tag it should carry. -/
def gcmUnseal (key iv aad ct : List Byte) : List Byte × List Byte :=
  let ks := aesKeys (toNats key)
  (ofNats (gctr ks (toNats iv) 2 (toNats ct)), ofNats (gcmTag ks (toNats iv) (toNats aad) (toNats ct)))

/-- CRC-64 of a flit (R299). -/
def crc64 (bs : List Byte) : Nat := crcBits 64 0x42F0E1EBA9EA3693 (2 ^ 64 - 1) (bs.flatMap msbBits) ^^^ (2 ^ 64 - 1)

end Sys2Proof.Machine
end

