-- ==== Sys2Proof/Config.lean ====
section
/-! DEFINITION. What the manual leaves open: uninterpreted constants with no body, so that a claim holds whatever they are.
Each is named in the assumption log. -/

namespace Sys2Proof.Config

/-- A fresh unspecified byte, applied to the state's counter of free values and a position (log 3). -/
opaque freeByte : Nat → Nat → BitVec 8

/-- A fresh unspecified number, applied to the state's counter of free values (log 3): random draws of the security root,
latencies the manual does not give, and results it states to be unspecified. -/
opaque freeNat : Nat → Nat

/-- What a byte of an encrypted 32-byte unit reads as under a key other than the one it was written under (R476):
reading key, writing key, unit address, the 32 stored bytes, and the byte's place (log 5). -/
opaque wrongKeyByte : Nat → Nat → Nat → List (BitVec 8) → Nat → BitVec 8

/-- Flits of receive buffer that a fabric port keeps for a class, beyond the 64 of FT0 that the manual states (R304; log 36). -/
opaque linkBuf : Nat → Nat

/-- RSA-4096 PSS signature of the device key over a message (R473; log 6). -/
opaque rsaPssSign : List (BitVec 8) → List (BitVec 8)

/-- SHA-512 digest of the Odurak signing key of each OTP slot (R469; log 6). -/
opaque keyHash : Nat → List (BitVec 8)

/-- The security root ROM, whose digest is measurement index 1 (R467, R470; log 6). -/
opaque romImage : List (BitVec 8)

/-- The configuration block of measurement index 5, whose 64 bytes the manual does not lay out, of its fields' values: anti-rollback counts, revocation bits,
owner records, GEN_ID, debug scope (R470; log 6). -/
opaque configBlock : List Nat → List (BitVec 8)

/-- The device certificate chain, SPDM slot 0 (R472; log 6). -/
opaque certChain : List (BitVec 8)

end Sys2Proof.Config
end

