-- ==== Sys2Proof/Machine/State.lean ====
section
/-! DEFINITION. The state of the block: every register, memory, queue, engine and pin the manual gives the CK960, and the
queue of commands that wait. Plain data throughout. -/

namespace Sys2Proof.Machine

/-- The device: everything but the queue of waiting commands. Sparse maps list only what differs from reset; see `Bits`. -/
structure Device where
  /-- BAR0 registers: key `Reg.code * 4096 + index` (Table 19-2). -/
  regs : List (Nat × Word) := []
  /-- Lower-half writes of spanning fields that wait for the upper half (R10): register key, the 32 bits. -/
  heldLow : List (Nat × Nat) := []
  /-- Operands of operations as last written: register key, the bits of its WO fields that are operands (R7). -/
  woHeld : List (Nat × Nat) := []
  /-- Memories: space · 2^64 + offset (spaces of Table 9-1; 16 + t is the host address space of function t). -/
  mem : List Host.Cell := []
  /-- Memory key under which each 32-byte unit of tiers 1 and 2 was written (R475, R476); 0 as filled. -/
  tags : List (Nat × Nat) := []
  /-- Memory-key rolls of each tenancy (R477). -/
  rolls : List (Nat × Nat) := []
  /-- Ranges whose contents are unspecified (R281, R286, R455): first cell, length, free-value number. -/
  junk : List (Nat × Nat × Nat) := []
  /-- Poisoned units (R359), by memory key of their first byte. -/
  poison : List Nat := []
  /-- State and sealed bit of each physical page (R275): space · 2^20 + page, state + 8 · sealed. -/
  pages : List (Nat × Nat) := []
  /-- The model's counter of free values. -/
  freeCtr : Nat := 0
  /-- ACLK cycles since power-on (the clock of this model, log 9). -/
  cycle : Nat := 0
  /-- Device time in 1/144 ns since the PTP epoch (R178). -/
  time : Nat := 45498933936 * 1000000000
  queues : List (Nat × QueueCtx) := []
  /-- Started commands that have not completed, oldest first. -/
  cmds : List Cmd := []
  sn : Nat := 1
  txns : List (Nat × TxnCtx) := []
  verified : List Verified := []
  /-- Event arrays in zero-fill (R125). -/
  evtFill : List Nat := []
  batches : List (Nat × BatchCtx) := []
  sched : SchedCtx := {}
  /-- MSI-X vectors: function · 4096 + vector (R451). -/
  msix : List (Nat × Vec) := []
  tens : List (Nat × TenCtx) := []
  vfEnable : Bool := false
  numVfs : Nat := 0
  mm : MemCtx := {}
  ras : RasCtx := {}
  cores : List (Nat × Core) := []
  /-- Towed tiles and trailers under way. -/
  tows : List Tow := []
  timing : TimeCtx := {}
  radio : RadioCtx := {}
  /-- Route contexts: 8 · engine + context (R233). -/
  engines : List (Nat × RCtx) := []
  /-- Routing-engine senders fenced at an engine's input (R244): engine, unit. -/
  rteFenced : List (Nat × Nat) := []
  /-- Logit tiles taken so far, for their order of arrival. -/
  rteSeq : Nat := 0
  rteIn : RteIn := {}
  det : List (Nat × DetCtx) := []
  fab : FabCtx := {}
  /-- Collectives that run, oldest first (R332). -/
  colls : List Coll := []
  ftp : FtpCtx := {}
  pwr : PwrCtx := {}
  sent : List Sent := []
  deriving DecidableEq, Repr

/-- The machine: the device and the commands that wait, first in, first out. -/
structure State where
  dev : Device := {}
  pending : List Instr := []
  deriving DecidableEq, Repr

/-- Why the machine stops: for no reason. Every command has an effect, be it none. -/
inductive Fault where
  deriving DecidableEq, Repr

/-- Why a command has no meaning. -/
inductive Refusal where
  /-- Raised by exec for a row that has no meaning yet. Safe. -/
  | notModelled (mnemonic : String)
  deriving DecidableEq, Repr

/-- The block right after reset: every register at the reset value of its table, memories filled with zeros, queues empty. -/
def State.reset : State := {}

end Sys2Proof.Machine
end

