-- ==== Sys2Proof/Machine/Ops.lean ====
section
/-! DEFINITION. The named operations of the machine: registers and their fields, memories with their keys, poison and page states,
translation, device time, the fault log, interrupts, and the bookkeeping of started commands. -/

namespace Sys2Proof.Machine

/-- What a meaning answers. -/
abbrev Out := Host.Outcome State Fault Refusal

/-- A meaning changes the device alone; the queue of waiting commands stays. -/
def State.act (s : State) (f : Device → Device) : Out := .next { s with dev := f s.dev }

/-- A meaning with a check on the ranges of its operands. Operands that name a unit, queue, tenancy or register the part does not have describe no event of
the block, which stays as it is (log 8). -/
def State.actIf (s : State) (ok : Bool) (f : Device → Device) : Out :=
  if ok then s.act f else .next s

/-! ### Registers -/

/-- Key of a register's cell in the register file. -/
def regKey (r : Reg) (i : Nat) : Nat := r.code * 4096 + i

/-- Bits a reset value gains from an index-dependent reset or a fuse (Tables 2-10, 6-5, 8-14, 15-7, 15-8, 15-10). -/
def Reg.resetIdx (r : Reg) (i : Nat) : Nat :=
  match r with
  | .TEN_CORES => if i < 3 then 2 ^ 64 - 1 else 0
  | .TEN_QUOTA => if i = 0 then (0x60000 <<< 45) + (0x7C000 <<< 26) + (0x80 <<< 18) + 0x1000 else 0
  | .TEN_STAT => if i = 0 then 1 else 0
  | .TIM_DOM_CFG => if i = 1 then 1 <<< 16 else 0
  | .COR_LMAP => i + 4 * (i / 48)
  | .RTE_MAP => i
  | _ => 0

/-- Reset value of a register: the reset values of its fields, and `resetIdx`. -/
def Reg.resetAt (r : Reg) (i : Nat) : Word :=
  BitVec.ofNat 64 ((r.fields.map fun f => f.rst <<< f.lo).foldl (· + ·) 0 + r.resetIdx i)

/-- Value of a register. -/
def Device.reg (d : Device) (r : Reg) (i : Nat) : Word := smGet d.regs (regKey r i) (r.resetAt i)

/-- Replacement of a register's value. -/
def Device.setReg (d : Device) (r : Reg) (i : Nat) (v : Word) : Device :=
  { d with regs := smSet d.regs (regKey r i) (r.resetAt i) v }

/-- Value of a register field. -/
def Device.rd (d : Device) (f : Fld) (i : Nat) : Nat := fieldGet (d.reg f.reg i) f.lo f.width

/-- Replacement of a register field. -/
def Device.wr (d : Device) (f : Fld) (i v : Nat) : Device :=
  d.setReg f.reg i (fieldSet (d.reg f.reg i) f.lo f.width v)

/-- A field as a Boolean. -/
def Device.on (d : Device) (f : Fld) (i : Nat) : Bool := d.rd f i != 0

/-- Saturating increment of a counter field. -/
def Device.incSat (d : Device) (f : Fld) (i n : Nat) : Device := d.wr f i (satAdd f.width (d.rd f i) n)

/-- Wrapping increment of a counter field. -/
def Device.incWrap (d : Device) (f : Fld) (i n : Nat) : Device := d.wr f i ((d.rd f i + n) % 2 ^ f.width)

/-! ### Free values -/

/-- A fresh unspecified number below `m`, with the counter advanced. -/
def Device.fresh (d : Device) (m : Nat) : Nat × Device :=
  (Config.freeNat d.freeCtr % m, { d with freeCtr := d.freeCtr + 1 })

/-- `n` fresh unspecified bytes. -/
def Device.freshBytes (d : Device) (n : Nat) : List Byte × Device :=
  ((List.range n).map (Config.freeByte d.freeCtr), { d with freeCtr := d.freeCtr + 1 })

/-! ### Time -/

/-- Device time: seconds, nanoseconds and sixteenths (R178). -/
def Device.secs (d : Device) : Nat := d.time / 144000000000
def Device.nanos (d : Device) : Nat := d.time % 144000000000 / 144
def Device.frac (d : Device) : Nat := d.time % 144 / 9

/-- Time units of 1/144 ns: per microsecond, and per second. -/
def usT : Nat := 144000
def secT : Nat := 144000000000

/-! ### Memory -/

/-- Memory spaces by their tag in a cell's address: Table 9-1, the save store, its staging buffer, and host memory of function t
at 16 + t. -/
def spT1 : Nat := 0
def spT2 : Nat := 1
def spDP : Nat := 2
def spTS : Nat := 3
def spSave : Nat := 4
def spStage : Nat := 5
def spHost (t : Nat) : Nat := 16 + t

/-- Cell address of an offset in a space. -/
def cellAt (sp off : Nat) : Nat := sp * 2 ^ 64 + off

/-- A physical place: space tag and offset. -/
structure Loc where
  sp : Nat
  off : Nat
  deriving DecidableEq, Repr

/-- The device key, and the present memory key of a tenancy (R476). -/
def devKey : Nat := 1
def Device.tenKey (d : Device) (t : Nat) : Nat := 2 + t + 64 * smGet d.rolls t 0

/-- The byte as stored. An unlisted byte reads 0: the start-up fill (R293), and host memory (log 2). -/
def Device.raw (d : Device) (sp off : Nat) : Byte :=
  match d.junk.find? fun j => inRange (cellAt sp off) j.1 j.2.1 with
  | some j => Config.freeByte j.2.2 (cellAt sp off)
  | none => smGet d.mem (cellAt sp off) 0

/-- What is left of the unspecified ranges when a range is written. -/
def junkCut (js : List (Nat × Nat × Nat)) (lo len : Nat) : List (Nat × Nat × Nat) :=
  js.flatMap fun j =>
    (if j.1 < lo then [(j.1, min j.2.1 (lo - j.1), j.2.2)] else []) ++
    (if lo + len < j.1 + j.2.1 then
      [(max j.1 (lo + len), j.1 + j.2.1 - max j.1 (lo + len), j.2.2)] else [])

/-- Whether a space is encrypted (R475). -/
def encrypted (sp : Nat) : Bool := decide (sp ≤ 1)

/-- Byte of a 32-byte unit as read under a key (R475, R476). -/
def Device.readB (d : Device) (key sp off : Nat) : Byte :=
  if encrypted sp then
    let u := cellAt sp (off / 32 * 32)
    let tag := smGet d.tags u 0
    if tag = 0 || tag = key then d.raw sp off
    else Config.wrongKeyByte key tag u ((List.range 32).map fun i => d.raw sp (off / 32 * 32 + i)) (off % 32)
  else d.raw sp off

/-- `n` bytes as read under a key. -/
def Device.peek (d : Device) (key sp off n : Nat) : List Byte := (List.range n).map fun i => d.readB key sp (off + i)

/-- Bytes stored in place, no key. -/
def storeCells (m : List Host.Cell) : Nat → List Byte → List Host.Cell
  | _, [] => m
  | c, b :: bs => storeCells (smSet m c 0 b) (c + 1) bs

/-- Bytes stored at a place; what they cover is specified again. -/
def Device.store (d : Device) (sp off : Nat) (bs : List Byte) : Device :=
  { d with mem := storeCells d.mem (cellAt sp off) bs, junk := junkCut d.junk (cellAt sp off) bs.length }

/-- A 32-byte unit taken over by a key: what it reads as under that key is what it then holds (R475: a partial write of a
unit rewrites the whole unit). -/
def Device.takeUnit (d : Device) (key sp u : Nat) : Device :=
  let c := cellAt sp u
  let tag := smGet d.tags c 0
  if tag = key then d
  else
    let view := d.peek key sp u 32
    let d := if tag = 0 then d else d.store sp u view
    { d with tags := smSet d.tags c 0 key }

/-- A write under a key. -/
def Device.poke (d : Device) (key sp off : Nat) (bs : List Byte) : Device :=
  let d :=
    if encrypted sp then
      (List.range ((off + bs.length + 31) / 32 - off / 32)).foldl (fun d i => d.takeUnit key sp ((off / 32 + i) * 32)) d
    else d
  d.store sp off bs

/-- Zero fill of a range: it reads 0 under every key, as after the start-up fill. -/
def Device.zero (d : Device) (sp off len : Nat) : Device :=
  { d with
    mem := smClear d.mem (cellAt sp off) len
    junk := junkCut d.junk (cellAt sp off) len
    tags := smClear d.tags (cellAt sp off) len
    poison := d.poison.filter fun p => !inRange p (cellAt sp off) len }

/-- A range whose contents become unspecified. -/
def Device.scramble (d : Device) (sp off len : Nat) : Device :=
  { d with
    mem := smClear d.mem (cellAt sp off) len
    tags := smClear d.tags (cellAt sp off) len
    junk := (cellAt sp off, len, d.freeCtr) :: junkCut d.junk (cellAt sp off) len
    freeCtr := d.freeCtr + 1 }

/-- Little-endian number read under the device key. -/
def Device.peekN (d : Device) (sp off n : Nat) : Nat := le (d.peek devKey sp off n)

/-- Little-endian number written under the device key. -/
def Device.pokeN (d : Device) (sp off n v : Nat) : Device := d.poke devKey sp off (toLE n v)

/-- Poison unit of a space (R359): 32 bytes in tier 1, 64 in tier 2, a 64-bit word in the SRAM stores. -/
def poisonUnit (sp : Nat) : Nat := if sp = spT1 then 32 else if sp = spT2 then 64 else 8

/-- First poisoned unit that a range touches. -/
def Device.poisonIn (d : Device) (sp off len : Nat) : Option Nat :=
  d.poison.find? fun p => decide (cellAt sp (off / poisonUnit sp * poisonUnit sp) ≤ p) && decide (p < cellAt sp (off + len)) &&
    decide (sp < 8)

/-- A write clears the poison of every unit it covers whole; a write that covers part of a poisoned unit is refused (R359). -/
def Device.poisonWrite (d : Device) (sp off len : Nat) : Option Device :=
  let u := poisonUnit sp
  let hit := d.poison.filter fun p => decide (cellAt sp (off / u * u) ≤ p) && decide (p < cellAt sp (off + len))
  if hit.all fun p => decide (cellAt sp off ≤ p) && decide (p + u ≤ cellAt sp (off + len)) then
    some { d with poison := d.poison.filter fun p => !hit.contains p }
  else none

/-! ### Pages and translation -/

def pageSize : Nat := 2097152

/-- Page states of Table 9-4. -/
def pgPlain : Nat := 0
def pgLanded : Nat := 1
def pgDeparting : Nat := 2
def pgArriving : Nat := 3
def pgVacated : Nat := 4
def pgSystem : Nat := 5

/-- Key of a physical page. -/
def pageKey (sp ppn : Nat) : Nat := sp * 2 ^ 20 + ppn

/-- Key of the page of a place. -/
def Loc.page (l : Loc) : Nat := pageKey l.sp (l.off / pageSize)

def Device.pageState (d : Device) (p : Nat) : Nat := smGet d.pages p 0 % 8
def Device.sealed (d : Device) (p : Nat) : Bool := smGet d.pages p 0 ≥ 8

/-- A page's state changed, its sealed bit kept. -/
def Device.setPage (d : Device) (p st : Nat) : Device :=
  { d with pages := smSet d.pages p 0 (smGet d.pages p 0 / 8 * 8 + st) }

/-- A page's sealed bit (R118). -/
def Device.setSeal (d : Device) (p : Nat) (b : Bool) : Device :=
  { d with pages := smSet d.pages p 0 (smGet d.pages p 0 % 8 + 8 * b2n b) }

/-- Pages of a space (R270); tier 1 has fewer under the reduced map of R495. -/
def Device.spacePages (d : Device) (sp : Nat) : Nat :=
  if sp = 0 then (if d.rd PWR_START_STAT.t1_w 0 = 0 then 393216 else 49152 * d.rd PWR_START_STAT.t1_w 0)
  else if sp = 1 then 507904 else if sp = 2 then 128 else 0

/-- Fields of a global address (R261). -/
def gaDev (ga : Nat) : Nat := bits ga 63 52
def gaSp (ga : Nat) : Nat := bits ga 51 48
def gaOff (ga : Nat) : Nat := ga % 2 ^ 48

/-- The device's own ID. -/
def Device.devId (d : Device) : Nat := d.rd FAB_DEV_CFG.dev_id 0

/-- Whether a global address names this device. -/
def Device.isLocal (d : Device) (ga : Nat) : Bool := gaDev ga == d.devId

/-- Index of the translation entry of virtual page v of space s (R269). -/
def Device.xtIndex (d : Device) (t s v : Nat) : Nat :=
  v + (if 1 ≤ s then d.rd MEM_XT_CFG.t1_pages t else 0) + (if s = 2 then d.rd MEM_XT_CFG.t2_pages t else 0)

/-- Virtual pages of a space (R269). -/
def Device.xtCount (d : Device) (t s : Nat) : Nat :=
  if s = 0 then d.rd MEM_XT_CFG.t1_pages t
  else if s = 1 then d.rd MEM_XT_CFG.t2_pages t
  else if s = 2 then d.rd MEM_XT_CFG.dp_pages t else 0

/-- Offset of a tenancy's translation table in tier 1. -/
def Device.xtBase (d : Device) (t : Nat) : Nat := d.rd MEM_XT_BASE.base t * pageSize

/-- A translation entry (Table 9-3). -/
def Device.xtEntry (d : Device) (t s v : Nat) : Nat := d.peekN spT1 (d.xtBase t + 8 * d.xtIndex t s v) 8

/-- Whether the debug window is unlocked (R263, R485): the open scope is DEBUG or higher. -/
def Device.debugOpen (d : Device) : Bool := bit (d.rd SEC_BOOT_STAT.dbg_scope 0) 0

/-- Place of a host address of a tenancy's function: through the address translation cache where ATS is enabled (R273), else as it is. -/
def Device.hostPlace (d : Device) (t a : Nat) (write : Bool) : Option Loc :=
  if d.mm.ats.enabled.contains t then
    match d.mm.ats.cache.find? fun e => e.fn == t && e.page == a / 4096 && (e.write || !write) with
    | some e => some ⟨spHost t, e.target * 4096 + a % 4096⟩
    | none => none
  else some ⟨spHost t, a⟩

/-- Translation of a tenancy's access to its own device (R262, R263, R270); a page's virtual index is returned for the dirty logs. -/
def Device.locate (d : Device) (t ga : Nat) (write : Bool) : Option (Loc × Option Nat) :=
  let s := gaSp ga
  let off := gaOff ga
  if s ≤ 2 then
    let v := off / pageSize
    if !d.on MEM_XT_BASE.enable t then none
    else if d.xtCount t s ≤ v || d.spacePages s ≤ v then none
    else
      let e := d.xtEntry t s v
      if !bit e 63 then none
      else if write && !bit e 62 then none
      else if d.spacePages s ≤ bits e 18 0 then none
      else some (⟨s, bits e 18 0 * pageSize + off % pageSize⟩, some (d.xtIndex t s v))
  else if s = 3 then
    if d.debugOpen && decide (off < 0x18000000) then some (⟨spTS, off⟩, none) else none
  else if s = 8 then (d.hostPlace t off write).map fun l => (l, none)
  else none

/-- The crossing in progress of a tenancy, other than command `skip`'s, whose range in space 8 meets `len` bytes of host memory: its channel, and whether they are its destination
(R282). -/
def Device.hostCrossing (d : Device) (t off len skip : Nat) : Option (Nat × Bool) :=
  d.mm.chans.findSome? fun c =>
    let x := c.2
    let hit (ga : Nat) : Bool := d.isLocal ga && gaSp ga == 8 && decide (gaOff ga < off + len) && decide (off < gaOff ga + x.len)
    if x.kind ≠ 0 || x.ten ≠ t || x.sn = skip then none
    else if hit x.dst then some (c.1, true)
    else if hit x.src then some (c.1, false)
    else none

/-- How an access meets its page (Table 9-4). -/
inductive Meets where
  | proceeds (l : Loc) (idx : Option Nat)
  | waits (l : Loc)
  | faults
  deriving DecidableEq, Repr

/-- One access that stays within a page, met with translation, page state, seal and weight list (R270, R275, R403, R433); in space 8 the ranges of crossings in
progress stand for page states (R282). Accesses to tier 2 wait for its fill (R293). -/
def Device.meet (d : Device) (t ga : Nat) (write : Bool) : Meets :=
  match d.locate t ga write with
  | none => .faults
  | some (l, idx) =>
    if 2 < l.sp then
      if write && decide (16 ≤ l.sp) && (d.det.any fun x => x.1 + 16 == l.sp && x.2.wranges.any fun r => inRange (gaOff ga) r.1 r.2) then .faults
      else
        match if 16 ≤ l.sp then d.hostCrossing t (gaOff ga) 1 0 else none with
        | some c => if c.2 || write then .waits l else .proceeds l idx
        | none => .proceeds l idx
    else
      let st := d.pageState l.page
      if write && (d.sealed l.page || d.det.any fun x => x.2.wpages.contains l.page) then .faults
      else if st = pgVacated then .faults
      else if l.sp = spT2 && !d.on MEM_FILL_STAT.t2_done 0 then .waits l
      else if st = pgArriving then .waits l
      else if write && (st = pgDeparting || d.mm.shadowing.contains l.page) then .waits l
      else if write && st = pgSystem then .faults
      else .proceeds l idx

/-- Page size of a space (Table 9-1). -/
def gaPage (ga : Nat) : Nat := if gaSp ga = 8 then 4096 else pageSize

/-- The parts of a range that lie on one page each: global address and length. -/
def splitPages : Nat → Nat → Nat → List (Nat × Nat)
  | 0, _, _ => []
  | n + 1, ga, len =>
    if len = 0 then []
    else
      let room := gaPage ga - ga % gaPage ga
      let k := min room len
      (ga, k) :: splitPages n (ga + k) (len - k)

/-- Parts of a range. -/
def parts (ga len : Nat) : List (Nat × Nat) := splitPages (len / gaPage ga + 2) ga len

/-- Outcome of a read by the device's own engines. -/
inductive Rd where
  | ok (bs : List Byte)
  | waits
  | fault (ga : Nat)
  | poison (l : Loc)
  deriving DecidableEq, Repr

/-- A read of a range with a tenancy's translation (R275: part by part). -/
def Device.readGA (d : Device) (t ga len : Nat) : Rd :=
  (parts ga len).foldl (fun acc p =>
    match acc with
    | .ok bs =>
      match d.meet t p.1 false with
      | .proceeds l _ =>
        match d.poisonIn l.sp l.off p.2 with
        | some _ => .poison l
        | none => .ok (bs ++ d.peek (if encrypted l.sp then d.tenKey t else devKey) l.sp l.off p.2)
      | .waits _ => .waits
      | .faults => .fault p.1
    | e => e) (.ok [])

/-! ### Device time stamps, sensors and fault records -/

/-- Default severity of an operation code (Table 12-5). -/
def opSeverity (op : Nat) : Nat :=
  if op = 0x01 then 0x1
  else if op = 0x06 || op = 0x0F || op = 0x13 || op = 0x15 || op = 0x16 || op = 0x1C then 0x0
  else if op = 0x08 then 0x4
  else if op = 0x0C || op = 0x0D || op = 0x0E || op = 0x12 || op = 0x14 || op = 0x1B then 0x5
  else if op = 0x10 then 0x6
  else if op = 0x11 then 0x7
  else 0x2

/-- Unit IDs (Table 12-3). -/
def unitOf (die idx : Nat) : Nat := die * 4096 + idx
def unitNone : Nat := 0xFFFF
def unitHost : Nat := 0x6FFF
def unitPcie : Nat := 0x6011
def unitSched : Nat := 0x6014
def unitTiming : Nat := 0x6013
def unitAon : Nat := 0x6016
def unitEvent : Nat := 0x6015

/-- Physical core number and unit ID behind a logical core. -/
def Device.phys (d : Device) (n : Nat) : Nat := d.rd COR_LMAP.phys n
def Device.coreUnit (d : Device) (n : Nat) : Nat := unitOf (d.phys n / 52) (d.phys n % 52)

/-- Compute die of a logical core (R15). -/
def coreDie (n : Nat) : Nat := n / 48

/-- Whether a unit is pending: a record of it is in flight, or its corrected word has not been written back (R369). -/
def Device.unitPending (d : Device) (u : Nat) : Bool :=
  d.ras.corr.contains u || d.ras.inflight.any fun r => r.unit == u

/-- Whether a unit is steeping (R384). -/
def Device.steeping (d : Device) (u : Nat) : Bool := d.ras.steeping.any fun e => e.1 == u

/-- MSI-X table size of a function (R451). -/
def Device.vectors (d : Device) (fn : Nat) : Nat :=
  if fn = 0 then 2048 else clampN 1 64 (d.rd TEN_IRQ_CFG.vf_vectors 0)

/-- A message of a vector goes out, and its rate gap starts (R452). -/
def Device.sendVec (d : Device) (fn v : Nat) : Device :=
  let k := fn * 4096 + v
  let e := smGet d.msix k {}
  let gap := d.rd TEN_IRQ_RATE.min_gap_us fn != 0
  { d with
    msix := smSet d.msix k {} { e with pending := false, gap := gap, again := false }
    sent := .msix fn v e.addr e.data :: d.sent }

/-- The sensor of a unit: a core's own, for its requesters too; else the die's (R496). -/
def sensorOf (u : Nat) : Nat :=
  let die := u / 4096
  let i := u % 4096
  if die < 4 && i < 0x34 then u
  else if die < 4 && 0x100 ≤ i && i < 0x780 then die * 4096 + (i - 0x100) / 32
  else die * 4096 + 0xFFE

/-- Last readings of a unit: temperature in 1/4 °C, voltage of its die in mV (Table 12-2). -/
def Device.tempOf (d : Device) (u : Nat) : Int := smGet d.ras.temps (sensorOf u) 0
def Device.voltOf (d : Device) (u : Nat) : Nat := smGet d.ras.volts (u / 4096) 0

/-- Temperature and voltage bins (R387); the nominal voltage of a compute die is 750 mV (Table 18-3). -/
def tbinOf (t : Int) : Nat := (max 0 (min 23 (t / 20))).toNat
def vbinOf (v : Nat) : Nat := (max 0 (min 7 (((v : Int) - 750) / 10 + 4))).toNat

/-- Record of a detected event: it takes the next index, and its body enters the in-flight queue, or, with 64 records in flight,
is written at once as a short record (R361, R365). -/
def Device.logCore (d : Device) (r : FaultRec) : Device :=
  let idx := d.rd RAS_LOG_STAT.head 0
  let fl := r.flags ||| (if d.steeping r.unit then 2 else 0)
  let t := d.tempOf r.unit
  let v := d.voltOf r.unit
  let full : FaultRec := { r with index := idx, time := d.time, flags := fl,
                                  temp := if r.temp = 0 then ofSigned 16 t else r.temp,
                                  volt := if r.volt = 0 then v else r.volt,
                                  tbin := tbinOf (if r.temp = 0 then t else toSigned 16 r.temp),
                                  vbin := vbinOf (if r.volt = 0 then v else r.volt) }
  let d := d.incWrap RAS_LOG_STAT.head 0 1
  if d.ras.inflight.length < 64 then
    let full := { full with flags := full.flags ||| b2n d.ras.escLost }
    let d := { d with ras := { d.ras with inflight := d.ras.inflight ++ [full], escLost := false } }
    d.wr RAS_LOG_CNT.inflight 0 d.ras.inflight.length
  else
    let short : FaultRec := { unit := full.unit, sev := full.sev, op := full.op, index := idx, time := full.time,
                              flags := full.flags ||| 64, leg := 0 }
    let lapped := decide (4096 ≤ (idx + 2 ^ 32 - d.rd RAS_LOG_STAT.consumed 0) % 2 ^ 32)
    let d := { d with ras := { d.ras with ring := smIns d.ras.ring (idx % 4096) short,
                                          escLost := d.ras.escLost || bit full.flags 0 } }
    let d := d.incSat RAS_LOG_CNT.lost 0 1
    if lapped then d.incSat RAS_LOG_CNT.overwrites 0 1 else d

/-- Whether nothing passes between host and device: the link down, PERST#, or power gated (R464, R501). -/
def Device.hostDown (d : Device) : Bool := d.pwr.linkDown || d.pwr.perst || d.pwr.gated

/-- Whether the device writes nothing to the host for a tenancy and sends none of its interrupts: its reset too (R455). -/
def Device.mute (d : Device) (t : Nat) : Bool := d.rd TEN_STAT.state t == 4 || d.hostDown

/-- An interrupt of a function's vector: not sent and counted beyond the table; held while masked; coalesced within the rate gap
(R451, R452). -/
def Device.raise (d : Device) (fn v : Nat) : Device :=
  if d.mute fn then d
  else if d.vectors fn ≤ v then
    d.logCore { unit := unitHost, sev := 0, op := 0x06 }
  else
    let k := fn * 4096 + v
    let e := smGet d.msix k {}
    if e.masked then { d with msix := smSet d.msix k {} { e with pending := true } }
    else if e.gap then
      let d := { d with msix := smSet d.msix k {} { e with again := true } }
      d.incSat TEN_IRQ_RATE.coalesced fn 1
    else d.sendVec fn v

/-- The RAS vector for a record, as RAS_CTL selects (Table 12-13). -/
def Device.rasIrq (d : Device) (r : FaultRec) : Device :=
  let v := d.rd RAS_CTL.vector 0
  let want := (d.on RAS_CTL.irq_record 0 && decide (2 ≤ r.sev)) ||
    (d.on RAS_CTL.irq_taste 0 && r.op == 0x0A) || (d.on RAS_CTL.irq_bucket 0 && r.op == 0x01) ||
    (d.on RAS_CTL.irq_retire 0 && (r.op == 0x0C || r.op == 0x0D || r.op == 0x0E))
  if want then d.raise 0 v else d

/-- A fault record: logged, and the RAS vector raised where selected. -/
def Device.log (d : Device) (r : FaultRec) : Device := (d.logCore r).rasIrq r

/-- A fault record of a plain event with the severity of its op. -/
def Device.logOp (d : Device) (unit op detail : Nat) : Device :=
  d.log { unit := unit, sev := opSeverity op, op := op, detail := detail }

/-- A host access error (R11, R528): the offset within the BAR and the BAR's number. -/
def Device.hostErr (d : Device) (off bar : Nat) : Device :=
  d.log { unit := unitHost, sev := 0, op := 0x06, detail := off % 2 ^ 32 + bar <<< 32 }

/-- Index that the next record will take; a completion detail names a record by it (R361). -/
def Device.nextRec (d : Device) : Nat := d.rd RAS_LOG_STAT.head 0

/-! ### Dirty logs and writes -/

/-- One bit of a bitmap in memory set. -/
def Device.setBit (d : Device) (sp off i : Nat) : Device :=
  let o := off + i / 8
  let b := d.readB devKey sp o
  d.poke devKey sp o [b ||| BitVec.ofNat 8 (1 <<< (i % 8))]

/-- Size of one host bitmap, and of one device bitmap, in bytes (R457, R458). -/
def Device.hostMapBytes (d : Device) (t : Nat) : Nat := roundUp (2 ^ (d.rd TEN_DLOG_HRANGE.size_log2 t - 15)) 4096
def Device.devMapBytes (d : Device) (t : Nat) : Nat :=
  roundUp (ceilDiv (d.rd MEM_XT_CFG.t1_pages t + d.rd MEM_XT_CFG.t2_pages t + d.rd MEM_XT_CFG.dp_pages t) 8) 4096

/-- Marks of a write to host memory for a tenancy (R457). -/
def Device.markHost (d : Device) (t off len : Nat) : Device :=
  if d.on TEN_DLOG_CTL.enable t && decide (0 < len) then
    let start := d.rd TEN_DLOG_HRANGE.start t * 4096
    let size := 2 ^ d.rd TEN_DLOG_HRANGE.size_log2 t
    let base := d.rd TEN_DLOG_HBASE.base t * 4096 + (if d.on TEN_DLOG_CTL.b_active t then d.hostMapBytes t else 0)
    let p0 := off / 4096
    let p1 := (off + len - 1) / 4096
    (List.range (p1 + 1 - p0)).foldl (fun d i =>
      let p := (p0 + i) * 4096
      if start ≤ p && decide (p < start + size) then d.setBit (spHost 0) base ((p - start) / 4096)
      else d.wr TEN_DLOG_CTL.out_of_range t 1) d
  else d

/-- Mark of a write through a tenancy's table in the device log and in the shadow set (R458, R460). -/
def Device.markDev (d : Device) (t : Nat) (idx : Option Nat) : Device :=
  match idx with
  | none => d
  | some i =>
    let tc := smGet d.tens t {}
    let d := if d.rd FTP_TEN_CFG.mode t ≠ 0 && !tc.shadow.contains i then
        { d with tens := smSet d.tens t {} { tc with shadow := i :: tc.shadow } } else d
    if d.on TEN_DLOG_CTL.enable t then
      d.setBit spT1 (d.rd TEN_DLOG_DBASE.base t * 4096 + (if d.on TEN_DLOG_CTL.b_active t then d.devMapBytes t else 0)) i
    else d

/-- A write to host memory for tenancy t (completion entries, releases, caddies, data). -/
def Device.writeHost (d : Device) (t off : Nat) (bs : List Byte) : Device :=
  if d.mute t then d else (d.store (spHost t) off bs).markHost t off bs.length

/-- A write that proceeds at a place, with its marks. -/
def Device.writeLoc (d : Device) (t : Nat) (l : Loc) (idx : Option Nat) (bs : List Byte) : Device :=
  if 16 ≤ l.sp then d.writeHost t l.off bs
  else (d.poke (if encrypted l.sp then d.tenKey t else devKey) l.sp l.off bs).markDev t idx

/-- How a write ended. -/
inductive Wr where
  | ok
  | waits
  | fault (ga : Nat)
  | poison (l : Loc)
  deriving DecidableEq, Repr

/-- The worse of two outcomes of the parts of a write (R275). -/
def Wr.join : Wr → Wr → Wr
  | .fault g, _ => .fault g
  | .poison l, _ => .poison l
  | _, .fault g => .fault g
  | _, .poison l => .poison l
  | .waits, _ => .waits
  | .ok, w => w

/-- What an access waits for that no channel of this device holds: a peer's crossing, or the tier-2 fill. -/
def chNone : Nat := 4095

/-- The channel of the crossing that holds a place of tenancy t, at a global address. -/
def Device.crossingOf (d : Device) (t ga : Nat) (l : Loc) : Nat :=
  if 16 ≤ l.sp then ((d.hostCrossing t (gaOff ga) 1 0).map fun c => c.1).getD chNone
  else
    match d.mm.chans.find? fun c => c.2.departing.contains l.page || c.2.arriving.contains l.page with
    | some c => c.1
    | none => chNone

/-- The leg that runs on a core has had its timing changed (Table 2-11). -/
def Device.perturb (d : Device) (n : Nat) : Device :=
  match (smGet d.cores n {}).leg with
  | some l => { d.wr COR_TIMING.perturbed n 1 with cores := smSet d.cores n {} { smGet d.cores n {} with leg := some { l with perturbed := true } } }
  | none => d

/-- A memory timing event begins: every leg that runs may be affected (R291, R428; log 154). -/
def Device.perturbLegs (d : Device) : Device := (d.cores.map fun c => c.1).foldl (fun d n => d.perturb n) d

/-- Whether a memory timing event goes on: a copy, a row repair, or a stack limited by its temperature (R291, R428). -/
def Device.memoryEvent (d : Device) : Bool := !d.ras.memEvents.isEmpty || !d.pwr.hbmSlow.isEmpty

/-- An access of space 3 takes banks of the tile stores through the debug port (R57, R263): the legs that run there are perturbed. -/
def Device.touchTS (d : Device) (ga len : Nat) : Device :=
  if d.isLocal ga && gaSp ga == 3 && d.debugOpen && decide (0 < len) then
    (List.range ((gaOff ga + len - 1) / 2097152 + 1 - gaOff ga / 2097152)).foldl (fun d i => d.perturb (gaOff ga / 2097152 + i)) d
  else d

/-- A write of a range with a tenancy's translation: each part proceeds, is held, or faults as its page decides (R275). -/
def Device.writeGA (d : Device) (t ga : Nat) (bs : List Byte) (n : Notify) : Device × Wr :=
  (parts ga bs.length).foldl (fun (acc : Device × Wr) p =>
    let d := acc.1
    let piece := (bs.drop (p.1 - ga)).take p.2
    match d.meet t p.1 true with
    | .faults => (d, acc.2.join (.fault p.1))
    | .waits l =>
      ({ d with mm := { d.mm with held := d.mm.held ++
          [{ ch := d.crossingOf t p.1 l, ten := t, ga := p.1, write := true, data := piece, len := p.2, notify := n }] } },
       acc.2.join .waits)
    | .proceeds l idx =>
      match d.poisonWrite l.sp l.off p.2 with
      | none => (d, acc.2.join (.poison l))
      | some d => ((d.writeLoc t l idx piece).touchTS p.1 p.2, acc.2)) (d, .ok)

/-- The regions that hold a range admit a writer (R325). -/
def Device.regionOk (d : Device) (t ga len src : Nat) : Bool :=
  (List.range 256).all fun r =>
    let base := d.rd FAB_REGION0.base_page r * pageSize
    let size := d.rd FAB_REGION0.pages r * pageSize
    let hit := d.on FAB_REGION0.valid r && d.rd FAB_REGION0.tenancy r == t && d.rd FAB_REGION0.space r == gaSp ga &&
      decide (gaOff ga < base + size) && decide (base < gaOff ga + len)
    !hit || d.rd FAB_REGION1.owner r == src ||
      (d.rd FAB_REGION1.grant r == 1 && d.rd FAB_REGION1.grantee r == src) || d.rd FAB_REGION1.grant r == 2

/-- Whether this device's own requesters may write a range (R325). -/
def Device.ownWrites (d : Device) (t ga len : Nat) : Bool := !d.isLocal ga || d.regionOk t ga len d.devId

/-- A write by a requester of this device, which regions may refuse (R325). -/
def Device.ownWrite (d : Device) (t ga : Nat) (bs : List Byte) (n : Notify) : Device × Wr :=
  if d.ownWrites t ga bs.length then d.writeGA t ga bs n else (d, .fault ga)

/-! ### Step counters and started commands -/

/-- Tenancy step counter. -/
def Device.step (d : Device) (t : Nat) : Nat := (smGet d.tens t {}).step

/-- The started command with a start number. -/
def Device.cmd? (d : Device) (sn : Nat) : Option Cmd := d.cmds.find? fun c => c.sn == sn

/-- A started command changed. -/
def Device.setCmd (d : Device) (c : Cmd) : Device := { d with cmds := d.cmds.map fun x => if x.sn = c.sn then c else x }

/-- Queue context. -/
def Device.queue (d : Device) (q : Nat) : QueueCtx := smGet d.queues q {}
def Device.setQueue (d : Device) (q : Nat) (c : QueueCtx) : Device := { d with queues := smSet d.queues q {} c }

/-- Logical core context. -/
def Device.core (d : Device) (n : Nat) : Core := smGet d.cores n {}
def Device.setCore (d : Device) (n : Nat) (c : Core) : Device := { d with cores := smSet d.cores n {} c }

/-- Fields of a submission entry (Table 4-11). -/
def eOp (e : List Byte) : Nat := leAt e 0 1
def eWait (e : List Byte) : Bool := bit (leAt e 1 1) 0
def eSignal (e : List Byte) : Bool := bit (leAt e 1 1) 1
def eSignalAdd (e : List Byte) : Bool := bit (leAt e 1 1) 2
def eSignalFail (e : List Byte) : Bool := bit (leAt e 1 1) 3
def eIrq (e : List Byte) : Bool := bit (leAt e 1 1) 4
def eQuiet (e : List Byte) : Bool := bit (leAt e 1 1) 5
def eCmdId (e : List Byte) : Nat := leAt e 2 2
def eWaitEvent (e : List Byte) : Nat := leAt e 4 2
def eSignalEvent (e : List Byte) : Nat := leAt e 6 2
def eWaitValue (e : List Byte) : Nat := leAt e 8 8
def eSignalValue (e : List Byte) : Nat := leAt e 16 8
def eClient (e : List Byte) : Nat := bits (leAt e 24 3) 19 0
def eClass (e : List Byte) : Nat := bits (leAt e 24 3) 21 20

/-- Completion statuses (Table 4-14). -/
def stOk : Nat := 0x00
def stOverrun : Nat := 0x01
def stFault : Nat := 0x02
def stEcc : Nat := 0x03
def stTimeout : Nat := 0x04
def stIndet : Nat := 0x05
def stDropped : Nat := 0x06
def stPreempted : Nat := 0x07
def stDeclined : Nat := 0x08
def stMissed : Nat := 0x09
def stTaste : Nat := 0x0A
def stRolled : Nat := 0x0B
def stDouble : Nat := 0x0C
def stDenied : Nat := 0x0D
def stSuspect : Nat := 0x0E
def stUnserv : Nat := 0x0F

/-- Done or Failed (Table 4-14, R135). -/
def stDone (st : Nat) : Bool := st == stOk || st == stOverrun || st == stDropped

/-- Detail of a POLICY_DENIED completion: reason, sub-code, index (Table 4-14). -/
def denied (reason sub idx : Nat) : Nat := reason + sub <<< 8 + (idx % 65536) <<< 16

/-- Address of an event in its tenancy's event array (R132, Table 4-10). -/
def Device.evtAddr (d : Device) (t e : Nat) : Nat := d.rd QUE_EVT_BASE.base t * 524288 + 8 * e

/-- Value of an event. -/
def Device.event (d : Device) (t e : Nat) : Nat := d.peekN spT1 (d.evtAddr t e) 8

/-- Fetched entries whose wait condition a change of an event makes true become ready at that moment (R133, R176). -/
def readyNow (now old new e : Nat) (xs : List (Nat × List Byte)) : List (Nat × List Byte) :=
  xs.map fun x =>
    if eWait x.2 && eWaitEvent x.2 == e && decide (old < eWaitValue x.2) && decide (eWaitValue x.2 ≤ new) then (now, x.2) else x

/-- A signal: maximum, or saturating sum (R132). -/
def Device.signal (d : Device) (t e v : Nat) (add : Bool) : Device :=
  let x := d.event t e
  let y := if add then satAdd 64 x v else max x v
  let d := d.pokeN spT1 (d.evtAddr t e) 8 y
  { d with queues := d.queues.map fun q =>
      if d.rd QUE_CFG.tenancy q.1 = t then (q.1, { q.2 with fetched := readyNow d.time x y e q.2.fetched }) else q }

/-- A command has completed: it leaves the started commands. -/
def Device.retireCmd (d : Device) (q sn : Nat) : Device :=
  let d := { d with cmds := d.cmds.filter fun c => c.sn != sn }
  d.wr QUE_STAT.in_flight q (d.rd QUE_STAT.in_flight q - 1)

/-- A started command ends with a status: it signals at once (R134, R135) and is in flight no more, and its completion waits to be written in
order of completion (R137). The entry of a Radio RUN whose header was read carries its slot count (R136). A Failed completion halts its queue where halt_on_fail is set. -/
def Device.finish (d : Device) (sn st detail : Nat) (stepVal : Option Nat) : Device :=
  match d.cmd? sn with
  | none => d
  | some c =>
    let e := c.entry
    let d := if eSignal e && (stDone st || eSignalFail e) then
        d.signal c.ten (eSignalEvent e) (eSignalValue e) (eSignalAdd e) else d
    let qc := d.queue c.queue
    let comp : Completion :=
      { cmdId := eCmdId e, opcode := eOp e, status := st, detail := detail,
        step := stepVal.getD ((c.run.bind fun r => r.slot).getD (d.step c.ten)), irq := eIrq e, quiet := eQuiet e && st == stOk }
    let d := (d.setQueue c.queue { qc with toPost := qc.toPost ++ [comp] }).retireCmd c.queue sn
    if !stDone st && d.on QUE_CFG.halt_on_fail c.queue && d.rd QUE_STAT.state c.queue == 1 then
      d.wr QUE_STAT.state c.queue 2
    else d

/-- A token of a leg set, with or without an error mark; the write is dropped when that leg has ended (R235, R286). -/
def Device.setToken (d : Device) (n serial tok : Nat) (err : Bool) (st : Nat := 0) : Device :=
  let c := d.core n
  match c.leg with
  | none => d
  | some l =>
    if l.serial ≠ serial then d
    else
      let w := if l.seqWait == some tok && !err then none else l.seqWait
      let v := if l.laneWait == some tok && !err then none else l.laneWait
      let l' : Leg := { l with tokens := smIns l.tokens tok ⟨err, st⟩, seqWait := w, laneWait := v }
      d.setCore n { c with leg := some l' }

/-- The first failure of a RUN in time; no further leg of it starts (R121). -/
def Device.failRun (d : Device) (sn st detail : Nat) : Device :=
  match d.cmd? sn with
  | none => d
  | some c =>
    match c.run with
    | none => d
    | some r =>
      match r.fail with
      | some _ => d
      | none => d.setCmd { c with run := some { r with fail := some (st, detail) } }

/-- One independent copy, route or blend of a RUN less (R121, R239). -/
def Device.moverDone (d : Device) (sn : Nat) : Device :=
  match d.cmd? sn with
  | none => d
  | some c =>
    match c.run with
    | none => d
    | some r => d.setCmd { c with run := some { r with movers := r.movers - 1 } }

end Sys2Proof.Machine
end

