-- ==== Sys2Proof/Machine/Fail.lean ====
section
/-! DEFINITION. Errors and what they lead to: uncorrectable errors and their escalation, the events that policy counts, steeping, retirement
and field repair (R367, R369–R372, R384, Table 12-10). -/

namespace Sys2Proof.Machine

/-- Unit kinds by ID (Table 12-3). -/
def isCoreUnit (u : Nat) : Bool := decide (u / 4096 < 4) && decide (u % 4096 < 0x34)
def isEngineUnit (u : Nat) : Bool := (u / 4096 == 4 || u / 4096 == 5) && decide (0x20 ≤ u % 4096) && decide (u % 4096 ≤ 0x24)
def isPcUnit (u : Nat) : Bool :=
  (u / 4096 == 4 || u / 4096 == 5) && decide (0x100 ≤ u % 4096) && decide (u % 4096 < 0x300) &&
  decide ((u % 4096 - 0x100) % 128 < 66)

/-- The core a unit ID belongs to: a core, or one of its tile-store requesters. -/
def coreOfUnit (u : Nat) : Nat :=
  if u / 4096 < 4 && 0x100 ≤ u % 4096 && u % 4096 < 0x780 then u / 4096 * 4096 + (u % 4096 - 0x100) / 32 else u

/-- Logical core behind which a physical core unit stands. -/
def Device.logicalOf (d : Device) (u : Nat) : Option Nat :=
  leastBelow 192 fun n => d.coreUnit n == u && d.rd COR_LMAP.state n != 6

/-- Whether a unit is being retired. -/
def Device.isRetiring (d : Device) (u : Nat) : Bool := d.ras.retiring.any fun r => r.1 == u

/-- The unit of data at a place is poisoned, in a page that is not System (R359). -/
def Device.poisonAt (d : Device) (sp off : Nat) : Device :=
  if sp ≤ 2 && d.pageState (pageKey sp (off / pageSize)) == pgSystem then d
  else
    let p := cellAt sp (off / poisonUnit sp * poisonUnit sp)
    { d with poison := if d.poison.contains p then d.poison else p :: d.poison }

/-- ACLK cycles of a second. -/
def secCycles : Nat := 1800000000

/-- Retirement of a unit, for a cause op: its record, and its place in the list that the bring-in rows serve (R372). -/
def Device.retire (d : Device) (u cause : Nat) : Device :=
  if d.isRetiring u || d.ras.lost.contains u then d
  else
    let idx := d.nextRec
    let d := d.log { unit := u, sev := 5, op := 0x0D, flags := 32, detail := cause }
    { d with ras := { d.ras with retiring := d.ras.retiring ++ [(u, idx)], causes := smIns d.ras.causes u cause } }

/-- A unit without a spare is lost: record op 0x0E (R372). -/
def Device.lose (d : Device) (u cause : Nat) : Device :=
  if d.ras.lost.contains u then d
  else
    let idx := d.nextRec
    let d := d.log { unit := u, sev := 5, op := 0x0E, detail := cause }
    { d with ras := { d.ras with lost := u :: d.ras.lost, lostRecs := smIns d.ras.lostRecs u idx, retiring := d.ras.retiring.filter fun r => r.1 != u } }

/-- A unit enters steeping, or its event-free time starts again (R384). -/
def Device.steep (d : Device) (u : Nat) : Device :=
  if isCoreUnit u || isEngineUnit u || isPcUnit u then
    let d := { d with ras := { d.ras with steeping := (u, d.cycle) :: d.ras.steeping.filter fun s => s.1 != u } }
    match d.logicalOf u with
    | some n => d.wr RAS_CORE_HEALTH.steeping n 1
    | none => d
  else d

/-- A unit leaves steeping. -/
def Device.unsteep (d : Device) (u : Nat) : Device :=
  let d := { d with ras := { d.ras with steeping := d.ras.steeping.filter fun s => s.1 != u } }
  match d.logicalOf u with
  | some n => d.wr RAS_CORE_HEALTH.steeping n 0
  | none => d

/-! ### Field repair -/

/-- An entry that the CK960 itself programs, with its check (Table 12-8). -/
def repairEntry (kind unit location : Nat) : Nat :=
  let e := kind * 2 ^ 60 + unit % 65536 * 2 ^ 44 + location % 2 ^ 32 * 2 ^ 12
  e + crc12 e

/-- Programming of an entry starts, or waits for the one in progress (R371). -/
def Device.startRepair (d : Device) (e : Nat) : Device :=
  match d.ras.repairing with
  | some _ => { d with ras := { d.ras with pendingRepair := d.ras.pendingRepair ++ [e] } }
  | none =>
    let d : Device := { d with ras := { d.ras with repairing := some e } }
    d.wr RAS_REPAIR_STAT.busy 0 1

/-! ### Policy -/

/-- Kinds of events that Table 12-10 counts. -/
def evBucket : Nat := 0
def evUncorr : Nat := 1
def evVerdict : Nat := 2
def evTest : Nat := 3
def evSteepBucket : Nat := 4
def evRow : Nat := 5

/-- Events of a unit and kind, at a place, within the last 24 hours. -/
def Device.eventCount (d : Device) (u kind place : Nat) : Nat :=
  (d.ras.events.filter fun e => e.1 == u && e.2.1 == kind && e.2.2.1 == place && decide (d.cycle < e.2.2.2 + 86400 * secCycles)).length

/-- What policy does with the events of a unit (Table 12-10), where RAS_POLICY.auto is 1. `kind4` tells an SRAM row (1) from a DRAM row. -/
def Device.policy (d : Device) (u kind place cause rowKind : Nat) : Device :=
  if !d.on RAS_POLICY.auto 0 then d
  else
    let n := d.eventCount u kind place
    let retire :=
      (isCoreUnit u && ((kind == evVerdict && decide (3 ≤ n)) || (kind == evTest && decide (2 ≤ n)) ||
        (kind == evSteepBucket && decide (4 ≤ n)))) ||
      (isEngineUnit u && ((kind == evUncorr && decide (2 ≤ n)) || (kind == evTest && decide (1 ≤ n)))) ||
      (isPcUnit u && ((kind == evBucket && decide (8 ≤ n)) || (kind == evUncorr && decide (2 ≤ n))))
    let d := if retire then d.retire u cause else d
    if kind = evRow && n == 2 then d.startRepair (repairEntry rowKind u place) else d

/-- An event that policy counts. -/
def Device.addEvent (d : Device) (u kind place cause rowKind : Nat) : Device :=
  let old := d.ras.events.filter fun e => decide (d.cycle < e.2.2.2 + 86400 * secCycles)
  let d := { d with ras := { d.ras with events := (u, kind, place, d.cycle) :: old } }
  d.policy u kind place cause rowKind

/-- An uncorrectable error at a unit (R367): counted by store kind, recorded with op 0x02; of a pending unit it is handled one level
higher: severity 0x3, flag escalated, and the unit is retired (R369). Of a unit being retired it is logged only (Table 12-7). A free value
stands for the syndrome. -/
def Device.uncorr (d : Device) (unit kind : Nat) (r : FaultRec) : Device :=
  let u := coreOfUnit unit
  let pending := d.unitPending unit || d.unitPending u
  let retiring := d.isRetiring u
  let f := d.fresh (2 ^ 56)
  let up := pending || retiring
  let d := if retiring then f.2 else f.2.incSat RAS_ECC_CNT.uncorrectable kind 1
  let d := d.log { r with unit := unit, sev := if up then 3 else 2, op := 0x02, detail := f.1 + kind <<< 56, flags := b2n up }
  if retiring then d
  else
    let d := if isEngineUnit u || isPcUnit u then d.addEvent u evUncorr 0 0x02 0 else d
    if pending then d.retire u 0x02 else d

/-- A second error of a pending unit that would have been correctable is handled as uncorrectable at that unit (Table 12-7). -/
def Device.escalated (d : Device) (unit kind : Nat) (r : FaultRec) : Device :=
  let u := coreOfUnit unit
  let f := d.fresh (2 ^ 56)
  let d := f.2.incSat RAS_ECC_CNT.uncorrectable kind 1
  let d := d.log { r with unit := unit, sev := 3, op := 0x02, detail := f.1 + kind <<< 56, flags := 1 }
  if isEngineUnit u || isPcUnit u then d.addEvent u evUncorr 0 0x02 0 else d

/-! ### Environment bins -/

/-- Counts of a logical core by environment and by pass format (R387): `field` 0 errors, 1 tasted passes. -/
def Device.binAdd (d : Device) (n tbin vbin fmt field : Nat) : Device :=
  if !d.on RAS_BIN_CFG.enable 0 then d
  else
    let base := d.rd RAS_BIN_CFG.base 0 * pageSize + 2048 * n
    let bump (d : Device) (o : Nat) : Device :=
      if (d.poisonIn spT1 o 4).isSome then
        let d := d.uncorr (unitOf 6 0x016) 2 { unit := 0, sev := 2, op := 0x02, addr := o }
        d.zero spT1 (o / 32 * 32) 32
      else d.pokeN spT1 o 4 (satAdd 32 (d.peekN spT1 o 4) 1)
    bump (bump d (base + 8 * (8 * tbin + vbin) + 4 * field)) (base + 1536 + 8 * fmt + 4 * field)

/-- A count of a logical core at its present temperature and voltage. -/
def Device.binNow (d : Device) (n fmt field : Nat) : Device :=
  d.binAdd n (tbinOf (d.tempOf (d.coreUnit n))) (vbinOf (d.voltOf (d.coreUnit n))) fmt field

/-- Outcome of a periodic test of core n (R372, R384, R385): 0 passed; 1 failed and passed on retest, which starts steeping; 2 failed, which
retires the core. The manual numbers no tests: the number in the record is free (log 3). -/
def Device.testEnd (d : Device) (n outcome : Nat) : Device :=
  if outcome = 0 then d
  else
    let u := d.coreUnit n
    let f := d.fresh 65536
    let d := f.2.log { unit := u, sev := 2, op := 0x0B, flags := 8, detail := f.1 }
    let d := (d.incSat RAS_CORE_HEALTH.test_fails n 1).binNow n 6 0
    let d := d.addEvent u evTest 0 0x0B 0
    if outcome = 1 then d.steep u else d.retire u 0x0B

/-! ### Correctable errors -/

/-- Bucket level and errors since the last overflow of a unit. -/
def Device.bucket (d : Device) (u : Nat) : Nat × Nat :=
  match d.ras.buckets.find? fun b => b.1 == u with
  | some b => b.2
  | none => (0, 0)

def Device.setBucket (d : Device) (u l e : Nat) : Device :=
  let d := { d with ras := { d.ras with buckets := (u, l, e) :: d.ras.buckets.filter fun b => b.1 != u } }
  match d.logicalOf u with
  | some n => if isCoreUnit u then d.wr RAS_CORE_HEALTH.bucket n l else d
  | none => d

/-- A correctable error of a unit, of a store kind, at a row (R366); the answer says whether the unit was pending, so that the error is
handled as uncorrectable at that unit (R369), and the caller does so. -/
def Device.correctable (d : Device) (u kind row : Nat) : Device × Bool :=
  let d := d.incSat RAS_ECC_CNT.corrected kind 1
  if d.isRetiring u then (d, false)
  else if d.unitPending u then (d, true)
  else
    let d := { d with ras := { d.ras with corr := u :: d.ras.corr } }
    let b := d.bucket u
    if max 1 (d.rd RAS_BUCKET_CFG.depth 0) < b.1 + 1 then
      let d := d.setBucket u 0 0
      let d := d.log { unit := u, sev := 1, op := 0x01, detail := kind + (b.2 + 1) <<< 32 }
      let d := match d.logicalOf u with
        | some n => if isCoreUnit u then d.binNow n 7 0 else d
        | none => d
      let d := if isCoreUnit u && d.steeping u then d.addEvent u evSteepBucket 0 0x01 0 else d
      let d := if isPcUnit u then d.addEvent u evBucket 0 0x01 0 else d
      let d := d.steep u
      (d.addEvent u evRow row 0x01 (if kind = 2 then 4 else if kind = 3 then 5 else 1), false)
    else (d.setBucket u (b.1 + 1) (b.2 + 1), false)

/-! ### What works -/

/-- Whether a unit works: neither lost nor being retired. -/
def Device.works (d : Device) (u : Nat) : Bool := !d.ras.lost.contains u && !d.isRetiring u

/-- Whether a die works as a whole (Table 12-3, index 0xFFE). -/
def Device.dieWorks (d : Device) (k : Nat) : Bool := d.works (unitOf k 0xFFE)

/-- Whether a unit and its die work. -/
def Device.serves (d : Device) (u : Nat) : Bool := d.works u && d.dieWorks (u / 4096)

/-- Working enabled cores of a die, HBM4 stacks. -/
def Device.coreServes (d : Device) (n : Nat) : Bool := d.rd COR_LMAP.state n != 6 && d.serves (d.coreUnit n)
def Device.coresOn (d : Device) (k : Nat) : Nat := ((List.range 48).filter fun i => d.coreServes (48 * k + i)).length
def stackUnit (s : Nat) : Nat := unitOf (4 + s / 4) (s % 4)
def Device.stackWorks (d : Device) (s : Nat) : Bool := d.serves (stackUnit s)

/-! ### Places of memory -/

/-- Pseudo-channel of a tier-1 offset (R265), channel of a tier-2 offset (R266). -/
def pcOf (off : Nat) : Nat :=
  let a := off / 256
  bits a 8 0 ^^^ bits a 17 9 ^^^ bits a 26 18 ^^^ bits a 31 27
def t2Chan (off : Nat) : Nat :=
  let b := off / 256
  bits b 4 0 ^^^ bits b 9 5 ^^^ bits b 14 10 ^^^ bits b 19 15 ^^^ bits b 24 20 ^^^ bits b 29 25 ^^^ bits b 31 30

/-- Unit ID of pseudo-channel q (0–511), after the remap of spares (R267). -/
def Device.pcUnit (d : Device) (q : Nat) : Nat :=
  let u := unitOf (4 + q / 256) (0x100 + 128 * (q / 64 % 4) + q % 64)
  smGet d.ras.psMap u u

/-- Stacks of the tier-1 map, and the pseudo-channel that a hashed one is under the reduced map (R495). -/
def Device.mapStacks (d : Device) : List Nat := (List.range 8).filter fun s => bit (d.rd PWR_START_STAT.t1_stacks 0) s
def Device.mappedPc (d : Device) (q : Nat) : Nat :=
  let w := d.rd PWR_START_STAT.t1_w 0
  if w = 0 then q else d.mapStacks.getD (q / 64 % w) 0 * 64 + q % 64

/-- Unit that stores a place, and its kind in RAS_ECC_CNT (Table 12-19, R264–R266). -/
def Device.placeUnit (d : Device) (sp off : Nat) : Nat × Nat :=
  if sp = spT1 then (d.pcUnit (d.mappedPc (pcOf off)), 2)
  else if sp = spT2 then (unitOf (4 + t2Chan off / 16) (0x10 + t2Chan off % 16), 3)
  else if sp = spDP then (unitOf (off / 2 ^ 26) (0x40 + bits off 11 7), 1)
  else (d.coreUnit (off / 2097152), 0)

/-- Dies and die links that an access passes between a die (0–3 compute, 4–5 memory side, 6 IOD) and a place (R268): a tier access takes the memory-side die of its stack or
channel; an access to another die's pool passes MD0 or MD1 by bit 12 of its offset; the IOD reaches memory by the IOD link of the memory-side die. The IOD link of a die has index
0x072 (log 149). -/
def Device.routeOf (d : Device) (o : Nat) (l : Loc) : List Nat :=
  let link (die m : Nat) : Nat := unitOf die (0x70 + (m - 4))
  if l.sp ≤ 1 then
    let m := (d.placeUnit l.sp l.off).1 / 4096
    (if o < 4 then [link o m] else if o = 6 then [unitOf m 0x72] else []) ++ [unitOf m 0xFFE]
  else if l.sp = spDP then
    let b := l.off / 2 ^ 26
    let m := 4 + bits l.off 12 12
    (if o = b then [] else if o < 4 then [link o m, unitOf m 0xFFE, link b m] else [unitOf b 0x72]) ++ [unitOf b 0xFFE]
  else []

/-- Units that store a place, its stack among them, and those on the way to it. -/
def Device.unitsOf (d : Device) (o : Nat) (l : Loc) : List Nat :=
  let u := (d.placeUnit l.sp l.off).1
  (if isPcUnit u then [u, u / 4096 * 4096 + (u % 4096 - 0x100) / 128] else [u]) ++ d.routeOf o l

/-- The 256-byte lines of a range of device memory that matter for its units: 512 consecutive ones meet every pseudo-channel and channel (R265, R266). -/
def linesOf (l : Loc) (len : Nat) : List Loc := (List.range (min 512 (len / 256 + 1))).map fun i => ⟨l.sp, l.off + 256 * i⟩

/-- Whether an access from a die to a range of device memory passes a lost unit: it has no other route (R268). -/
def Device.routeLost (d : Device) (o : Nat) (l : Loc) (len : Nat) : Bool :=
  !d.ras.lost.isEmpty && (linesOf l len).any fun k => (d.routeOf o k).any d.ras.lost.contains

end Sys2Proof.Machine
end

