-- ==== Sys2Proof/Machine/Queues.lean ====
section
/-! DEFINITION. Queues, doorbells, fetching, the start of a command and its completion entry (R122–R137), and the accounting of queue
waits (R176, R177). -/

namespace Sys2Proof.Machine

/-- Queue states (Table 4-8). -/
def qDisabled : Nat := 0
def qRunning : Nat := 1
def qHalted : Nat := 2
def qDbError : Nat := 3
def qDraining : Nat := 4

/-- Tenancy states (Table 15-10). -/
def tnOff : Nat := 0
def tnActive : Nat := 1
def tnQuiescing : Nat := 2
def tnQuiesced : Nat := 3
def tnResetting : Nat := 4

/-- Owner of a queue (R123). -/
def Device.qTen (d : Device) (q : Nat) : Nat := d.rd QUE_CFG.tenancy q

/-- Whether the device is unserviceable: level 0b00 after the first evaluation (R25, R29). -/
def Device.unserviceable (d : Device) : Bool := d.on GEN_SVC.eval_done 0 && d.rd GEN_SVC.svc_level 0 == 0

/-- Whether a function's memory space answers: not in D3hot (R441). -/
def Device.fnAwake (d : Device) (fn : Nat) : Bool := !(smGet d.tens fn {}).d3hot && !d.hostDown

/-- Address of submission entry i of a queue, in its tenancy's function space (R122, R127). -/
def Device.sqAddr (d : Device) (q i : Nat) : Nat :=
  d.rd QUE_SQ_BASE.base q * 4096 + 64 * (i % 2 ^ d.rd QUE_CFG.sq_log2 q)

/-- Address of completion entry i. -/
def Device.cqAddr (d : Device) (q i : Nat) : Nat :=
  d.rd QUE_CQ_BASE.base q * 4096 + 32 * (i % 2 ^ d.rd QUE_CFG.cq_log2 q)

/-- A submission entry as it stands in host memory. -/
def Device.sqEntry (d : Device) (q i : Nat) : List Byte := d.peek devKey (spHost (d.qTen q)) (d.sqAddr q i) 64

/-- Whether an entry is a CFG_TXN commit. -/
def isCommit (e : List Byte) : Bool := eOp e == 0x09 && leAt e 28 1 == 1

/-- Commits that the entries from `a` up to `b` make visible (R143). -/
def Device.newCommits (d : Device) (q a b : Nat) : Nat :=
  ((List.range ((b + 2 ^ 32 - a) % 2 ^ 32)).filter fun i => isCommit (d.sqEntry q ((a + i) % 2 ^ 32))).length

def Device.txn (d : Device) (t : Nat) : TxnCtx := smGet d.txns t {}
def Device.setTxn (d : Device) (t : Nat) (x : TxnCtx) : Device := { d with txns := smSet d.txns t {} x }

/-- A doorbell error: the queue stops accepting, and a record is written (R128). -/
def Device.dbError (d : Device) (q err : Nat) : Device :=
  let d := (d.wr QUE_STAT.state q qDbError).wr QUE_STAT.db_err q err
  d.log { unit := unitPcie, sev := 0, op := 0x13, detail := q + err <<< 16, ten := d.qTen q }

/-- A submission tail written to a doorbell page (R127, R128, R445). -/
def sqDoorbell (fn q value : Nat) (d : Device) : Device :=
  let T := value % 2 ^ 32
  if !d.fnAwake fn then d
  else if d.qTen q ≠ fn then d.hostErr (0x1000 * q) 2
  else
    let st := d.rd QUE_STAT.state q
    if st = qDisabled then d.wr QUE_STAT.db_err q 3
    else if st = qRunning || st = qHalted then
      if (T + 2 ^ 32 - d.rd QUE_STAT.sq_head q) % 2 ^ 32 ≤ 2 ^ d.rd QUE_CFG.sq_log2 q then
        let qc := d.queue q
        let x := d.txn fn
        let from_ := if (T + 2 ^ 32 - qc.tail) % 2 ^ 32 ≤ 2 ^ d.rd QUE_CFG.sq_log2 q then qc.tail else T
        let new := d.newCommits q from_ T
        let d := d.setTxn fn { x with visible := x.visible + new }
        d.setQueue q { qc with tail := T, commits := qc.commits + new }
      else d.dbError q 1
    else d

/-- A completion head written to a doorbell page (R128). An accepted head frees ring space at once. -/
def cqDoorbell (fn q value : Nat) (d : Device) : Device :=
  let C := value % 2 ^ 32
  if !d.fnAwake fn then d
  else if d.qTen q ≠ fn then d.hostErr (0x1000 * q + 8) 2
  else
    let st := d.rd QUE_STAT.state q
    if st = qDisabled then d.wr QUE_STAT.db_err q 3
    else if st = qRunning || st = qHalted then
      let qc := d.queue q
      if (qc.cqTail + 2 ^ 32 - C) % 2 ^ 32 ≤ 2 ^ d.rd QUE_CFG.cq_log2 q then
        let d := d.setQueue q { qc with cqHead := C }
        if (qc.cqTail + 2 ^ 32 - C) % 2 ^ 32 < 2 ^ d.rd QUE_CFG.cq_log2 q then d.wr QUE_STAT.cq_full q 0 else d
      else d.dbError q 2
    else d

/-- A doorbell write of wrong size or alignment, or to an unowned queue (R127, R445). -/
def doorbellBadWrite (fn off : Nat) (d : Device) : Device := if d.fnAwake fn then d.hostErr off 2 else d

/-! ### Accounting -/

/-- Client entry of a tenancy's accounting table (R177). -/
def Device.acctEntry (d : Device) (t client : Nat) : Nat :=
  d.rd SCH_ACCT_CFG.base t * 4096 + 32 * (client % 2 ^ d.rd SCH_ACCT_CFG.log2_entries t)

/-- Saturating add to a counter in tier 1, under the device key (R476). -/
def Device.bumpSat (d : Device) (off n v : Nat) : Device := d.pokeN spT1 off n (satAdd (8 * n) (d.peekN spT1 off n) v)
def Device.bumpWrap (d : Device) (off n v : Nat) : Device := d.pokeN spT1 off n ((d.peekN spT1 off n + v) % 2 ^ (8 * n))

/-- A command of a client starts (R131, R177). -/
def Device.acctCount (d : Device) (t client : Nat) : Device :=
  if d.on SCH_ACCT_CFG.enable t then d.bumpWrap (d.acctEntry t client + 8) 4 1 else d

/-- A queue wait of `ns` nanoseconds ends (R176). -/
def Device.acctStart (d : Device) (t client ns : Nat) : Device :=
  let d := d.incWrap SCH_ACCT_WAIT.wait_ns t ns
  if d.on SCH_ACCT_CFG.enable t then
    let a := d.acctEntry t client
    let d := d.bumpWrap a 8 ns
    d.pokeN spT1 (a + 12) 4 (max (d.peekN spT1 (a + 12) 4) (min ns (2 ^ 32 - 1)))
  else d

/-- A pre-emption of a command (`seq` false) or of a sequence, for its client and tenancy (R151, R174, R176). -/
def Device.acctPre (d : Device) (t client : Nat) (seq : Bool) : Device :=
  let d := if seq then d.incSat SCH_ACCT_PRE.seq_preempted t 1 else d.incSat SCH_ACCT_PRE.cmd_preempted t 1
  if d.on SCH_ACCT_CFG.enable t then d.bumpSat (d.acctEntry t client + (if seq then 20 else 16)) 4 1 else d

/-- Cycles withheld from a client's leg (R176). -/
def Device.acctWithheld (d : Device) (t client n : Nat) : Device :=
  if d.on SCH_ACCT_CFG.enable t then d.bumpWrap (d.acctEntry t client + 24) 8 n else d

/-! ### Starting a command -/

/-- Operation-field bytes of each opcode (Table 4-12): the bytes that need not be 0. -/
def opBytes : Nat → List (Nat × Nat)
  | 0x01 => [(28, 3), (32, 8), (40, 8), (48, 1)]
  | 0x02 => [(28, 4), (32, 8), (40, 8)]
  | 0x03 => [(28, 36)]
  | 0x06 => [(28, 1)]
  | 0x07 => [(28, 4), (32, 2), (34, 1), (36, 4), (40, 8)]
  | 0x08 => [(28, 4), (32, 2)]
  | 0x09 => [(28, 1)]
  | 0x0A => [(32, 8), (40, 4), (48, 8)]
  | 0x0B => [(28, 1), (32, 8), (40, 4)]
  | 0x0C => [(32, 8)]
  | _ => []

/-- Check 1 of Table 4-4. -/
def entryKnown (e : List Byte) : Bool :=
  decide (1 ≤ eOp e) && decide (eOp e ≤ 0x0C) && !(eOp e == 0x09 && decide (2 < leAt e 28 1)) &&
  !(eOp e == 0x06 && decide (1 < leAt e 28 1))

/-- Check 2 of Table 4-4: every reserved field of the entry is 0. -/
def entryReserved (e : List Byte) : Bool :=
  bits (leAt e 1 1) 7 6 == 0 && bits (leAt e 24 3) 23 22 == 0 && leAt e 27 1 == 0 &&
  ((List.range 36).all fun i => leAt e (28 + i) 1 == 0 || (opBytes (eOp e)).any fun r => inRange (28 + i) r.1 r.2) &&
  !(eOp e == 0x0B && decide (1 < leAt e 28 1))

/-- The first of checks 1 to 3 of Table 4-4 that an entry fails, as its reason. -/
def Device.precheck (d : Device) (q : Nat) (e : List Byte) : Option Nat :=
  if !entryKnown e then some 0x01
  else if !entryReserved e then some 0x02
  else if !bit (d.rd QUE_CFG.class_mask q) (eClass e) || eClass e == 3 then some 0x03
  else none

/-- Whether the entry at the front of a queue may start now (R131, R453, R490): the queue Running, its tenancy Active, the device not in Idle-hold, its
wait condition holding. -/
def Device.frontReady (d : Device) (q : Nat) : Option (Nat × List Byte) :=
  if d.rd QUE_STAT.state q = qRunning && d.rd TEN_STAT.state (d.qTen q) == tnActive && d.rd PWR_STATE_STAT.state 0 != 1 then
    match (d.queue q).fetched with
    | [] => none
    | x :: _ =>
      if eWait x.2 && decide (d.event (d.qTen q) (eWaitEvent x.2) < eWaitValue x.2) then none else some x
  else none

/-- The front entry leaves the fetched list and becomes a started command (R131), counted for its client. A command that is not a RUN accounts its wait
here (R176). -/
def Device.startFront (d : Device) (q : Nat) (x : Nat × List Byte) : Device × Cmd :=
  let qc := d.queue q
  let c : Cmd := { sn := d.sn, queue := q, ten := d.qTen q, entry := x.2 }
  let d := d.setQueue q { qc with fetched := qc.fetched.tail, commits := if isCommit x.2 then qc.commits - 1 else qc.commits }
  let d := (d.incWrap QUE_STAT.in_flight q 1).acctCount c.ten (eClient x.2)
  let d := if eOp x.2 = 0x01 then d else d.acctStart c.ten (eClient x.2) ((d.time - x.1) / 144)
  let x' := d.txn c.ten
  let d := if isCommit c.entry then d.setTxn c.ten { x' with visible := x'.visible - 1 } else d
  ({ d with sn := d.sn + 1, cmds := d.cmds ++ [c] }, c)

/-- The entry at the front of a queue that starts now. While the device is unserviceable it is any fetched entry, whatever it waits for and whatever state its
queue and tenancy are in: each submitted command completes (Table 1-5). -/
def Device.nextFront (d : Device) (q : Nat) : Option (Nat × List Byte) :=
  if d.unserviceable then (d.queue q).fetched.head? else d.frontReady q

/-- Front entries of an opcode no row covers, or any entry while the device is unserviceable, start and end at once (check 1 of
Table 4-4; Table 1-5). -/
def settleFront : Nat → Nat → Device → Device
  | 0, _, d => d
  | n + 1, q, d =>
    match d.nextFront q with
    | none => d
    | some x =>
      if d.unserviceable then
        let r := d.startFront q x
        settleFront n q (r.1.finish r.2.sn stUnserv 0 none)
      else if !entryKnown x.2 && eOp x.2 != 0x06 then
        let r := d.startFront q x
        settleFront n q (r.1.finish r.2.sn stDenied (denied 0x01 0 0) none)
      else d

def Device.settle (d : Device) (q : Nat) : Device := settleFront ((d.queue q).fetched.length + 1) q d

/-- Starts the front command of a queue when it has the opcode asked for and passes checks 1 to 3; `k` gives its own effect. After a
double loss every command but the STEP_COMMIT that clears it completes with DOUBLE_LOSS (R415). A front command of another opcode, or one that may not start yet, leaves the device as it is. -/
def Device.begin (d : Device) (q op : Nat) (guard : List Byte → Bool) (k : Device → Cmd → Device) : Device :=
  match d.frontReady q with
  | none => d
  | some x =>
    if eOp x.2 ≠ op || !guard x.2 then d
    else
      let r := d.startFront q x
      let d' :=
        if r.1.unserviceable then r.1.finish r.2.sn stUnserv 0 none
        else
          match r.1.precheck q x.2 with
          | some reason => r.1.finish r.2.sn stDenied (denied reason 0 0) none
          | none => match smGet r.1.ftp.double r.2.ten 0 with
            | 0 => k r.1 r.2
            | e + 1 => if op = 0x0B then k r.1 r.2 else r.1.finish r.2.sn stDouble e none
      d'.settle q

/-- Whether a queue fetches: Running, with its tenancy Active (R453). While the device is unserviceable a Halted queue and one of a tenancy that is quiesced
fetch too, since each submitted command completes (Table 1-5). -/
def Device.fetches (d : Device) (q : Nat) : Bool :=
  (d.rd QUE_STAT.state q == qRunning && d.rd TEN_STAT.state (d.qTen q) == tnActive) ||
  (d.unserviceable && (d.rd QUE_STAT.state q == qRunning || d.rd QUE_STAT.state q == qHalted) && d.rd TEN_STAT.state (d.qTen q) != tnResetting)

/-- A Running queue fetches every new entry up to the latest accepted tail (R129, R137); `resp` is the host's answer: 0 the data,
1 poisoned data, 2 Unsupported Request or Completer Abort (R442). -/
def submissionFetch (q resp : Nat) (d : Device) : Device :=
  let qc := d.queue q
  let head := d.rd QUE_STAT.sq_head q
  if !d.fetches q || d.on QUE_STAT.cq_full q then d
  else if qc.tail = head then d
  else if resp = 1 then d.logOp unitPcie 0x02 0
  else if resp ≠ 0 then d
  else
    let new := (List.range ((qc.tail + 2 ^ 32 - head) % 2 ^ 32)).map fun i => (d.time, d.sqEntry q ((head + i) % 2 ^ 32))
    let d := d.setQueue q { qc with fetched := qc.fetched ++ new }
    (d.wr QUE_STAT.sq_head q qc.tail).settle q

/-! ### Completion -/

/-- The 32 bytes of a completion entry (Table 4-13). -/
def Device.compBytes (d : Device) (q : Nat) (c : Completion) (phase : Bool) : List Byte :=
  toLE 2 c.cmdId ++ toLE 1 c.status ++ toLE 1 c.opcode ++ toLE 2 (d.rd QUE_STAT.sq_head q) ++
  toLE 2 (q + b2n phase <<< 15) ++ toLE 8 c.detail ++
  toLE 8 ((d.secs % 65536) <<< 48 + d.nanos <<< 16 + d.frac <<< 12) ++ toLE 8 c.step

/-- The oldest completion of a queue is written, or held while the ring is full; a quiet OK posts nothing; the interrupt follows
the entry (R136, R137). A Draining queue posts only where the ring has space, and drops the others, so that none waits for space any more (R126). A tenancy in reset
posts nothing (R455). -/
def completionPost (q : Nat) (d : Device) : Device :=
  let qc := d.queue q
  match qc.toPost with
  | [] => d
  | c :: rest =>
    let t := d.qTen q
    if c.quiet || d.rd TEN_STAT.state t = tnResetting then
      (if rest.isEmpty then d.wr QUE_STAT.cq_full q 0 else d).setQueue q { qc with toPost := rest }
    else
      let size := 2 ^ d.rd QUE_CFG.cq_log2 q
      let full := decide (size ≤ (qc.cqTail + 2 ^ 32 - qc.cqHead) % 2 ^ 32)
      if full && d.rd QUE_STAT.state q == qDraining then (d.wr QUE_STAT.cq_full q 0).setQueue q { qc with toPost := rest }
      else if full then d.wr QUE_STAT.cq_full q 1
      else
        let d := d.writeHost t (d.cqAddr q qc.cqTail) (d.compBytes q c qc.phase)
        let tail := (qc.cqTail + 1) % 2 ^ 32
        let d := d.setQueue q { qc with toPost := rest, cqTail := tail,
                                        phase := if tail % size = 0 then !qc.phase else qc.phase }
        let d := d.wr QUE_STAT.cq_full q 0
        if c.irq then d.raise t (d.rd QUE_CFG.irq_vector q) else d

/-! ### Queue control -/

/-- The conditions of R124, and the tenancy's existence (R446). -/
def Device.enableOk (d : Device) (q : Nat) : Bool :=
  let t := d.qTen q
  decide (6 ≤ d.rd QUE_CFG.sq_log2 q) && decide (d.rd QUE_CFG.sq_log2 q ≤ 16) &&
  decide (6 ≤ d.rd QUE_CFG.cq_log2 q) && decide (d.rd QUE_CFG.cq_log2 q ≤ 16) &&
  d.rd QUE_CFG.class_mask q != 0 && d.on QUE_EVT_BASE.valid t && d.rd TEN_STAT.state t != tnOff

/-- An enable takes effect (R124). -/
def Device.enableNow (d : Device) (q : Nat) : Device :=
  if d.enableOk q then
    let d := d.setQueue q {}
    let d := ((d.wr QUE_STAT.sq_head q 0).wr QUE_STAT.db_err q 0).wr QUE_STAT.cq_full q 0
    d.wr QUE_STAT.state q qRunning
  else (d.setQueue q { d.queue q with enableWaits := false }).wr QUE_STAT.db_err q 0

/-- Whether a function may control a queue: the owner, or tenancy 0 (R444). -/
def Device.mayQueue (d : Device) (fn q : Nat) : Bool := d.fnAwake fn && (fn == 0 || d.qTen q == fn)

/-- Enable of a queue; during the fill of its event array it waits (R125). -/
def queueEnable (fn q : Nat) (d : Device) : Device :=
  if !d.mayQueue fn q then d.hostErr (0x220000 + 8 * q) 0
  else if d.rd QUE_STAT.state q ≠ qDisabled then d
  else if d.evtFill.contains (d.qTen q) then d.setQueue q { d.queue q with enableWaits := true }
  else d.enableNow q

/-- Resume of a Halted queue (R126). -/
def queueResume (fn q : Nat) (d : Device) : Device :=
  if !d.mayQueue fn q then d.hostErr (0x220000 + 8 * q) 0
  else if d.rd QUE_STAT.state q = qHalted then (d.wr QUE_STAT.state q qRunning).settle q
  else d

/-- Discard of the entries that have not started; the commits that the queue's tails had made visible, fetched or not, will not come (R126, R143). -/
def Device.discardFetched (d : Device) (q : Nat) : Device :=
  let qc := d.queue q
  let t := d.qTen q
  let x := d.txn t
  (d.setTxn t { x with visible := x.visible - qc.commits }).setQueue q { qc with fetched := [], commits := 0 }

/-- A Draining queue with nothing in flight, and no completion left that its ring has space for, becomes Disabled (R126). -/
def queueDrained (q : Nat) (d : Device) : Device :=
  if d.rd QUE_STAT.state q = qDraining && d.rd QUE_STAT.in_flight q == 0 && (d.queue q).toPost.isEmpty then d.wr QUE_STAT.state q qDisabled else d

/-- Reset of a queue: Draining, unstarted commands discarded, and an enable that waits withdrawn (R126). -/
def queueReset (fn q : Nat) (d : Device) : Device :=
  if !d.mayQueue fn q then d.hostErr (0x220000 + 8 * q) 0
  else
    let d := d.discardFetched q
    (d.setQueue q { d.queue q with enableWaits := false }).wr QUE_STAT.state q qDraining

/-- Queues a tenancy owns. -/
def Device.queuesOf (d : Device) (t : Nat) : Nat := ((List.range 4096).filter fun q => d.qTen q == t).length

/-- A write of QUE_CFG[q] (R123, R449, Table 4-7): only in Disabled; the tenancy field by tenancy 0, within the new owner's
quota. -/
def queCfgWrite (fn q value : Nat) (d : Device) : Device :=
  let off := 0x210000 + 8 * q
  let own := d.qTen q
  let new := bits value 63 58
  if !d.fnAwake fn then d
  else if fn ≠ 0 && own != fn then d.hostErr off 0
  else
    let d := if fn ≠ 0 && new != own then d.hostErr off 0 else d
    if d.rd QUE_STAT.state q ≠ qDisabled then d
    else
      let moves := fn = 0 && new != own
      if moves && decide (d.rd TEN_QUOTA.queues new < d.queuesOf new + 1) then d.hostErr off 0
      else
        let ten := if fn = 0 then new else own
        let v := BitVec.ofNat 64 (bits value 57 0 + ten <<< 58) &&& BitVec.ofNat 64 0xFDFFFFFF00000003
        let d := d.setReg .QUE_CFG q v
        if moves then
          (d.wr TEN_STAT.queues new (d.queuesOf new)).wr TEN_STAT.queues own (d.queuesOf own)
        else d

/-- Setting up a tenancy's event array: zero-fill of 512 KiB, its pages System (R125). -/
def eventArraySetup (fn t value : Nat) (d : Device) : Device :=
  let off := 0x228000 + 8 * t
  if !d.fnAwake fn then d
  else if fn ≠ 0 then d.hostErr off 0
  else
    let busy := (List.range 4096).any fun q => d.qTen q == t && d.rd QUE_STAT.state q != qDisabled
    let d := if busy then d else d.wr QUE_EVT_BASE.base t (bits value 39 19)
    if busy then d.wr QUE_EVT_BASE.valid t (bits value 0 0)
    else if bit value 0 then
      let base := d.rd QUE_EVT_BASE.base t * 524288
      let d := (d.zero spT1 base 524288).wr QUE_EVT_BASE.valid t 1
      let d := d.setPage (pageKey 0 (base / pageSize)) pgSystem
      { d with evtFill := if d.evtFill.contains t then d.evtFill else t :: d.evtFill }
    else d.wr QUE_EVT_BASE.valid t 0

/-- The fill ends; enables that waited take effect (R125). -/
def eventArrayFillDone (t : Nat) (d : Device) : Device :=
  if d.evtFill.contains t then
    let d := { d with evtFill := d.evtFill.filter fun x => x != t }
    (d.queues.filter fun q => q.2.enableWaits && d.qTen q.1 == t && d.rd QUE_STAT.state q.1 == qDisabled).foldl (fun d q => d.enableNow q.1) d
  else d

/-- SIGNAL: ends as soon as it starts (Table 4-12). -/
def cmdSignal (q : Nat) (d : Device) : Device := d.begin q 0x04 (fun _ => true) fun d c => d.finish c.sn stOk 0 none

/-- WAIT: ends as soon as it starts, so its wait condition alone delays the queue. -/
def cmdWait (q : Nat) (d : Device) : Device := d.begin q 0x05 (fun _ => true) fun d c => d.finish c.sn stOk 0 none

/-- FENCE: starts only when every command in its scope has completed (R131): 0 the earlier commands of its queue, 1 every
earlier-started command of its tenancy. -/
def cmdFence (q : Nat) (d : Device) : Device :=
  let clear (e : List Byte) : Bool :=
    if leAt e 28 1 = 0 then d.cmds.all fun c => c.queue != q
    else if leAt e 28 1 = 1 then d.cmds.all fun c => c.ten != d.qTen q
    else true
  d.begin q 0x06 clear fun d c => d.finish c.sn stOk 0 none

end Sys2Proof.Machine
end

