-- ==== Sys2Proof/Machine/Tag.lean ====
section
/-! DEFINITION. The 16-byte data tag (R138, R139). -/

namespace Sys2Proof.Machine

/-- Tag fields (Table 4-15). -/
def tagTen (t : List Byte) : Nat := leAt t 0 1 % 64
def tagCls (t : List Byte) : Nat := leAt t 0 1 / 64
def tagClient (t : List Byte) : Nat := leAt t 1 3 % 2 ^ 20
def tagKind (t : List Byte) : Nat := leAt t 1 3 / 2 ^ 20
def tagStep (t : List Byte) : Nat := leAt t 4 5
def tagMid (t : List Byte) : Nat := leAt t 9 3

/-- The tag check (R139): check word, class, kind, reserved field. -/
def tagOk (t : List Byte) : Bool :=
  leAt t 14 2 == crc16 (t.take 14) && tagCls t != 3 && decide (tagKind t ≤ 6) && leAt t 12 2 == 0

/-- The 16 bytes of a tag (Table 4-15). -/
def mkTag (ten cls client kind step mid : Nat) : List Byte :=
  let b := toLE 1 (ten + cls * 64) ++ toLE 3 (client + kind * 2 ^ 20) ++ toLE 5 (step % 2 ^ 40) ++ toLE 3 mid ++ toLE 2 0
  b ++ toLE 2 (crc16 b)

end Sys2Proof.Machine
end

