-- ==== Sys2Proof/Machine/Fabric.lean ====
section
/-! DEFINITION. The fabric's transport: ports and links, flits and replay, paths, packets and their protection, streams and requests
(R295–R310, R478–R480). -/

namespace Sys2Proof.Machine

/-- Port states (Table 10-17). -/
def ptOff : Nat := 0
def ptTraining : Nat := 1
def ptUp : Nat := 2
def ptRetraining : Nat := 3
def ptDown : Nat := 4
def ptKeepAlive : Nat := 5

def Device.link (d : Device) (p : Nat) : Link := smGet d.fab.links p {}
def Device.setLink (d : Device) (p : Nat) (l : Link) : Device := { d with fab := { d.fab with links := smSet d.fab.links p {} l } }
def Device.portUp (d : Device) (p : Nat) : Bool := d.rd FAB_PORT_STAT.state p == ptUp
def Device.epoch (d : Device) : Nat := d.rd FTP_STAT.epoch 0

/-- Whether this device is isolated (R399), or removed. -/
def Device.isolated (d : Device) : Bool := d.rd FTP_STAT.state 0 == 3 || d.rd FTP_STAT.state 0 == 4

/-- Whether a device is a member of the current epoch. -/
def Device.isMember (d : Device) (dev : Nat) : Bool := d.fab.members.contains dev

/-! ### Links -/

/-- The 64-bit header of a flit of a kind, with the receiving side's ack (Table 10-2). -/
def Link.head (l : Link) (kind cls seq used : Nat) (sop eop : Bool) : Nat :=
  seq <<< 52 + (if l.seen then (l.rx + 4095) % 4096 else 0) <<< 40 + b2n l.seen <<< 39 + kind <<< 36 +
  cls <<< 34 + b2n sop <<< 33 + b2n eop <<< 32 + used <<< 24

def Link.header (l : Link) (f : TxFlit) : Nat :=
  l.head (if f.ctl then 2 else 1) (if f.ctl then 0 else f.cls) f.seq f.data.length f.sop f.eop

/-- Cumulative credits of each class (R304): the receive buffer, at least 64 flits for FT0 and otherwise the implementation's size, and what was freed. -/
def Link.credits (l : Link) : List Nat :=
  (List.range 4).map fun c => (if c = 0 then 64 else 0) + Config.linkBuf c + l.freed.getD c 0

/-- 10 µs windows of ACLK (Table 10-3). -/
def ftWindow : Nat := 18000

/-- Whether FT1 has used its share of strict priority in the present 10 µs: ft1_max_pct of the flits the port's width carries in it (Tables 10-1, 10-3). -/
def Device.ft1Over (d : Device) (p : Nat) (l : Link) : Bool :=
  l.ft1Win == d.cycle / ftWindow &&
  decide (d.rd FAB_CLASS_CFG.ft1_max_pct 0 * 390625 ≤ l.ft1 * 10000 * 2 ^ d.rd FAB_PORT_STAT.width p)

/-- A waiting flit may go: its class holds a credit, only FT0 flows before the lock (R297), and a class that is sending a packet goes on with that packet. -/
def Device.mayGo (d : Device) (l : Link) (f : TxFlit) : Bool :=
  decide (l.used.getD f.cls 0 < l.granted.getD f.cls 0) && (f.cls == 0 || d.on FAB_DEV_CFG.lock 0) &&
  (match l.opened.find? fun o => o.1 == f.cls with
   | some o => o.2 == f.ten
   | none => true)

/-- Flits that a tenancy was served in a class, for its share (R303). -/
def Link.servedOf (l : Link) (f : TxFlit) : Nat := smGet l.served (64 * f.cls + f.ten) 0
def Device.shareOf (d : Device) (t : Nat) : Nat := max 1 (d.rd FAB_TEN_CFG.share t)

/-- The flit whose tenancy is furthest below its share; the older one where two are level (R303). -/
def Device.fairest (d : Device) (l : Link) (fs : List TxFlit) : Option TxFlit :=
  fs.foldl (fun a f => match a with
    | none => some f
    | some g => if l.servedOf f * d.shareOf g.ten < l.servedOf g * d.shareOf f.ten then some f else some g) none

/-- The flit served next: FT0, FT1 within its limit, then FT2, with FT1 beyond its limit, and FT3 by their weights (Table 10-3). -/
def Device.nextFlit (d : Device) (p : Nat) (l : Link) : Option TxFlit :=
  let beyond := d.ft1Over p l
  let of (c : Nat) : List TxFlit := l.queue.filter fun f => (if f.cls = 1 && beyond then 2 else f.cls) == c && d.mayGo l f
  let w2 := d.rd FAB_CLASS_CFG.ft2_weight 0
  let w3 := d.rd FAB_CLASS_CFG.ft3_weight 0
  let turn2 := decide (l.wrr % (max 1 (w2 + w3)) < w2)
  let low := if turn2 then d.fairest l (of 2) <|> d.fairest l (of 3) else d.fairest l (of 3) <|> d.fairest l (of 2)
  (of 0).head? <|> d.fairest l (of 1) <|> low

/-- A data flit of a link leaves: the window, the credits, and the marks of the order of service (R300, R303, R304). -/
def Link.took (l : Link) (f : TxFlit) (win : Nat) : Link :=
  let rest := l.queue.erase f
  let served := if rest.any fun g => g.cls == f.cls then smSet l.served (64 * f.cls + f.ten) 0 (l.servedOf f + 1) else l.served.filter fun s => s.1 / 64 != f.cls
  let opened := l.opened.filter fun o => o.1 != f.cls
  let ft1 := (if l.ft1Win = win then l.ft1 else 0) + (if f.cls = 1 then 1 else 0)
  { l with tx := (l.tx + 1) % 4096, unacked := l.unacked ++ [{ f with seq := l.tx }], queue := rest, sinceCtl := l.sinceCtl + 1,
           used := l.used.set f.cls (l.used.getD f.cls 0 + 1), wrr := if 2 ≤ f.cls then l.wrr + 1 else l.wrr, ft1Win := win, ft1 := ft1,
           served := served, opened := if f.eop then opened else (f.cls, f.ten) :: opened }

/-- A control flit leaves (R298). -/
def Device.sendControl (d : Device) (p : Nat) : Device :=
  let l := d.link p
  let f : TxFlit := { cls := 0, sop := false, eop := false, data := [], ctl := true, seq := l.tx }
  let c : Ctl := ⟨l.credits, d.rd FAB_PORT_STAT.lanes_ok p, d.devId, d.epoch⟩
  let l' := { l with tx := (l.tx + 1) % 4096, unacked := l.unacked ++ [f], sinceCtl := 0, told := l.credits }
  { d.setLink p l' with sent := .control p (l.header f) c :: d.sent }

/-- Flits leave while the window and the credits allow; every 64th is a control flit (R298, R300, R304). Where nothing else is to be sent, idle
flits bring the 64th at once, and with it the credits not yet told (log 36). -/
def pumpLink : Nat → Nat → Device → Device
  | 0, _, d => d
  | n + 1, p, d =>
    let l := d.link p
    if !d.portUp p || decide (4095 ≤ l.unacked.length) then d
    else if l.sinceCtl = 63 then pumpLink n p (d.sendControl p)
    else
      match d.nextFlit p l with
      | none => if l.told = l.credits then d else d.sendControl p
      | some f =>
        let d := d.setLink p (l.took f (d.cycle / ftWindow))
        pumpLink n p { d with sent := .flit p (l.header { f with seq := l.tx }) f.data :: d.sent }

/-- A packet's flits of one class (R298), for a tenancy. -/
def flitsOf (cls ten : Nat) (bs : List Byte) : List TxFlit :=
  let n := ceilDiv bs.length 240
  (List.range n).map fun i => { cls := cls, sop := i == 0, eop := i + 1 == n, data := (bs.drop (240 * i)).take 240, ten := ten }

def Device.pump (d : Device) (p : Nat) : Device := pumpLink (((d.link p).queue.length + 2) * 2) p d

/-- A packet is handed to a port; FT0 knows no tenancies. -/
def Device.linkSend (d : Device) (p cls ten : Nat) (bs : List Byte) : Device :=
  let l := d.link p
  let d := d.setLink p { l with queue := l.queue ++ flitsOf cls (if cls = 0 then 0 else ten) bs }
  { d with sent := .packet p bs :: d.sent }.pump p

/-! ### Paths -/

/-- Exclusive OR of the 4-bit fields of a number from bit 0 up. -/
def xorNibbles : Nat → Nat → Nat
  | 0, _ => 0
  | n + 1, x => x % 16 ^^^ xorNibbles n (x / 16)

/-- Path index of an address and a device (R310). -/
def pathOf (ga dev : Nat) : Nat := bits ga 51 48 ^^^ xorNibbles 3 dev ^^^ xorNibbles 10 (bits ga 47 8)

/-- Port that carries a path now. -/
def Device.pathPort (d : Device) (i : Nat) : Nat := bits (d.reg .FAB_PATH_MAP 0).toNat (4 * i + 3) (4 * i)

/-- A path is given to a port. -/
def Device.setPath (d : Device) (i p : Nat) : Device :=
  d.setReg .FAB_PATH_MAP 0 (fieldSet (d.reg .FAB_PATH_MAP 0) (4 * i) 4 p)

/-! ### Packets -/

/-- The 32-byte transport header (Table 10-4). -/
def pktHeader (dst src op fl path cls code seq unit reqId ga len epoch : Nat) : List Byte :=
  toLE 2 dst ++ toLE 2 src ++ toLE 1 op ++ toLE 1 fl ++ toLE 1 (path + cls <<< 4) ++ toLE 1 code ++ toLE 4 seq ++ toLE 2 unit ++
  toLE 2 reqId ++ toLE 8 ga ++ toLE 4 len ++ toLE 4 epoch

/-- Fabric class of a tag class (Table 10-3). -/
def ftClass (cls : Nat) : Nat := min (cls + 1) 3

/-- Ops that are protected while a tenancy's protection is in force (R478). -/
def opProtected (op : Nat) : Bool := decide (1 ≤ op && op ≤ 6) || op == 8 || op == 0x10

def Device.fabKeys (d : Device) (t : Nat) : FabKeys := smGet d.fab.keys t {}
def Device.protects (d : Device) (t : Nat) : Bool := d.on SEC_TEN_CFG.fab_protect t

/-- Body of a packet after its header: tag, payload, integrity field. A protected payload is encrypted under the current key with a fresh
counter of its port (R478). Without a current key nothing is sent (R480): the caller has checked it. -/
def Device.protectBody (d : Device) (p : Nat) (hdr tag payload : List Byte) : Device × List Byte :=
  let t := tagTen tag
  match (d.fabKeys t).cur with
  | none => (d, tag ++ payload ++ List.replicate 16 0)
  | some (_, key) =>
    let k := 64 * p + t
    let c := smGet d.fab.counters k 0
    let C := p <<< 60 + c
    let iv := toLE 2 d.devId ++ toLE 2 0 ++ toLE 8 C
    let s := gcmSeal key iv (hdr ++ tag) payload
    ({ d with fab := { d.fab with counters := smSet d.fab.counters k 0 (c + 1) } }, tag ++ s.1 ++ toLE 8 C ++ s.2.take 8)

/-- A packet leaves by the port of its path (R305, R310). An isolated or unserviceable device sends none of FT1 to FT3 (R399, Table 1-5). -/
def Device.sendPacket (d : Device) (dst op resent path cls code seq unit reqId ga len : Nat) (tag payload : List Byte) : Device :=
  let p := d.pathPort path
  let prot := opProtected op && d.protects (tagTen tag)
  let hdr := pktHeader dst d.devId op (resent + 2 * b2n prot) path cls code seq unit reqId ga len d.epoch
  if (d.isolated || d.unserviceable) && cls ≠ 0 then d
  else
    let b := if prot then d.protectBody p hdr tag payload else (d, tag ++ payload ++ List.replicate 16 0)
    b.1.linkSend p cls (tagTen tag) (hdr ++ b.2)

/-! ### Streams and requests -/

def streamKey (dev path cls : Nat) : Nat := dev * 64 + path * 4 + cls
def Device.out (d : Device) (k : Nat) : OutStream := smGet d.fab.outs k {}
def Device.setOut (d : Device) (k : Nat) (s : OutStream) : Device := { d with fab := { d.fab with outs := smSet d.fab.outs k {} s } }
def Device.inn (d : Device) (k : Nat) : InStream := smGet d.fab.ins k {}
def Device.setIn (d : Device) (k : Nat) (s : InStream) : Device := { d with fab := { d.fab with ins := smSet d.fab.ins k {} s } }
def Req.stream (r : Req) : Nat := streamKey r.dst r.path r.cls
def Device.setReq (d : Device) (r : Req) : Device := { d with fab := { d.fab with reqs := d.fab.reqs.map fun x => if x.id = r.id then r else x } }
def Device.dropReq (d : Device) (id : Nat) : Device := { d with fab := { d.fab with reqs := d.fab.reqs.filter fun x => x.id != id } }

/-- Remote timeout and resend interval in device-time units (Table 10-10). -/
def Device.timeoutT (d : Device) : Nat := clampN 10 10000 (d.rd FAB_RMT_CFG.timeout_us 0) * usT
def Device.retryT (d : Device) : Nat := min (clampN 2 1000 (d.rd FAB_RMT_CFG.retry_us 0) * usT) (d.timeoutT / 2)

/-- One transmission of a numbered request (R308). -/
def Device.transmit (d : Device) (r : Req) : Device :=
  let again := decide (0 < r.sent)
  let d := if again then d.incSat FAB_XPORT_STAT.resends 0 1 else d
  let d := d.setReq { r with sent := r.sent + 1, sentAt := d.time }
  d.sendPacket r.dst r.op (b2n again) r.path r.cls r.code (r.seq.getD 0) r.unit r.reqId r.ga r.len r.tag r.payload

/-- New requests of a stream go out while their numbers lie below the grant and fewer than 4,096 are unanswered (R306). -/
def pumpStream : Nat → Nat → Device → Device
  | 0, _, d => d
  | n + 1, k, d =>
    let s := d.out k
    let open_ := (d.fab.reqs.filter fun r => r.stream == k && r.seq.isSome).length
    if decide (s.grant ≤ s.next) || decide (4096 ≤ open_) then d
    else
      match d.fab.reqs.find? fun r => r.stream == k && r.seq.isNone with
      | none => d
      | some r =>
        let d := d.setOut k { s with next := s.next + 1 }
        pumpStream n k (d.transmit { r with seq := some (s.next % 2 ^ 32) })

def Device.pumpOut (d : Device) (k : Nat) : Device := pumpStream d.fab.reqs.length k d

/-- A request to a member is issued (R306, R308, R320). The caller has dealt with this device itself (R314) and with a device that is no
member. -/
def Device.issueReq (d : Device) (op dst cls unit ga len code sn : Nat) (tag payload : List Byte) (who : ReqFor) : Device :=
  let path := pathOf ga dst
  let id := smGet d.fab.ids unit 0
  let r : Req := { id := d.fab.nextId, op := op, dst := dst, path := path, cls := cls, unit := unit, reqId := id, ga := ga, len := len,
                   code := code, tag := tag, payload := payload, sn := sn, who := who, clock := d.time, interval := d.retryT, base := d.retryT,
                   limit := d.timeoutT }
  let fab := d.fab
  let d := { d with fab := { fab with reqs := fab.reqs ++ [r], nextId := fab.nextId + 1, ids := smSet fab.ids unit 0 ((id + 1) % 65536) } }
  d.pumpOut (streamKey dst path cls)

/-- An answer or control packet to a device (R310): its path is computed with that device. -/
def Device.answer (d : Device) (dst op cls code seq unit reqId ga len : Nat) (tag payload : List Byte) : Device :=
  d.sendPacket dst op 0 (pathOf ga dst) cls code seq unit reqId ga len tag payload

/-- Stream state between this device and one that joins (R306). -/
def Device.resetStreams (d : Device) (dev : Nat) : Device :=
  let outs := d.fab.outs.filter fun s => s.1 / 64 != dev
  let ins := (d.fab.ins.filter fun s => s.1 / 64 != dev)
  let fresh : InStream := { resetEpoch := d.epoch }
  let ins := (List.range 64).foldl (fun m i => smSet m (dev * 64 + i) {} fresh) ins
  { d with fab := { d.fab with outs := outs, ins := ins } }

/-! ### Ports up and down -/

/-- Every unanswered request of the streams on a path goes out again (R308). -/
def Device.resendPath (d : Device) (i : Nat) : Device :=
  (d.fab.reqs.filter fun r => r.path == i && r.seq.isSome && decide (0 < r.sent)).foldl (fun d r => d.transmit r) d

/-- Paths that point at a port move to the first up port after them (R310). -/
def Device.remap (d : Device) (p : Nat) : Device :=
  ((List.range 16).filter fun i => d.pathPort i == p).foldl (fun d i =>
    match ((List.range 15).map fun k => (i + 1 + k) % 16).find? d.portUp with
    | some q => (d.setPath i q).resendPath i
    | none => d) d

/-- A port stops carrying flits: training again, or down. -/
def Device.portStops (d : Device) (p st : Nat) : Device :=
  ((d.wr FAB_PORT_STAT.state p st).wr FAB_PORT_STAT.width p 3).remap p

/-- A port that goes down loses its buffered flits (R302). -/
def portDown (p : Nat) (d : Device) : Device :=
  if d.rd FAB_PORT_STAT.state p = ptOff || d.rd FAB_PORT_STAT.state p = ptDown then d
  else (d.setLink p {}).portStops p ptDown

/-- Width code of a number of working lanes within the widest allowed (Table 10-1). -/
def widthOf (lanes maxW : Nat) : Nat :=
  max maxW (if 4 ≤ lanes then 0 else if 2 ≤ lanes then 1 else if lanes = 1 then 2 else 3)

/-- Working lanes of a port, its spare counted. -/
def Device.lanes (d : Device) (p : Nat) : Nat :=
  ((List.range 4).filter fun i => bit (d.rd FAB_PORT_STAT.lanes_ok p) i).length + d.rd FAB_PORT_STAT.spare_in p

/-- The width a port trains to; every port is x1 in Idle-hold (Table 10-1). -/
def Device.widthNow (d : Device) (p : Nat) : Nat :=
  widthOf (d.lanes p) (if d.rd PWR_STATE_STAT.state 0 = 1 then 2 else d.rd FAB_PORT_CFG.max_width p)

/-- Whether the spare of port p's lane group is free and works (R296). -/
def Device.spareFree (d : Device) (p : Nat) : Bool := d.on FAB_LANE_SPARE.avail (p / 4) && !d.on FAB_LANE_SPARE.in_use (p / 4)

/-- A port loses lane 0 to 3, or with 4 the spare that it uses (R296): the group's spare takes its place while it is free and works. Each change is
recorded with the lane it concerns. -/
def Device.loseLane (d : Device) (p lane : Nat) : Device :=
  let g := p / 4
  let spare := decide (lane < 4) && d.spareFree p
  let at_ := if lane < 4 then lane else d.rd FAB_LANE_SPARE.lane g
  let d := if lane < 4 then d.wr FAB_PORT_STAT.lanes_ok p (d.rd FAB_PORT_STAT.lanes_ok p &&& (15 - 2 ^ lane))
    else (d.wr FAB_LANE_SPARE.avail g 0).wr FAB_PORT_STAT.spare_in p 0
  let d := if spare then
      (((d.wr FAB_LANE_SPARE.in_use g 1).wr FAB_LANE_SPARE.port g (p % 4)).wr FAB_LANE_SPARE.lane g lane).wr FAB_PORT_STAT.spare_in p 1
    else d
  d.log { unit := unitOf 6 (0x20 + p), sev := 5, op := 0x12, detail := p + at_ <<< 8 + d.widthNow p <<< 16 }

/-- A lane of a port in use fails (R296): the port retrains, with the spare or narrower. -/
def laneFail (p lane : Nat) (d : Device) : Device :=
  let st := d.rd FAB_PORT_STAT.state p
  let has := if lane < 4 then bit (d.rd FAB_PORT_STAT.lanes_ok p) lane else d.on FAB_PORT_STAT.spare_in p
  if !(st == ptUp || st == ptRetraining) || !has then d
  else ((d.loseLane p lane).incSat FAB_PORT_STAT.retrains p 1).portStops p ptRetraining

/-- Lanes that training found failed and that no record has named: bit n of `lanes` tells that lane n trained, bit 4 the spare the port uses. A lane the spare
replaces is not tried; a first training tries all others. -/
def Device.failedIn (d : Device) (p lanes : Nat) : List Nat :=
  let old := d.rd FAB_PORT_STAT.lanes_ok p
  let known := if d.rd FAB_PORT_STAT.state p = ptTraining && old = 0 then (if d.on FAB_PORT_STAT.spare_in p then 15 - 2 ^ d.rd FAB_LANE_SPARE.lane (p / 4) else 15) else old
  ((List.range 4).filter fun i => bit known i && !bit lanes i) ++ (if d.on FAB_PORT_STAT.spare_in p && !bit lanes 4 then [4] else [])

/-- Training ends (R296, R297): lanes that failed it are lost; where the spare then takes a place the port trains again; else both ends have
exchanged control flits and the port is up at the width its lanes allow, and after a retrain its replay buffer is replayed (R302). -/
def portTrained (p lanes : Nat) (d : Device) : Device :=
  let st := d.rd FAB_PORT_STAT.state p
  if !d.on FAB_PORT_CFG.enable p || !(st == ptTraining || st == ptRetraining || st == ptDown) then d
  else
    let failed := d.failedIn p lanes
    let again := !failed.isEmpty && d.spareFree p
    let d := failed.foldl (fun d i => d.loseLane p i) (d.wr FAB_PORT_STAT.lanes_ok p (lanes % 16))
    let w := d.widthNow p
    if again then (d.incSat FAB_PORT_STAT.retrains p 1).wr FAB_PORT_STAT.state p ptRetraining
    else if w = 3 then d
    else
      let l := d.link p
      let d := d.setLink p { l with replays := 0, nakOut := false, told := [] }
      let d := (d.wr FAB_PORT_STAT.width p w).wr FAB_PORT_STAT.state p ptUp
      let d := if l.unacked.isEmpty then d
        else { d.incSat FAB_PORT_STAT.link_retries p 1 with
               sent := .replay p ((l.unacked.head?.map fun f => f.seq).getD 0) l.unacked.length :: d.sent }
      d.pump p

/-- After a second up, a port takes back its own path (R310). -/
def pathReturn (p : Nat) (d : Device) : Device :=
  if d.portUp p && d.pathPort p != p then (d.setPath p p).resendPath p else d

/-- A replay of every flit no ack covers, in order; the sixteenth in a row without progress retrains the port (R302). -/
def Device.replay (d : Device) (p : Nat) : Device :=
  let l := d.link p
  match l.unacked with
  | [] => d
  | f :: _ =>
    let d := d.incSat FAB_PORT_STAT.link_retries p 1
    let d := { d.setLink p { l with replays := l.replays + 1 } with sent := .replay p f.seq l.unacked.length :: d.sent }
    if 16 ≤ l.replays + 1 then (d.incSat FAB_PORT_STAT.retrains p 1).portStops p ptRetraining else d

/-- No ack for 4 µs while flits are unacknowledged (R302). -/
def replayTimeout (p : Nat) (d : Device) : Device := if d.portUp p then d.replay p else d

/-- What remains of the replay buffer once an ack covers its flits up to a number that stands in it (R300). -/
def ackedUpTo (ack : Nat) (fs : List TxFlit) : List TxFlit :=
  if fs.any fun f => f.seq == ack then (fs.dropWhile fun f => f.seq != ack).drop 1 else fs

/-- An ack covers the flits up to its number; a nak asks for what follows (R300, R302). -/
def Device.takeAck (d : Device) (p ack : Nat) (nak : Bool) : Device :=
  let l := d.link p
  let rest := ackedUpTo ack l.unacked
  let d := d.setLink p { l with unacked := rest, replays := if rest.length < l.unacked.length then 0 else l.replays }
  let d := if nak then d.replay p else d
  d.pump p

/-- A flit is discarded; the first discard asks for a replay (R301). -/
def Device.discardFlit (d : Device) (p : Nat) : Device :=
  let l := d.link p
  if l.nakOut then d
  else { d.setLink p { l with nakOut := true } with sent := .nak p ((l.rx + 4095) % 4096) :: d.sent }

/-- Ops of packets in use (Tables 10-5, 11-3). -/
def opUsed (op : Nat) : Bool :=
  (decide (1 ≤ op) && decide (op ≤ 0x0C)) || (decide (0x10 ≤ op) && decide (op ≤ 0x17)) || (decide (0x20 ≤ op) && decide (op ≤ 0x23)) ||
  (decide (0x30 ≤ op) && decide (op ≤ 0x3F))

/-- A packet whose last flit has arrived goes to the transport; one of an unused op is dropped and counted (R305). -/
def Device.takePacket (d : Device) (b : List Byte) : Device :=
  if opUsed (leAt b 4 1) then { d with fab := { d.fab with arrived := d.fab.arrived ++ [b] } } else d.incSat FAB_XPORT_STAT.malformed 0 1

/-- The data flit of an accepted number joins its class's packet and frees its buffer. -/
def Device.takeData (d : Device) (p hdr : Nat) (payload : List Byte) : Device :=
  let l := d.link p
  let cls := bits hdr 35 34
  let part := if bit hdr 33 then [] else smGet l.parts cls []
  let whole := part ++ payload.take (bits hdr 31 24)
  let d := d.setLink p { l with freed := l.freed.set cls (l.freed.getD cls 0 + 1), parts := smSet l.parts cls [] (if bit hdr 32 then [] else whole) }
  if bit hdr 32 then d.takePacket whole else d

/-- Where nothing was sent since the link's next number was `tx`, an idle flit brings the ack (R298, R301). -/
def Device.idleFlit (d : Device) (p tx : Nat) : Device :=
  let l := d.link p
  if l.tx = tx && d.portUp p then { d with sent := .flit p (l.head 0 0 l.tx 0 false false) [] :: d.sent } else d

/-- An arriving flit of a port (R298–R304): header, payload and CRC as received, and what a control flit's payload says (the manual gives that
payload no layout, log 37). A packet whose last flit arrives is handed to the transport. -/
def flitRx (p hdr : Nat) (payload : List Byte) (crc : Nat) (ctl : Ctl) (d : Device) : Device :=
  let st := d.rd FAB_PORT_STAT.state p
  if st = ptOff || st = ptDown then d
  else
    let l := d.link p
    let kind := bits hdr 37 36
    if crc64 (toLE 8 hdr ++ (payload ++ List.replicate 240 0).take 240) ≠ crc then (d.incSat FAB_PORT_STAT.crc_errors p 1).discardFlit p
    else
      let acked (d : Device) : Device := if bit hdr 39 then d.takeAck p (bits hdr 51 40) (bit hdr 38) else d.pump p
      if kind = 0 then acked d
      else if kind = 3 || bits hdr 63 52 ≠ l.rx then (acked d).discardFlit p
      else
        let d := d.setLink p { l with rx := (l.rx + 1) % 4096, seen := true, nakOut := false, granted := if kind = 2 then ctl.credits else l.granted }
        (acked (if kind = 2 then d else d.takeData p hdr payload)).idleFlit p l.tx

end Sys2Proof.Machine
end

