-- ==== Sys2Proof/Machine/InLog.lean ====
section
/-! DEFINITION. Protection of a tenancy, its input log, replay from it, and the ingests of a step (R401, R406, R407, R410, R434). -/

namespace Sys2Proof.Machine

/-- A protected tenancy (R401). -/
def Device.ftMode (d : Device) (t : Nat) : Nat := d.rd FTP_TEN_CFG.mode t
def Device.isProtected (d : Device) (t : Nat) : Bool := (d.ftMode t == 1 || d.ftMode t == 2) && d.on FTP_PARTNER.valid 0
def Device.partner (d : Device) : Nat := d.rd FTP_PARTNER.partner 0
def Device.replaying (d : Device) (t : Nat) : Bool := d.on FTP_TEN_CFG.replay t
def Device.inLog (d : Device) (t : Nat) : LogCtx := smGet d.ftp.logs t {}
def Device.setInLog (d : Device) (t : Nat) (l : LogCtx) : Device := { d with ftp := { d.ftp with logs := smSet d.ftp.logs t {} l } }

/-- Whether a record of a kind is kept for a tenancy (Table 13-3). Under replay the log already holds the records. -/
def Device.logsKind (d : Device) (t kind : Nat) : Bool :=
  d.isProtected t && !d.replaying t && (d.ftMode t == 2 || kind == 1 || decide (7 ≤ kind))

/-- Device time as in Table 8-8. -/
def Device.stamp8 (d : Device) : Nat := (d.secs % 65536) <<< 48 + d.nanos <<< 16 + d.frac <<< 12

/-- The bytes of a record (Table 13-4), its payload padded to 64 bytes. -/
def LogRec.bytes (r : LogRec) : List Byte :=
  let n := r.payload.length
  let h := toLE 1 r.kind ++ toLE 1 (b2n (decide (0 < n))) ++ toLE 2 r.src ++ toLE 4 n ++ toLE 8 r.step ++ (r.tag ++ List.replicate 16 0).take 16 ++
    toLE 8 r.addr ++ toLE 8 r.order ++ toLE 8 r.time ++ toLE 4 (crc32c r.payload)
  h ++ toLE 4 (crc32c h) ++ r.payload ++ List.replicate (roundUp n 64 - n) 0

/-- Size of the ring in bytes, and its first byte in tier 2. -/
def Device.logSize (d : Device) (t : Nat) : Nat := d.rd FTP_TEN_CFG.log_gib t * 2 ^ 30
def Device.logBase (d : Device) (t : Nat) : Nat := d.rd FTP_TEN_CFG.log_base t * pageSize

/-- Bytes written around the ring, under the tenancy's memory key (R476). -/
def Device.ringWrite (d : Device) (t pos : Nat) (bs : List Byte) : Device :=
  let size := max 1 (d.logSize t)
  let off := pos % size
  let n := min bs.length (size - off)
  (d.poke (d.tenKey t) spT2 (d.logBase t + off) (bs.take n)).poke (d.tenKey t) spT2 (d.logBase t) (bs.drop n)

/-- First step still needed (R407): the last 8 committed, and those after the newest complete generation. -/
def Device.needFrom (d : Device) (t : Nat) : Nat :=
  let s := d.step t - 8
  match (d.inLog t).gen with
  | some g => min g s
  | none => s

/-- A record is written and mirrored, or waits where it would overwrite a needed one (R407). -/
def Device.putRec (d : Device) (t : Nat) (r : LogRec) : Device × Bool :=
  let l := d.inLog t
  let kept := l.kept.filter fun k => decide (d.needFrom t ≤ k.2.step)
  let first := (kept.head?.map fun k => k.1).getD l.pos
  let bs := r.bytes
  if d.logSize t < l.pos + bs.length - first then (d, false)
  else
    let r := { r with order := l.next }
    let bs := r.bytes
    let d := d.ringWrite t l.pos bs
    let d := d.setInLog t { l with next := l.next + 1, pos := l.pos + bs.length, kept := kept ++ [(l.pos, r)] }
    ({ d with sent := .logMirror d.partner t r :: d.sent }, true)

/-- Whether a tenancy's ingest and fabric intake are held (R407). -/
def Device.logHolds (d : Device) (t : Nat) : Bool := !(d.inLog t).waiting.isEmpty

/-- A record of an item of a tenancy, where its mode asks for it (R406). -/
def Device.logRec (d : Device) (t kind src addr : Nat) (tag payload : List Byte) : Device :=
  if !d.logsKind t kind then d
  else
    let r : LogRec := { kind := kind, src := src, step := d.step t, tag := tag, addr := addr, order := 0, time := d.stamp8, payload := payload }
    let wait (d : Device) : Device :=
      let l := d.inLog t
      (d.setInLog t { l with waiting := l.waiting ++ [r] }).wr FTP_TEN_STAT.log_state t 1
    if d.logHolds t then wait d
    else
      let p := d.putRec t r
      if p.2 then p.1 else wait d

/-- Records that waited are written while there is room. -/
def drainLog : Nat → Nat → Device → Device
  | 0, _, d => d
  | n + 1, t, d =>
    let l := d.inLog t
    match l.waiting with
    | [] => d
    | r :: rest =>
      let p := (d.setInLog t { l with waiting := rest }).putRec t r
      if p.2 then
        let d := p.1
        drainLog n t (if rest.isEmpty then d.wr FTP_TEN_STAT.log_state t 0 else d)
      else d

def Device.drainLogs (d : Device) (t : Nat) : Device := drainLog ((d.inLog t).waiting.length + 1) t d

/-- The next record of some kinds that replay has not used, taken out of the list (R410). -/
def Device.takeReplay (d : Device) (t : Nat) (ok : LogRec → Bool) : Option (LogRec × Device) :=
  let l := d.inLog t
  match l.replay.find? ok with
  | none => none
  | some r => some (r, d.setInLog t { l with replay := l.replay.erase r })

/-- An ingest's digest is filed under its key for the step of its tag (R434). -/
def Device.ingest (d : Device) (t step : Nat) (key bs : List Byte) : Device :=
  let c := smGet d.det t {}
  let e : Ingest := { step := step, key := key, digest := sha512 bs }
  { d with det := smSet d.det t {} { c with ingests := c.ingests ++ [e] } }

/-- Record of an event of protection that no operation code of Table 12-5 covers: the manual asks for a record and gives no code, so the code is free
(log 3). -/
def Device.logUncoded (d : Device) (unit ten detail : Nat) : Device :=
  let f := d.fresh 256
  f.2.log { unit := unit, sev := 2, op := f.1, detail := detail, ten := ten }

/-- What a RUN or COLL that starts meets while a rollback mark or a double loss stands (R352, R408, R415). -/
def Device.markEnd (d : Device) (t : Nat) : Option (Nat × Nat) :=
  match smGet d.ftp.double t 0 with
  | 0 => let m := (smGet d.tens t {}).rollback
         if 8 ≤ m then some (stRolled, m) else none
  | e + 1 => some (stDouble, e)

end Sys2Proof.Machine
end

