-- ==== Sys2Proof/Machine/Mem.lean ====
section
/-! DEFINITION. Translation tables, landings, crossings, transfer channels, the shared arbiters, scrub and fill (chapter 9). -/

namespace Sys2Proof.Machine

/-! ### Translation tables -/

/-- Bytes of a tenancy's translation table, and its pages in tier 1. -/
def Device.xtBytes (d : Device) (t : Nat) : Nat :=
  8 * (d.rd MEM_XT_CFG.t1_pages t + d.rd MEM_XT_CFG.t2_pages t + d.rd MEM_XT_CFG.dp_pages t)
def Device.xtPages (d : Device) (t : Nat) : List Nat :=
  (List.range (ceilDiv (d.xtBytes t) pageSize)).map fun i => pageKey 0 (d.rd MEM_XT_BASE.base t + i)

/-- Several pages set to one state. -/
def Device.setPages (d : Device) (ps : List Nat) (st : Nat) : Device := ps.foldl (fun d p => d.setPage p st) d

/-- Enabling a tenancy's table: zero-filled and marked System; enable reads 1 when that is done (R271). -/
def xtEnable (fn t : Nat) (d : Device) : Device :=
  if fn ≠ 0 then d.hostErr (0x800000 + 8 * t) 0
  else if d.on MEM_XT_BASE.enable t || d.mm.xtFill.contains t then d
  else
    let d := d.zero spT1 (d.xtBase t) (d.xtBytes t)
    let d := d.setPages (d.xtPages t) pgSystem
    { d with mm := { d.mm with xtFill := t :: d.mm.xtFill } }

/-- The zero-fill of a table ends (R271). -/
def xtEnableDone (t : Nat) (d : Device) : Device :=
  if d.mm.xtFill.contains t then
    let d := { d with mm := { d.mm with xtFill := d.mm.xtFill.filter fun x => x != t } }
    let d := ((d.wr TEN_STAT.t1_mapped t 0).wr TEN_STAT.t2_mapped t 0).wr TEN_STAT.dp_mapped t 0
    d.wr MEM_XT_BASE.enable t 1
  else d

/-- Whether a tenancy has a command in flight or a channel not Idle. -/
def Device.tenBusy (d : Device) (t : Nat) : Bool :=
  d.cmds.any (fun c => c.ten == t) || d.mm.chans.any (fun c => c.2.ten == t)

/-- Disabling a tenancy's table (R271). -/
def xtDisable (fn t : Nat) (d : Device) : Device :=
  if fn ≠ 0 then d.hostErr (0x800000 + 8 * t) 0
  else if !d.on MEM_XT_BASE.enable t then d
  else if d.tenBusy t then d.hostErr (0x800000 + 8 * t) 0
  else
    let d := d.setPages (d.xtPages t) pgPlain
    let d := ((d.wr TEN_STAT.t1_mapped t 0).wr TEN_STAT.t2_mapped t 0).wr TEN_STAT.dp_mapped t 0
    d.wr MEM_XT_BASE.enable t 0

/-- The mapped-page count of a space, and its quota (Tables 15-8, 15-10). -/
def mappedFld (s : Nat) : Fld := if s = 0 then TEN_STAT.t1_mapped else if s = 1 then TEN_STAT.t2_mapped else TEN_STAT.dp_mapped
def quotaFld (s : Nat) : Fld := if s = 0 then TEN_QUOTA.t1_max else if s = 1 then TEN_QUOTA.t2_max else TEN_QUOTA.dp_max

/-- A translation operation (R272, R449): `op` 1 map, 2 unmap, 3 reclaim, over the entries MEM_XT_OP0 names. -/
def xtOperate (fn op : Nat) (write : Bool) (ppn : Nat) (d : Device) : Device :=
  let t := d.rd MEM_XT_OP0.tenancy 0
  let s := d.rd MEM_XT_OP0.space 0
  let n := d.rd MEM_XT_OP0.count 0
  let v := d.rd MEM_XT_OP0.page 0
  let err := d.wr MEM_XT_OP1.err 0 1
  if fn ≠ 0 then d.hostErr 0x80060C 0
  else if d.on MEM_XT_OP1.busy 0 then err
  else if s = 3 || n = 0 || !d.on MEM_XT_BASE.enable t || decide (d.xtCount t s < v + n) then err
  else
    let olds := (List.range n).map fun i => d.xtEntry t s (v + i)
    let valid := (olds.filter fun e => bit e 63).length
    let count := d.rd (mappedFld s) t - valid + (if op = 1 then n else 0)
    if op = 1 && decide (d.rd (quotaFld s) t < count) then err
    else
      let oldPages := (olds.filter fun e => bit e 63).map fun e => pageKey s (bits e 18 0)
      let waits := oldPages.filter fun p => d.pageState p == pgDeparting || d.pageState p == pgArriving
      let d := (List.range n).foldl (fun d i =>
        d.pokeN spT1 (d.xtBase t + 8 * d.xtIndex t s (v + i)) 8
          (if op = 1 then 2 ^ 63 + b2n write <<< 62 + (ppn + i) % 2 ^ 19 else 0)) d
      let d := if op = 3 then
          oldPages.foldl (fun d p => if d.pageState p = pgVacated then d.setPage p pgPlain else d) d else d
      let d := (d.wr (mappedFld s) t count).wr MEM_XT_OP1.busy 0 1
      { d with mm := { d.mm with xtOp := some ⟨t, waits⟩ } }

def xtMap (fn : Nat) (write : Bool) (ppn : Nat) (d : Device) : Device := xtOperate fn 1 write ppn d
def xtUnmap (fn : Nat) (d : Device) : Device := xtOperate fn 2 false 0 d
def xtReclaim (fn : Nat) (d : Device) : Device := xtOperate fn 3 false 0 d

/-- A translation operation completes when the crossings of its old pages have flipped or aborted (R272). -/
def xtOpDone (d : Device) : Device :=
  match d.mm.xtOp with
  | none => d
  | some o =>
    if o.waits.all fun p => d.pageState p != pgDeparting && d.pageState p != pgArriving then
      { d.wr MEM_XT_OP1.busy 0 0 with mm := { d.mm with xtOp := none } }
    else d

/-! ### Landing tables -/

/-- Place of a landing entry in tier 1 (R276). -/
def Device.landAt (d : Device) (t i : Nat) : Nat := d.rd MEM_LAND_CFG.base t * pageSize + 128 * i
def Device.landState (d : Device) (t i : Nat) : Nat := d.peekN spT1 (d.landAt t i) 1
def Device.landFlags (d : Device) (t i : Nat) : Nat := d.peekN spT1 (d.landAt t i + 1) 1
def Device.landHome (d : Device) (t i : Nat) : Nat := d.peekN spT1 (d.landAt t i + 8) 8
def Device.landLen (d : Device) (t i : Nat) : Nat := d.peekN spT1 (d.landAt t i + 16) 8

/-- A landing entry written, the digest left alone (Table 9-5). -/
def Device.landWrite (d : Device) (t i st fl ch home len dest step : Nat) : Device :=
  d.poke devKey spT1 (d.landAt t i)
    (toLE 1 st ++ toLE 1 fl ++ toLE 2 ch ++ toLE 4 0 ++ toLE 8 home ++ toLE 8 len ++ toLE 8 dest ++ toLE 8 step)

/-- A free entry: all zero. -/
def Device.landFree (d : Device) (t i : Nat) : Device := d.poke devKey spT1 (d.landAt t i) (List.replicate 128 0)

/-- Landing fault address (R277). -/
def Device.landFault (d : Device) (i : Nat) : Nat := d.devId <<< 52 + 0xF <<< 48 + i

/-- Pages of the global range of a landing, one address a page (R278). -/
def landPages (home len : Nat) : List Nat := (List.range (ceilDiv len pageSize)).map fun i => home + pageSize * i

/-- Whether a landing address is on the boundary of its space (R278). -/
def landAligned (ga : Nat) : Bool := if gaSp ga = 8 then gaOff ga % 4096 == 0 else gaOff ga % pageSize == 0

/-- Home flags of a landing: on a peer, in host memory (Table 9-5). -/
def Device.homeFlags (d : Device) (ga : Nat) : Nat := (if d.isLocal ga then 0 else 2) ||| (if gaSp ga = 8 then 4 else 0)

/-- Physical pages of a local landing in spaces 0–2; the first address that does not translate. -/
def Device.physPages (d : Device) (t home len : Nat) : List Nat ⊕ Nat :=
  if gaSp home = 8 || !d.isLocal home then .inl []
  else
    (landPages home len).foldl (fun acc ga =>
      match acc with
      | .inl ps =>
        match d.locate t ga false with
        | some (l, _) => .inl (ps ++ [l.page])
        | none => .inr ga
      | e => e) (.inl [])

/-! ### Transfers -/

/-- Pieces of a transfer as (source, destination, length). -/
def Xfer.pieces (x : Xfer) : List (Nat × Nat × Nat) := if x.list.isEmpty then [(x.src, x.dst, x.len)] else x.list

/-- Chunk k of a transfer (R279): chunks cover the pieces in order. -/
def chunkOf (size : Nat) : List (Nat × Nat × Nat) → Nat → Option (Nat × Nat × Nat)
  | [], _ => none
  | (s, dd, n) :: ps, k =>
    let c := ceilDiv n size
    if k < c then some (s + size * k, dd + size * k, min size (n - size * k)) else chunkOf size ps (k - c)

/-- Number of chunks. -/
def Xfer.chunks (x : Xfer) : Nat := (x.pieces.map fun p => ceilDiv p.2.2 x.chunk).foldl (· + ·) 0

/-- Chunk size: 64 KiB, or 4 KiB when either end is in space 8 (R279). -/
def chunkSize (src dst : Nat) : Nat := if gaSp src = 8 || gaSp dst = 8 then 4096 else 65536

/-- Leading chunks landed. -/
def advanceDone (landed : List Nat) : Nat → Nat → Nat
  | 0, k => k
  | n + 1, k => if landed.contains k then advanceDone landed n (k + 1) else k

/-- What stands in the way of issuing a chunk. -/
inductive Issue where
  | ok (arrive : Option Nat)
  | waits
  | fault (ga : Nat)
  deriving DecidableEq, Repr

/-- Place of an address of a transfer. The tier-1 side of a batch crossing is a physical page of the pool (R284); everything else is
translated with the transfer's tenancy. -/
def Device.xfLocate (d : Device) (x : Xfer) (ga : Nat) (write : Bool) : Option (Loc × Option Nat) :=
  if x.kind = 3 && gaSp ga == 0 then some (⟨spT1, gaOff ga⟩, none) else d.locate x.ten ga write

/-- Physical pages of a range of a transfer. -/
def Device.xfPages (d : Device) (x : Xfer) (ga len : Nat) : List Nat :=
  ((parts ga len).filterMap fun p => (d.xfLocate x p.1 false).map fun l => l.1.page).eraseDups

/-- Translation of a chunk's source at issue (R279, R288). -/
def Device.srcCheck (d : Device) (x : Xfer) (s n : Nat) : Issue :=
  if !d.isLocal s || (x.kind = 3 && gaSp s == 0) then .ok none
  else (parts s n).foldl (fun a p =>
    match a with
    | .ok _ =>
      match d.meet x.ten p.1 false with
      | .proceeds _ _ => .ok none
      | .waits _ => .waits
      | .faults => .fault p.1
    | e => e) (.ok none)

/-- Translation of a chunk's destination at issue (R279, R284, R288). -/
def Device.dstCheck (d : Device) (x : Xfer) (dst n : Nat) : Issue :=
  if x.kind = 2 then
    (if (d.hostPlace x.ten dst true).isNone || (d.hostPlace x.ten (dst + n - 1) true).isNone then .fault dst else .ok none)
  else if !d.isLocal dst || gaSp dst = 8 then
    (if d.isLocal dst && ((d.locate x.ten dst true).isNone || (x.kind == 0 && (d.hostCrossing x.ten (gaOff dst) n x.sn).isSome)) then .fault dst else .ok none)
  else if x.kind ≠ 3 && (parts dst n).any fun p => !d.ownWrites x.ten p.1 p.2 then
    .fault ((((parts dst n).find? fun p => !d.ownWrites x.ten p.1 p.2).map fun p => p.1).getD dst)
  else if x.kind = 0 || x.kind = 3 then
    match d.xfLocate x dst true with
    | none => .fault dst
    | some (l, _) =>
      if x.arriving.contains l.page then .ok none
      else if d.sealed l.page then .fault dst
      else if x.kind = 3 || d.pageState l.page = pgPlain || d.pageState l.page = pgVacated then .ok (some l.page)
      else .fault dst
  else (parts dst n).foldl (fun a p =>
    match a with
    | .ok _ =>
      match d.meet x.ten p.1 true with
      | .faults => .fault p.1
      | _ => .ok none
    | e => e) (.ok none)

/-- What stands in the way of a chunk at issue; chunks that touch tier 2 wait for its fill (R293). -/
def Device.issueCheck (d : Device) (x : Xfer) (s dst n : Nat) : Issue :=
  if !d.on MEM_FILL_STAT.t2_done 0 && ((d.isLocal s && gaSp s == 1) || (x.kind != 2 && d.isLocal dst && gaSp dst == 1)) then .waits
  else
    match d.srcCheck x s n with
    | .ok _ => d.dstCheck x dst n
    | e => e

def Device.chan? (d : Device) (ch : Nat) : Option Xfer := (d.mm.chans.find? fun c => c.1 == ch).map fun c => c.2
def Device.setChan (d : Device) (ch : Nat) (x : Xfer) : Device := { d with mm := { d.mm with chans := smIns d.mm.chans ch x } }
def Device.dropChan (d : Device) (ch : Nat) : Device :=
  let d := { d with mm := { d.mm with chans := smDel d.mm.chans ch } }
  d.setReg .MEM_CHAN_STAT ch 0

/-- Channel states (Table 9-21). -/
def chIdle : Nat := 0
def chActive : Nat := 1
def chDevice : Nat := 2
def chPri : Nat := 3
def chFlipping : Nat := 4
def chHalted : Nat := 5

/-- Issue of further chunks in address order, up to 16 in flight, while the channel is Active (R279). -/
def issueMore : Nat → Nat → Device → Device
  | 0, _, d => d
  | n + 1, ch, d =>
    match d.chan? ch with
    | none => d
    | some x =>
      if d.rd MEM_CHAN_STAT.state ch ≠ chActive || decide (d.rd MEM_CHAN_STAT.done ch + 16 ≤ x.issued) then d
      else
        match chunkOf x.chunk x.pieces x.issued with
        | none => d
        | some (s, dst, len) =>
          match d.issueCheck x s dst len with
          | .ok none => issueMore n ch (d.setChan ch { x with issued := x.issued + 1 })
          | .ok (some p) =>
            let d := d.setPage p pgArriving
            issueMore n ch (d.setChan ch { x with issued := x.issued + 1, arriving := x.arriving ++ [p] })
          | _ => d

/-- A transfer joins the waiting order for a channel (R285). -/
def Device.queueXfer (d : Device) (x : Xfer) : Device := { d with mm := { d.mm with waiting := d.mm.waiting ++ [x] } }

/-- The first transfer in waiting order takes the lowest-numbered free channel among 0–191 (R285); a crossing's entry records the
channel and its source pages become Departing (R279). -/
def channelGrant (d : Device) : Device :=
  match d.mm.waiting, leastBelow 192 fun ch => !(d.mm.chans.any fun c => c.1 == ch) &&
      !(d.mm.fenced.contains (unitOf 6 (0x100 + ch))) with
  | x :: rest, some ch =>
    let d := { d with mm := { d.mm with waiting := rest } }
    let src := if (x.kind = 0 || x.kind = 3) && d.isLocal x.src && gaSp x.src != 8 then d.xfPages x x.src x.len else []
    let d := d.setPages src pgDeparting
    let d := d.setChan ch { x with departing := src }
    let d := (((d.wr MEM_CHAN_STAT.tenancy ch x.ten).wr MEM_CHAN_STAT.kind ch x.kind).wr MEM_CHAN_STAT.queue ch x.queue).wr
      MEM_CHAN_STAT.state ch chActive
    let d := if x.kind = 0 then d.pokeN spT1 (d.landAt x.ten x.entry + 2) 2 ch else d
    issueMore 16 ch d
  | _, _ => d

/-- Whether a part of a write would be held (R275): the chunk has then not landed yet. -/
def Device.writeWaits (d : Device) (t ga n : Nat) : Bool :=
  (parts ga n).any fun p => match d.meet t p.1 true with
    | .waits _ => true
    | _ => false

/-- A chunk of a release written to host memory, page by page (R435). -/
def Device.hostWrite (d : Device) (t a : Nat) (bs : List Byte) : Device :=
  let n := min bs.length (4096 - a % 4096)
  let put (d : Device) (a : Nat) (bs : List Byte) : Device :=
    match d.hostPlace t a true with
    | some l => if bs.isEmpty then d else d.writeHost t l.off bs
    | none => d
  put (put d a (bs.take n)) (a + n) (bs.drop n)

/-- Whether a chunk's destination is on this device or its host. -/
def Device.lands (d : Device) (x : Xfer) (dst : Nat) : Bool := x.kind == 2 || d.isLocal dst

/-- A write of a chunk at its destination: a crossing's own copy writes bypass its Arriving pages; other writes meet Table 9-4. -/
def Device.chunkWrite (d : Device) (x : Xfer) (dst : Nat) (bs : List Byte) : Device × Wr :=
  if x.kind = 2 then (if (d.hostCrossing x.ten dst bs.length 0).isSome then (d, .waits) else (d.hostWrite x.ten dst bs, .ok))
  else if x.kind = 0 || x.kind = 3 then
    (parts dst bs.length).foldl (fun (acc : Device × Wr) p =>
      match acc.1.xfLocate x p.1 true with
      | none => (acc.1, acc.2.join (.fault p.1))
      | some (l, idx) => (acc.1.writeLoc x.ten l idx ((bs.drop (p.1 - dst)).take p.2), acc.2)) (d, .ok)
  else if d.writeWaits x.ten dst bs.length then (d, .waits)
  else d.ownWrite x.ten dst bs .none

/-- Whether a chunk is an ingest from host memory (R434). -/
def Device.hostSrc (d : Device) (x : Xfer) (s : Nat) : Bool := decide (x.kind ≤ 1) && d.isLocal s && gaSp s == 8

/-- Data tag of a transfer. -/
def Xfer.tag (x : Xfer) : List Byte := mkTag x.ten x.cls x.client (if x.kind = 1 || x.kind = 2 then 1 else 0) x.step x.mid

/-- Ingest key of a transfer (Table 14-4). -/
def Device.ingestKey (d : Device) (x : Xfer) : List Byte :=
  let cid := match d.cmd? x.sn with
    | some c => eCmdId c.entry
    | none => 0
  if x.kind = 1 then toLE 3 x.mid ++ toLE 2 x.leg ++ toLE 3 0 ++ toLE 4 x.ord ++ toLE 2 cid ++ toLE 2 0
  else toLE 3 0 ++ toLE 2 0xFFFE ++ toLE 3 0 ++ toLE 4 x.entry ++ toLE 2 cid ++ toLE 2 0

/-- A transfer from host memory is whole: its digest is filed for its step (R434). Radio tags name slots, no step. -/
def Device.fileIngest (d : Device) (x : Xfer) : Device :=
  if x.ingest.isEmpty || x.cls = 0 then d
  else d.ingest x.ten x.step (d.ingestKey x)
    (((List.range x.chunks).map fun k => ((x.ingest.find? fun i => i.1 == k).map fun i => i.2).getD []).flatten)

/-- What a chunk from host memory holds: under replay the log's record for its landing place (R410). -/
def Device.ingestData (d : Device) (x : Xfer) (s dst n : Nat) : Option (List Byte) × Device :=
  if !d.hostSrc x s || !d.replaying x.ten then (none, d)
  else
    match d.takeReplay x.ten fun r => r.kind == 1 && r.addr == dst && r.payload.length == n with
    | some (r, d) => (some r.payload, d)
    | none => (none, d)

/-- Bytes a chunk reads: locally translated (a crossing reads its Departing source), or brought by the fabric from a peer. -/
def Device.chunkRead (d : Device) (x : Xfer) (s n : Nat) (data : List Byte) : Option (List Byte) :=
  if !d.isLocal s then some (data.take n)
  else if x.kind = 3 && gaSp s == 0 then
    if (d.poisonIn spT1 (gaOff s) n).isSome then none else some (d.peek (d.tenKey x.ten) spT1 (gaOff s) n)
  else
    match d.readGA x.ten s n with
    | .ok bs => some bs
    | _ => none

/-- A chunk lands and further chunks issue (R279); when the last has landed a crossing or batch crossing is Flipping, and any other
transfer is at its end. `data` is what a peer's answers brought, for a source on a peer. -/
def chunkLand (ch k : Nat) (data : List Byte) (d : Device) : Device × Bool :=
  match d.chan? ch with
  | none => (d, false)
  | some x =>
    let done := d.rd MEM_CHAN_STAT.done ch
    if k < done || x.issued ≤ k || x.landed.contains k || d.rd MEM_CHAN_STAT.state ch = chHalted then (d, false)
    else
      match chunkOf x.chunk x.pieces k with
      | none => (d, false)
      | some (s, dst, len) =>
        let p := d.ingestData x s dst len
        let host := d.hostSrc x s
        if host && d.logHolds x.ten then (d, false)
        else
          match p.1.or (d.chunkRead x s len data) with
          | none => (d, false)
          | some bs =>
            let e := if d.isLocal s then p.2.touchTS s len else p.2
            let r := if e.lands x dst then e.chunkWrite x dst bs else (e, .ok)
            match r.2 with
            | .fault _ => (d, false)
            | .poison _ => (d, false)
            | .waits => (d, false)
            | .ok =>
              let d := r.1
              let d := if d.lands x dst then d else { d with sent := .chunk ch dst bs :: d.sent }
              let d := if host then d.logRec x.ten 1 d.devId dst x.tag bs else d
              let landed := k :: x.landed
              let done' := advanceDone landed 4096 done
              let x := { x with landed := landed.filter fun j => decide (done' ≤ j), ingest := if host then x.ingest ++ [(k, bs)] else x.ingest }
              let d := d.setChan ch x
              let d := d.wr MEM_CHAN_STAT.done ch done'
              if done' = x.chunks then ((d.fileIngest x).wr MEM_CHAN_STAT.state ch chFlipping, true)
              else (issueMore 16 ch d, false)

/-- Accesses held for a crossing proceed, in arrival order: held writes to its source go to the new landing at the same tensor offset
after a flip, or to the source after an abort; everything else is met again (R275, R279, R281). `reach` moves an address. -/
def Device.releaseHeld (d : Device) (ch : Nat) (reach : Nat → Nat) : Device :=
  let mine := d.mm.held.filter fun h => h.ch == ch
  let d := { d with mm := { d.mm with held := d.mm.held.filter fun h => h.ch != ch } }
  mine.foldl (fun d h =>
    let ga := reach h.ga
    if h.write then
      let r := d.writeGA h.ten ga h.data h.notify
      match h.notify, r.2 with
      | .token n s t, .ok => r.1.setToken n s t false
      | .token n s t, .fault _ => r.1.setToken n s t true
      | _, _ => r.1
    else
      match h.dest, d.readGA h.ten ga h.len with
      | some (sp, off), .ok bs => d.store sp off bs
      | _, _ => d) d

end Sys2Proof.Machine
end

