-- ==== Sys2Proof/Machine/Time.lean ====
section
/-! DEFINITION. Air time, slots, timing domains, holdover and doubt, PTP stamps, pulse outputs and capture inputs (R178–R202, and the TREF
part of R520). -/

namespace Sys2Proof.Machine

/-- Whether the part is a CK960-B0-X: no fronthaul, no radio service (R3, Table 1-3). -/
def Device.isX (d : Device) : Bool := d.rd GEN_ID.variant 0 == 2

/-- GPS epoch in device time, in 1/144 ns (R178). -/
def gpsEpoch : Nat := 315964819 * secT

/-- Air time in 1/144 ns (R193). -/
def Device.airTime (d : Device) : Nat := d.time - gpsEpoch + 144 * d.rd TIM_AIR_CFG.air_offset_ns 0

/-- Length of a slot of numerology mu, in 1/144 ns (R194). -/
def slotLen (mu : Nat) : Nat := 144000000 / 2 ^ mu

/-- Slot count of numerology mu (R193). -/
def Device.slotCount (d : Device) (mu : Nat) : Nat := d.airTime / slotLen mu

/-- Step field of a data tag (Table 4-15): the step counter; for class Radio, of a command that names no slot, the count of the slot on air in the numerology of the tenancy's lowest enabled
carrier, 0 without one (log 150). -/
def Device.cmdStep (d : Device) (t cls : Nat) : Nat :=
  if cls ≠ 0 then d.step t
  else d.slotCount (((leastBelow 64 fun c => d.on RAD_CAR_CFG.enable c && d.rd RAD_CAR_CFG.owner c == t).map fun c => d.rd RAD_CAR_CFG.mu c).getD 0)

/-- Device time at which slot s of numerology mu starts (R194). -/
def Device.slotStart (d : Device) (mu s : Nat) : Int :=
  (s * slotLen mu : Nat) + (gpsEpoch : Int) - (144 * d.rd TIM_AIR_CFG.air_offset_ns 0 : Nat)

/-- Length of symbol l of slot s, in Tc (R195). -/
def symLen (mu s l : Nat) : Nat :=
  (2048 + 144) * 64 / 2 ^ mu + (if ((s % 2 ^ mu) * 14 + l) % (7 * 2 ^ mu) = 0 then 16 * 64 else 0)

/-- Start of symbol l within its slot, in Tc. -/
def symStartTc (mu s l : Nat) : Nat := ((List.range l).map (symLen mu s)).foldl (· + ·) 0

/-- Tc to 1/144 ns, rounded to the nearest sixteenth of a nanosecond, ties up (R195): 9 units a sixteenth. -/
def tcTime (tc : Nat) : Nat := (2 * 3125 * tc + 384) / 768 * 9

/-- Device time at which symbol l of slot s starts. -/
def Device.symStart (d : Device) (mu s l : Nat) : Int := d.slotStart mu s + (tcTime (symStartTc mu s l) : Nat)

/-- The time registers show device time and air time (Tables 6-1, 6-13, 6-14). -/
def Device.showTime (d : Device) : Device :=
  let a := d.airTime
  let d := d.wr TIM_NOW_S.seconds 0 d.secs
  let d := ((d.wr TIM_FRAME_NOW.hsfn 0 (a / (10240 * 144000000) % 1024)).wr TIM_FRAME_NOW.sfn 0
    (a / (10 * 144000000) % 1024)).wr TIM_FRAME_NOW.subframe 0 (a / 144000000 % 10)
  (List.range 4).foldl (fun d mu => d.wr TIM_SLOT_NOW.slot_count mu (d.slotCount mu)) d

/-- Device time set, with the registers that show it. -/
def Device.setTime (d : Device) (t : Nat) : Device := { d with time := t }.showTime

/-- First ACLK cycle that begins at or after a device time (R154). -/
def Device.cycleAt (d : Device) (t : Int) : Int :=
  (d.cycle : Int) + (if t ≤ d.time then -(((d.time : Int) - t) / 80) else (t - d.time + 79) / 80)

/-! ### Doubt and selection -/

def Device.dom (d : Device) (i : Nat) : Dom := smGet d.timing.doms i {}
def Device.setDom (d : Device) (i : Nat) (x : Dom) : Device :=
  { d with timing := { d.timing with doms := smSet d.timing.doms i {} x } }

/-- Offset of a domain from device time in ns. -/
def Device.domOff (d : Device) (i : Nat) : Int := (d.dom i).off
def Device.domState (d : Device) (i : Nat) : Nat := d.rd TIM_DOM_STAT.state i
def Device.domLocked (d : Device) (i : Nat) : Bool := d.domState i == 2

/-- Saturation of an offset at ±(2^31 − 1). -/
def satOff (x : Int) : Int := max (-2147483647) (min 2147483647 x)

/-- A domain's offset changes; offset_ns shows it saturated (Table 6-6). -/
def Device.setOff (d : Device) (i : Nat) (x : Int) : Device :=
  (d.setDom i { d.dom i with off := x }).wr TIM_DOM_STAT.offset_ns i (ofSigned 32 (satOff x))

/-- Both domains' offsets change by the same amount, as device time moves the other way. -/
def Device.shiftOffs (d : Device) (x : Int) : Device := [0, 1].foldl (fun d j => d.setOff j (d.domOff j + x)) d

/-- Selected domain, or none. -/
def Device.selected (d : Device) : Option Nat :=
  let s := d.rd TIM_STAT.selected 0
  if s < 2 then some s else none

/-! ### Announced class -/

/-- The clockClass that master ports announce (R191): 248 before the first lock after reset, 165 in doubt after it, 135 in holdover within budget, else the selected
grandmaster's. -/
def Device.clockClass (d : Device) : Nat :=
  if !d.timing.locked then 248
  else if d.on TIM_STAT.doubt 0 then 165
  else
    match d.selected with
    | some i => d.rd TIM_DOM_STAT.gm_class i
    | none => 135

/-- Ports that serve device time (Table 6-5): bits 0–3 E0–E3, bit 4 M0. -/
def Device.masterPorts (d : Device) : Nat :=
  let m (i : Nat) : Nat := if d.rd TIM_DOM_CFG.source i = 0 then 0 else d.rd TIM_DOM_CFG.master_mask i
  m 0 ||| m 1

/-- Master ports announce a class that has changed (R191). -/
def Device.announce (d : Device) : Device :=
  let c := d.clockClass
  if c = d.timing.announced then d
  else { d with timing := { d.timing with announced := c }, sent := .announce d.masterPorts c :: d.sent }

/-- Record of a timing event (Table 12-5, op 0x1C): TIM_STAT bits [11:0]. -/
def Device.logTiming (d : Device) : Device := d.logOp unitTiming 0x1C ((d.reg .TIM_STAT 0).toNat % 4096)

/-- Pulse outputs of a test that are high go low. -/
def Device.pulsesDown (d : Device) (p : Nat → Bool) : Device :=
  let sent := (d.timing.pulses.filter fun x => x.2.level && p x.1).map fun x => Sent.pulse x.1 false d.time
  let low := d.timing.pulses.map fun (x : Nat × Pulse) => if p x.1 then (x.1, { x.2 with level := false }) else x
  { d with timing := { d.timing with pulses := low }, sent := sent ++ d.sent }

/-- Every pulse output that is high goes low. -/
def Device.pulsesLow (d : Device) : Device := d.pulsesDown fun _ => true

/-- Doubt set: squelched pulse outputs go low (R198); counted, marked changed; symbols whose windows open from now on are muted (R190, Table 7-11). -/
def Device.setDoubt (d : Device) : Device :=
  if d.on TIM_STAT.doubt 0 then d
  else
    let d := ((d.wr TIM_STAT.doubt 0 1).wr TIM_STAT.doubt_changed 0 1).incSat TIM_STAT.doubt_count 0 1
    ({ d with timing := { d.timing with doubtFrom := some d.time, doubtUntil := none } }.logTiming).pulsesDown fun n => d.on TIM_PPS_CTL.squelch n

/-- Device time of the next 10 ms frame boundary in air time. -/
def Device.nextFrame (d : Device) : Int := d.slotStart 0 ((d.slotCount 0 / 10 + 1) * 10)

/-- Doubt cleared: the mute ends at the next frame boundary. -/
def Device.clearDoubt (d : Device) : Device :=
  if d.on TIM_STAT.doubt 0 then
    let d := (d.wr TIM_STAT.doubt 0 0).wr TIM_STAT.doubt_changed 0 1
    { d with timing := { d.timing with doubtUntil := some d.nextFrame } }.logTiming
  else d

/-- Whether any timetable is pending or in force. -/
def Device.timetablesExist (d : Device) : Bool := (List.range 8).any fun k => d.rd SCH_TT_STAT.state k != 0

/-- Among domains that meet a test, the one of lower priority value; TA wins ties (R186, R189). -/
def Device.bestDom (d : Device) (p : Nat → Bool) : Option Nat :=
  match p 0, p 1 with
  | true, true => some (if d.rd TIM_DOM_CFG.priority 1 < d.rd TIM_DOM_CFG.priority 0 then 1 else 0)
  | true, false => some 0
  | false, true => some 1
  | false, false => none

/-- A domain becomes the selected one, and holdover ends. -/
def Device.select (d : Device) (i : Nat) : Device :=
  let d := (d.wr TIM_STAT.selected 0 i).wr TIM_STAT.state 0 2
  let d := d.wr TIM_STAT.hold_err_ns 0 0
  { d with timing := { d.timing with holdMs := 0, holdErr := 0, locked := true } }

/-- Absolute value of a domain's offset. -/
def Device.domAbs (d : Device) (i : Nat) : Nat := (d.domOff i).natAbs

/-- Holdover begins with e0 of the domain last selected, at its last update (R189). -/
def Device.enterHoldover (d : Device) (i : Nat) : Device :=
  let e0 := (d.dom i).last + d.rd TIM_HOLD_CTL.entry_ns 0
  let d := (d.wr TIM_STAT.selected 0 3).wr TIM_STAT.state 0 3
  let d := d.wr TIM_STAT.hold_err_ns 0 (min e0 (2 ^ 32 - 1))
  { d with timing := { d.timing with holdMs := 0, holdE0 := e0, holdErr := e0 * 7200000000000 } }

/-- Device time of a pulse output's first rising edge (R197): start in device or air time. -/
def Device.pulseStart (d : Device) (n : Nat) : Int :=
  let t : Nat := 144 * d.rd TIM_PPS_START.start_ns n + 9 * d.rd TIM_PPS_CTL.start_frac n
  if d.on TIM_PPS_CTL.timebase n then (t : Int) + gpsEpoch - (144 * d.rd TIM_AIR_CFG.air_offset_ns 0 : Nat) else t

def Device.setPulse (d : Device) (n : Nat) (p : Pulse) : Device :=
  { d with timing := { d.timing with pulses := smSet d.timing.pulses n {} p } }

/-- First edge of a periodic output's grid at or after a device time (R198). -/
def Device.gridEdge (d : Device) (n : Nat) (t : Int) : Nat :=
  let start := d.pulseStart n
  let period : Int := (144 * d.rd TIM_PPS_CTL.period_ns n : Nat)
  (if t ≤ start then start else start + (t - start + period - 1) / period * period).toNat

/-- A scheduled pulse output meets a new device time, or a new grid (R197, R198): an edge that is past by now is skipped, which missed shows, and a periodic output goes on
with the first edge of its grid from now. A one-shot output keeps the edge it has, unless it is past. -/
def Device.realignPulse (d : Device) (n : Nat) : Device :=
  let p := smGet d.timing.pulses n {}
  if !p.armed then d
  else
    let skipped := decide (p.next < d.time)
    let d := if skipped then d.wr TIM_PPS_CTL.missed n 1 else d
    if d.on TIM_PPS_CTL.periodic n then d.setPulse n { p with next := d.gridEdge n d.time }
    else if skipped then d.setPulse n { p with armed := false }
    else d

/-- A step of device time by the selected domain's offset (R179, R188). A pulse under way keeps its width, and the start of a mute stays where it was in time. -/
def Device.stepTime (d : Device) (i : Nat) : Device :=
  let off := d.domOff i
  let move (t : Nat) : Nat := ((t : Int) + 144 * off).toNat
  let d := d.setTime (move d.time)
  let d := ((d.incWrap TIM_STAT.steps 0 1).shiftOffs (-off)).logTiming
  let pulses := d.timing.pulses.map fun (p : Nat × Pulse) => (p.1, { p.2 with fall := move p.2.fall })
  let d := { d with timing := { d.timing with pulses := pulses, doubtFrom := d.timing.doubtFrom.map fun t => t + 144 * off } }
  (List.range 4).foldl (fun d n => d.realignPulse n) d

/-- The step of R188, when its conditions hold; a backward step is blocked while a timetable exists, and stays blocked until every timetable is empty. -/
def Device.tryStep (d : Device) : Device :=
  let d := if d.timetablesExist then d else d.wr TIM_STAT.step_blocked 0 0
  match d.selected with
  | none => d
  | some i =>
    if d.on TIM_STAT.doubt 0 && !d.on TIM_STAT.step_blocked 0 && d.domLocked i && (d.dom i).qual &&
        decide (d.rd TIM_SEL_CTL.max_delta_ns 0 < d.domAbs i) &&
        decide ((gpsEpoch : Int) ≤ (d.time : Int) + 144 * d.domOff i) then
      if d.domOff i < 0 && d.timetablesExist then d.wr TIM_STAT.step_blocked 0 1 else d.stepTime i
    else d

/-- Holdover ends (R189): a locked domain close enough, or, in doubt, one that has been locked for requalify_ms. -/
def Device.tryEndHoldover (d : Device) : Device :=
  if d.rd TIM_STAT.state 0 ≠ 3 then d
  else
    let lim := max (d.rd TIM_SEL_CTL.max_delta_ns 0) (d.rd TIM_STAT.hold_err_ns 0)
    match d.bestDom (fun i => d.domLocked i && decide (d.domAbs i ≤ lim)) with
    | some i => d.select i
    | none =>
      if d.on TIM_STAT.doubt 0 then
        match d.bestDom (fun i => d.domLocked i && (d.dom i).qual) with
        | some i => d.select i
        | none => d
      else d

/-- First selection, from free-run or acquiring (R186). -/
def Device.trySelect (d : Device) : Device :=
  if d.rd TIM_STAT.state 0 = 3 || d.selected.isSome then d
  else
    match d.bestDom d.domLocked with
    | some i => d.select i
    | none => d.wr TIM_STAT.state 0 (if (List.range 2).any fun i => d.domState i == 1 then 1 else d.rd TIM_STAT.state 0)

/-- The timing unit draws the consequences of a change: selection, end of holdover, step, doubt, the inconsistent flag and the class announced
(R186–R191). -/
def Device.timeEval (d : Device) : Device :=
  let d := d.trySelect.tryEndHoldover.tryStep
  let maxd := d.rd TIM_SEL_CTL.max_delta_ns 0
  let both := d.domLocked 0 && d.domLocked 1
  let d := d.wr TIM_STAT.inconsistent 0 (b2n (both && decide (maxd < (d.domOff 0 - d.domOff 1).natAbs)))
  let bad :=
    d.timing.trefBad || decide (d.rd TIM_HOLD_CTL.budget_ns 0 < d.rd TIM_STAT.hold_err_ns 0) ||
    (!(d.domLocked 0 || d.domLocked 1) && !d.on TIM_HOLD_CTL.hold_en 0) ||
    (match d.selected with
     | some i => d.domLocked i && decide (maxd < d.domAbs i) && d.on TIM_STAT.step_blocked 0
     | none => false)
  let fit := match d.selected with
    | some i => d.domLocked i && (d.dom i).qual && decide (d.domAbs i ≤ 100) && d.timing.trefQual && !d.on TIM_STAT.step_blocked 0
    | none => false
  (if bad then d.setDoubt else if fit then d.clearDoubt else d).announce

/-- A domain becomes lost (R185). -/
def Device.loseDom (d : Device) (i : Nat) : Device :=
  if d.domState i = 0 || d.domState i = 3 then d
  else ((d.wr TIM_DOM_STAT.state i 3).incSat TIM_DOM_STAT.losses i 1).setDom i { d.dom i with hist := [], qual := false }

/-- Phase correction of one ACLK cycle (R186): while the selected domain is locked, its offset is not 0 and no step is blocked (R188), slew_ppb
thousand-millionths of the cycle fall due; each whole sixteenth of a nanosecond due moves device time toward the domain,
and sixteen of them move offset_ns of both domains by one. The answer is the move of device time in 1/144 ns. -/
def Device.slew (d : Device) : Device × Int :=
  match d.selected with
  | none => (d, 0)
  | some i =>
    if !d.domLocked i || d.domOff i == 0 || d.on TIM_STAT.step_blocked 0 then (d, 0)
    else
      let sg : Int := if d.domOff i < 0 then -1 else 1
      let acc := d.timing.slewAcc + 80 * d.rd TIM_SEL_CTL.slew_ppb 0
      if acc < 9000000000 then ({ d with timing := { d.timing with slewAcc := acc } }, 0)
      else
        let k := d.timing.slewFrac + 1
        let t : TimeCtx := { d.timing with slewAcc := acc - 9000000000, slewFrac := k % 16 }
        let d := { d with timing := t }
        if k < 16 then (d, 9 * sg)
        else (d.shiftOffs (-sg), 9 * sg)

/-- One ACLK cycle passes: 1/1.8 ns, 80 units of device time (R17), with the slew of R186. -/
def Device.tick (d : Device) : Device :=
  let r := d.slew
  { r.1 with cycle := r.1.cycle + 1 }.setTime ((d.time : Int) + 80 + r.2).toNat

/-! ### Events of the timing unit -/

/-- A read of TIM_NOW_S answers the seconds and latches the nanoseconds and fraction of the same instant for the reading function (R180). -/
def nowSRead (fn : Nat) (d : Device) : Device :=
  if (smGet d.tens fn {}).d3hot then d
  else { d with timing := { d.timing with latch := smIns d.timing.latch fn (d.nanos, d.frac) }, sent := .readAnswer fn 0xD00000 8 d.secs :: d.sent }

/-- What a function latched with its last read of TIM_NOW_S (R180): the value of TIM_NOW_NS for it; 0 before the first. -/
def Device.nowNs (d : Device) (fn : Nat) : Nat :=
  match d.timing.latch.find? fun x => x.1 == fn with
  | some x => x.2.1 <<< 4 + x.2.2
  | none => 0

/-! ### PTP frames -/

/-- Big-endian bytes of a number, and a number of big-endian bytes at an offset. -/
def be (n v : Nat) : List Byte := (toLE n v).reverse
def beAt (b : List Byte) (o n : Nat) : Nat := le ((b.drop o).take n).reverse

/-- Where the PTP message stands in an Ethernet frame, plain or with one VLAN tag, when the frame is a PTP frame (R181): EtherType 0x88F7, or UDP to port 319 or 320 over IPv4
or IPv6. The answer is the transport (0 Ethernet, 1 IPv4, 2 IPv6) and the offset. -/
def ptpAt (f : List Byte) : Option (Nat × Nat) :=
  let v := if beAt f 12 2 = 0x8100 then 4 else 0
  let ty := beAt f (12 + v) 2
  let ip := 14 + v
  let event (o : Nat) : Bool := beAt f (o + 2) 2 == 319 || beAt f (o + 2) 2 == 320
  let v4 := ip + 4 * (beAt f ip 1 % 16)
  if ty = 0x88F7 then some (0, ip)
  else if ty = 0x0800 && beAt f (ip + 9) 1 == 17 && event v4 then some (1, v4 + 8)
  else if ty = 0x86DD && beAt f (ip + 6) 1 == 17 && event (ip + 40) then some (2, ip + 48)
  else none

/-- Receive stamp of a frame that arrives on a port now: at the package lands, moved to the reference plane (R182). -/
def Device.rxStamp (d : Device) (port : Nat) : Int := (d.time : Int) - toSigned 16 (d.rd TIM_PORT_LAT.rx_adj_ps port) * 144 / 1000

/-- Transmit stamp of a frame that leaves a port now (R182). -/
def Device.txStamp (d : Device) (port : Nat) : Int := (d.time : Int) + toSigned 16 (d.rd TIM_PORT_LAT.tx_adj_ps port) * 144 / 1000

/-- A PTP frame that arrives on a port is stamped at the reference plane and diverted to the timing unit (R181, R182). -/
def Device.divertPtp (d : Device) (port : Nat) (data : List Byte) : Device :=
  { d with timing := { d.timing with frames := d.timing.frames ++ [⟨port, d.rxStamp port, data⟩] } }

/-- PTP_FRAME_RX: a frame that is no PTP frame is not this unit's, and a CK960-B0-X runs PTP on M0 only. -/
def ptpFrameRx (port : Nat) (data : List Byte) (d : Device) : Device :=
  if (d.isX && decide (port < 4)) || (ptpAt data).isNone then d else d.divertPtp port data

/-- Whether the outputs are held as a removal, a save, Deep, or the unserviceable state ask (R29, R464, R492, R501). -/
def Device.outputsSafe (d : Device) : Bool :=
  (d.on GEN_SVC.eval_done 0 && d.rd GEN_SVC.svc_level 0 == 0) || d.pwr.gated || d.rd PWR_STATE_STAT.state 0 == 2

/-- Sum of the 16-bit words of a byte string. -/
def sum16 (b : List Byte) : Nat := ((List.range ((b.length + 1) / 2)).map fun i => beAt (b ++ [0]) (2 * i) 2).foldl (· + ·) 0

/-- The transmit stamp inserted into the PTP message at `o` of a frame (R183): originTimestamp takes the seconds and the nanoseconds, truncated; correctionField gains
frac × 4,096. The message has correctionField at 8–15 and originTimestamp at 34–43 (IEEE 1588-2019). -/
def insertStamp (f : List Byte) (o s : Nat) : List Byte :=
  let corr := beAt f (o + 8) 8 + s % 144 / 9 * 4096
  f.take (o + 8) ++ be 8 (corr % 2 ^ 64) ++ (f.drop (o + 16)).take 18 ++ be 6 (s / secT % 2 ^ 48) ++ be 4 (s % secT / 144) ++ f.drop (o + 44)

/-- The UDP checksum after an insertion (R183): 0 over IPv4; over IPv6 the two-byte trailer at the end of the datagram takes up what the sum of the other words lost or gained. -/
def fixUdp (old f : List Byte) (tr o : Nat) : List Byte :=
  if tr = 1 then f.take (o - 2) ++ [0, 0] ++ f.drop o
  else if tr = 2 then
    let n := o - 4 + beAt f (o - 4) 2
    let sum (b : List Byte) : Nat := sum16 ((b.take (n - 2)).drop o)
    let t := (beAt f (n - 2) 2 + sum old + (65535 - sum f % 65535)) % 65535
    f.take (n - 2) ++ be 2 t ++ f.drop n
  else f

/-- An event message leaves a port (R182, R183): `frame` is the Ethernet frame without its check sequence. A Sync message with twoStepFlag 0 has its stamp inserted; any other event
message goes as it is, and its stamp is kept for the follow-up. The check sequence is computed over what is sent. No frame leaves E0–E3 of a CK960-B0-X, or while the outputs are
held safe (R3, R29). -/
def syncTx (port : Nat) (frame : List Byte) (d : Device) : Device :=
  match ptpAt frame with
  | none => d
  | some (tr, o) =>
    let ty := beAt frame o 1 % 16
    if 3 < ty || (decide (port < 4) && (d.isX || d.outputsSafe)) then d
    else
      let oneStep := ty == 0 && !bit (beAt frame (o + 6) 1) 1 && decide (o + 44 ≤ frame.length)
      let out := if oneStep then fixUdp frame (insertStamp frame o (d.txStamp port).toNat) tr o else frame
      let stamps := if oneStep then d.timing.txStamps else d.timing.txStamps ++ [⟨port, d.txStamp port, frame⟩]
      { d with timing := { d.timing with txStamps := stamps }, sent := .sync port (out ++ toLE 4 (crc32 out)) :: d.sent }

/-! ### Domains -/

/-- What a new source of a domain brings with it (Table 6-5, Table 6-6): off, or acquiring from the start. -/
def Device.newSource (d : Device) (i : Nat) : Device :=
  let off := d.rd TIM_DOM_CFG.source i = 0
  (d.setDom i { d.dom i with hist := [], qual := false }).wr TIM_DOM_STAT.state i (if off then 0 else 1)

/-- An update of a domain's offset estimate (R185): `off` in ns, `cls` the grandmaster's clockClass. -/
def domainUpdate (i : Nat) (off : Int) (cls : Nat) (d : Device) : Device :=
  let src := d.rd TIM_DOM_CFG.source i
  if src = 0 || 4 < src || d.ras.cpBusy.isSome then d
  else
    let pps := src = 4
    let d := d.wr TIM_DOM_STAT.gm_class i (if pps then 0 else cls)
    if !pps && decide (d.rd TIM_DOM_CFG.max_class i < cls) then (d.loseDom i).timeEval
    else
      let d := d.setOff i off
      let t : TimeCtx := if d.selected == some i then { d.timing with slewFrac := 0 } else d.timing
      let d := { d with timing := t }
      let old := if d.domState i = 1 || d.domState i = 2 then (d.dom i).hist else []
      let d := if d.domState i = 1 || d.domState i = 2 then d else d.wr TIM_DOM_STAT.state i 1
      let hist := (off :: old).take 16
      let d := d.setDom i { d.dom i with hist := hist, last := off.natAbs }
      let spread := hist.foldl max off - hist.foldl min off
      let d := if d.domState i = 1 && hist.length = 16 && decide (spread < 50) then d.wr TIM_DOM_STAT.state i 2 else d
      let jump := d.selected == some i && d.domLocked i && !d.on TIM_STAT.doubt 0 &&
        decide (d.rd TIM_SEL_CTL.max_delta_ns 0 < off.natAbs)
      let d := if jump then d.loseDom i else d
      d.timeEval

/-- No qualifying update came for loss_ms (R185). -/
def domainLossTimeout (i : Nat) (d : Device) : Device := (d.loseDom i).timeEval

/-- The domain a revertive selection prefers, when it is not the one selected (R186). -/
def Device.revertTo (d : Device) : Option Nat :=
  match d.selected with
  | none => none
  | some i =>
    if !d.on TIM_SEL_CTL.revertive 0 then none
    else
      match d.bestDom d.domLocked with
      | some j => if j = i then none else some j
      | none => none

/-- A switchover after the selected domain was lost (it may be acquiring again by then), or when a revertive selection changes (R187): to the other domain when it is locked and
close, else into holdover. -/
def domainSwitchover (d : Device) : Device :=
  match d.selected with
  | none => d
  | some i =>
    if d.domLocked i && d.revertTo.isNone then d
    else
      let j := 1 - i
      if d.domLocked j && decide (d.domAbs j ≤ d.rd TIM_SEL_CTL.max_delta_ns 0) then (d.select j).timeEval
      else (d.enterHoldover i).timeEval

/-- One millisecond of holdover: the error estimate grows (R189). -/
def holdoverTick (d : Device) : Device :=
  if d.rd TIM_STAT.state 0 ≠ 3 then d
  else
    let k := d.timing.holdMs + 1
    let locked := d.on TIM_STAT.synce_locked 0
    let e0 := d.timing.holdErr
    let err :=
      if locked then d.timing.holdE0 * 7200000000000 + d.rd TIM_HOLD_CTL.synce_unc_ppt 0 * 7200000 * k
      else e0 + d.rd TIM_HOLD_CTL.freq_unc_ppt 0 * 7200000 + d.rd TIM_HOLD_CTL.ageing_ppt_h 0 * (2 * k - 1)
    let d := { d with timing := { d.timing with holdMs := k, holdErr := err } }
    (d.wr TIM_STAT.hold_err_ns 0 (min (err / 7200000000000) (2 ^ 32 - 1))).timeEval

/-- A domain has been locked for requalify_ms (R189, R190). -/
def requalifyExpiry (i : Nat) (d : Device) : Device :=
  if d.domLocked i then (d.setDom i { d.dom i with qual := true }).timeEval else d

/-- A change of the SyncE reference (R192, Table 6-10): off when tracking is disabled, acquiring when it is enabled or another port is named. -/
def Device.newSynce (d old : Device) : Device :=
  let on := d.on TIM_SYNCE_CTL.enable 0
  if on && old.on TIM_SYNCE_CTL.enable 0 && d.rd TIM_SYNCE_CTL.ref_port 0 == old.rd TIM_SYNCE_CTL.ref_port 0 then d
  else (d.wr TIM_SYNCE_CTL.state 0 (b2n on)).wr TIM_STAT.synce_locked 0 0

/-- An ESMC message on the reference port (R192). -/
def esmcRx (port ssm : Nat) (d : Device) : Device :=
  if d.isX || !d.on TIM_SYNCE_CTL.enable 0 || d.rd TIM_SYNCE_CTL.ref_port 0 ≠ port then d
  else
    let d := d.wr TIM_SYNCE_CTL.ssm 0 ssm
    if ssm = 15 then
      (d.wr TIM_SYNCE_CTL.state 0 (if d.rd TIM_SYNCE_CTL.state 0 = 2 then 3 else d.rd TIM_SYNCE_CTL.state 0)).wr
        TIM_STAT.synce_locked 0 0
    else (d.wr TIM_SYNCE_CTL.state 0 2).wr TIM_STAT.synce_locked 0 1

/-- No ESMC message for 5 s: the reference no longer qualifies (R192). -/
def synceQualTimeout (d : Device) : Device :=
  if d.rd TIM_SYNCE_CTL.state 0 = 2 || d.rd TIM_SYNCE_CTL.state 0 = 1 then
    (d.wr TIM_SYNCE_CTL.state 0 3).wr TIM_STAT.synce_locked 0 0
  else d

/-- TREF lost for 1 µs: doubt sets (R190, R520). -/
def trefLoss (d : Device) : Device :=
  { d with timing := { d.timing with trefBad := true, trefQual := false } }.setDoubt.announce

/-- TREF is back: doubt may clear once it has been good for requalify_ms (R520), which the next requalification event shows. -/
def trefReturn (d : Device) : Device :=
  if d.timing.trefBad then
    let d := { d with timing := { d.timing with trefBad := false, trefQual := true } }
    [0, 1].foldl (fun d i => d.setDom i { d.dom i with qual := false }) d
  else d

/-! ### Pulse outputs -/

/-- Whether a pulse output is held low (R29, R198, R464): outputs safe, the link gone, or squelch in doubt. -/
def Device.pulseHeld (d : Device) (n : Nat) : Bool :=
  d.outputsSafe || d.pwr.linkDown || d.pwr.perst || (d.on TIM_PPS_CTL.squelch n && d.on TIM_STAT.doubt 0)

/-- A write to TIM_PPS_CTLn (R197, R198): while enable is 1 only the enable bit changes; an enable is refused for a zero width or one that
fills the period. -/
def ppsEnable (fn n value : Nat) (d : Device) : Device :=
  if (smGet d.tens fn {}).d3hot then d
  else if fn ≠ 0 then d.hostErr (0xD00600 + 0x20 * n) 0
  else
    let was := d.on TIM_PPS_CTL.enable n
    let d :=
      if was then d
      else
        let miss := d.on TIM_PPS_CTL.missed n && !bit value 7
        d.setReg .TIM_PPS_CTL n (BitVec.ofNat 64 (value - value % 256 - (bits value 11 8) <<< 8 + (b2n miss) <<< 7 +
          (bits value 6 5) <<< 5 + (bits value 1 1) <<< 1))
    if !bit value 0 then
      let p := smGet d.timing.pulses n {}
      (d.wr TIM_PPS_CTL.enable n 0).setPulse n { p with armed := false, high := false, level := false }
    else if was then d
    else
      let w := d.rd TIM_PPS_CTL.width_ns n
      let per := d.on TIM_PPS_CTL.periodic n
      if w = 0 || (per && decide (d.rd TIM_PPS_CTL.period_ns n ≤ w)) then d
      else
        let d := d.wr TIM_PPS_CTL.enable n 1
        let start := d.pulseStart n
        let soonest : Int := (d.time : Int) + usT
        if per then d.setPulse n { armed := true, next := d.gridEdge n soonest }
        else if soonest ≤ start then d.setPulse n { armed := true, next := start.toNat }
        else (d.wr TIM_PPS_CTL.missed n 1).setPulse n {}

/-- The next edge of a pulse output: rising at its scheduled time, falling width_ns later (R197, R198). -/
def pulseEdge (n : Nat) (d : Device) : Device :=
  let p := smGet d.timing.pulses n {}
  if p.high then
    if d.time < p.fall then d
    else
      let d := if p.level then { d with sent := .pulse n false p.fall :: d.sent } else d
      d.setPulse n { p with high := false, level := false }
  else if !p.armed || decide (d.time < p.next) then d
  else
    let drive := !d.pulseHeld n
    let d := if drive then { d with sent := .pulse n true p.next :: d.sent } else d
    let per := d.on TIM_PPS_CTL.periodic n
    d.setPulse n { armed := per, next := if per then p.next + 144 * d.rd TIM_PPS_CTL.period_ns n else p.next, high := true,
                   fall := p.next + 144 * d.rd TIM_PPS_CTL.width_ns n, level := drive }

/-! ### Capture inputs and PPS_IN -/

/-- The capture registers of an input show its oldest entry (R200). -/
def Device.showCap (d : Device) (n : Nat) : Device :=
  let f := smGet d.timing.fifos n []
  let d := d.wr TIM_CAP_CTL.count n f.length
  match f with
  | [] => (d.setReg .TIM_CAP_S n 0).setReg .TIM_CAP_NS n 0
  | s :: _ =>
    let d := (((d.wr TIM_CAP_S.valid n 1).wr TIM_CAP_S.falling n (b2n s.falling)).wr TIM_CAP_S.step_gen n s.gen).wr
      TIM_CAP_S.seconds n (s.time / secT)
    (d.wr TIM_CAP_NS.ns n (s.time % secT / 144)).wr TIM_CAP_NS.frac n (s.time % 144 / 9)

/-- A qualified edge on CAPn (R199). -/
def captureEdge (n : Nat) (falling : Bool) (d : Device) : Device :=
  let e := d.rd TIM_CAP_CTL.edges n
  if !(if falling then bit e 1 else bit e 0) then d
  else
    let soon := match d.timing.capLast.find? fun x => x.1 == n with
      | some x => decide (d.cycle < x.2 + 180)
      | none => false
    let f := smGet d.timing.fifos n []
    if soon then d.incSat TIM_CAP_CTL.rejected n 1
    else
      let d := { d with timing := { d.timing with capLast := smIns d.timing.capLast n d.cycle } }
      if 16 ≤ f.length then d.incSat TIM_CAP_CTL.overflows n 1
      else
        let s : Stamp := ⟨falling, d.rd TIM_STAT.steps 0 % 64, d.time⟩
        { d with timing := { d.timing with fifos := smSet d.timing.fifos n [] (f ++ [s]) } }.showCap n

/-- A read of TIM_CAP_NSn answers the oldest entry's nanoseconds and removes it (R200). -/
def capNsRead (fn n : Nat) (d : Device) : Device :=
  if (smGet d.tens fn {}).d3hot then d
  else
    let f := smGet d.timing.fifos n []
    let d := { d with sent := .readAnswer fn (0xD00710 + 0x20 * n) 8 (d.reg .TIM_CAP_NS n).toNat :: d.sent }
    { d with timing := { d.timing with fifos := smSet d.timing.fifos n [] f.tail } }.showCap n

/-- A PPS_IN rising edge (R199, R201, R202): too short, too soon, or accepted. With a domain whose source is PPS_IN an accepted edge marks the start of second
TIM_TOD_NEXT, or of the second after the one before it, and gives that domain one update. -/
def ppsInEdge (held : Bool) (d : Device) : Device :=
  if !held then d.incSat TIM_PPSIN_STAT.glitches 0 1
  else
    let soon := match d.timing.ppsLast with
      | some t => decide (d.cycle < t + 900000000)
      | none => false
    if soon then d.incSat TIM_PPSIN_STAT.rejected 0 1
    else
      let d := { d with timing := { d.timing with ppsLast := some d.cycle } }
      if !([0, 1].any fun i => d.rd TIM_DOM_CFG.source i == 4) then d
      else
      let fresh := d.timing.todFresh
      let sec := if fresh then d.rd TIM_TOD_NEXT.seconds 0 else d.timing.todPrev + 1
      let d := if fresh then d else d.incSat TIM_PPSIN_STAT.tod_assumed 0 1
      let d := { d with timing := { d.timing with todFresh := false, todPrev := sec } }
      let edge : Int := (d.time : Int) - (144 * d.rd TIM_TOD_NEXT.delay_ns 0 : Nat)
      let off := (((sec * secT : Nat) : Int) - edge) / 144
      [0, 1].foldl (fun d i => if d.rd TIM_DOM_CFG.source i = 4 then domainUpdate i off 0 d else d) d

/-- A slot of numerology mu starts: device time is at its boundary, and the slot counts advance (R193, R194). -/
def Device.toSlot (d : Device) (mu : Nat) : Device :=
  let next := d.slotStart mu (d.slotCount mu + 1)
  let n := (next - d.time).toNat
  { d with cycle := d.cycle + n / 80 }.setTime (d.time + n)

end Sys2Proof.Machine
end

