-- ==== Sys2Proof/Machine/Cross.lean ====
section
/-! DEFINITION. CROSS commands: declaration, crossing, release, the flip and the abort of a crossing (R277–R284). -/

namespace Sys2Proof.Machine

/-- Operation fields of a CROSS entry (Table 4-12). -/
def xIdx (e : List Byte) : Nat := leAt e 28 4
def xDest (e : List Byte) : Nat := leAt e 32 8
def xLen (e : List Byte) : Nat := leAt e 40 8

/-- Detail of ECC_UNCORR: fault-record index, unit, leg (Table 4-14). -/
def eccDetail (idx unit leg : Nat) : Nat := idx % 65536 + unit <<< 16 + leg <<< 32

/-- Whether a CROSS touches tier 2 before its fill has ended: it does not start (R293). -/
def Device.crossTier2 (d : Device) (t : Nat) (e : List Byte) : Bool :=
  !d.on MEM_FILL_STAT.t2_done 0 &&
  ((d.isLocal (xDest e) && xDest e != 0 && gaSp (xDest e) == 1) ||
   (decide (xIdx e < d.rd MEM_LAND_CFG.count t) && d.landState t (xIdx e) != 0 && gaSp (d.landHome t (xIdx e)) == 1))

/-- A declaration (R278): pages Plain or Vacated become Landed; with hash set the hash engine reads the tensor first. -/
def crossDeclareOp (d : Device) (c : Cmd) : Device :=
  let e := c.entry
  let i := xIdx e
  let dest := xDest e
  let len := xLen e
  if !landAligned dest then d.finish c.sn stFault dest none
  else if !(d.isLocal dest && (decide (gaSp dest ≤ 2) || gaSp dest == 8)) then d.finish c.sn stFault dest none
  else
    match d.physPages c.ten dest len with
    | .inr ga => d.finish c.sn stFault ga none
    | .inl ps =>
      if ps.any d.sealed then d.finish c.sn stDenied (denied 0x0D 0 0) none
      else if gaSp dest == 8 && (d.hostCrossing c.ten (gaOff dest) len 0).isSome then d.finish c.sn stFault dest none
      else
        match ps.zipIdx.find? fun p => d.pageState p.1 != pgPlain && d.pageState p.1 != pgVacated with
        | some p => d.finish c.sn stFault (dest + pageSize * p.2) none
        | none =>
          let d := d.setPages ps pgLanded
          let hash := d.on MEM_LAND_CFG.hash c.ten
          let d := d.landWrite c.ten i (if hash then 3 else 1) (d.homeFlags dest) 0xFFFF dest len 0 (d.step c.ten)
          if hash then { d with mm := { d.mm with hashing := d.mm.hashing ++ [(c.ten, i, c.sn)] } }
          else d.finish c.sn stOk 0 none

/-- A release: the pages become Plain and the entry free (R278); a weight-listed landing is not released (R433). -/
def crossReleaseOp (d : Device) (c : Cmd) : Device :=
  let i := xIdx c.entry
  match d.physPages c.ten (d.landHome c.ten i) (d.landLen c.ten i) with
  | .inr ga => d.finish c.sn stFault ga none
  | .inl ps =>
    if ps.any d.sealed || (smGet d.det c.ten {}).wlist.contains i then d.finish c.sn stDenied (denied 0x0D 0 0) none
    else ((d.setPages ps pgPlain).landFree c.ten i).finish c.sn stOk 0 none

/-- A crossing starts: the entry records the destination and takes state crossing, and the transfer waits for a channel (R279). -/
def crossMoveOp (d : Device) (c : Cmd) : Device :=
  let e := c.entry
  let i := xIdx e
  let dest := xDest e
  let home := d.landHome c.ten i
  let len := d.landLen c.ten i
  if !landAligned dest || !(decide (gaSp dest ≤ 2) || gaSp dest == 8) then d.finish c.sn stFault dest none
  else
    match d.physPages c.ten home len with
    | .inr ga => d.finish c.sn stFault ga none
    | .inl ps =>
      let dps := match d.physPages c.ten dest len with
        | .inl qs => qs
        | .inr _ => []
      if ps.any d.sealed || dps.any d.sealed then d.finish c.sn stDenied (denied 0x0D 0 0) none
      else
        let d := d.landWrite c.ten i 2 (d.landFlags c.ten i) 0xFFFF home len dest (d.peekN spT1 (d.landAt c.ten i + 32) 8)
        d.queueXfer { kind := 0, sn := c.sn, queue := c.queue, ten := c.ten, cls := eClass e, client := eClient e,
                      step := d.cmdStep c.ten (eClass e), mid := 0, src := home, dst := dest, len := len, chunk := chunkSize home dest,
                      entry := i }

/-- The operation Table 9-6 selects; a command on an entry that is crossing or declaring waits (R277). -/
def crossEval (d : Device) (c : Cmd) : Device :=
  let e := c.entry
  let i := xIdx e
  let lf := d.finish c.sn stFault (d.landFault i) none
  if d.rd MEM_LAND_CFG.count c.ten ≤ i then lf
  else
    let st := d.landState c.ten i
    if st = 2 || st = 3 then { d with mm := { d.mm with crossWait := d.mm.crossWait ++ [c.sn] } }
    else if st = 0 then (if xDest e ≠ 0 && decide (1 ≤ xLen e) then crossDeclareOp d c else lf)
    else if xDest e = 0 then (if xLen e = 0 then crossReleaseOp d c else lf)
    else if xLen e = d.landLen c.ten i then crossMoveOp d c
    else lf

/-- Which of the three rows an entry is: by the destination and the landing entry's state. -/
def crossKind (d : Device) (q : Nat) (e : List Byte) : Nat :=
  if xDest e = 0 then 2
  else if decide (xIdx e < d.rd MEM_LAND_CFG.count (d.qTen q)) && d.landState (d.qTen q) (xIdx e) != 0 then 1 else 0

/-- A CROSS command of one of the three kinds starts. -/
def crossCmd (kind q : Nat) (d : Device) : Device :=
  d.begin q 0x02 (fun e => crossKind d q e == kind && !d.crossTier2 (d.qTen q) e) crossEval

def crossDeclare (q : Nat) (d : Device) : Device := crossCmd 0 q d
def crossCrossing (q : Nat) (d : Device) : Device := crossCmd 1 q d
def crossRelease (q : Nat) (d : Device) : Device := crossCmd 2 q d

/-- CROSS commands that waited for an entry are evaluated again, in order (R277). -/
def Device.crossAgain (d : Device) : Device :=
  let ws := d.mm.crossWait
  let d := { d with mm := { d.mm with crossWait := [] } }
  ws.foldl (fun d sn =>
    match d.cmd? sn with
    | some c => crossEval d c
    | none => d) d

/-- Pages, and ranges in space 8, of the landings a tenancy's committed weight list names (R433). -/
def Device.refreshWeights (d : Device) (t : Nat) : Device :=
  let c := smGet d.det t {}
  let pages := c.wlist.flatMap fun i =>
    match d.physPages t (d.landHome t i) (d.landLen t i) with
    | .inl ps => ps
    | .inr _ => []
  let ranges := (c.wlist.filter fun i => gaSp (d.landHome t i) == 8).map fun i => (gaOff (d.landHome t i), d.landLen t i)
  { d with det := smSet d.det t {} { c with wpages := pages, wranges := ranges } }

/-- The flip of a local crossing (R279 step 3): held writes apply to the new landing, destination pages Landed, source pages
Vacated, the entry at its new home. -/
def Device.flip (d : Device) (ch : Nat) (x : Xfer) : Device :=
  let t := x.ten
  let i := x.entry
  let d := d.setPages x.arriving pgLanded
  let d := d.setPages x.departing pgVacated
  let d := d.landWrite t i 1 (d.landFlags t i &&& 1 ||| d.homeFlags x.dst) 0xFFFF x.dst x.len 0 (d.step t)
  let d := d.releaseHeld ch fun ga => if inRange ga x.src x.len then x.dst + (ga - x.src) else ga
  let d := (d.dropChan ch).refreshWeights t
  (d.finish x.sn stOk x.len none).crossAgain

/-- The abort of a crossing (R281): destination pages Plain with unspecified contents, source pages Landed, held accesses met
again in arrival order, the entry at its old home. -/
def Device.abortCross (d : Device) (ch : Nat) (x : Xfer) (st detail : Nat) : Device :=
  let t := x.ten
  let i := x.entry
  let d := x.arriving.foldl (fun d p => (d.setPage p pgPlain).scramble (p / 2 ^ 20) (p % 2 ^ 20 * pageSize) pageSize) d
  let d := d.setPages x.departing pgLanded
  let d := d.landWrite t i 1 (d.landFlags t i) 0xFFFF x.src x.len 0 (d.peekN spT1 (d.landAt t i + 32) 8)
  let d := d.releaseHeld ch id
  let d := d.dropChan ch
  (d.finish x.sn st detail none).crossAgain

/-- The hash engine finishes the declaration it works on: digest, valid flag, state landed (R278); or undoes it where its read
faults or meets an uncorrectable error. -/
def declarationDigestDone (d : Device) : Device :=
  match d.mm.hashing with
  | [] => d
  | (t, i, sn) :: rest =>
    let home := d.landHome t i
    let len := d.landLen t i
    let ps := match d.physPages t home len with
      | .inl ps => ps
      | .inr _ => []
    let undo (d : Device) (st det : Nat) : Device :=
      (((d.setPages ps pgPlain).landFree t i).finish sn st det none).crossAgain
    let popped := { d with mm := { d.mm with hashing := rest } }
    match d.readGA t home len with
    | .waits => d
    | .fault ga => undo popped stFault ga
    | .poison _ =>
      let idx := d.nextRec
      undo (popped.uncorr (unitOf 6 0x012) 2 { unit := 0, sev := 2, op := 0x02 }) stEcc (eccDetail idx (unitOf 6 0x012) 0xFFFF)
    | .ok bs =>
      let d := popped.poke devKey spT1 (popped.landAt t i + 64) (sha512 bs)
      let d := d.pokeN spT1 (d.landAt t i + 1) 1 (d.landFlags t i ||| 1)
      let d := d.pokeN spT1 (d.landAt t i) 1 1
      (d.finish sn stOk 0 none).crossAgain

end Sys2Proof.Machine
end

