-- ==== Sys2Proof/Machine/Flags.lean ====
section
/-! DEFINITION. The arithmetic condition flags of COR_ARITH_STAT (Table 3-11, R82, R110), as a bit mask in the register's
bit order, and results that carry them. -/

namespace Sys2Proof.Machine

/-- A float result was tiny (R80). -/
def flSub : Nat := 0x001
/-- A NaN operand or NaN block was read, or a NaN became 0 on conversion. -/
def flNanIn : Nat := 0x002
/-- A NaN was produced from non-NaN operands. -/
def flNanMade : Nat := 0x004
/-- A float result overflowed to infinity. -/
def flInf : Nat := 0x008
/-- A conversion to a format without infinity, or of any MX element, saturated. -/
def flFmtSat : Nat := 0x010
/-- An INT32, INT16 or INT8 result saturated. -/
def flIntSat : Nat := 0x020
/-- A CBF16 accumulator saturated. -/
def flAcc40 : Nat := 0x040
/-- A CBF16 exponent record was clamped (R92). -/
def flCbfExp : Nat := 0x080
/-- A CBF16 mantissa was limited to ±32,767. -/
def flMantSat : Nat := 0x100
/-- A division saturated or had a zero divisor. -/
def flDivSat : Nat := 0x200
/-- A row statistic gave σ = infinity or NaN. -/
def flRsqrt : Nat := 0x400

/-- A result with the flags it raises. -/
structure Res (α : Type) where
  val : α
  fl : Nat
  deriving DecidableEq, Repr

/-- Union of flags. -/
def Res.or {α : Type} (r : Res α) (f : Nat) : Res α := ⟨r.val, r.fl ||| f⟩

/-- Results of a list, with the union of their flags. -/
def Res.gather {α : Type} (rs : List (Res α)) : Res (List α) :=
  ⟨rs.map Res.val, rs.foldl (fun a r => a ||| r.fl) 0⟩

end Sys2Proof.Machine
end

