-- ==== Sys2Proof/Machine/Formats.lean ====
section
/-! DEFINITION. Element formats (Table 3-1), exact values, and the one rounding rule RNE (R73–R83). -/

namespace Sys2Proof.Machine

/-- A binary float format: exponent bits, mantissa bits, bias, whether it has infinity, and whether it has NaN. -/
structure FFmt where
  ebits : Nat
  mbits : Nat
  bias : Nat
  hasInf : Bool
  hasNan : Bool
  deriving DecidableEq, Repr

def fp32 : FFmt := ⟨8, 23, 127, true, true⟩
def fp16 : FFmt := ⟨5, 10, 15, true, true⟩
def bf16 : FFmt := ⟨8, 7, 127, true, true⟩
/-- FP8 E4M3: no infinity; NaN is S.1111.111. -/
def e4m3 : FFmt := ⟨4, 3, 7, false, true⟩
def e5m2 : FFmt := ⟨5, 2, 15, true, true⟩
def e2m3 : FFmt := ⟨2, 3, 1, false, false⟩
def e3m2 : FFmt := ⟨3, 2, 3, false, false⟩
def e2m1 : FFmt := ⟨2, 1, 1, false, false⟩

/-- Total width of a format in bits. -/
def FFmt.width (f : FFmt) : Nat := 1 + f.ebits + f.mbits

/-- Exponent of the least significant subnormal bit. -/
def FFmt.lsbMin (f : FFmt) : Int := 1 - (f.bias : Int) - f.mbits

/-- Code of the largest finite magnitude (Table 3-1). -/
def FFmt.maxFinite (f : FFmt) : Nat :=
  if f.hasInf then ((2 ^ f.ebits - 1) <<< f.mbits) - 1
  else if f.hasNan then 2 ^ (f.ebits + f.mbits) - 2
  else 2 ^ (f.ebits + f.mbits) - 1

/-- Canonical NaN of a format (R81). -/
def FFmt.nan (f : FFmt) : Nat :=
  if f = e5m2 then 0x7F
  else if f.hasInf then ((2 ^ f.ebits - 1) <<< f.mbits) ||| (1 <<< (f.mbits - 1))
  else 2 ^ (f.ebits + f.mbits) - 1

/-- Exact value of an element: NaN, a signed infinity, or a signed magnitude `m · 2^e`. -/
inductive FV where
  | nan
  | inf (neg : Bool)
  | fin (neg : Bool) (m : Nat) (e : Int)
  deriving DecidableEq, Repr

/-- The value of an element code (R73); subnormals are exact (R80). -/
def FFmt.decode (f : FFmt) (x : Nat) : FV :=
  let neg := bit x (f.ebits + f.mbits)
  let ex := bits x (f.ebits + f.mbits - 1) f.mbits
  let mn := x % 2 ^ f.mbits
  if f.hasInf && ex == 2 ^ f.ebits - 1 then (if mn = 0 then .inf neg else .nan)
  else if !f.hasInf && f.hasNan && x % 2 ^ (f.ebits + f.mbits) == 2 ^ (f.ebits + f.mbits) - 1 then .nan
  else if ex = 0 then .fin neg mn f.lsbMin
  else .fin neg (mn + 2 ^ f.mbits) (f.lsbMin + ex - 1)

/-- RNE of a nonnegative `m · 2^e` (plus a positive amount below one unit of `m` when `sticky`) to a multiple of
2^lsb. -/
def rneAt (m : Nat) (e lsb : Int) (sticky : Bool) : Nat :=
  if lsb ≤ e then m <<< (e - lsb).toNat
  else
    let d := (lsb - e).toNat
    let q := m >>> d
    let r := m % 2 ^ d
    let half := 2 ^ (d - 1)
    if r > half || (r = half && (sticky || q % 2 = 1)) then q + 1 else q

/-- Sign bit of a format. -/
def FFmt.signed (f : FFmt) (neg : Bool) (x : Nat) : Nat := x + b2n neg <<< (f.ebits + f.mbits)

/-- Rounding of a nonzero exact magnitude to `p` mantissa bits of a format (p = mbits, but for the seeds), once, by RNE
(R79, R80, R83). -/
def FFmt.roundP (f : FFmt) (p : Nat) (neg : Bool) (m : Nat) (e : Int) (sticky : Bool) : Res Nat :=
  let top : Int := e + (Nat.log2 m : Nat)
  let lsb := max (top - p) f.lsbMin
  let q := rneAt m e lsb sticky
  -- the same value in units of the format's own mantissa
  let sh := (max (top - f.mbits) f.lsbMin)
  let q' := if sh ≤ lsb then q <<< (lsb - sh).toNat else q
  let biased := (sh - f.lsbMin).toNat + 1
  let code := ((biased - 1) <<< f.mbits) + q'
  let tiny := if top < 1 - (f.bias : Int) then flSub else 0
  if code > f.maxFinite then
    if f.hasInf then ⟨f.signed neg ((2 ^ f.ebits - 1) <<< f.mbits), flInf⟩
    else ⟨f.signed neg f.maxFinite, flFmtSat⟩
  else ⟨f.signed neg code, tiny⟩

/-- RNE of an exact value to a format (R79–R83); a NaN gives the canonical NaN, or 0 with `nan_in` where the format has
none. -/
def FFmt.round (f : FFmt) : FV → Res Nat
  | .nan => if f.hasNan then ⟨f.nan, 0⟩ else ⟨0, flNanIn⟩
  | .inf neg =>
    if f.hasInf then ⟨f.signed neg ((2 ^ f.ebits - 1) <<< f.mbits), 0⟩ else ⟨f.signed neg f.maxFinite, flFmtSat⟩
  | .fin neg m e => if m = 0 then ⟨f.signed neg 0, 0⟩ else f.roundP f.mbits neg m e false

/-- Sign of a value. -/
def FV.neg : FV → Bool
  | .nan => false
  | .inf n => n
  | .fin n _ _ => n

/-- NaN test. -/
def FV.isNan : FV → Bool
  | .nan => true
  | _ => false

/-- Infinity test. -/
def FV.isInf : FV → Bool
  | .inf _ => true
  | _ => false

/-- Zero test. -/
def FV.isZero : FV → Bool
  | .fin _ 0 _ => true
  | _ => false

/-- Exact product (R81: infinity × 0 is NaN), with the flags a NaN raises. -/
def FV.mul : FV → FV → Res FV
  | .nan, _ => ⟨.nan, flNanIn⟩
  | _, .nan => ⟨.nan, flNanIn⟩
  | .inf a, .inf b => ⟨.inf (a != b), 0⟩
  | .inf a, .fin b m _ => if m = 0 then ⟨.nan, flNanMade⟩ else ⟨.inf (a != b), 0⟩
  | .fin a m _, .inf b => if m = 0 then ⟨.nan, flNanMade⟩ else ⟨.inf (a != b), 0⟩
  | .fin a m e, .fin b m' e' => ⟨.fin (a != b) (m * m') (e + e'), 0⟩

/-- Signed integer coefficient of a finite value at exponent `e0`. -/
def FV.coeff (e0 : Int) : FV → Int
  | .fin n m e => let c : Int := ((m <<< (e - e0).toNat : Nat) : Int); if n then -c else c
  | _ => 0

/-- Exponent of a finite value. -/
def FV.expo : FV → Option Int
  | .fin _ m e => if m = 0 then none else some e
  | _ => none

/-- Exact sum of terms (R81, R84): NaN if a term is NaN or infinities of both signs meet; an exactly zero sum is +0
unless every term is −0. -/
def FV.sum (ts : List FV) : Res FV :=
  if ts.any FV.isNan then ⟨.nan, 0⟩
  else if ts.any FV.isInf then
    let infs := ts.filter FV.isInf
    if infs.any FV.neg && infs.any (fun t => !t.neg) then ⟨.nan, flNanMade⟩
    else ⟨.inf (infs.any FV.neg), 0⟩
  else
    let es := ts.filterMap FV.expo
    match es with
    | [] => ⟨.fin (!ts.isEmpty && ts.all FV.neg) 0 0, 0⟩
    | e :: rest =>
      let e0 := rest.foldl min e
      let c : Int := ts.foldl (fun a t => a + t.coeff e0) 0
      ⟨.fin (decide (c < 0)) c.natAbs e0, 0⟩

/-- FP32 code of an exact sum of products of FP32-or-narrower operands, rounded once. -/
def fmaRound (prods : List (Res FV)) (add : List FV) : Res Nat :=
  let fl := prods.foldl (fun a r => a ||| r.fl) 0
  let nanIn := if add.any FV.isNan then flNanIn else 0
  let s := FV.sum (prods.map Res.val ++ add)
  (fp32.round s.val).or (fl ||| nanIn ||| s.fl)

/-- FP32 add, multiply and fused multiply-add, each with one RNE (Table 3-3). -/
def fAdd (a b : Nat) : Res Nat :=
  let x := fp32.decode a
  let y := fp32.decode b
  fmaRound [] [x, y]

def fMul (a b : Nat) : Res Nat :=
  let p := (fp32.decode a).mul (fp32.decode b)
  (fp32.round p.val).or p.fl

def fFma (f : FFmt) (a b c : Nat) : Res Nat := fmaRound [(f.decode a).mul (f.decode b)] [fp32.decode c]

/-- `rne_shr(v, d)`: v / 2^d rounded by RNE to an integer; a negative d shifts left exactly (R86). -/
def rneShr (v d : Int) : Int :=
  if d ≤ 0 then v * (2 ^ (-d).toNat : Nat)
  else
    let q := rneAt v.natAbs 0 d false
    if v < 0 then -(q : Int) else q

/-- Saturation of an integer to the range `lo` to `hi`, raising `fl` when it acts. -/
def satInt (lo hi : Int) (fl : Nat) (x : Int) : Res Int :=
  if x < lo then ⟨lo, fl⟩ else if hi < x then ⟨hi, fl⟩ else ⟨x, 0⟩

def sat32 : Int → Res Int := satInt (-2147483648) 2147483647 flIntSat
def sat16 : Int → Res Int := satInt (-32768) 32767 flIntSat
/-- The INT8 group saturates to ±127 (Table 3-3). -/
def sat8 : Int → Res Int := satInt (-127) 127 flIntSat
/-- A conversion to INT8 saturates to the largest finite magnitude with the input's sign (R83, Table 3-1). -/
def sat40 : Int → Res Int := satInt (-(2 ^ 39)) (2 ^ 39 - 1) flAcc40
/-- A CBF16 mantissa never holds −32,768 (R78). -/
def satMant : Int → Res Int := satInt (-32767) 32767 flMantSat

/-- RNE of an exact value to an integer with saturation; a NaN becomes 0 with `nan_in` (R83). -/
def FV.toInt (v : FV) (lo hi : Int) (fl : Nat) : Res Int :=
  match v with
  | .nan => ⟨0, flNanIn⟩
  | .inf n => ⟨if n then lo else hi, fl⟩
  | .fin n m e =>
    let q : Int := (rneAt m e 0 false : Nat)
    satInt lo hi fl (if n then -q else q)

/-- Bit length of a signed integer (R88). -/
def bitLen (x : Int) : Nat :=
  let y := if x < 0 then (-x - 1).toNat else x.toNat
  if y = 0 then 0 else Nat.log2 y + 1

/-- Exact value of a signed integer at exponent `e`. -/
def FV.ofInt (x e : Int) : FV := .fin (decide (x < 0)) x.natAbs e

end Sys2Proof.Machine
end

