-- ==== Sys2Proof/Machine/Transc.lean ====
section
/-! DEFINITION. Correctly rounded values of the exact mathematical functions of the epilogue and the signal lane (R98, R105,
Table 3-3): each value is enclosed between two exact bounds, in growing precision, until both round to the same code. -/

namespace Sys2Proof.Machine

/-- A nonnegative quantity between `lo · 2^-P` and `hi · 2^-P`. -/
structure Iv where
  lo : Nat
  hi : Nat
  deriving DecidableEq, Repr

/-- Product of enclosures at scale `P`. -/
def Iv.mul (P : Nat) (a b : Iv) : Iv := ⟨(a.lo * b.lo) >>> P, ((a.hi * b.hi) >>> P) + 1⟩

/-- Squaring `n` times. -/
def Iv.squares (P : Nat) : Nat → Iv → Iv
  | 0, a => a
  | n + 1, a => Iv.squares P n (a.mul P a)

/-- Taylor terms of e^y for 0 ≤ y ≤ 1, `n` of them, with the last term doubled into the upper bound. -/
def expTerms (P : Nat) (y : Iv) : Nat → Nat → Iv → Iv → Iv
  | 0, _, term, acc => ⟨acc.lo, acc.hi + 2 * term.hi + 1⟩
  | n + 1, k, term, acc =>
    let t : Iv := ⟨((term.lo * y.lo) >>> P) / k, ((term.hi * y.hi) >>> P) / k + 2⟩
    expTerms P y n (k + 1) t ⟨acc.lo + t.lo, acc.hi + t.hi⟩

/-- e^x for an enclosed 0 ≤ x < 256: e^(x / 256) by its series, squared eight times. -/
def expIv (P : Nat) (x : Iv) : Iv :=
  let y : Iv := ⟨x.lo >>> 8, (x.hi >>> 8) + 1⟩
  Iv.squares P 8 (expTerms P y (20 + P / 4) 1 ⟨2 ^ P, 2 ^ P⟩ ⟨2 ^ P, 2 ^ P⟩)

/-- Enclosure of the magnitude of a finite value at scale `P`. -/
def magIv (P m : Nat) (e : Int) : Iv :=
  let s := e + P
  if 0 ≤ s then ⟨m <<< s.toNat, m <<< s.toNat⟩ else ⟨m >>> (-s).toNat, (m >>> (-s).toNat) + 1⟩

/-- 1 / (1 + e^-z) for z = ±|z| with |z| below 256: from an enclosure of |z|. -/
def sigmoidIv (P : Nat) (neg : Bool) (z : Iv) : Iv :=
  let one := 2 ^ P
  let x := expIv P z
  if neg then ⟨one * one / (x.hi + one), one * one / (x.lo + one) + 1⟩
  else ⟨x.lo * one / (x.lo + one), min one (x.hi * one / (x.hi + one) + 1)⟩

/-- tanh |z| for |z| below 128, from an enclosure of |z|. -/
def tanhIv (P : Nat) (z : Iv) : Iv :=
  let one := 2 ^ P
  let x := expIv P ⟨2 * z.lo, 2 * z.hi⟩
  ⟨(x.lo - one) * one / (x.lo + one), min one ((x.hi - one) * one / (x.hi + one) + 1)⟩

/-- Terms of ln 2 = Σ 1 / (k 2^k). -/
def ln2Terms (P : Nat) : Nat → Nat → Nat → Nat
  | 0, _, acc => acc
  | n + 1, k, acc => ln2Terms P n (k + 1) (acc + ((2 ^ P) >>> k) / k)

/-- ln 2. -/
def ln2Iv (P : Nat) : Iv :=
  let s := ln2Terms P P 1 0
  ⟨s, s + P + 2⟩

/-- The code both ends of an enclosure round to, if they agree in code and flags; `neg` is the sign and `e` the exponent of the
enclosure's unit. An end of 0 stands for an arbitrarily small positive value. -/
def agree (f : FFmt) (p : Nat) (neg : Bool) (e : Int) (v : Iv) : Option (Res Nat) :=
  let a := if v.lo = 0 then f.roundP p neg 1 (e - 4096) true else f.roundP p neg v.lo e false
  let b := if v.hi = 0 then f.roundP p neg 1 (e - 4096) true else f.roundP p neg v.hi e false
  if a = b then some a else none

/-- Code of a nonzero product m · 2^e that falls short of its exact value by less than 2^-300 of it. -/
def justBelow (f : FFmt) (neg : Bool) (m : Nat) (e : Int) : Res Nat := f.roundP f.mbits neg (m <<< 64 - 1) (e - 64) true

/-- Code of a nonzero value far below every format's subnormal range. -/
def vanishing (f : FFmt) (neg : Bool) : Res Nat := f.roundP f.mbits neg 1 (-4096) true

/-- Whether m · 2^e is 2^k or more. -/
def reaches2 (k : Int) (m : Nat) (e : Int) : Bool := decide (k ≤ e + (Nat.log2 m : Nat))

/-- Precision ladder: the first precision at which both ends of the enclosure round alike. The values are transcendental, or roots, and never lie on a midpoint. -/
def decideAt (go : Nat → Option (Res Nat)) : List Nat → Option (Res Nat)
  | [] => none
  | P :: Ps => (go P).orElse fun _ => decideAt go Ps

/-- Working precisions, in bits. -/
def precisions : List Nat := [128, 512, 1024, 2048, 4096]

/-- The value that enclosures at growing precision P, in units of 2^(e-P), close in on, rounded once. Were no precision enough, the lower end of the last would
stand. -/
def closeIn (f : FFmt) (p : Nat) (neg : Bool) (e : Int) (enc : Nat → Iv) : Res Nat :=
  match decideAt (fun P => agree f p neg (e - P) (enc P)) precisions with
  | some r => r
  | none => f.roundP p neg (enc 4096).lo (e - 4096) true

/-- Activation codes of Table 3-8. -/
inductive Act where
  | none | relu | sigmoid | silu | gelu | tanh
  deriving DecidableEq, Repr

/-- |z| for GELU's logistic argument 2 · 0.797884561 · (v + 0.044715 v³), the constants as FP32 (R98). -/
def geluArg (m : Nat) (e : Int) : Nat × Int :=
  -- 0.797884561 = 0x3F4C422A, 0.044715 = 0x3D372713
  let c := (fp32.decode 0x3F4C422A)
  let k := (fp32.decode 0x3D372713)
  match c, k with
  | .fin _ mc ec, .fin _ mk ek =>
    let cube := m * m * m * mk
    let ecube := 3 * e + ek
    let e0 := min e ecube
    let s := (m <<< (e - e0).toNat) + (cube <<< (ecube - e0).toNat)
    (s * mc, e0 + ec + 1)
  | _, _ => (0, 0)

/-- sigmoid(±z) × w for z = zm · 2^ze and w = wm · 2^we, both nonzero, rounded once. From z = 256 on 1 − sigmoid(z) and sigmoid(−z) lie below 2^-369, which leaves
every product of R98 just below w, or below 2^-230. -/
def sigmoidMul (f : FFmt) (zn : Bool) (zm : Nat) (ze : Int) (neg : Bool) (wm : Nat) (we : Int) : Res Nat :=
  if reaches2 8 zm ze then (if zn then vanishing f neg else justBelow f neg wm we)
  else closeIn f f.mbits neg we fun P => let s := sigmoidIv P zn (magIv P zm ze); ⟨s.lo * wm, s.hi * wm⟩

/-- Rounding of act(v) × u for finite nonzero v and finite nonzero u, once to `f` (R98). -/
def actMulRound (a : Act) (f : FFmt) (vn : Bool) (vm : Nat) (ve : Int) (un : Bool) (um : Nat) (ue : Int) : Res Nat :=
  match a with
  | .sigmoid => sigmoidMul f vn vm ve un um ue
  | .silu => sigmoidMul f vn vm ve (vn != un) (vm * um) (ue + ve)
  | .gelu => let z := geluArg vm ve; sigmoidMul f vn z.1 z.2 (vn != un) (vm * um) (ue + ve)
  | .tanh =>
    if reaches2 7 vm ve then justBelow f (vn != un) um ue
    else closeIn f f.mbits (vn != un) ue fun P => let s := tanhIv P (magIv P vm ve); ⟨s.lo * um, s.hi * um⟩
  | _ => f.round (.fin (vn != un) (vm * um) (ve + ue))

/-- The exact value of an activation where it is exact: at special inputs, at zero, for ReLU and for no activation (R98). -/
def actExact (a : Act) (v : FV) : Option FV :=
  match a, v with
  | .none, v => some v
  | _, .nan => some .nan
  | .relu, .inf n => some (if n then .fin false 0 0 else .inf false)
  | .relu, .fin n m e => some (if n || m = 0 then .fin false 0 0 else .fin false m e)
  | .sigmoid, .inf n => some (if n then .fin false 0 0 else .fin false 1 0)
  | .sigmoid, .fin _ m _ => if m = 0 then some (.fin false 1 (-1)) else .none
  | .silu, .inf n => some (if n then .fin true 0 0 else .inf false)
  | .gelu, .inf n => some (if n then .fin true 0 0 else .inf false)
  | .silu, .fin n m _ => if m = 0 then some (.fin n 0 0) else .none
  | .gelu, .fin n m _ => if m = 0 then some (.fin n 0 0) else .none
  | .tanh, .inf n => some (.fin n 1 0)
  | .tanh, .fin n m _ => if m = 0 then some (.fin n 0 0) else .none

/-- Sign of act(v) for finite nonzero v where the value is not exact. -/
def actNeg (a : Act) (vn : Bool) : Bool :=
  match a with
  | .sigmoid => false
  | _ => vn

/-- Steps 6, 7 and 9 to a float format: act(g) × u rounded once (R98). -/
def actMulTo (a : Act) (f : FFmt) (g u : FV) : Res Nat :=
  let inFl := if g.isNan || u.isNan then flNanIn else 0
  match actExact a g with
  | some x =>
    let p := x.mul u
    (f.round p.val).or (inFl ||| p.fl)
  | none =>
    match g, u with
    | .fin gn gm ge, .fin un um ue =>
      if um = 0 then ⟨f.signed (actNeg a gn != un) 0, inFl⟩ else (actMulRound a f gn gm ge un um ue).or inFl
    | .fin gn _ _, .inf un => (f.round (.inf (actNeg a gn != un))).or inFl
    | _, _ => (f.round .nan).or inFl

/-- 1/√(m · 2^e), rounded once by RNE with `p` mantissa bits; `m` nonzero (R105, Table 3-3). -/
def rsqrtRound (p m : Nat) (e : Int) : Res Nat :=
  let m' := if e % 2 = 0 then m else 2 * m
  let e' := if e % 2 = 0 then e else e - 1
  let n := 2 ^ 600 / m'
  let q := Nat.sqrt n
  fp32.roundP p false q (-300 - e' / 2) (decide (q * q * m' ≠ 2 ^ 600))

/-- Reciprocal of a nonzero finite value, rounded once with `p` mantissa bits. -/
def recipRound (p : Nat) (neg : Bool) (m : Nat) (e : Int) : Res Nat :=
  let q := 2 ^ 400 / m
  fp32.roundP p neg q (-400 - e) (decide (q * m ≠ 2 ^ 400))

/-- 2^x for a finite nonzero x, rounded once with `p` mantissa bits. -/
def exp2Round (p : Nat) (neg : Bool) (m : Nat) (e : Int) : Res Nat :=
  let top : Int := e + (Nat.log2 m : Nat)
  -- beyond ±512 the result overflows or rounds to zero
  if 9 ≤ top then fp32.roundP p false 1 (if neg then -600 else 600) (!neg)
  else
    -- x = k + f with integer k and 0 ≤ f < 1
    let scaled : Int := ((m <<< (e + 200).toNat : Nat) : Int)
    let signed := if neg then -scaled else scaled
    if e < -200 then
      -- |x| below 2^-170: the value lies just above or below 1
      fp32.roundP p false (if neg then 2 ^ 64 - 1 else 2 ^ 64) (-64) true
    else
      let k := signed / (2 ^ 200 : Nat)
      let fr := (signed % (2 ^ 200 : Nat)).toNat
      if fr = 0 then fp32.roundP p false 1 k false
      else
        closeIn fp32 p false k fun P => expIv P ((magIv P fr (-200)).mul P (ln2Iv P))

/-- Mantissa bits of the seeds: 12 significant bits (Table 3-3). -/
def seedBits : Nat := 11

/-- Reciprocal seed; the infinity of a zero is its exact value and no overflow (log 128). -/
def recipSeed (x : Nat) : Res Nat :=
  match fp32.decode x with
  | .nan => ⟨fp32.nan, flNanIn⟩
  | .inf n => ⟨fp32.signed n 0, 0⟩
  | .fin n m e => if m = 0 then ⟨fp32.signed n 0x7F800000, 0⟩ else recipRound seedBits n m e

/-- Reciprocal square-root seed: an invalid square root gives NaN (R81). -/
def rsqrtSeed (x : Nat) : Res Nat :=
  match fp32.decode x with
  | .nan => ⟨fp32.nan, flNanIn⟩
  | .inf n => if n then ⟨fp32.nan, flNanMade⟩ else ⟨0, 0⟩
  | .fin n m e =>
    if m = 0 then ⟨fp32.signed n 0x7F800000, 0⟩
    else if n then ⟨fp32.nan, flNanMade⟩ else rsqrtRound seedBits m e

/-- 2^x seed. -/
def exp2Seed (x : Nat) : Res Nat :=
  match fp32.decode x with
  | .nan => ⟨fp32.nan, flNanIn⟩
  | .inf n => ⟨if n then 0 else 0x7F800000, 0⟩
  | .fin n m e => if m = 0 then ⟨0x3F800000, 0⟩ else exp2Round seedBits n m e

/-- σ of a row statistic from v (R105): +infinity for 0, NaN for a negative or NaN v, both with `rsqrt_domain`. -/
def sigmaOf (v : Nat) : Res Nat :=
  match fp32.decode v with
  | .nan => ⟨fp32.nan, flRsqrt ||| flNanIn⟩
  | .inf n => if n then ⟨fp32.nan, flRsqrt ||| flNanMade⟩ else ⟨0, 0⟩
  | .fin n m e =>
    if m = 0 then ⟨0x7F800000, flRsqrt⟩ else if n then ⟨fp32.nan, flRsqrt ||| flNanMade⟩ else rsqrtRound 23 m e

end Sys2Proof.Machine
end

