-- ==== Sys2Proof/Machine/Arith.lean ====
section
/-! DEFINITION. Cube arithmetic (R84–R86), element access of feeder entries (R73–R77), the epilogue steps (R97–R106, R530), the
W store (R88–R92), division (R93–R96) and the signal-lane operations (Table 3-3), as functions on values. -/

namespace Sys2Proof.Machine

/-- Elements per K-step and per real part (Table 2-2). -/
def CFmt.k : CFmt → Nat
  | .mxfp4 => 32
  | .bf16 => 8
  | .fp16 => 8
  | .cbf16 => 4
  | _ => 16

/-- Width of an element in bits. -/
def CFmt.elemBits : CFmt → Nat
  | .mxfp6e2m3 => 6
  | .mxfp6e3m2 => 6
  | .mxfp4 => 4
  | .bf16 => 16
  | .fp16 => 16
  | .cbf16 => 32
  | _ => 8

/-- Whether the scale field holds an E8M0 block scale. -/
def CFmt.isMx : CFmt → Bool
  | .mxfp8e4m3 => true
  | .mxfp8e5m2 => true
  | .mxfp6e2m3 => true
  | .mxfp6e3m2 => true
  | .mxint8 => true
  | .mxfp4 => true
  | _ => false

/-- Element format of the float pass formats. -/
def CFmt.elem : CFmt → Option FFmt
  | .fp8e4m3 => some e4m3
  | .fp8e5m2 => some e5m2
  | .mxfp8e4m3 => some e4m3
  | .mxfp8e5m2 => some e5m2
  | .mxfp6e2m3 => some e2m3
  | .mxfp6e3m2 => some e3m2
  | .mxfp4 => some e2m1
  | .bf16 => some Sys2Proof.Machine.bf16
  | .fp16 => some Sys2Proof.Machine.fp16
  | _ => none

/-- Element `i` of a feeder entry; sub-byte elements occupy increasing bit positions (R74). DESIGN CHOICE (log 138): of the 16 bytes that a fill gives a queue
(R36) the 16 FP6 elements take the lower 12 (Table 2-2). -/
def Feed.elem (f : CFmt) (x : Feed) (i : Nat) : Nat := bits (le x.data) (f.elemBits * (i + 1) - 1) (f.elemBits * i)

/-- Scaling of an exact value by a power of two. -/
def FV.scale2 (d : Int) : FV → FV
  | .fin n m e => .fin n m (e + d)
  | v => v

/-- Value of float element `i` with its block scale; every element of a NaN block is NaN (R75). -/
def Feed.value (f : CFmt) (ff : FFmt) (x : Feed) (i : Nat) : FV :=
  if f.isMx then
    if x.scale = 0xFF then .nan else (ff.decode (x.elem f i)).scale2 ((x.scale : Int) - 127)
  else ff.decode (x.elem f i)

/-- One K-step of a float format at one position: one rounding of the exact sum with the accumulator (R84). A NaN that the accumulator
already holds is no operand read, so it raises no flag again. -/
def stepFloat (f : CFmt) (ff : FFmt) (first : Bool) (acc : Accu) (a b : Feed) : Res Accu :=
  let prods := (List.range f.k).map fun i => (a.value f ff i).mul (b.value f ff i)
  let sum := FV.sum (prods.map Res.val ++ (if first then [] else [fp32.decode acc.f]))
  let r := fp32.round sum.val
  ⟨{ acc with f := r.val }, prods.foldl (fun fl p => fl ||| p.fl) (r.fl ||| sum.fl)⟩

/-- Sum of 16 products of two's complement bytes. -/
def dot8 (a b : Feed) : Int :=
  ((List.range 16).map fun i => toSigned 8 (a.elem .int8 i) * toSigned 8 (b.elem .int8 i)).foldl (· + ·) 0

/-- One K-step of INT8 (R85). -/
def stepInt8 (first : Bool) (acc : Accu) (a b : Feed) : Res Accu :=
  let t := dot8 a b
  let r := sat32 (if first then t else acc.re + t)
  ⟨{ acc with re := r.val }, r.fl⟩

/-- Aligned accumulation (R86) of one integer part. -/
def alignAdd (sat : Int → Res Int) (first : Bool) (m e t et : Int) : Res Int :=
  if first then ⟨t, 0⟩
  else if e < et then sat (rneShr m (et - e) + t)
  else sat (m + rneShr t (e - et))

/-- One K-step of MXINT8: Table 3-2, and the NaN mark of a NaN block. -/
def stepMxint8 (first : Bool) (acc : Accu) (a b : Feed) : Res Accu :=
  let t := dot8 a b
  let et : Int := (a.scale : Int) + b.scale - 266
  let isNan := a.scale = 0xFF || b.scale = 0xFF
  let r := alignAdd sat32 first acc.re acc.e t et
  ⟨{ acc with re := r.val, e := if first then et else max acc.e et, nan := (!first && acc.nan) || isNan },
   r.fl ||| (if isNan then flNanIn else 0)⟩

/-- Real and imaginary mantissa of complex sample `i` of a CBF16 entry (R77). -/
def Feed.cplx (x : Feed) (i : Nat) : Int × Int :=
  (toSigned 16 (leAt x.data (4 * i) 2), toSigned 16 (leAt x.data (4 * i + 2) 2))

/-- One K-step of CBF16 (R86, Table 3-2). -/
def stepCbf16 (first : Bool) (acc : Accu) (a b : Feed) : Res Accu :=
  let ps := (List.range 4).map fun i => (a.cplx i, b.cplx i)
  let tr := ps.foldl (fun s p => s + (p.1.1 * p.2.1 - p.1.2 * p.2.2)) (0 : Int)
  let ti := ps.foldl (fun s p => s + (p.1.1 * p.2.2 + p.1.2 * p.2.1)) (0 : Int)
  let et : Int := (a.scale : Int) + b.scale - 284
  let re := alignAdd sat40 first acc.re acc.e tr et
  let im := alignAdd sat40 first acc.im acc.e ti et
  ⟨{ acc with re := re.val, im := im.val, e := if first then et else max acc.e et }, re.fl ||| im.fl⟩

/-- One K-step at one position. -/
def kStep (f : CFmt) (first : Bool) (acc : Accu) (a b : Feed) : Res Accu :=
  match f.elem with
  | some ff => stepFloat f ff first acc a b
  | none =>
    match f with
    | .mxint8 => stepMxint8 first acc a b
    | .cbf16 => stepCbf16 first acc a b
    | _ => stepInt8 first acc a b

/-- Side of the output tile: 8, or 4 complex (Table 2-2). -/
def CFmt.side : CFmt → Nat
  | .cbf16 => 4
  | _ => 8

/-- One K-step of a whole cube: position (r, c) takes A row r and B column c (R32). -/
def kStepTile (f : CFmt) (first : Bool) (bank : List Accu) (a b : List Feed) : Res (List Accu) :=
  let n := f.side
  Res.gather ((List.range (n * n)).map fun p =>
    kStep f first (bank.getD p {}) (a.getD (p / n) ⟨[], 0⟩) (b.getD (p % n) ⟨[], 0⟩))

/-- Fields of an epilogue form (Table 3-8). -/
def formOut (f : List Byte) : Nat := bits (leAt f 0 8) 55 52
def formAct (f : List Byte) : Nat := bits (leAt f 0 8) 51 48
def formActSide (f : List Byte) : Nat := bits (leAt f 0 8) 47 47
def formGate (f : List Byte) : Nat := bits (leAt f 0 8) 46 45
def formRowstat (f : List Byte) : Nat := bits (leAt f 0 8) 44 43
def formColscale (f : List Byte) : Bool := bit (leAt f 0 8) 42
def formBias (f : List Byte) : Bool := bit (leAt f 0 8) 41
def formTow (f : List Byte) : Bool := bit (leAt f 0 8) 40
def formCombine (f : List Byte) : Nat := bits (leAt f 0 8) 39 38
def formEps (f : List Byte) : Nat := bits (leAt f 8 8) 63 32
def formRowLen (f : List Byte) : Nat := bits (leAt f 8 8) 31 16

/-- Check 12 of Table 4-4: the form errors of R99 that a form alone shows. -/
def formOk (f : List Byte) : Bool :=
  let w0 := leAt f 0 8
  let w1 := leAt f 8 8
  decide (formOut f ≤ 7) && decide (formAct f ≤ 5) && decide (formGate f ≤ 1) && decide (formRowstat f ≤ 2) &&
  decide (formCombine f ≤ 2) && bits w0 63 56 == 0 && bits w0 37 0 == 0 && bits w1 15 0 == 0 &&
  !(formRowstat f == 1 && formRowLen f == 0) &&
  !(formOut f == 7 &&
    (formAct f != 0 || formGate f != 0 || formRowstat f != 0 || formColscale f || formBias f))

/-- Activation of a form. -/
def actOf : Nat → Act
  | 1 => .relu
  | 2 => .sigmoid
  | 3 => .silu
  | 4 => .gelu
  | 5 => .tanh
  | _ => .none

/-- FP32 code of an accumulator position (epilogue step 1), for formats other than CBF16. -/
def accToF32 (f : CFmt) (a : Accu) : Res Nat :=
  match f with
  | .int8 => fp32.round (.ofInt a.re 0)
  | .mxint8 => if a.nan then ⟨fp32.nan, 0⟩ else fp32.round (.ofInt a.re a.e)
  | _ => ⟨a.f, 0⟩

/-- Whether a form keeps INT32 through step 2: out_fmt INT32 with steps 3–8 off, on an INT8 pass (R97). -/
def keepsInt (f : CFmt) (form : List Byte) : Bool :=
  f == .int8 && formOut form == 5 && formAct form == 0 && formGate form == 0 && formRowstat form == 0 &&
  !formColscale form && !formBias form

/-- Step 1: the tile as FP32 elements, rows of eight; a CBF16 position gives two elements (R97). -/
def step1 (f : CFmt) (form : List Byte) (bank : List Accu) : Res (List Accu) :=
  if keepsInt f form || (f == .cbf16 && formOut form == 7) then ⟨bank, 0⟩
  else if f == .cbf16 then
    let rs := bank.flatMap fun a =>
      [(fp32.round (.ofInt a.re a.e)), (fp32.round (.ofInt a.im a.e))]
    let g := Res.gather rs
    ⟨g.val.map fun x => { f := x }, g.fl⟩
  else
    let g := Res.gather (bank.map (accToF32 f))
    ⟨g.val.map fun x => { f := x }, g.fl⟩

/-- Step 2: pass combine of one element (R97). -/
def combine1 (f : CFmt) (form : List Byte) (p x : Accu) : Res Accu :=
  if keepsInt f form then
    let r := sat32 (p.re + x.re)
    ⟨{ x with re := r.val }, r.fl⟩
  else if f == .cbf16 && formOut form == 7 then
    let re := alignAdd sat40 false p.re p.e x.re x.e
    let im := alignAdd sat40 false p.im p.e x.im x.e
    ⟨{ x with re := re.val, im := im.val, e := max p.e x.e }, re.fl ||| im.fl⟩
  else
    let r := fAdd p.f x.f
    ⟨{ x with f := r.val }, r.fl⟩

/-- Step 2 on a tile. -/
def step2 (f : CFmt) (form : List Byte) (part : Option (List Accu)) (t : List Accu) : Res (List Accu) :=
  match formCombine form, part with
  | 0, _ => ⟨t, 0⟩
  | _, none => ⟨t, 0⟩
  | _, some p => Res.gather (List.zipWith (combine1 f form) p t)

/-- Steps 3–5: row scale, column scale and bias, each one RNE (R97). -/
def steps345 (form : List Byte) (rowScale : Nat → Nat) (colScale bias : Nat → Nat) (t : List Accu) : Res (List Nat) :=
  Res.gather ((List.range t.length).map fun p =>
    let x := (t.getD p {}).f
    let r := p / 8
    let c := p % 8
    let a : Res Nat := if formRowstat form = 2 then fMul x (rowScale r) else ⟨x, 0⟩
    let b : Res Nat := if formColscale form then fMul a.val (colScale c) else ⟨a.val, 0⟩
    let d : Res Nat := if formBias form then fAdd b.val (bias c) else ⟨b.val, 0⟩
    ⟨d.val, a.fl ||| b.fl ||| d.fl⟩)

/-- Output formats 0–4 of Table 3-8. -/
def outFmt : Nat → FFmt
  | 1 => bf16
  | 2 => fp16
  | 3 => e4m3
  | 4 => e5m2
  | _ => fp32

/-- Bytes per element of an out_fmt (R102). -/
def outBytes : Nat → Nat
  | 0 => 4
  | 1 => 2
  | 2 => 2
  | 5 => 4
  | _ => 1

/-- A format whose codes, for values scaled by 2^-239, are the integers below 2^40: rounding to it is RNE to an integer, once. -/
def intFmt : FFmt := ⟨10, 40, 200, true, true⟩

/-- Steps 6, 7 and 9 for one element: act(g) × u rounded once to out_fmt (R98). The gate value is `g`, its partner `u`. -/
def out1 (form : List Byte) (g : Nat) (u : Option Nat) : Res Nat :=
  let a := actOf (formAct form)
  let gv := fp32.decode g
  let uv := match u with
    | some x => fp32.decode x
    | none => .fin false 1 0
  let fmt := formOut form
  if fmt ≤ 4 then actMulTo a (outFmt fmt) gv uv
  else
    let w := actMulTo a intFmt gv (uv.scale2 (-239))
    let v := (intFmt.decode w.val).scale2 239
    let fl := (if gv.isNan || uv.isNan then flNanIn else 0) ||| (w.fl &&& flNanMade)
    if fmt = 5 then
      let r := v.toInt (-2147483648) 2147483647 flIntSat
      ⟨ofSigned 32 r.val, r.fl ||| fl⟩
    else
      let r := v.toInt (-127) 127 flIntSat
      ⟨ofSigned 8 r.val, r.fl ||| fl⟩

/-- The value that steps 6, 7 and 9 round, rounded once to FP32 for the row statistic (R104), with the conditions of that rounding (R82). -/
def statX (form : List Byte) (g : Nat) (u : Option Nat) : Res Nat :=
  let uv := match u with
    | some x => fp32.decode x
    | none => .fin false 1 0
  if formAct form = 0 && formGate form = 0 then ⟨g, 0⟩
  else actMulTo (actOf (formAct form)) fp32 (fp32.decode g) uv

/-- Step 9 for out_fmt CBF16: one block of 16 samples (R530), mantissas then the exponent. -/
def cbfBlock (t : List Accu) : Res (List Byte × Nat) :=
  let e0 := (t.map Accu.e).foldl min ((t.getD 0 {}).e)
  let parts : List Int := t.flatMap fun a => [a.re * ((2 ^ (a.e - e0).toNat : Nat) : Int), a.im * ((2 ^ (a.e - e0).toNat : Nat) : Int)]
  if parts.all (· == 0) then ⟨(List.replicate 64 0, 0), 0⟩
  else
    let b : Int := ((parts.map bitLen).foldl max 0 : Nat)
    let n := b - 15
    let E := e0 + n + 142
    let n' := if E < 0 then n - E else n
    let clamp := if E < 0 || 255 < E then flCbfExp else 0
    let E' : Nat := if E < 0 then 0 else min E.toNat 255
    -- above 255 every mantissa is shifted left by the excess, saturating those that do not fit (R92)
    let n'' := if 255 < E then n - (E - 255) else n'
    let ms := Res.gather (parts.map fun x => satMant (rneShr x n''))
    ⟨(ms.val.flatMap fun m => toLE 2 (ofSigned 16 m), E'), ms.fl ||| clamp⟩

/-- Row statistic of one tile: S of each row updated in column order, columns at or past N skipped (R104). -/
def statTile (form : List Byte) (colTile : Nat) (sums : List Nat) (xs : List Nat) : Res (List Nat) :=
  Res.gather ((List.range 8).map fun r =>
    (List.range 8).foldl (fun (s : Res Nat) c =>
      if 8 * colTile + c < formRowLen form then
        let x := xs.getD (8 * r + c) 0
        (fFma fp32 x x s.val).or s.fl
      else s) ⟨sums.getD r 0, 0⟩)

/-- σ of a row from its sum (R105). -/
def rowSigma (form : List Byte) (s : Nat) : Res Nat :=
  let n := formRowLen form
  let rn := recipRound 23 false n 0
  let m := fMul s rn.val
  let v := fAdd m.val (formEps form)
  (sigmaOf v.val).or (m.fl ||| v.fl)

/-- The row-statistic trailer body (Table 3-9). -/
def trailer (form : List Byte) (sig : List Nat) (tiles rowMask flags : Nat) : List Byte :=
  (sig.flatMap (toLE 4)) ++ toLE 4 (formRowLen form) ++ toLE 4 (formEps form) ++ toLE 2 tiles ++ toLE 1 rowMask ++
  toLE 1 flags ++ List.replicate 20 0

/-! ### Division -/

/-- One division step (R93). -/
def divStep (d : DivLane) : DivLane :=
  let r := if d.dd ≤ d.r then d.r - d.dd else d.r
  let q := (2 * d.q + b2n (decide (d.dd ≤ d.r))) % 2 ^ 32
  { d with r := (2 * r) % 2 ^ 32, q := q }

/-- DIVSETUP n, d on signed lane values (R94). -/
def divSetup (n d : Int) : DivLane :=
  { r := n.natAbs, dd := d.natAbs, q := 0, neg := (decide (n < 0)) != (decide (d < 0)),
    big := decide (d.natAbs ≤ n.natAbs), same := decide (n.natAbs = d.natAbs), dneg := decide (n < 0),
    nzero := decide (n = 0) }

/-- DIVQ15 (R94). -/
def divQ15 (d : DivLane) : Res Int :=
  if d.dd = 0 then ⟨if d.nzero then 0 else if d.dneg then -32768 else 32767, flDivSat⟩
  else if d.big then
    if d.neg then ⟨-32768, if d.same then 0 else flDivSat⟩ else ⟨32767, flDivSat⟩
  else ⟨if d.neg then -(d.q : Int) else d.q, 0⟩

/-- Normalised 24-bit significand and exponent of a nonzero finite FP32 value. -/
def norm24 (m : Nat) (e : Int) : Nat × Int :=
  let s := 23 - Nat.log2 m
  (m <<< s, e - s)

/-- DIVSETUP.F on FP32 operands (R95). -/
def divSetupF (n d : Nat) : DivLane :=
  let nv := fp32.decode n
  let dv := fp32.decode d
  let neg := nv.neg != dv.neg
  match nv, dv with
  | .fin _ m e, .fin _ m' e' =>
    if m' = 0 then
      if m = 0 then { special := some fp32.nan, fl := flDivSat ||| flNanMade }
      else { special := some (fp32.signed neg 0x7F800000), fl := flDivSat }
    else if m = 0 then { special := some (fp32.signed neg 0) }
    else
      let a := norm24 m e
      let b := norm24 m' e'
      if a.1 < b.1 then { r := 2 * a.1, dd := b.1, neg := neg, e := a.2 - b.2 - 1 }
      else { r := a.1, dd := b.1, neg := neg, e := a.2 - b.2 }
  | .nan, dv => { special := some fp32.nan, fl := flNanIn ||| (if dv.isZero then flDivSat else 0) }
  | _, .nan => { special := some fp32.nan, fl := flNanIn }
  | .inf _, .inf _ => { special := some fp32.nan, fl := flNanMade }
  | .inf _, .fin _ m _ =>
    { special := some (fp32.signed neg 0x7F800000), fl := if m = 0 then flDivSat else 0 }
  | .fin _ _ _, .inf _ => { special := some (fp32.signed neg 0) }

/-- DIVRND: one further step gives the round bit, r ≠ 0 the sticky bit; RNE once (R95). -/
def divRnd (d : DivLane) : Res Nat :=
  match d.special with
  | some x => ⟨x, d.fl⟩
  | none =>
    let d' := divStep d
    -- 25 quotient bits: the first has weight 2^e
    fp32.roundP 23 d.neg d'.q (d.e - 24) (decide (d'.r ≠ 0))

/-! ### Block exponents and the W store -/

/-- Detected value d of one element (R88). -/
def detectF (x : Nat) : Nat := bits x 30 23

/-- Float formats among the destinations. -/
def WDst.fmt : WDst → Option FFmt
  | .f32 => some fp32
  | .bf16 => some Sys2Proof.Machine.bf16
  | .fp16 => some Sys2Proof.Machine.fp16
  | .e4m3 => some Sys2Proof.Machine.e4m3
  | .e5m2 => some Sys2Proof.Machine.e5m2
  | _ => none

/-- MX element formats among the destinations, with emax_elem and the element width (Table 3-4). -/
def WDst.mx : WDst → Option (Option FFmt × Nat × Nat)
  | .mxfp8e4m3 => some (some Sys2Proof.Machine.e4m3, 8, 8)
  | .mxfp8e5m2 => some (some Sys2Proof.Machine.e5m2, 15, 8)
  | .mxfp6e2m3 => some (some e2m3, 2, 6)
  | .mxfp6e3m2 => some (some e3m2, 4, 6)
  | .mxfp4 => some (some e2m1, 2, 4)
  | .mxint8 => some (none, 0, 8)
  | _ => none

/-- Packing of elements of `w` bits into bytes, increasing bit positions (R74). -/
def packBits (w : Nat) (xs : List Nat) : List Byte :=
  toLE (ceilDiv (w * xs.length) 8) ((xs.zipIdx.map fun p => p.1 <<< (w * p.2)).foldl (· + ·) 0)

/-- Saturating rounding to an MX element: an element format without infinity saturates, and so does E5M2 in a block (R83). -/
def mxElem (ff : Option FFmt) (v : FV) : Res Nat :=
  match ff with
  | none =>
    -- MXINT8: two's complement with implicit factor 2^-6
    let r := (v.scale2 6).toInt (-127) 127 flFmtSat
    ⟨ofSigned 8 r.val, r.fl⟩
  | some f =>
    let r := f.round v
    if f.hasInf && r.fl &&& flInf != 0 then ⟨f.signed v.neg f.maxFinite, flFmtSat⟩ else r

/-- MX block conversion of 32 FP32 codes already shifted (Table 3-4): element bytes, scale, flags. -/
def mxBlock (ff : Option FFmt) (emax w : Nat) (xs : List FV) : Res (List Byte × Nat) :=
  if xs.any FV.isNan || xs.any FV.isInf then
    ⟨(List.replicate (ceilDiv (w * xs.length) 8) 0, 0xFF),
     (if xs.any FV.isNan then flNanIn else 0) ||| (if xs.any FV.isInf then flNanMade else 0)⟩
  else
    let tops := xs.filterMap fun v => match v with
      | .fin _ m e => if m = 0 then none else some (e + (Nat.log2 m : Nat))
      | _ => none
    match tops with
    | [] => ⟨(packBits w ((Res.gather (xs.map (mxElem ff))).val), 0), 0⟩
    | t :: ts =>
      let top := ts.foldl max t
      let X : Int := max 0 (min 254 (top - emax + 127))
      let es := Res.gather (xs.map fun v => mxElem ff (v.scale2 (127 - X)))
      ⟨(packBits w es.val, X.toNat), es.fl⟩

/-- What a W store writes: its data bytes, its exponent record if it has one, BE of the store, and flags (R91). -/
structure WOut where
  data : List Byte
  rec_ : Option Nat
  be : Nat
  deriving DecidableEq, Repr

/-- The exact value of an FP32 code multiplied by 2^-s (R91 step 1). -/
def scaleF (s : Int) (x : Nat) : FV := (fp32.decode x).scale2 (-s)

/-- The multiply ahead of a block conversion: exact but for RNE in the subnormal range of FP32 (R91 step 1; log 126). -/
def scaleSub (v : FV) : Res FV :=
  match v with
  | .fin n m e =>
    if m ≠ 0 && e + (Nat.log2 m : Nat) < -126 then
      let r := fp32.roundP 23 n m e false
      ⟨fp32.decode r.val, r.fl⟩
    else ⟨v, 0⟩
  | _ => ⟨v, 0⟩

/-- BE of float elements: biased exponent of the shifted values, 255 for infinity and NaN (R88, R91 step 2). -/
def beF (vs : List FV) : Nat :=
  (vs.map fun v => detectF (fp32.round v).val).foldl max 0

/-- µ-law code of an INT16 part at width w after a left shift by compShift (R226): sign and magnitude, the magnitude in three linear pieces of slopes 1, 1/2 and
1/4. PRESUMED from the O-RAN CUS-Plane definition (log 147). -/
def muLawCode (w shift : Nat) (x : Int) : Nat :=
  let a := min 32767 (x.natAbs * 2 ^ shift)
  let m := if a ≤ 8192 then a * 2 ^ w / 32768 else if a ≤ 16384 then a * 2 ^ w / 65536 + 2 ^ w / 8 else a * 2 ^ w / 131072 + 2 ^ w / 4
  (if x < 0 then 2 ^ (w - 1) else 0) + min m (2 ^ (w - 1) - 1)

/-- Compression of one PRB of 24 INT16 parts to width w (R226): the udCompParam byte, then the packed samples. Block floating point shifts the PRB's bit length to
w − 1 bits; for µ-law compShift brings it, by the same rule, to the 15 bits that the law takes (log 147). -/
def prbBytesOf (mulaw : Bool) (w : Nat) (xs : List Int) : List Byte :=
  let b := (xs.map bitLen).foldl max 0
  let e := b - (w - 1)
  let shift := 15 - b
  if mulaw then toLE 1 (w % 16 * 16 + shift) ++ packBits w (xs.map (muLawCode w shift))
  else
    toLE 1 e ++ packBits w (xs.map fun x =>
      ofSigned w (max (-((2 ^ (w - 1) : Nat) : Int)) (min ((2 ^ (w - 1) : Nat) - 1) (rneShr x e))))

/-- The whole PRBs of a vector of INT16 parts, compressed in order. -/
def compressPrbs (mulaw : Bool) (w : Nat) (xs : List Int) : List Byte :=
  (List.range (xs.length / 24)).flatMap fun i => prbBytesOf mulaw w ((xs.drop (24 * i)).take 24)

/-- Signed integers of `w` bits that a vector holds. -/
def ints (w : Nat) (bytes : List Byte) : List Int := (List.range (bytes.length * 8 / w)).map fun i => toSigned w (leAt bytes (w / 8 * i) (w / 8))

/-- Step 1 of R91 on an integer of `w` bits: a right shift rounds by RNE, a left shift is exact and saturates. INT8 saturates to ±127 (Table 3-3). -/
def shiftSat (w : Nat) (s x : Int) : Res Int :=
  if 0 ≤ s then ⟨rneShr x s, 0⟩
  else if w = 8 then sat8 (rneShr x s)
  else satInt (-(2 ^ (w - 1) : Nat)) ((2 ^ (w - 1) : Nat) - 1) flIntSat (rneShr x s)

/-- Width of an integer source. -/
def WTy.bits : WTy → Nat
  | .i8 => 8
  | .i16 => 16
  | _ => 32

/-- The stores that Table 3-4 and R226 give: source vectors of a type, and a destination. One block takes one vector: 32 FP32 elements or 16 complex samples. A
store in the source's own type converts nothing (R45). -/
def wPair (n : Nat) : WTy → WDst → Bool
  | .f32, .f32 | .f32, .i32 => n == 1
  | .f32, .bf16 | .f32, .fp16 | .f32, .i16 => decide (1 ≤ n) && decide (n ≤ 2)
  | .f32, .e4m3 | .f32, .e5m2 | .f32, .i8 => decide (1 ≤ n) && decide (n ≤ 4)
  | .f32, dst => dst.mx.isSome && n == 1
  | .i32, .cbf16 | .i32, .i32 => n == 1
  | .i32, .i16 => decide (1 ≤ n) && decide (n ≤ 2)
  | .i16, .i16 => n == 1
  | .i16, .bfp _ | .i16, .mulaw _ => decide (1 ≤ n) && decide (n ≤ 3)
  | .i8, .i8 => n == 1
  | _, _ => false

/-- A W store (R91, Table 3-4): source type and bytes, destination, shift s = SH (0 without automatic scaling), EXP. -/
def wStore (src : WTy) (dst : WDst) (s exp : Int) (bytes : List Byte) : Res WOut :=
  match src with
  | .f32 =>
    let xs := (List.range (bytes.length / 4)).map fun i => leAt bytes (4 * i) 4
    let vs := xs.map (scaleF s)
    let nanIn := if vs.any FV.isNan then flNanIn else 0
    match dst.mx with
    | some (ff, emax, w) =>
      let ms := Res.gather (if s = 0 then vs.map fun v => ⟨v, 0⟩ else vs.map scaleSub)
      let r := mxBlock ff emax w ms.val
      ⟨⟨r.val.1, some r.val.2, beF vs⟩, ms.fl ||| r.fl⟩
    | none =>
      match dst.fmt with
      | some f =>
        let r := Res.gather (vs.map f.round)
        ⟨⟨packBits f.width r.val, none, beF vs⟩, r.fl ||| nanIn⟩
      | none =>
        let w := match dst with
          | .i8 => 8
          | .i16 => 16
          | _ => 32
        let r := Res.gather (vs.map fun v =>
          if w = 8 then v.toInt (-127) 127 flIntSat
          else v.toInt (-(2 ^ (w - 1) : Nat)) ((2 ^ (w - 1) : Nat) - 1) flIntSat)
        ⟨⟨packBits w (r.val.map (ofSigned w)), none, beF vs⟩, r.fl ||| nanIn⟩
  | _ =>
    let w := src.bits
    let xs := ints w bytes
    if dst = .cbf16 then
      -- 16 complex samples: n = b - s - 15 (Table 3-4)
      let b : Int := ((xs.map bitLen).foldl max 0 : Nat)
      let n := b - s - 15
      let E := exp + s + n
      let sh := if E < 0 then s + n - E else if 255 < E then s + n - (E - 255) else s + n
      let E' : Nat := if E < 0 then 0 else min E.toNat 255
      let r := Res.gather (xs.map fun x => satMant (rneShr x sh))
      -- the detector runs on the values after the one shift, before narrowing (R91 step 2; log 127)
      let be := ((xs.map fun x => bitLen (shiftSat w sh x).val).foldl max 0)
      ⟨⟨r.val.flatMap fun m => toLE 2 (ofSigned 16 m), some E', be⟩,
       r.fl ||| (if E < 0 || 255 < E then flCbfExp else 0)⟩
    else
      let ys := Res.gather (xs.map (shiftSat w s))
      let be := (ys.val.map bitLen).foldl max 0
      let r := Res.gather (ys.val.map sat16)
      match dst with
      | .bfp k => ⟨⟨compressPrbs false k r.val, none, be⟩, ys.fl⟩
      | .mulaw k => ⟨⟨compressPrbs true k r.val, none, be⟩, ys.fl⟩
      | .i16 => ⟨⟨r.val.flatMap fun m => toLE 2 (ofSigned 16 m), none, be⟩, ys.fl ||| r.fl⟩
      | _ => ⟨⟨ys.val.flatMap fun m => toLE (w / 8) (ofSigned w m), none, be⟩, ys.fl⟩

end Sys2Proof.Machine
end

