-- ==== Sys2Proof/Machine/Radio.lean ====
section
/-! DEFINITION. The fronthaul engine: posts, slot deadlines and mute, C-plane and U-plane, time-domain ramps, ingress checks, landing and
arrival records, shaping, the strainer and queue sampling (R205–R219, R225, R227–R231). -/

namespace Sys2Proof.Machine

/-- Whether a carrier transmits at all: enabled, a -T part, outputs not held (Table 7-11, R29, R492). -/
def Device.carrierOn (d : Device) (c : Nat) : Bool := !d.isX && d.on RAD_CAR_CFG.enable c && !d.outputsSafe

def Device.carMu (d : Device) (c : Nat) : Nat := d.rd RAD_CAR_CFG.mu c

/-- Slot deadline D of slot s (R210). -/
def Device.slotDeadline (d : Device) (c s : Nat) : Int :=
  d.slotStart (d.carMu c) s - (144 * d.rd RAD_CAR_DLWIN.cp_adv_ns c : Nat) - (20 * usT : Nat)

/-- Die-pool offset of the slot buffer that serves slot s: downlink (`dir` 0) or uplink ring (Table 7-7). -/
def Device.slotBuf (d : Device) (c dir s : Nat) : Nat :=
  if dir = 0 then
    d.rd RAD_CAR_DLRING.base c * 4096 + 1024 * d.rd RAD_CAR_DLRING.entry_kib c * (s % 2 ^ d.rd RAD_CAR_DLRING.depth_log2 c)
  else
    d.rd RAD_CAR_ULRING.base c * 4096 + 1024 * d.rd RAD_CAR_ULRING.entry_kib c * (s % 2 ^ d.rd RAD_CAR_ULRING.depth_log2 c)

/-- Number of section records of a slot buffer, and record k (Tables 7-8, 7-9). -/
def Device.bufSections (d : Device) (b : Nat) : Nat := d.peekN spDP (b + 8) 4
def Device.bufIq (d : Device) (b : Nat) : Nat := b + d.peekN spDP (b + 12) 4
def Device.bufRec (d : Device) (b k : Nat) : List Byte := d.peek devKey spDP (b + 64 + 32 * k) 32

def rcStream (r : List Byte) : Nat := leAt r 0 1
def rcStart (r : List Byte) : Nat := leAt r 1 1
def rcNum (r : List Byte) : Nat := leAt r 2 1
def rcPrach (r : List Byte) : Bool := bit (leAt r 3 1) 0
def rcNoU (r : List Byte) : Bool := bit (leAt r 3 1) 1
def rcPrb (r : List Byte) : Nat := leAt r 4 2
def rcPrbs (r : List Byte) : Nat := leAt r 6 2
def rcMask (r : List Byte) : Nat := leAt r 8 2 % 4096
def rcBeam (r : List Byte) : Nat := leAt r 10 2 % 32768
def rcSection (r : List Byte) : Nat := leAt r 12 2 % 4096
def rcIq (r : List Byte) : Nat := leAt r 16 4
def rcStride (r : List Byte) : Nat := leAt r 20 4
def rcExt (r : List Byte) : Nat := leAt r 24 4
def rcExtLen (r : List Byte) : Nat := leAt r 28 2
def rcCovers (r : List Byte) (l : Nat) : Bool := decide (rcStart r ≤ l) && decide (l < rcStart r + rcNum r)

/-- Bytes of one PRB as received or sent (R208, R229). -/
def prbLen (comp width : Nat) : Nat := if comp = 0 then 48 else 3 * (if width = 0 then 16 else width) + 1

/-- Samples of a symbol and of its cyclic prefix in time-domain mode. -/
def Device.tdFft (d : Device) (c : Nat) : Nat := 512 * 2 ^ d.rd RAD_CAR_CFG.fft c
def Device.tdSamples (d : Device) (c s l : Nat) : Nat :=
  symLen (d.carMu c) s l * d.tdFft c * 2 ^ d.carMu c / 131072

/-- Payload length of one symbol of one stream. -/
def Device.payloadLen (d : Device) (c dir s l prbs : Nat) : Nat :=
  if d.on RAD_CAR_CFG.td_mode c then 4 * d.tdSamples c s l
  else if dir = 0 then prbs * prbLen (d.rd RAD_CAR_FH.dl_comp c) (d.rd RAD_CAR_FH.dl_width c)
  else prbs * prbLen (d.rd RAD_CAR_FH.ul_comp c) (d.rd RAD_CAR_FH.ul_width c)

/-- Streams of a carrier (Table 7-5): downlink or uplink. -/
def Device.carStreams (d : Device) (c dir : Nat) : Nat :=
  let b := d.on RAD_CAR_CFG.category c && !d.on RAD_CAR_CFG.td_mode c
  if dir = 0 then (if b then d.rd RAD_CAR_CFG.dl_layers c else d.rd RAD_CAR_CFG.tx_ant c)
  else (if b then d.rd RAD_CAR_CFG.ul_layers c else d.rd RAD_CAR_CFG.rx_ant c)

/-! ### Posts and the slot deadline -/

/-- A radio event record (Table 12-5, op 0x16). -/
def Device.logRadio (d : Device) (unit c s : Nat) : Device := d.logOp unit 0x16 (c + (s % 2 ^ 32) <<< 8)

/-- FHPOST by a running leg: remembered to its end; ignored, with a record, when its tenancy does not own the carrier (R209). -/
def fhpost (n dir c s : Nat) (d : Device) : Device :=
  let x := d.core n
  match x.leg with
  | none => d
  | some l =>
    if d.isX then d
    else if d.rd RAD_CAR_CFG.owner c ≠ l.ten then d.logRadio (d.coreUnit n) c s
    else d.setCore n { x with leg := some { l with posts := l.posts ++ [(dir, c, s)] } }

/-- A post of command `sn` takes effect at its leg's end; late or too far ahead it is discarded and counted (R211). -/
def Device.commitPost (d : Device) (sn dir c s : Nat) : Device × Bool :=
  let depth := if dir = 0 then d.rd RAD_CAR_DLRING.depth_log2 c else d.rd RAD_CAR_ULRING.depth_log2 c
  let late := decide (d.slotDeadline c s < d.time)
  let far := decide (d.slotCount (d.carMu c) + 2 ^ depth - 1 < s)
  if late || far then (d.incSat RAD_CAR_STAT.late_posts c 1, late)
  else
    let posts := ⟨c, dir, s, sn⟩ :: d.radio.posts.filter fun p => !(p.car == c && p.dir == dir && p.slot == s)
    ({ d with radio := { d.radio with posts := posts } }, false)

/-- Whether the legs of a command may still post (R216). -/
def Device.mayPost (d : Device) (sn : Nat) : Bool :=
  match d.cmd? sn with
  | some c => (c.run.map fun r => !r.unposted).getD true
  | none => true

def Device.slotDec (d : Device) (c s : Nat) : Option SlotDec := d.radio.decs.find? fun x => x.car == c && x.slot == s

def Device.setDec (d : Device) (x : SlotDec) : Device :=
  { d with radio := { d.radio with
      decs := x :: d.radio.decs.filter fun y => !(y.car == x.car && (y.slot == x.slot || decide (y.slot + 32 < x.slot))) } }

/-- Doubt and service-level mute of a symbol by when its window opens and when it starts (Table 7-11). -/
def mutedBy (from_ until_ : Option Int) (open_ st : Int) : Bool :=
  match from_ with
  | none => false
  | some f => decide (f ≤ open_) && (match until_ with
    | none => true
    | some u => decide (st < u))

def Device.byDoubt (d : Device) (open_ st : Int) : Bool :=
  mutedBy d.timing.doubtFrom d.timing.doubtUntil open_ st || mutedBy d.radio.isoFrom d.radio.isoUntil open_ st
def Device.bySvc (d : Device) (open_ st : Int) : Bool := mutedBy d.radio.svcFrom d.radio.svcUntil open_ st

/-- Window opening of a downlink symbol, or its C-plane time (R213). -/
def Device.dlOpen (d : Device) (c s l : Nat) : Int := d.symStart (d.carMu c) s l - (144 * d.rd RAD_CAR_DLWIN.max_ns c : Nat)
def Device.dlClose (d : Device) (c s l : Nat) : Int := d.symStart (d.carMu c) s l - (144 * d.rd RAD_CAR_DLWIN.min_ns c : Nat)
def Device.cpTime (d : Device) (c dir s l : Nat) : Int :=
  d.symStart (d.carMu c) s l -
    (144 * (if dir = 0 then d.rd RAD_CAR_DLWIN.cp_adv_ns c else d.rd RAD_CAR_ULWIN.cp_adv_ns c) : Nat)

/-- Reception window of an uplink symbol (Table 7-10). -/
def Device.ulOpen (d : Device) (c s l : Nat) : Int := d.symStart (d.carMu c) s l + (144 * d.rd RAD_CAR_ULWIN.min_ns c : Nat)
def Device.ulClose (d : Device) (c s l : Nat) : Int := d.symStart (d.carMu c) s l + (144 * d.rd RAD_CAR_ULWIN.max_ns c : Nat)

/-- Whether a symbol of a slot is muted in a direction (R215). -/
def Device.symMuted (d : Device) (x : SlotDec) (dir l : Nat) (open_ : Int) : Bool :=
  let st := d.symStart (d.carMu x.car) x.slot l
  !(if dir = 0 then x.dl else x.ul) || x.host || d.byDoubt open_ st || d.bySvc open_ st

/-- A slot counted once as sent wholly or partly as mute. -/
def Device.countMute (d : Device) (x : SlotDec) : Device :=
  if x.counted then d else (d.incSat RAD_CAR_STAT.mute_slots x.car 1).setDec { x with counted := true }

/-- At D the engine decides whether each direction of the slot is ready, and takes the host's mute bit (R210, R215). -/
def slotDeadline (c s : Nat) (d : Device) : Device :=
  if !d.carrierOn c || (d.slotDec c s).isSome || decide ((d.time : Int) < d.slotDeadline c s) then d
  else
    let posted (dir : Nat) := (d.radio.posts.any fun p => p.car == c && p.dir == dir && p.slot == s) && d.peekN spDP (d.slotBuf c dir s) 8 == s
    let host := bit (d.rd RAD_MUTE_CTL.host_mute 0) c
    let x : SlotDec := ⟨c, s, posted 0, posted 1, host, false⟩
    let d := { d with radio := { d.radio with posts := d.radio.posts.filter fun p => !(p.car == c && decide (p.slot ≤ s)) } }
    let d := d.setDec x
    let st := d.slotStart (d.carMu c) s
    if !x.dl || !x.ul || host || d.byDoubt d.time st || d.bySvc d.time st then d.countMute x else d

/-- Mute bits written by the host: tenancy 0 every bit, another tenancy the carriers it owns (Table 7-12). -/
def muteCtlWrite (fn value : Nat) (d : Device) : Device :=
  if (smGet d.tens fn {}).d3hot || d.isX then d
  else
    let mine := (List.range 64).filter fun c => fn == 0 || d.rd RAD_CAR_CFG.owner c == fn
    let old := d.rd RAD_MUTE_CTL.host_mute 0
    let v := ((List.range 64).map fun c => (if mine.contains c then b2n (bit value c) else b2n (bit old c)) <<< c).foldl (· + ·) 0
    d.wr RAD_MUTE_CTL.host_mute 0 v

/-- Mute causes of the slot on air as a read finds them (Table 7-13): doubt and service level where they mute a symbol of it in some direction. DESIGN CHOICE (log 159):
a carrier that is disabled reads 0, its reset value; while outputs are held, an enabled one reads muted. -/
def Device.showCarrier (d : Device) (c : Nat) : Device :=
  if !d.on RAD_CAR_CFG.enable c then d
  else
    let s := d.slotCount (d.carMu c)
    let dec := (d.slotDec c s).getD ⟨c, s, true, true, false, false⟩
    let anySym (by_ : Int → Int → Bool) : Bool := (List.range 14).any fun l =>
      let st := d.symStart (d.carMu c) s l
      by_ (d.dlOpen c s l) st || by_ (d.ulOpen c s l) st
    let late := !dec.dl || !dec.ul
    let dbt := anySym d.byDoubt
    let svc := anySym d.bySvc
    let d' := ((d.wr RAD_CAR_STAT.by_late c (b2n late)).wr RAD_CAR_STAT.by_doubt c (b2n dbt)).wr RAD_CAR_STAT.by_svc c (b2n svc)
    (d'.wr RAD_CAR_STAT.by_host c (b2n dec.host)).wr RAD_CAR_STAT.muted c (b2n (late || dbt || svc || dec.host || d.outputsSafe))

/-- The service-level mute begins (R27), and its end is known (R28, R158). -/
def Device.svcMute (d : Device) : Device := { d with radio := { d.radio with svcFrom := some d.time, svcUntil := none } }
def Device.svcUnmute (d : Device) (t : Int) : Device :=
  if d.radio.svcFrom.isSome && d.radio.svcUntil.isNone && d.rd GEN_SVC.svc_level 0 == 3 then
    { d with radio := { d.radio with svcUntil := some t } }
  else d

/-! ### Flows -/

/-- The valid flow of a port, direction, plane and eAxC ID. -/
def Device.findFlow (d : Device) (ingress : Bool) (port : Nat) (cplane : Bool) (eaxc : Nat) : Option Nat :=
  leastBelow 2048 fun f => d.on RAD_FLOW_CFG.valid f && (d.on RAD_FLOW_CFG.ingress f == ingress) &&
    d.rd RAD_FLOW_CFG.port f == port && (d.on RAD_FLOW_CFG.cplane f == cplane) && d.rd RAD_FLOW_CFG.eaxc f == eaxc

/-- Token count of a flow, raised to a device time (R228). -/
def Device.tokensAt (d : Device) (f t : Nat) : Nat :=
  let cap := d.rd RAD_FLOW_CFG.burst_kib f * 1048576
  match d.radio.buckets.find? fun b => b.1 == f with
  | none => cap
  | some b => min cap (b.2.1 + d.rd RAD_FLOW_CFG.rate_mbps f * 125000 * 1024 * (t - b.2.2) / secT)

def Device.setTokens (d : Device) (f n t : Nat) : Device :=
  { d with radio := { d.radio with buckets := smIns d.radio.buckets f (n, t) } }

/-- Earliest device time at which a flow's count is at least a cost in bytes; none where it never is. -/
def Device.tokenTime (d : Device) (f cost : Nat) : Option Nat :=
  let rate := d.rd RAD_FLOW_CFG.rate_mbps f * 125000 * 1024
  if d.rd RAD_FLOW_CFG.burst_kib f * 1024 < cost then none
  else
    match d.radio.buckets.find? fun b => b.1 == f with
    | none => some 0
    | some b =>
      if cost * 1024 ≤ b.2.1 then some b.2.2
      else if rate = 0 then none
      else some (b.2.2 + ((cost * 1024 - b.2.1) * secT + rate - 1) / rate)

/-- Bits per second of a port. -/
def Device.portRate (d : Device) (p : Nat) : Nat :=
  match d.rd RAD_PORT_CFG.speed p with
  | 1 => 25000000000
  | 2 => 50000000000
  | 3 => 100000000000
  | 4 => 200000000000
  | 5 => 400000000000
  | _ => 0

/-- The frame a port serves next: the head of its highest nonempty queue (queue 7 first). -/
def nextFrame? (fs : List EgFrame) : Option EgFrame :=
  (List.range 8).findSome? fun i => fs.find? fun f => f.q == 7 - i

/-- What happens next at a port's egress (R228): a waiting frame enters its queue, a queued one starts transmission, or a U-plane frame's window has closed. -/
inductive PortEv
  | enter (w : Option Nat × EgFrame)
  | start (f : EgFrame)
  | expire (f : EgFrame)

/-- Whether a frame finds room in the 2 MiB that a port's egress queues share (R231). -/
def Device.egressRoom (d : Device) (p : Nat) (f : EgFrame) : Bool :=
  decide (((smGet d.radio.egress p []).map fun g => g.len).foldl (· + ·) 0 + f.len ≤ 2097152)

/-- Waiting frames that no earlier frame of their flow precedes. -/
def headsOf : List (Option Nat) → List (Option Nat × EgFrame) → List (Option Nat × EgFrame)
  | _, [] => []
  | seen, w :: ws => if seen.contains w.1 then headsOf seen ws else w :: headsOf (w.1 :: seen) ws

/-- When a waiting frame can enter its queue, from device time `clk` on: at once without a flow, else with its flow's tokens (R228). -/
def Device.enterTime (d : Device) (p clk : Nat) (w : Option Nat × EgFrame) : Option Nat :=
  if !d.egressRoom p w.2 then none
  else
    match w.1 with
    | none => some (max clk w.2.arr)
    | some k => (d.tokenTime k w.2.cost).map (max (max clk w.2.arr))

/-- The earlier of two events; the first on equal times. -/
def sooner (a b : Option (Nat × PortEv)) : Option (Nat × PortEv) :=
  match a, b with
  | some x, some y => if y.1 < x.1 then b else a
  | none, _ => b
  | _, none => a

/-- The port's next event from device time `clk` on. The line serves while the link is up and the outputs are not held (R29). -/
def Device.portNext (d : Device) (p clk : Nat) : Option (Nat × PortEv) :=
  let fs := smGet d.radio.egress p []
  let ws := smGet d.radio.waits p []
  let enter := (headsOf [] ws).foldl (fun a w => sooner a ((d.enterTime p clk w).map fun t => (t, .enter w))) none
  let start := if d.portRate p = 0 || !d.on RAD_PORT_STAT.link_up p || d.outputsSafe then none
    else (nextFrame? fs).map fun f => (max (smGet d.radio.busy p 0) f.arr, PortEv.start f)
  let expire := (fs ++ ws.map fun w => w.2).foldl (fun a f => sooner a (f.close.map fun c => ((c + 1).toNat, .expire f))) none
  sooner (sooner enter start) expire

/-- A U-plane frame not sent by the close of its window is dropped and counted, with a record; every later frame of its stream and symbol follows it (R228). -/
def Device.dropFrame (d : Device) (p : Nat) (f : EgFrame) : Device :=
  let d := match d.findFlow false p (f.mt != 0) f.eaxc with
    | some k => d.incSat RAD_FLOW_STAT.dropped k 1
    | none => d
  let d := d.logRadio (unitOf 6 (0x40 + p)) f.car f.slot
  let late := (f.car, f.slot, f.stream, f.sym) :: d.radio.lateSyms.filter fun k => k.1 != f.car || decide (f.slot ≤ k.2.1 + 32)
  { d with radio := { d.radio with lateSyms := late } }

/-- An event at a port's egress at device time `t`. -/
def Device.portAct (d : Device) (p t : Nat) : PortEv → Device
  | .enter w =>
    let d : Device := { d with radio := { d.radio with waits := smSet d.radio.waits p [] ((smGet d.radio.waits p []).erase w) } }
    let d := match w.1 with
      | none => d
      | some k => (d.setTokens k (d.tokensAt k t - w.2.cost * 1024) t).incWrap RAD_FLOW_STAT.passed k 1
    let f := { w.2 with q := (w.1.map fun k => d.rd RAD_FLOW_CFG.queue k).getD (if w.2.mt = 0 then 6 else 7), arr := t }
    { d with radio := { d.radio with egress := smSet d.radio.egress p [] (smGet d.radio.egress p [] ++ [f]) } }
  | .start f =>
    let busy := smSet d.radio.busy p 0 (t + f.cost * 8 * secT / d.portRate p)
    { d with
      radio := { d.radio with egress := smSet d.radio.egress p [] ((smGet d.radio.egress p []).erase f), busy := busy }
      sent := .fronthaul p f t :: d.sent }
  | .expire f =>
    let waits := smSet d.radio.waits p [] ((smGet d.radio.waits p []).filter fun w => w.2 != f)
    let d : Device := { d with radio := { d.radio with egress := smSet d.radio.egress p [] ((smGet d.radio.egress p []).erase f), waits := waits } }
    d.dropFrame p f

/-- The events of a port's egress up to now, in order. -/
def drainFrom : Nat → Nat → Nat → Device → Device
  | 0, _, _, d => d
  | n + 1, p, clk, d =>
    match d.portNext p clk with
    | none => d
    | some (t, ev) => if d.time < t then d else drainFrom n p (max clk t) (d.portAct p (max clk t) ev)

def drainPort (p : Nat) (d : Device) : Device :=
  drainFrom (2 * (smGet d.radio.waits p []).length + (smGet d.radio.egress p []).length) p 0 d

/-- A frame offered to a port (R228): it waits until its flow has its cost, then enters its queue; without a valid flow it enters queue 6 or 7 unshaped. A one-way
delay message belongs to no flow. -/
def Device.offerFrame (d : Device) (p : Nat) (f : EgFrame) : Device :=
  let d := drainPort p d
  let late := f.mt == 0 && ((f.close.map fun c => decide (c < (d.time : Int))).getD false || d.radio.lateSyms.contains (f.car, f.slot, f.stream, f.sym))
  if late then d.dropFrame p f
  else
    let k := if f.mt = 5 then none else d.findFlow false p (f.mt != 0) f.eaxc
    let ws := smGet d.radio.waits p [] ++ [(k, { f with cost := f.len + d.rd RAD_PORT_CFG.ovh_bytes p, arr := d.time })]
    drainPort p { d with radio := { d.radio with waits := smSet d.radio.waits p [] ws } }

/-- Length of a fronthaul frame with its FCS: Ethernet header, eCPRI header and IDs, what follows them, FCS (Table 7-19's example); an Ethernet frame has at least
64 bytes. -/
def frameLen (tagged : Bool) (body : Nat) : Nat := max 64 (14 + (if tagged then 4 else 0) + 4 + 4 + body + 4)

def Device.carVid (d : Device) (c : Nat) : Option Nat := if d.on RAD_CAR_FH.tagged c then some (d.rd RAD_CAR_FH.vid c) else none

/-! ### C-plane and U-plane -/

/-- C-plane section type of a record (R208, Table 7-2): 3 for PRACH, 1 in category A, in category B 6 for a record that carries weights only and 5 for others. -/
def Device.sectType (d : Device) (c : Nat) (r : List Byte) : Nat :=
  if rcPrach r then 3 else if !d.on RAD_CAR_CFG.category c then 1 else if rcNoU r then 6 else 5

/-- Application and section header of a C-plane message by section type (O-RAN CUS-Plane). -/
def cpHdr (sect : Nat) : Nat := if sect = 3 then 24 else 16

/-- Symbols of a downlink slot that are muted: a run that reaches its end (R215). -/
def Device.mutedSyms (d : Device) (x : SlotDec) : List Nat := (List.range 14).filter fun l => d.symMuted x 0 l (d.dlOpen x.car x.slot l)

/-- The mute section of stream k of a slot (R214): all PRBs, the symbols concerned. Uplink mute sends no C-plane; the slot counts as muted. -/
def Device.cplaneMute (d : Device) (x : SlotDec) (dir k : Nat) : Device :=
  let c := x.car
  if dir ≠ 0 then
    if (List.range 14).any fun l => d.symMuted x 1 l (d.ulOpen c x.slot l) then d.countMute x else d
  else
    let ls := d.mutedSyms x
    match ls with
    | [] => d
    | l :: _ =>
      if decide (d.carStreams c 0 ≤ k) || decide ((d.time : Int) < d.cpTime c 0 x.slot l) then d
      else
        let len := frameLen (d.on RAD_CAR_FH.tagged c) (cpHdr 1)
        (d.countMute x).offerFrame (d.rd RAD_CAR_CFG.port c)
          { len := len, cost := 0, mt := 2, vid := d.carVid c, eaxc := d.rd RAD_CAR_FH.eaxc_base c + k, sect := 1, car := c, slot := x.slot, stream := k, sym := l, numSym := ls.length }

/-- C-plane of a slot at its first symbol start less cp_adv_ns (R213): of section record k, or as mute of stream k. A section whose first symbol is
muted is not sent. -/
def cplaneTx (c dir s k : Nat) (mute : Bool) (d : Device) : Device :=
  if !d.carrierOn c then d
  else
    match d.slotDec c s with
    | none => d
    | some x =>
      let b := d.slotBuf c dir s
      let r := d.bufRec b k
      let l := rcStart r
      let t := d.cpTime c dir s l
      if mute then d.cplaneMute x dir k
      else if !(if dir = 0 then x.dl else x.ul) || decide (d.bufSections b ≤ k) || decide ((d.time : Int) < t) || d.symMuted x dir l t then d
      else
        let sect := d.sectType c r
        let ext := if rcExt r = 0 then [] else d.peek devKey spDP (b + rcExt r) (rcExtLen r)
        d.offerFrame (d.rd RAD_CAR_CFG.port c)
          { len := frameLen (d.on RAD_CAR_FH.tagged c) (cpHdr sect + ext.length), cost := 0, mt := 2, vid := d.carVid c
            eaxc := d.rd RAD_CAR_FH.eaxc_base c + (if rcPrach r then 64 else 0) + rcStream r, dir := dir, sect := sect
            car := c, slot := s, stream := rcStream r, sym := l, startPrb := rcPrb r, numPrb := rcPrbs r, reMask := rcMask r
            beam := rcBeam r, section_ := rcSection r, numSym := rcNum r, data := ext }

/-- 2^64 fixed-point cosine of π·a/b for 0 ≤ a ≤ b, by its series about 0 or π/2 (R227's window). -/
def piFix : Nat := 57952155664616982739
def cosSeries (x2 : Int) : Nat → Nat → Int → Int → Int
  | 0, _, _, acc => acc
  | n + 1, k, term, acc =>
    let t := -(term * x2 / (2 ^ 64 : Nat)) / ((2 * k + 1) * (2 * k + 2) : Nat)
    cosSeries x2 n (k + 1) t (acc + t)

def cosFix (a b : Nat) : Int :=
  let x : Int := (piFix * a / b : Nat)
  cosSeries (x * x / (2 ^ 64 : Nat)) 24 0 (2 ^ 64 : Nat) (2 ^ 64 : Nat)

/-- Q15 window value w[n] (R227). -/
def rampW (w n : Nat) : Int := min 32767 (rneShr ((2 ^ 64 : Nat) - cosFix (2 * n + 1) (2 * w)) 50)

/-- A complex INT16 sample times a Q15 value (R227, Table 3-3). -/
def rampSample (w : Int) (bs : List Byte) : List Byte :=
  let p (x : Nat) := (sat16 (rneShr (toSigned 16 x * w) 15)).val
  toLE 2 (ofSigned 16 (p (leAt bs 0 2))) ++ toLE 2 (ofSigned 16 (p (leAt bs 2 2)))

/-- The W ramp samples before the first, or after the last, on symbol: its cyclic extension backward or periodic continuation forward,
windowed (R227). `cp` is the length of the prefix and `n` of the useful part, in samples. -/
def rampBefore (w cp n : Nat) (sym : List Byte) : List Byte :=
  (List.range w).flatMap fun i =>
    let j := (cp + ((n * 64 + i : Nat) - (w + cp : Nat) : Int).toNat % n)
    rampSample (rampW w i) ((sym.drop (4 * j)).take 4)

def rampAfter (w cp n : Nat) (sym : List Byte) : List Byte :=
  (List.range w).flatMap fun i => rampSample (rampW w (w - 1 - i)) ((sym.drop (4 * (cp + i % n))).take 4)

/-- Whether a stream sends downlink data in symbol l of a slot (l may be −1 or 14, in the neighbouring slots). -/
def Device.symOn (d : Device) (c s stream : Nat) (l : Int) : Bool :=
  let s' : Nat := if l < 0 then s - 1 else if 13 < l then s + 1 else s
  let l' : Nat := ((l + 14) % 14).toNat
  match d.slotDec c s' with
  | none => false
  | some x =>
    let b := d.slotBuf c 0 s'
    !d.symMuted x 0 l' (d.dlOpen c s' l') &&
    (List.range (d.bufSections b)).any fun k =>
      rcStream (d.bufRec b k) == stream && rcCovers (d.bufRec b k) l' && !rcNoU (d.bufRec b k)

/-- U-plane payload of a stream's symbol in time-domain mode, with its ramps. -/
def Device.tdPayload (d : Device) (c s stream l : Nat) (sym : List Byte) : List Byte :=
  let w := d.rd RAD_CAR_FH.ramp_w c
  let n := d.tdFft c
  let cp := d.tdSamples c s l - n
  (if d.symOn c s stream ((l : Int) - 1) then [] else rampBefore w cp n sym) ++ sym ++
  (if d.symOn c s stream ((l : Int) + 1) then [] else rampAfter w cp n sym)

/-- Part `part` of the U-plane of symbol l inside its window (R213, R228): the payload of section record k, or, of a muted symbol, every sample of stream k as zero,
over all PRBs (R214). -/
def uplaneTx (c s k l part : Nat) (mute : Bool) (d : Device) : Device :=
  if !d.carrierOn c then d
  else
    match d.slotDec c s with
    | none => d
    | some x =>
      let b := d.slotBuf c 0 s
      let r := d.bufRec b k
      let open_ := d.dlOpen c s l
      let known := if mute then decide (k < d.carStreams c 0) else decide (k < d.bufSections b) && rcCovers r l && !rcNoU r
      if !known || d.symMuted x 0 l open_ != mute || decide ((d.time : Int) < open_) then d
      else
        let stream := if mute then k else rcStream r
        let prbs := if mute then d.rd RAD_CAR_CFG.prbs c else rcPrbs r
        let full := d.payloadLen c 0 s l prbs
        let body :=
          if mute then List.replicate full 0
          else
            let at_ := d.bufIq b + rcIq r + (l - rcStart r) * rcStride r
            let bs := d.peek devKey spDP at_ full
            if d.on RAD_CAR_CFG.td_mode c then d.tdPayload c s stream l bs else bs
        let port := d.rd RAD_CAR_CFG.port c
        let room := d.rd RAD_PORT_CFG.mtu port - 64
        let piece := (body.drop (room * part)).take room
        if piece.isEmpty then d
        else
          let d := if mute then d.countMute x else d
          d.offerFrame port
            { len := frameLen (d.on RAD_CAR_FH.tagged c) (10 + piece.length), cost := 0, close := some (d.dlClose c s l), mt := 0, vid := d.carVid c
              eaxc := d.rd RAD_CAR_FH.eaxc_base c + stream, car := c, slot := s, stream := stream, sym := l
              startPrb := if mute then 0 else rcPrb r, numPrb := prbs, section_ := if mute then 0 else rcSection r, data := piece }

/-! ### Ingress -/

/-- Frames landed and window drops of an uplink symbol. -/
def Device.countFrame (d : Device) (c s l landed dropped : Nat) : Device :=
  let fs := d.radio.frames
  let e := (fs.find? fun f => f.1 == c && f.2.1 == s && f.2.2.1 == l).getD (c, s, l, 0, 0)
  { d with radio := { d.radio with frames :=
      (c, s, l, e.2.2.2.1 + landed, e.2.2.2.2 + dropped) :: fs.filter fun f => !(f.1 == c && f.2.1 == s && f.2.2.1 == l) } }

/-- Landing of a section's payload at the place of each record that covers its symbol and PRBs (R218). -/
def Device.landSection (d : Device) (x : Landed) (data : List Byte) : Device :=
  let c := x.car
  let b := d.slotBuf c 1 x.slot
  let pl := prbLen (d.rd RAD_CAR_FH.ul_comp c) (d.rd RAD_CAR_FH.ul_width c)
  (List.range (d.bufSections b)).foldl (fun d k =>
    let r := d.bufRec b k
    if rcStream r == x.stream && (rcPrach r == x.prach) && rcCovers r x.sym && decide (rcPrb r ≤ x.startPrb) &&
        decide (x.startPrb + x.numPrb ≤ rcPrb r + rcPrbs r) then
      let off := if d.on RAD_CAR_CFG.td_mode c then 0 else (x.startPrb - rcPrb r) * pl
      d.store spDP (d.bufIq b + rcIq r + (x.sym - rcStart r) * rcStride r + off) data
    else d) d

/-- The head of a port's landing queue lands; the tag it carries is verified first (R139, R218). -/
def Device.landNext (d : Device) (port : Nat) : Device :=
  match smGet d.radio.ingress port [] with
  | [] => d
  | g :: gs =>
    let d : Device := { d with radio := { d.radio with ingress := smSet d.radio.ingress port [] gs } }
    let x := g.sect
    if !tagOk x.tag then d.logRadio (unitOf 6 (0x40 + port)) x.car x.slot
    else
      let d := d.landSection x g.data
      let d : Device := { d with radio := { d.radio with landed := x :: d.radio.landed } }
      d.countFrame x.car x.slot x.sym 1 0

/-- Whether PTP diversion takes a frame (R181). -/
def FhFrame.isPtp (f : FhFrame) : Bool := f.etherType == 0x88F7 || f.udpPort == some 319 || f.udpPort == some 320

/-- A one-way delay message (Table 7-2: responder only): a request, with or without follow-up, is answered with the receive stamp as eCPRI 2.0 has it: measurement ID,
action type 0x02, 6 bytes of seconds and 4 of nanoseconds, compensation 0, since the stamp is taken at the reference plane. -/
def Device.oneWayDelay (d : Device) (port : Nat) (f : FhFrame) : Device :=
  if 1 < leAt f.payload 1 1 then d
  else
    let t := (d.rxStamp port).toNat
    let body := f.payload.take 1 ++ toLE 1 2 ++ be 6 (t / secT % 2 ^ 48) ++ be 4 (t % secT / 144) ++ be 8 0
    d.offerFrame port { len := frameLen f.vid.isSome (body.length - 4), cost := 0, mt := 5, vid := f.vid, data := body }

/-- A received U-plane frame that the strainer has passed, of carrier c: muted or outside its reception window it is a window drop, else it is accepted
and lands (R214, R217). -/
def Device.uplaneRx (d : Device) (port c : Nat) (f : FhFrame) : Device :=
  let open_ := d.ulOpen c f.slot f.sym
  let m := match d.slotDec c f.slot with
    | some x => d.symMuted x 1 f.sym open_
    | none => true
  if !d.carrierOn c then d.incSat RAD_PORT_STAT.window port 1
  else if m || decide ((d.time : Int) < open_) || decide (d.ulClose c f.slot f.sym < d.time) then
    (d.incSat RAD_PORT_STAT.window port 1).countFrame c f.slot f.sym 0 1
  else
    let rel := f.eaxc - d.rd RAD_CAR_FH.eaxc_base c
    let prach := decide (64 ≤ rel)
    let tag := mkTag (d.rd RAD_CAR_CFG.owner c) 0 0 6 f.slot 0
    let x : Landed := ⟨c, f.slot, f.sym, if prach then rel - 64 else rel, prach, f.startPrb, f.numPrb, tag⟩
    let q := smGet d.radio.ingress port [] ++ [⟨f.len, d.time, x, f.payload⟩]
    Device.landNext { d with radio := { d.radio with ingress := smSet d.radio.ingress port [] q } } port

/-- A received frame passes the checks of R217 in order, and lands. -/
def fronthaulFrameRx (port : Nat) (f : FhFrame) (d : Device) : Device :=
  if d.isX || d.rd RAD_PORT_CFG.speed port = 0 || !d.on RAD_PORT_STAT.link_up port then d
  else if f.isPtp then d.divertPtp port f.payload
  else if f.etherType ≠ 0xAEFE || !(f.mt == 0 || f.mt == 2 || f.mt == 5) then d.incSat RAD_PORT_STAT.unknown port 1
  else if f.mt = 5 then d.oneWayDelay port f
  else
    match d.findFlow true port (f.mt == 2) f.eaxc with
    | none => d.incSat RAD_PORT_STAT.unknown port 1
    | some k =>
      let c := d.rd RAD_FLOW_CFG.carrier k
      if f.vid ≠ d.carVid c then d.incSat RAD_PORT_STAT.unknown port 1
      else
        let expect := match d.radio.seqs.find? fun x => x.1 == k with
          | some x => (x.2 + 1) % 256
          | none => f.seq
        let d := if f.seq = expect then d else d.incSat RAD_PORT_STAT.seq_gaps port 1
        let d := { d with radio := { d.radio with seqs := smIns d.radio.seqs k f.seq } }
        let cost := f.len + d.rd RAD_PORT_CFG.ovh_bytes port
        let t := d.tokensAt k d.time
        if t < cost * 1024 then (d.setTokens k t d.time).incSat RAD_FLOW_STAT.dropped k 1
        else
          let d := (d.setTokens k (t - cost * 1024) d.time).incWrap RAD_FLOW_STAT.passed k 1
          if f.mt = 2 then d else d.uplaneRx port c f

/-- Whether the uplink control of a slot was posted, so that its buffer holds the records of that slot (R218). -/
def Device.ulPosted (d : Device) (c s : Nat) : Bool := ((d.slotDec c s).map fun x => x.ul).getD false

/-- Before a symbol's reception window opens the landing places of the records that cover it are zero-filled (R218). -/
def ulWindowOpen (c s l : Nat) (d : Device) : Device :=
  if !d.carrierOn c || !d.ulPosted c s then d
  else
    let b := d.slotBuf c 1 s
    (List.range (d.bufSections b)).foldl (fun d k =>
      let r := d.bufRec b k
      if rcCovers r l then
        d.zero spDP (d.bufIq b + rcIq r + (l - rcStart r) * rcStride r) (d.payloadLen c 1 s l (rcPrbs r))
      else d) d

/-- Whether every PRB that the records name for a stream in a symbol arrived; PRACH records count PRACH sections. -/
def Device.streamWhole (d : Device) (c s l stream : Nat) : Bool :=
  let b := d.slotBuf c 1 s
  let rs := ((List.range (d.bufSections b)).map (d.bufRec b)).filter fun r => rcStream r == stream && rcCovers r l
  !rs.isEmpty && rs.all fun r => (List.range (rcPrbs r)).all fun i =>
    d.radio.landed.any fun x => x.car == c && x.slot == s && x.sym == l && x.stream == stream && (x.prach == rcPrach r) &&
      inRange (rcPrb r + i) x.startPrb x.numPrb

/-- The arrival record of a symbol (R219). -/
def ulWindowClose (c s l : Nat) (d : Device) : Device :=
  if !d.carrierOn c || (d.slotDec c s).isNone then d
  else
    let b := d.slotBuf c 1 s
    let mask := ((List.range 64).map fun i => b2n (d.streamWhole c s l i) <<< i).foldl (· + ·) 0
    let e := (d.radio.frames.find? fun f => f.1 == c && f.2.1 == s && f.2.2.1 == l).getD (c, s, l, 0, 0)
    let d := d.store spDP (b + 64 + 32 * d.bufSections b + 16 * l) (toLE 8 mask ++ toLE 4 e.2.2.2.1 ++ toLE 4 e.2.2.2.2)
    { d with radio := { d.radio with
        landed := d.radio.landed.filter fun x => !(x.car == c && x.slot == s && x.sym == l)
        frames := d.radio.frames.filter fun f => !(f.1 == c && f.2.1 == s && f.2.2.1 == l) } }

/-- A fronthaul port's link goes up or down (R205, Table 7-4); without EREF no port comes up (R520). -/
def fronthaulLinkChange (p : Nat) (up : Bool) (d : Device) : Device :=
  if d.isX then d
  else
    let d := drainPort p d
    let d : Device := if up then { d with radio := { d.radio with busy := smSet d.radio.busy p 0 (max (smGet d.radio.busy p 0) d.time) } } else d
    d.wr RAD_PORT_STAT.link_up p (b2n (up && d.rd RAD_PORT_CFG.speed p != 0))

/-! ### Sampling, slots -/

/-- Depth in bytes and head arrival of queue i = 9p + q (R231). -/
def Device.queueDepth (d : Device) (i : Nat) : Nat × Option Nat :=
  let p := i / 9
  let q := i % 9
  if q = 8 then
    let xs := smGet d.radio.ingress p []
    ((xs.map fun x => x.len).foldl (· + ·) 0, xs.head?.map fun x => x.arr)
  else
    let xs := (smGet d.radio.egress p []).filter fun f => f.q == q
    ((xs.map fun f => f.len).foldl (· + ·) 0, xs.head?.map fun f => f.arr)

/-- What happens at every port's egress up to now. -/
def Device.drainPorts (d : Device) : Device := (List.range 4).foldl (fun d p => drainPort p d) d

/-- One sample of every fronthaul queue (R231). -/
def qsampTick (d : Device) : Device :=
  if d.isX || !d.on RAD_QSAMP_CFG.enable 0 then d
  else
    let d := d.drainPorts
    (List.range 36).foldl (fun d i =>
      let s := d.queueDepth i
      let depth := min (s.1 / 1024) 4095
      let delay := match s.2 with
        | some a => min ((d.time - a) / 144) 1048575
        | none => 0
      let d := (d.wr RAD_QSTAT.last_depth_kib i depth).wr RAD_QSTAT.last_delay_ns i delay
      (d.wr RAD_QSTAT.max_depth_kib i (max depth (d.rd RAD_QSTAT.max_depth_kib i))).wr RAD_QSTAT.max_delay_ns i
        (max delay (d.rd RAD_QSTAT.max_delay_ns i))) d

end Sys2Proof.Machine
end

