-- ==== Sys2Proof/Machine/Lane.lean ====
section
/-! DEFINITION. What one core does inside a leg: tile-store access within the leg's granules, signal-lane instructions with their
latencies, block exponents, division, feeders, cubes and the epilogue. Each operation answers how the leg goes on. -/

namespace Sys2Proof.Machine

/-- How a leg goes on after one of its operations: on, or stopped with a status, a fault-record op and an address (R59, R60). -/
inductive LegRes where
  | go (d : Device) (l : Leg)
  | stop (d : Device) (l : Leg) (st op addr : Nat)
  deriving DecidableEq, Repr

/-- Cell offset of a tile-store address of a logical core in its space (Table 9-1). -/
def tsOff (n a : Nat) : Nat := n * 2097152 + a

/-- A 16-bit partition field (Table 2-15). -/
def partValid (p : Nat) : Bool := bit p 15
def partLast (p : Nat) : Nat := bits p 13 10
def partFirst (p : Nat) : Nat := bits p 9 6
def partOwner (p : Nat) : Nat := bits p 5 0

/-- Owner of a granule in a COR_TSPART value; none where no valid partition covers it. -/
def ownerIn (v g : Nat) : Option Nat :=
  ((List.range 4).map fun i => bits v (16 * i + 15) (16 * i)).findSome? fun p =>
    if partValid p && decide (partFirst p ≤ g) && decide (g ≤ partLast p) then some (partOwner p) else none

/-- Owner of a granule of a core now. -/
def Device.granuleOwner (d : Device) (n g : Nat) : Option Nat := ownerIn (d.reg .COR_TSPART n).toNat g

/-- Whether every granule of a mask is owned by a tenancy on a core. -/
def Device.ownsMask (d : Device) (n t mask : Nat) : Bool :=
  (List.range 16).all fun g => !bit mask g || d.granuleOwner n g == some t

/-- Whether an address range of the tile store lies in a tenancy's granules (R60). -/
def Device.ownsRange (d : Device) (n t a len : Nat) : Bool :=
  decide (a + len ≤ 2097152) &&
  (List.range ((a + len + 131071) / 131072 - a / 131072)).all fun i => d.granuleOwner n (a / 131072 + i) == some t

/-- Tile-store read by the leg: outside its granules it stops with FAULT_XLATE, on an uncorrectable word with ECC_UNCORR. -/
def Device.tsRead (d : Device) (n : Nat) (l : Leg) (a len : Nat) (k : List Byte → LegRes) : LegRes :=
  if !d.ownsRange n l.ten a len then .stop d l stFault 0x09 a
  else
    match d.poisonIn spTS (tsOff n a) len with
    | some _ => .stop d l stEcc 0x02 a
    | none => k (d.peek devKey spTS (tsOff n a) len)

/-- Tile-store write by the leg. -/
def Device.tsWrite (d : Device) (n : Nat) (l : Leg) (a : Nat) (bs : List Byte) : LegRes :=
  if !d.ownsRange n l.ten a bs.length then .stop d l stFault 0x09 a
  else
    match d.poisonWrite spTS (tsOff n a) bs.length with
    | none => .stop d l stEcc 0x02 a
    | some d => .go (d.store spTS (tsOff n a) bs) l

/-- Flags raised by the running leg: sticky at once, and kept for last_leg (R110). -/
def Device.raiseFl (d : Device) (n fl : Nat) : Device :=
  let r := d.reg .COR_ARITH_STAT n
  d.setReg .COR_ARITH_STAT n (r ||| BitVec.ofNat 64 (fl % 2048))

def Leg.addFl (l : Leg) (fl : Nat) : Leg := { l with flags := l.flags ||| fl }

/-- A leg goes on with flags raised. -/
def goFl (d : Device) (n : Nat) (l : Leg) (fl : Nat) : LegRes := .go (d.raiseFl n fl) (l.addFl fl)

/-! ### Vector registers -/

/-- Bank, row and byte of a tile-store address (R50). -/
def tsBank (a : Nat) : Nat := bits a 11 7
def tsRow (a : Nat) : Nat := bits a 20 12
def tsByte (a : Nat) : Nat := bits a 6 0

/-- A vector register as an instruction issued in cycle `cyc` reads it: results whose latency has not elapsed are not seen (R43). DESIGN CHOICE (log 136): of two
results of one register whose latencies overlap, the one of the later instruction is read once its own latency has elapsed. -/
def Lane.read (x : Lane) (cyc r : Nat) : List Byte :=
  match (x.late.filter fun e => e.2.1 == r && decide (e.1 ≤ cyc)).getLast? with
  | some e => e.2.2
  | none => smGet x.v r (List.replicate 128 0)

/-- A result that becomes readable `lat` cycles after issue. -/
def Lane.write (x : Lane) (cyc lat r : Nat) (v : List Byte) : Lane :=
  -- results now readable move into the register file, in order of issue; an earlier one of the same register that is still to come is overtaken
  let due := x.late.filter fun e => decide (e.1 ≤ cyc)
  let v0 := due.foldl (fun m e => smSet m e.2.1 (List.replicate 128 0) e.2.2) x.v
  let rest := (x.late.zipIdx.filter fun e => !decide (e.1.1 ≤ cyc) && !((x.late.drop (e.2 + 1)).any fun f => f.2.1 == e.1.2.1 && decide (f.1 ≤ cyc))).map fun e => e.1
  { x with v := v0, late := rest ++ [(cyc + lat, r, v)] }

/-- FP32 lanes, 16-bit and 8-bit elements of a vector. -/
def lanes32 (v : List Byte) : List Nat := (List.range 32).map fun i => leAt v (4 * i) 4
def lanes16 (v : List Byte) : List Nat := (List.range 64).map fun i => leAt v (2 * i) 2
def lanes8 (v : List Byte) : List Nat := (List.range 128).map fun i => leAt v i 1
def vec32 (xs : List Nat) : List Byte := xs.flatMap (toLE 4)
def vec16 (xs : List Int) : List Byte := xs.flatMap fun x => toLE 2 (ofSigned 16 x)
def vec8 (xs : List Int) : List Byte := xs.flatMap fun x => toLE 1 (ofSigned 8 x)

/-- Element-wise operations. -/
def map32 (f : Nat → Res Nat) (a : List Byte) : Res (List Byte) :=
  let r := Res.gather ((lanes32 a).map f)
  ⟨vec32 r.val, r.fl⟩

def zip32 (f : Nat → Nat → Res Nat) (a b : List Byte) : Res (List Byte) :=
  let r := Res.gather (List.zipWith f (lanes32 a) (lanes32 b))
  ⟨vec32 r.val, r.fl⟩

def zip16 (f : Int → Int → Res Int) (a b : List Byte) : Res (List Byte) :=
  let r := Res.gather (List.zipWith (fun x y => f (toSigned 16 x) (toSigned 16 y)) (lanes16 a) (lanes16 b))
  ⟨vec16 r.val, r.fl⟩

def zip8 (f : Int → Int → Res Int) (a b : List Byte) : Res (List Byte) :=
  let r := Res.gather (List.zipWith (fun x y => f (toSigned 8 x) (toSigned 8 y)) (lanes8 a) (lanes8 b))
  ⟨vec8 r.val, r.fl⟩

/-- FP32 maximum, exact; a NaN gives the canonical NaN (R81), and a subnormal result is tiny (R80). DESIGN CHOICE (log 137): of +0 and −0 the first operand. -/
def fMax (a b : Nat) : Res Nat :=
  let x := fp32.decode a
  let y := fp32.decode b
  if x.isNan || y.isNan then ⟨fp32.nan, flNanIn⟩
  else
    let bigger : Bool :=
      match x, y with
      | .inf n, _ => !n
      | _, .inf n => n
      | .fin _ _ e, .fin _ _ e' => decide (y.coeff (min e e') ≤ x.coeff (min e e'))
      | _, _ => true
    (fp32.round (if bigger then x else y))

/-- One level of the fixed cross-lane tree: neighbours 2i and 2i + 1. -/
def pairUp (f : Nat → Nat → Res Nat) : List Nat → Res (List Nat)
  | a :: b :: xs =>
    let r := f a b
    let rest := pairUp f xs
    ⟨r.val :: rest.val, r.fl ||| rest.fl⟩
  | xs => ⟨xs, 0⟩

/-- The fixed tree from 32 lanes to 1 (Table 3-3). -/
def tree32 (f : Nat → Nat → Res Nat) (xs : List Nat) : Res Nat :=
  let l1 := pairUp f xs
  let l2 := pairUp f l1.val
  let l3 := pairUp f l2.val
  let l4 := pairUp f l3.val
  let l5 := pairUp f l4.val
  ⟨l5.val.headD 0, l1.fl ||| l2.fl ||| l3.fl ||| l4.fl ||| l5.fl⟩

/-- INT32 parts of complex products of 16 of the 32 complex INT16 samples of two vectors; the twiddle form divides by 2^15 with
RNE. DESIGN CHOICE (log 137): the one product that does not fit, an imaginary part of 2^31 from four mantissas of −32,768, saturates with int_sat. -/
def cmulVec (tw hi : Bool) (a b : List Byte) : Res (List Byte) :=
  let o := if hi then 64 else 0
  let parts := (List.range 16).flatMap fun i =>
    let ar := toSigned 16 (leAt a (o + 4 * i) 2)
    let ai := toSigned 16 (leAt a (o + 4 * i + 2) 2)
    let br := toSigned 16 (leAt b (o + 4 * i) 2)
    let bi := toSigned 16 (leAt b (o + 4 * i + 2) 2)
    [ar * br - ai * bi, ar * bi + ai * br]
  let r := Res.gather (parts.map fun x => sat32 (if tw then rneShr x 15 else x))
  ⟨r.val.flatMap fun x => toLE 4 (ofSigned 32 x), r.fl⟩

/-- Left shift saturates, right shift truncates toward −∞ (Table 3-3). -/
def shift16 (sh x : Int) : Res Int :=
  if 0 ≤ sh then ⟨x / (2 ^ sh.toNat : Nat), 0⟩ else sat16 (x * (2 ^ (-sh).toNat : Nat))

/-- FMA of the 64 half-width elements of two vectors into 64 FP32 lanes, held by two registers (Table 2-6). -/
def fmaHalf (f : FFmt) (x : Lane) (cyc d a b : Nat) : Res (List Byte) :=
  let acc := lanes32 (x.read cyc d) ++ lanes32 (x.read cyc ((d + 1) % 32))
  let r := Res.gather ((List.range 64).map fun i => fFma f ((lanes16 (x.read cyc a)).getD i 0) ((lanes16 (x.read cyc b)).getD i 0) (acc.getD i 0))
  ⟨vec32 r.val, r.fl⟩

/-- A signal-lane instruction: first result register, latency (Table 2-6), result and flags, its operands read in cycle `cyc`. A result of 256 bytes takes the
next register too. DESIGN CHOICE (log 137): `signI8` negates its second operand where the first is below 0, `selI8` takes its third operand where the first is below
the second, else its fourth; the conversion to INT16 has the latency of the FP32 group. -/
def laneOp (x : Lane) (cyc : Nat) : LaneOp → Nat × Nat × Res (List Byte)
  | .fma32 d a b c =>
    let r := Res.gather ((List.range 32).map fun i =>
      fFma fp32 ((lanes32 (x.read cyc a)).getD i 0) ((lanes32 (x.read cyc b)).getD i 0) ((lanes32 (x.read cyc c)).getD i 0))
    (d, 4, ⟨vec32 r.val, r.fl⟩)
  | .add32 d a b => (d, 4, zip32 fAdd (x.read cyc a) (x.read cyc b))
  | .mul32 d a b => (d, 4, zip32 fMul (x.read cyc a) (x.read cyc b))
  | .fmaBf16 d a b => (d, 4, fmaHalf bf16 x cyc d a b)
  | .fmaFp16 d a b => (d, 4, fmaHalf fp16 x cyc d a b)
  | .addI16 d a b => (d, 2, zip16 (fun p q => sat16 (p + q)) (x.read cyc a) (x.read cyc b))
  | .subI16 d a b => (d, 2, zip16 (fun p q => sat16 (p - q)) (x.read cyc a) (x.read cyc b))
  | .mulQ15 d a b => (d, 2, zip16 (fun p q => sat16 (rneShr (p * q) 15)) (x.read cyc a) (x.read cyc b))
  | .shiftI16 d a sh =>
    let r := Res.gather ((lanes16 (x.read cyc a)).map fun p => shift16 sh (toSigned 16 p))
    (d, 2, ⟨vec16 r.val, r.fl⟩)
  | .addI8 d a b => (d, 2, zip8 (fun p q => sat8 (p + q)) (x.read cyc a) (x.read cyc b))
  | .minI8 d a b => (d, 2, zip8 (fun p q => sat8 (min p q)) (x.read cyc a) (x.read cyc b))
  | .maxI8 d a b => (d, 2, zip8 (fun p q => sat8 (max p q)) (x.read cyc a) (x.read cyc b))
  | .selI8 d a b c e =>
    let r := Res.gather ((List.range 128).map fun i =>
      let g (v : Nat) : Int := toSigned 8 ((lanes8 (x.read cyc v)).getD i 0)
      sat8 (if g a < g b then g c else g e))
    (d, 2, ⟨vec8 r.val, r.fl⟩)
  | .signI8 d a b => (d, 2, zip8 (fun p q => sat8 (if p < 0 then -q else q)) (x.read cyc a) (x.read cyc b))
  | .cmul d a b hi => (d, 3, cmulVec false hi (x.read cyc a) (x.read cyc b))
  | .cmulTw d a b hi => (d, 3, cmulVec true hi (x.read cyc a) (x.read cyc b))
  | .butterfly d a k =>
    let v := x.read cyc a
    (d, 2, ⟨(List.range 32).flatMap fun i => (v.drop (4 * (i ^^^ (2 ^ (k % 5))))).take 4, 0⟩)
  | .shuffle d a rot =>
    let v := x.read cyc a
    (d, 2, ⟨(List.range 32).flatMap fun i => (v.drop (4 * ((i + rot) % 32))).take 4, 0⟩)
  | .gather d a idx =>
    let v := x.read cyc a
    (d, 2, ⟨(lanes8 (x.read cyc idx)).map fun i => v.getD (i % 128) 0, 0⟩)
  | .recip d a => (d, 3, map32 recipSeed (x.read cyc a))
  | .rsqrt d a => (d, 3, map32 rsqrtSeed (x.read cyc a))
  | .exp2 d a => (d, 3, map32 exp2Seed (x.read cyc a))
  | .sum32 d a =>
    let r := tree32 fAdd (lanes32 (x.read cyc a))
    (d, 5, ⟨vec32 (List.replicate 32 r.val), r.fl⟩)
  | .max32 d a =>
    let r := tree32 fMax (lanes32 (x.read cyc a))
    (d, 5, ⟨vec32 (List.replicate 32 r.val), r.fl⟩)
  | .toI16 d a =>
    let r := Res.gather ((lanes32 (x.read cyc a)).map fun p => (fp32.decode p).toInt (-32768) 32767 flIntSat)
    (d, 4, ⟨vec16 r.val ++ List.replicate 64 0, r.fl⟩)

/-- SHSET t, lo, hi (R90). -/
def shsetVal (bem : Nat) (t lo hi : Int) : Int := max (-15) (min 15 (min (max ((bem : Int) - t) lo) hi))

/-- A generator's circular length is 128 bytes to 64 KiB (R44). -/
def ZGen.wf (z : ZGen) : Bool := decide (7 ≤ z.lenLog) && decide (z.lenLog ≤ 16)

/-- Bus Z: the address read, and the generator advanced by its stride within the circular length (R44). -/
def ZGen.next (z : ZGen) : Nat × ZGen := (z.base + z.pos, { z with pos := (z.pos + z.stride) % 2 ^ z.lenLog })

/-! ### Feeders and cubes -/

def Leg.cube (l : Leg) (u : Nat) : Cube := smGet l.cubes u {}
def Leg.setCube (l : Leg) (u : Nat) (c : Cube) : Leg := { l with cubes := smSet l.cubes u {} c }
def Leg.quad (l : Leg) (q : Nat) : Quad := smGet l.quads q {}
def Leg.setQuad (l : Leg) (q : Nat) (c : Quad) : Leg := { l with quads := smSet l.quads q {} c }

/-- Entries of one line that share a scale byte: an MX block has 32 elements (R74), a CBF16 block 16 samples (R77); 0 where the scale field is ignored. -/
def CFmt.perScale (f : CFmt) : Nat := if f = .mxfp4 then 1 else if f.isMx then 2 else if f = .cbf16 then 4 else 0

/-- Scale bytes that go with one 128-byte line of elements. -/
def CFmt.scaleBytes (f : CFmt) : Nat := if f.perScale = 0 then 0 else 8 / f.perScale

/-- The row of eight feeder entries a 128-byte line delivers (R36), each with the scale byte of the block its elements lie in (R31, R74, R77). -/
def feedRow (f : CFmt) (line scales : List Byte) : List Feed :=
  (List.range 8).map fun r => ⟨(line.drop (16 * r)).take 16, if f.perScale = 0 then 0 else (scales.getD (r / f.perScale) 0).toNat⟩

/-- The partner that shares a fill: cubes U4q and U4q+1, U4q+2 and U4q+3 for A; U4q and U4q+2, U4q+1 and U4q+3 for B (R37). -/
def sharePartner (isB : Bool) (u : Nat) : Nat :=
  if isB then (if u % 4 < 2 then u + 2 else u - 2) else (if u % 2 = 0 then u + 1 else u - 1)

/-- The pass whose operands a cube fetches next on a side: entries fetched so far run ahead of the pops. -/
def fetchTarget : List Pass → Nat → Option (Pass × Nat)
  | [], _ => none
  | p :: ps, k => if k < p.desc.n - p.done then some (p, p.done + k) else fetchTarget ps (k - (p.desc.n - p.done))

/-- A fill lands in the queue set of a cube, when it has space (R36). -/
def Cube.push (c : Cube) (isB : Bool) (row : List Feed) : Cube :=
  if isB then (if c.bq.length < 8 then { c with bq := c.bq ++ [row] } else c)
  else (if c.aq.length < 8 then { c with aq := c.aq ++ [row] } else c)

/-- What a cube's A or B queues ask for next: the pass and its K-step, while there is space (R36). -/
def Cube.wants (c : Cube) (isB : Bool) : Option (Pass × Nat) :=
  let q := if isB then c.bq else c.aq
  if 8 ≤ q.length then none else fetchTarget c.queue q.length

/-- Whether the mate of a cube shares a fill of a pass's K-step k: it runs a pass of the same format and K length, and asks for the same step (R37). -/
def Cube.shares (c : Cube) (isB : Bool) (p : Pass) (k : Nat) : Bool :=
  match c.wants isB with
  | some (p', k') => p'.desc.fmt == p.desc.fmt && p'.desc.n == p.desc.n && k' == k && p'.done == p.done
  | none => false

/-- A granted fill of a cube's A or B queues (R36, R37). A mate that shares gets the same row. The scale bytes come with the line where the format has them
(log 19). -/
def feederFill (d : Device) (n : Nat) (l : Leg) (u : Nat) (isB : Bool) : LegRes :=
  let c := l.cube u
  match c.wants isB with
  | none => .go d l
  | some (p, k) =>
    let f := p.desc.fmt
    let base := if isB then p.desc.b else p.desc.a
    let sc := if isB then p.desc.bScale else p.desc.aScale
    let m := sharePartner isB u
    let share := (if isB then p.desc.shareB else p.desc.shareA) && (l.cube m).shares isB p k
    let fill (line scales : List Byte) : LegRes :=
      let row := feedRow f line scales
      let l := { l.setCube u (c.push isB row) with lostFills := l.lostFills.filter fun x => x != u }
      .go d (if share then l.setCube m ((l.cube m).push isB row) else l)
    d.tsRead n l (base + 128 * k) 128 fun line =>
      if f.scaleBytes = 0 then fill line [] else d.tsRead n l (sc + f.scaleBytes * k) f.scaleBytes (fill line)

/-- One pop of a cube in leg cycle `cyc` (R34, R35): when both queue sets hold the entry of the current K-step it accumulates, otherwise it
bubbles. A pass shorter than 4 K-steps pops nothing for the rest of its 4 cycles. A finished pass leaves its bank to the epilogue and the next pass takes the
other bank (R33). A bubble of a cube whose fill lost arbitration counts, once a cycle (Table 2-14). -/
def feederPop (d : Device) (n : Nat) (l : Leg) (u cyc : Nat) : LegRes :=
  let c := l.cube u
  if cyc < c.free then .go d l
  else match c.queue, c.aq, c.bq with
  | p :: ps, a :: as, b :: bs =>
    let first := p.done = 0
    let bankNo := if first then c.nextBank else p.bank
    let busy := if bankNo = 0 then c.full0.isSome else c.full1.isSome
    if first && busy then .go d l
    else
      let bank := if bankNo = 0 then c.bank0 else c.bank1
      let r := kStepTile p.desc.fmt first bank a b
      let p' : Pass := { p with done := p.done + 1, bank := bankNo, pops := p.pops ++ [(a, b)] }
      let fin := decide (p.desc.n ≤ p'.done)
      let c' : Cube := { c with
        aq := as, bq := bs
        queue := if fin then ps else p' :: ps
        bank0 := if bankNo = 0 then r.val else c.bank0
        bank1 := if bankNo = 0 then c.bank1 else r.val
        full0 := if fin && bankNo = 0 then some p' else c.full0
        full1 := if fin && bankNo != 0 then some p' else c.full1
        nextBank := if first then 1 - bankNo else c.nextBank
        free := if fin then cyc + 1 + (4 - p.desc.n) else cyc + 1 }
      goFl d n (l.setCube u c') r.fl
  | _ :: _, _, _ =>
    if l.lostFills.contains u && decide (l.stalled ≤ cyc) then .go (d.incSat COR_BANKSTAT.conflict_stalls n 1) { l with stalled := cyc + 1 } else .go d l
  | _, _, _ => .go d l

/-- The scale or bias vector entry c of a pass: FP32 values in the tile store (epilogue steps 4 and 5). -/
def vecEntry (bs : List Byte) (c : Nat) : Nat := leAt bs (4 * c) 4

/-- Steps 1 to 5 of one cube's completed bank, with the held partial tile it leaves (R97). -/
def epi15 (form : List Byte) (p : Pass) (bank : List Accu) (part : Option (List Accu)) (rs : Nat → Nat)
    (cs bs : List Byte) : Res (List Nat × List Accu) × Option (List Accu) :=
  let s1 := step1 p.desc.fmt form bank
  let s2 := step2 p.desc.fmt form part s1.val
  let part' := if formCombine form = 0 then part else if formCombine form = 1 then some s2.val else none
  if keepsInt p.desc.fmt form || (p.desc.fmt == .cbf16 && formOut form == 7) then
    (⟨([], s2.val), s1.fl ||| s2.fl⟩, part')
  else
    let s5 := steps345 form rs (vecEntry cs) (vecEntry bs) s2.val
    (⟨(s5.val, s2.val), s1.fl ||| s2.fl ||| s5.fl⟩, part')

/-- Output of the epilogue for one tile: data bytes, CBF16 exponent byte, the values for the row statistic, flags. -/
structure EpiOut where
  data : List Byte
  exp : Option Nat
  xs : List Nat
  deriving DecidableEq, Repr

/-- Steps 6 to 9 (R98, R530). -/
def epi69 (fmt : CFmt) (form : List Byte) (g : List Nat × List Accu) (u : Option (List Nat)) : Res EpiOut :=
  if keepsInt fmt form then ⟨⟨g.2.flatMap fun a => toLE 4 (ofSigned 32 a.re), none, []⟩, 0⟩
  else if fmt == .cbf16 && formOut form == 7 then
    let r := cbfBlock g.2
    ⟨⟨r.val.1, some r.val.2, []⟩, r.fl⟩
  else
    let r := Res.gather ((List.range g.1.length).map fun i => out1 form (g.1.getD i 0) (u.map fun x => x.getD i 0))
    let xs := Res.gather ((List.range g.1.length).map fun i => statX form (g.1.getD i 0) (u.map fun x => x.getD i 0))
    ⟨⟨r.val.flatMap (toLE (outBytes (formOut form))), none, xs.val⟩, r.fl ||| (if formRowstat form = 1 then xs.fl else 0)⟩

end Sys2Proof.Machine
end

