-- ==== Sys2Proof/Machine/Chan.lean ====
section
/-! DEFINITION. Suspension of a transfer channel, or of a route context that reports as one, on a translation fault (R285, R288). -/

namespace Sys2Proof.Machine

/-- Channel number of route context x of logical engine e (R285). -/
def routeChan (e x : Nat) : Nat := 192 + 8 * e + x

/-- Unit ID of a channel number (Table 12-3). -/
def chanUnit (ch : Nat) : Nat := unitOf 6 (0x100 + ch)

/-- Unit ID of the logical core's requester r (Table 12-3). -/
def Device.reqUnit (d : Device) (n r : Nat) : Nat := unitOf (d.phys n / 52) (0x100 + 32 * (d.phys n % 52) + r)

/-- Page of a fault: 2 MiB, or 4 KiB of host memory. -/
def faultPage (host : Bool) (ga : Nat) : Nat := if host then ga / 4096 else ga / pageSize

/-- Whether service cannot resolve a translation fault at an address of this device: an unused space, an offset beyond the end of its space
(R262), or the locked debug window (R263). -/
def Device.beyondService (d : Device) (ga : Nat) : Bool :=
  d.isLocal ga && gaSp ga != 8 && (decide (2 < gaSp ga) || decide (d.spacePages (gaSp ga) ≤ gaOff ga / pageSize))

/-- Whether regions, and not translation, refuse a write (R325): no service resolves that. -/
def Device.regionRefuses (d : Device) (t ga : Nat) : Bool := (d.locate t ga true).isSome && !d.ownWrites t ga 1

/-- A fault that awaits service suspends the channel: the record, MEM_CHAN_ADDR, the tenancy's fault vector (R288). A fault while already
suspended joins the suspension. `host` says that the address is one of host memory. The answer says whether the channel fails instead: at the fourth consecutive fault on one page, and at a fault
that service cannot resolve. -/
def Device.suspendChan (d : Device) (ch t ga : Nat) (host : Bool) : Device × Bool :=
  let st := d.rd MEM_CHAN_STAT.state ch
  if st = 2 || st = 3 then (d, false)
  else if !host && (d.beyondService ga || d.regionRefuses t ga) then (d, true)
  else
    let same := faultPage host (d.rd MEM_CHAN_ADDR.fault_addr ch) = faultPage host ga
    let n := if same then d.rd MEM_CHAN_STAT.fault_repeat ch + 1 else 1
    if 4 ≤ n then (d, true)
    else
      let d := (d.wr MEM_CHAN_STAT.fault_repeat ch n).wr MEM_CHAN_ADDR.fault_addr ch ga
      let d := d.log { unit := chanUnit ch, sev := 0, op := 0x09, detail := ga, ten := t, addr := ga }
      if host then (d.wr MEM_CHAN_STAT.state ch 3, false)
      else ((d.wr MEM_CHAN_STAT.state ch 2).raise t (d.rd MEM_XT_BASE.fault_vector t), false)

/-- The second record of a channel that fails with FAULT_XLATE (R288). -/
def Device.logXlate (d : Device) (unit t ga : Nat) : Device :=
  d.log { unit := unit, sev := 2, op := 0x09, detail := ga, ten := t, addr := ga }

end Sys2Proof.Machine
end

