-- ==== Sys2Proof/Machine/Manifest.lean ====
section
/-! DEFINITION. The manifest image, its checks in order (Table 4-4, checks 5 to 13), the verified set and its seals (R112–R118). -/

namespace Sys2Proof.Machine

/-- Header fields (Table 4-1). -/
def mhMagic (h : List Byte) : Nat := leAt h 0 4
def mhVersion (h : List Byte) : Nat := leAt h 4 2
def mhLevel (h : List Byte) : Nat := leAt h 6 1
def mhClasses (h : List Byte) : Nat := leAt h 7 1
def mhId (h : List Byte) : Nat := leAt h 8 3
def mhFlags (h : List Byte) : Nat := leAt h 11 1
def mhLen (h : List Byte) : Nat := leAt h 12 4
def mhLegs (h : List Byte) : Nat := leAt h 16 2
def mhForms (h : List Byte) : Nat := leAt h 18 2
def mhLegTab (h : List Byte) : Nat := leAt h 20 4
def mhFormTab (h : List Byte) : Nat := leAt h 24 4
def mhRes (h : List Byte) : Nat := leAt h 28 4
def mhCode (h : List Byte) : Nat := leAt h 32 4
def mhCodeLen (h : List Byte) : Nat := leAt h 36 4

/-- Regions of an image: header, leg table, form table, resource block, code (R114). -/
def mhRegions (h : List Byte) : List (Nat × Nat) :=
  [(0, 128), (mhLegTab h, 32 * mhLegs h), (mhFormTab h, 16 * mhForms h), (mhRes h, 64), (mhCode h, mhCodeLen h)]

/-- No two of a list of regions overlap; an empty region overlaps none. -/
def disjoint : List (Nat × Nat) → Bool
  | [] => true
  | r :: rs => (rs.all fun s => r.2 == 0 || s.2 == 0 || decide (r.1 + r.2 ≤ s.1) || decide (s.1 + s.2 ≤ r.1)) && disjoint rs

/-- Header part of check 7: length and offsets are decided before any further byte is read (R114, R116). -/
def headerOk (h : List Byte) : Bool :=
  mhMagic h == 0x09604D46 && mhVersion h == 1 && mhId h != 0 && mhId h != 0xFFFFFF &&
  mhLen h % 128 == 0 && decide (128 ≤ mhLen h) && decide (mhLen h ≤ 67108864) &&
  mhLegs h != 0 && decide (mhForms h ≤ 4096) && bits (mhClasses h) 7 3 == 0 && bits (mhFlags h) 7 2 == 0 &&
  leAt h 40 24 == 0 && mhCodeLen h % 128 == 0 &&
  [mhLegTab h, mhFormTab h, mhRes h, mhCode h].all (fun o => o % 128 == 0) &&
  (mhRegions h).all (fun r => decide (r.1 + r.2 ≤ mhLen h)) && disjoint (mhRegions h)

/-- Resource-block part of check 7 (Table 4-2). -/
def resourceOk (r : List Byte) : Bool :=
  decide (1 ≤ leAt r 0 2) && decide (leAt r 0 2 ≤ 192) && decide (leAt r 2 1 ≤ 1) && decide (leAt r 3 1 ≤ 8) &&
  leAt r 6 2 == 0 && leAt r 12 4 == 0 && decide (leAt r 32 2 ≤ 4095) && leAt r 34 30 == 0

/-- Leg-table entry fields (Table 4-3). -/
def lgBound (e : List Byte) : Nat := leAt e 0 4
def lgBody (e : List Byte) : Nat := leAt e 4 4
def lgPos (e : List Byte) : Nat := leAt e 8 2
def lgAfter0 (e : List Byte) : Nat := leAt e 10 2
def lgAfter1 (e : List Byte) : Nat := leAt e 12 2
def lgGranules (e : List Byte) : Nat := leAt e 14 2
def lgCodeOff (e : List Byte) : Nat := leAt e 16 4
def lgCodeLen (e : List Byte) : Nat := leAt e 20 4
def lgLine (e : List Byte) : Nat := leAt e 24 2
def lgResident (e : List Byte) : Bool := bit (leAt e 26 1) 0
def lgFormBase (e : List Byte) : Nat := leAt e 28 2

/-- Granules that a leg's code occupies (R119). -/
def lgCodeGranules (e : List Byte) : List Nat :=
  (List.range 16).filter fun g => decide (128 * lgLine e < 131072 * (g + 1)) &&
    decide (131072 * g < 128 * lgLine e + lgCodeLen e)

/-- Check 11 of Table 4-4 for leg `i`. DESIGN CHOICE (log 144): what Table 4-3 asks of an entry beyond the words of check 11 (its reserved bits and bytes, the
multiples of 128 of its code) fails this check too. -/
def legOk (h res : List Byte) (i : Nat) (e : List Byte) : Bool :=
  decide (26 ≤ lgBound e) && decide (lgBound e ≤ 262144) && decide (lgPos e < leAt res 0 2) &&
  (lgAfter0 e == 0xFFFF || decide (lgAfter0 e < i)) && (lgAfter1 e == 0xFFFF || decide (lgAfter1 e < i)) &&
  lgCodeOff e % 128 == 0 && lgCodeLen e % 128 == 0 && decide (lgCodeLen e ≤ 1048576) &&
  decide (lgCodeOff e + lgCodeLen e ≤ mhCodeLen h) && decide (128 * lgLine e + lgCodeLen e ≤ 2097152) &&
  ((lgCodeGranules e).all fun g => bit (lgGranules e) g) &&
  bits (leAt e 26 1) 7 1 == 0 && leAt e 27 1 == 0 && leAt e 30 2 == 0 &&
  (if mhForms h = 0 then lgFormBase e == 0 else decide (lgFormBase e < mhForms h))

/-- Leg entries, forms and resource block of an image. -/
def imgLegs (h img : List Byte) : List (List Byte) :=
  (List.range (mhLegs h)).map fun i => (img.drop (mhLegTab h + 32 * i)).take 32
def imgForms (h img : List Byte) : List (List Byte) :=
  (List.range (mhForms h)).map fun i => (img.drop (mhFormTab h + 16 * i)).take 16
def imgRes (h img : List Byte) : List Byte := (img.drop (mhRes h)).take 64

/-- The manifest hash (R113): SHA-512 of the image with bytes 64–127 taken as zero. -/
def imgHash (img : List Byte) : List Byte := sha512 (img.take 64 ++ List.replicate 64 0 ++ img.drop 128)

/-- Whether a logical routing engine works (R24): neither in test nor lost (Table 8-14), its die working. -/
def Device.engineWorks (d : Device) (e : Nat) : Bool := (d.rd RTE_MAP.state e == 2 || d.rd RTE_MAP.state e == 3 || d.rd RTE_MAP.state e == 0) && d.dieWorks (4 + e / 4)

/-- Bytes of tier 1 that work: the map in force (R495), short of stacks that have failed since. -/
def Device.tier1Room (d : Device) : Nat :=
  min (d.spacePages 0 * pageSize) (((List.range 8).filter d.stackWorks).length * 96 * 2 ^ 30)

/-- Bytes of tier 2 that work: 31 GiB a channel (R266). -/
def Device.tier2Room (d : Device) : Nat :=
  ((List.range 32).filter fun c => d.serves (unitOf (4 + c / 16) (0x10 + c % 16))).length * 31 * 2 ^ 30

/-- Whether any fabric port works: without one the device serves host-local work only. -/
def Device.anyPort (d : Device) : Bool := (List.range 16).any fun p => d.serves (unitOf 6 (0x20 + p))

/-- R24: the resource needs of a manifest (Table 4-2) against the working units. DESIGN CHOICE (log 145): peer devices are no units of this device, so a
manifest that names any needs one working fabric port. -/
def Device.resFits (d : Device) (res : List Byte) : Bool :=
  let pos := leAt res 0 2
  let cores := ((List.range 4).map d.coresOn).foldl (· + ·) 0
  let best := ((List.range 4).map d.coresOn).foldl max 0
  decide (pos ≤ cores) && (leAt res 2 1 == 0 || decide (pos ≤ best)) &&
  decide (leAt res 3 1 ≤ ((List.range 8).filter d.engineWorks).length) &&
  decide (leAt res 8 4 ≤ 65536 * ((List.range 4).filter d.dieWorks).length) &&
  decide (leAt res 16 8 ≤ d.tier1Room) && decide (leAt res 24 8 ≤ d.tier2Room) && (leAt res 32 2 == 0 || d.anyPort)

/-- What reading and checking an image gives. -/
inductive ImgRes where
  | ok (im : ManImg)
  | waits
  | bad (st detail : Nat)
  deriving DecidableEq, Repr

/-- What a command takes from an image. -/
def imageOf (h img : List Byte) : ManImg := ⟨h, imgRes h img, imgLegs h img, imgForms h img, (img.drop 64).take 64⟩

/-- Part of check 3 for RUN, on the image's classes: bit 0 Radio, 1 Prompt, 2 Spare. -/
def classAllowed (h : List Byte) (cls : Nat) : Bool := bit (mhClasses h) cls

/-- A read of n bytes on this device, or of a peer, whose answer is `a`; an answer still too short has not arrived. -/
def Device.readAny (d : Device) (t ga n : Nat) (a : PeerAns) : Rd :=
  if d.isLocal ga then d.readGA t ga n
  else if a.st = stFault then .fault ga
  else if a.st = stEcc then .poison ⟨gaSp ga, gaOff ga⟩
  else if a.data.length < n then .waits
  else .ok (a.data.take n)

/-- Checks 5 to 12 of Table 4-4 in order on the image at `ga`, with the class part of check 3 for a class; `fixedOrder` is the mode in
force. The image's classes are known once its header is read, so that part of check 3 stands there, before check 7 (log 144). -/
def Device.checkImage (d : Device) (t ga mid : Nat) (cls : Option Nat) (fixedOrder : Bool) (a : PeerAns) : ImgRes :=
  let bad (r : Nat) : ImgRes := .bad stDenied (denied r 0 0)
  match d.readAny t ga 128 a with
  | .waits => .waits
  | .fault a => .bad stFault a
  | .poison _ => .bad stEcc (eccWord d)
  | .ok h =>
    if !(cls.all fun c => classAllowed h c) then bad 0x03
    else if !headerOk h then bad 0x05
    else
      match d.readAny t ga (mhLen h) a with
      | .waits => .waits
      | .fault a => .bad stFault a
      | .poison _ => .bad stEcc (eccWord d)
      | .ok img =>
        let res := imgRes h img
        if !resourceOk res then bad 0x05
        else if imgHash img ≠ (img.drop 64).take 64 || mhId h ≠ mid then bad 0x06
        else if mhLevel h ≠ d.rd GEN_ID.numerics_level 0 then bad 0x07
        else if bit (mhFlags h) 0 && !fixedOrder then bad 0x0B
        else
          match (imgLegs h img).zipIdx.find? fun p => !legOk h res p.2 p.1 with
          | some p => .bad stDenied (denied 0x08 0 p.2)
          | none =>
            if !(imgForms h img).all formOk then bad 0x09
            else .ok (imageOf h img)
where
  /-- Detail of an uncorrectable image read: the record about to be written, no leg (Table 4-14). -/
  eccWord (d : Device) : Nat := d.nextRec % 65536 + unitSched <<< 16 + 0xFFFF <<< 32

/-- Check 13 of Table 4-4 (R24, R234). -/
def Device.check13 (d : Device) (res : List Byte) (cls : Nat) : Bool := d.resFits res && !(cls == 0 && leAt res 3 1 != 0)

/-- Physical pages of an image in spaces 0–2 of this device; none for an image elsewhere (R118). -/
def Device.imgPages (d : Device) (t ga len : Nat) : Option (List Nat) :=
  if !d.isLocal ga || decide (2 < gaSp ga) then none
  else
    some (((parts ga len).filterMap fun p => (d.locate t p.1 false).map fun l => l.1.page).eraseDups)

/-- Whether a verified entry has a command in flight. -/
def Device.verifiedBusy (d : Device) (v : Verified) : Bool :=
  d.cmds.any fun c => c.ten == v.ten &&
    (match c.run with
     | some r => r.mid == v.mid && r.image == v.image
     | none => false)

/-- An entry leaves the verified set; pages no other entry seals are unsealed. -/
def Device.unverify (d : Device) (v : Verified) : Device :=
  let vs := d.verified.filter fun w => w != v
  let d := { d with verified := vs }
  (v.pages.filter fun p => !(vs.any fun w => w.pages.contains p)).foldl (fun d p => d.setSeal p false) d

/-- Whether the verified set can take an entry: space, or an entry that can be displaced (R118). -/
def Device.verifyRoom (d : Device) : Bool :=
  decide (d.verified.length < 4096) || d.verified.any fun v => !d.verifiedBusy v

/-- The least recently used entry with no command in flight. -/
def Device.lruVerified (d : Device) : Option Verified :=
  (d.verified.filter fun v => !d.verifiedBusy v).foldl (fun a v =>
    match a with
    | none => some v
    | some w => if v.used < w.used then some v else some w) none

/-- The verified entry of a key. -/
def Device.verifiedOf (d : Device) (t mid ga : Nat) : Option Verified :=
  d.verified.find? fun v => v.ten == t && v.mid == mid && v.image == ga

/-- Whether an image may not enter the verified set yet: its key is new, it lies in spaces 0–2, and every entry has a command in flight (R118). -/
def Device.verifyWaits (d : Device) (t mid ga : Nat) : Bool :=
  (d.verifiedOf t mid ga).isNone && d.isLocal ga && decide (gaSp ga ≤ 2) && !d.verifyRoom

/-- A manifest enters the verified set and its pages are sealed (R118). -/
def Device.verify (d : Device) (t mid ga sn : Nat) (im : ManImg) : Device :=
  match d.imgPages t ga (mhLen im.hdr) with
  | none => d
  | some ps =>
    let d := if d.verified.length < 4096 then d else
      match d.lruVerified with
      | some v => d.unverify v
      | none => d
    let d := ps.foldl (fun d p => d.setSeal p true) d
    { d with verified := d.verified ++ [⟨t, mid, ga, ps, sn, im⟩] }

/-- An image that passed its checks is used by a command: its entry is marked, or made. -/
def Device.useVerified (d : Device) (t mid ga sn : Nat) (im : ManImg) : Device :=
  match d.verifiedOf t mid ga with
  | some w => { d with verified := d.verified.map fun v => if v = w then { v with used := sn } else v }
  | none => d.verify t mid ga sn im

end Sys2Proof.Machine
end

