-- ==== Sys2Proof/Machine/RunEnd.lean ====
section
/-! DEFINITION. The end of a RUN command (R121, R165, R239): when nothing of it runs any more, its completion status. -/

namespace Sys2Proof.Machine

/-- Whether a core is a reserve core now (R162): the last SCH_RESERVE[d].count of its die, a change waiting at a core while a
command is bound to it. -/
def Device.isReserve (d : Device) (n : Nat) : Bool :=
  match d.sched.reserveNow.find? fun r => r.1 == n with
  | some r => r.2 == 1
  | none => decide (48 - d.rd SCH_RESERVE.count (n / 48) ≤ n % 48) && !d.isX

/-- Reserve cores running or awaiting a moved Radio leg (Table 5-8). -/
def Device.showReserve (d : Device) : Device :=
  let busy := (List.range 192).filter fun n => d.isReserve n &&
    ((d.core n).mail.any (fun m => m.moved) || (match (d.core n).leg with
      | some l => l.moved
      | none => false))
  d.wr SCH_RADIO_STAT.reserve_busy 0 busy.length

/-- Route context. -/
def Device.rctx (d : Device) (e x : Nat) : RCtx := smGet d.engines (8 * e + x) {}
def Device.setRctx (d : Device) (e x : Nat) (c : RCtx) : Device := { d with engines := smSet d.engines (8 * e + x) {} c }

/-- Contexts bound on an engine, shown in RTE_MAP, with its state Idle or Busy, or Gated in Idle-hold and Deep (Tables 8-14, 17-1). -/
def Device.showEngine (d : Device) (e : Nat) : Device :=
  let n := ((List.range 8).filter fun x => (d.rctx e x).sn != 0).length
  let busy := (List.range 8).any fun x => (d.rctx e x).route.isSome
  let d := d.wr RTE_MAP.ctx_bound e n
  let st := d.rd RTE_MAP.state e
  let ps := d.rd PWR_STATE_STAT.state 0
  if st = 0 || st = 2 || st = 3 then d.wr RTE_MAP.state e (if ps = 1 || ps = 2 then 0 else if busy then 3 else 2) else d

/-- Engine contexts of a command are free again (R233). -/
def Device.freeEngines (d : Device) (sn : Nat) : Device :=
  let mine := d.engines.filter fun x => x.2.sn == sn
  let d := { d with engines := d.engines.filter fun x => x.2.sn != sn }
  mine.foldl (fun d x => d.showEngine (x.1 / 8)) d

/-- Descriptors of a command that wait in mailboxes are withdrawn; their legs never start (R121). -/
def Device.withdrawMail (d : Device) (sn : Nat) : Device :=
  let d := (d.cores.filter fun c => c.2.mail.any fun m => m.sn == sn && m.internal == 0).foldl (fun d c =>
    let x := d.core c.1
    let mail := x.mail.filter fun m => !(m.sn == sn && m.internal == 0)
    ((d.setCore c.1 { x with mail := mail }).wr COR_SEQ_STAT.mailbox c.1 mail.length).showReserve) d
  match d.cmd? sn with
  | some c =>
    match c.run with
    | some r => d.setCmd { c with run := some { r with legSt := r.legSt.map fun s => if s = .placed then .waiting else s } }
    | none => d
  | none => d

/-- First leg of a RUN that has not started. -/
def RunCtx.firstWaiting (r : RunCtx) : Nat := (findIdxFrom (fun s => s == .waiting || s == .placed) r.legSt 0).getD 0

/-- Status and detail of a RUN that has ended (R121, R151, R239). -/
def RunCtx.status (r : RunCtx) : Nat × Nat :=
  match r.fail with
  | some f => f
  | none =>
    if r.preempted then (stPreempted, r.firstWaiting)
    else if !r.late.isEmpty then (stOverrun, r.late.headD 0 + (min r.late.length 65535) <<< 16)
    else if r.dropped ≠ 0 then (stDropped, min r.dropped (2 ^ 32 - 1))
    else (stOk, (r.legSt.filter fun s => s == .ended).length)

/-- A RUN whose legs, routes, copies and tastes have all ended, and whose towed tiles have been accepted (R134), completes (R121, R239, R383). A Radio RUN counts a miss where it
missed, and shows its target slot (R136, Table 5-8). -/
def Device.settleRun (d : Device) (sn : Nat) : Device :=
  match d.cmd? sn with
  | none => d
  | some c =>
    match c.run with
    | none => d
    | some r =>
      let stopping := r.fail.isSome || r.preempted
      let d := if stopping then d.withdrawMail sn else d
      let r := match d.cmd? sn with
        | some c => c.run.getD r
        | none => r
      let still := r.legSt.any fun s => s == .running || s == .placed
      let left := !stopping && r.legSt.any fun s => s == .waiting
      if still || left || r.tastes ≠ 0 || r.movers ≠ 0 || d.tows.any (fun t => t.sn == sn) then d
      else
        let st := r.status
        let d := d.freeEngines sn
        let d := if eClass c.entry = 0 && st.1 = stMissed then d.incSat SCH_RADIO_STAT.misses 0 1 else d
        let d := if st.1 = stPreempted then d.acctPre c.ten (eClient c.entry) false else d
        d.finish sn st.1 st.2 r.slot

/-- A RUN's leg changes its progress. -/
def Device.setLegSt (d : Device) (sn i : Nat) (st : LegSt) : Device :=
  match d.cmd? sn with
  | none => d
  | some c =>
    match c.run with
    | none => d
    | some r => d.setCmd { c with run := some { r with legSt := r.legSt.set i st } }

/-- A change of a RUN's context. -/
def Device.modRun (d : Device) (sn : Nat) (f : RunCtx → RunCtx) : Device :=
  match d.cmd? sn with
  | none => d
  | some c =>
    match c.run with
    | none => d
    | some r => d.setCmd { c with run := some (f r) }

/-- An independent mover of a RUN ends (R239, R286). -/
def Device.endMover (d : Device) (sn : Nat) : Device := (d.moverDone sn).settleRun sn

end Sys2Proof.Machine
end

