-- ==== Sys2Proof/Machine/Routing.lean ====
section
/-! DEFINITION. The routing engines: RTSUBMIT and its checks, logit intake, selection, gate weights, sort, capacity and lists, the blend, failures and
abandonment (R233–R259). -/

namespace Sys2Proof.Machine

/-! ### Arithmetic -/

/-- FP32 quotient, one rounding (R249); invalid forms give NaN (R81). -/
def fDiv (a b : Nat) : Nat :=
  match fp32.decode a, fp32.decode b with
  | .nan, _ => fp32.nan
  | _, .nan => fp32.nan
  | .inf _, .inf _ => fp32.nan
  | .inf n, .fin n' _ _ => fp32.signed (n != n') 0x7F800000
  | .fin n _ _, .inf n' => fp32.signed (n != n') 0
  | .fin n m e, .fin n' m' e' =>
    if m' = 0 then (if m = 0 then fp32.nan else fp32.signed (n != n') 0x7F800000)
    else if m = 0 then fp32.signed (n != n') 0
    else
      let q := m * 2 ^ 200 / m'
      (fp32.roundP 23 (n != n') q (e - e' - 200) (decide (q * m' ≠ m * 2 ^ 200))).val

/-- e^x correctly rounded to FP32 by RNE (R249). -/
def fExp (a : Nat) : Nat :=
  match fp32.decode a with
  | .nan => fp32.nan
  | .inf n => if n then 0 else 0x7F800000
  | .fin n m e =>
    if m = 0 then 0x3F800000
    else
      let top : Int := e + (Nat.log2 m : Nat)
      if 8 ≤ top then (fp32.roundP 23 false 1 (if n then -600 else 600) true).val
      else if top < -64 then (fp32.roundP 23 false (if n then 2 ^ 64 - 1 else 2 ^ 64) (-64) true).val
      else
        let go (P : Nat) : Option (Res Nat) :=
          let x := expIv P (magIv P m e)
          if n then agree fp32 23 false (-(P : Int)) ⟨2 ^ P * 2 ^ P / x.hi, 2 ^ P * 2 ^ P / x.lo + 1⟩
          else agree fp32 23 false (-(P : Int)) x
        match decideAt go precisions with
        | some r => r.val
        | none => Config.freeNat a % 2 ^ 31

/-- Order of FP32 codes as numbers, +0 equal to −0, NaN below everything (R247). -/
def ordKey (x : Nat) : Int :=
  if (fp32.decode x).isNan then -(2 ^ 40 : Nat)
  else if x < 2 ^ 31 then x else -((x - 2 ^ 31 : Nat) : Int)

def isNan32 (x : Nat) : Bool := (fp32.decode x).isNan

/-! ### Descriptors -/

def rdOp (b : List Byte) : Nat := leAt b 0 1
def rdFlags (b : List Byte) : Nat := leAt b 1 1
def rdBf16 (b : List Byte) : Bool := bit (rdFlags b) 0
def rdSigmoid (b : List Byte) : Bool := bit (rdFlags b) 1
def rdBias (b : List Byte) : Bool := bit (rdFlags b) 2
def rdNorm (b : List Byte) : Nat := bits (rdFlags b) 4 3
def rdGroupSum (b : List Byte) : Bool := bit (rdFlags b) 5
def rdOrder (b : List Byte) : Nat := bits (rdFlags b) 7 6
def rdK (b : List Byte) : Nat := leAt b 2 1
def rdNg (b : List Byte) : Nat := leAt b 3 1
def rdE (b : List Byte) : Nat := leAt b 4 2
def rdG (b : List Byte) : Nat := leAt b 6 2
def rdT (b : List Byte) : Nat := leAt b 8 4
def rdFirst (b : List Byte) : Nat := leAt b 12 4
def rdScale (b : List Byte) : Nat := leAt b 16 4
def rdD (b : List Byte) : Nat := leAt b 20 4
def rdBiasAt (b : List Byte) : Nat := leAt b 24 8
def rdHome (b : List Byte) : Nat := leAt b 32 8
def rdScratch (b : List Byte) : Nat := leAt b 40 8
def rdDispatch (b : List Byte) : Nat := leAt b 48 8
def rdCombine (b : List Byte) : Nat := leAt b 56 8
def rdDrops (b : List Byte) : Nat := leAt b 64 8
def rdDropCap (b : List Byte) : Nat := leAt b 72 4
def rdStatus (b : List Byte) : Nat := if rdOp b = 1 then leAt b 80 8 else leAt b 40 8

/-- Address rule of R237. -/
def Device.routeAddr (d : Device) (a : Nat) : Bool := d.isLocal a && decide (gaSp a ≤ 2) && a % 64 == 0

/-- Table 8-1. -/
def Device.routeOk (d : Device) (b : List Byte) : Bool :=
  let E := rdE b
  let G := rdG b
  let k := rdK b
  decide (rdNorm b ≤ 2) && (rdNorm b != 2 || rdSigmoid b) && decide (rdOrder b ≤ 2) &&
  decide (1 ≤ k) && decide (k ≤ 16) && decide (1 ≤ E) && decide (E ≤ 16384) && decide (1 ≤ G) && decide (G ≤ 256) &&
  E % G == 0 && decide (1 ≤ rdNg b) && decide (rdNg b ≤ G) && decide (k ≤ E) && decide (k ≤ rdNg b * (E / G)) &&
  (!rdGroupSum b || decide (2 ≤ E / G)) && decide (8 * G * min k (E / G) ≤ 4096) &&
  decide (1 ≤ rdT b) && decide (rdT b ≤ 65536) && !(fp32.decode (rdScale b)).isNan && !(fp32.decode (rdScale b)).isInf &&
  decide (1 ≤ rdD b) && decide (rdD b ≤ 32768) && (!rdBias b || d.routeAddr (rdBiasAt b)) &&
  d.routeAddr (rdHome b) && d.routeAddr (rdScratch b) && d.routeAddr (rdDispatch b) && d.routeAddr (rdCombine b) &&
  (rdDrops b == 0 || d.routeAddr (rdDrops b)) && d.routeAddr (rdStatus b) &&
  leAt b 76 4 == 0 && (b.drop 88).all fun x => x == 0

def bdIn (b : List Byte) : Bool := bit (leAt b 1 1) 0
def bdOut (b : List Byte) : Bool := bit (leAt b 1 1) 1
def bdH (b : List Byte) : Nat := leAt b 4 4
def bdT (b : List Byte) : Nat := leAt b 8 4
def bdR (b : List Byte) : Nat := leAt b 12 4
def bdCombine (b : List Byte) : Nat := leAt b 16 8
def bdReturns (b : List Byte) : Nat := leAt b 24 8
def bdOutput (b : List Byte) : Nat := leAt b 32 8

/-- Table 8-7. -/
def Device.blendOk (d : Device) (b : List Byte) : Bool :=
  bits (leAt b 1 1) 7 2 == 0 && decide (1 ≤ rdK b) && decide (rdK b ≤ 16) && leAt b 3 1 == 0 &&
  decide (32 ≤ bdH b) && decide (bdH b ≤ 65536) && bdH b % 32 == 0 && decide (1 ≤ bdT b) && decide (bdT b ≤ 65536) &&
  d.routeAddr (bdCombine b) && d.routeAddr (bdReturns b) && d.routeAddr (bdOutput b) && d.routeAddr (rdStatus b) &&
  (b.drop 48).all fun x => x == 0

/-! ### Ends -/

/-- Unit ID of a logical engine (Table 12-3). -/
def Device.engineUnit (d : Device) (e : Nat) : Nat :=
  let p := d.rd RTE_MAP.phys e
  if p = 8 then unitOf 4 0x24 else if p = 9 then unitOf 5 0x24 else unitOf (4 + p / 4) (0x20 + p % 4)

/-- What a status record holds beside status and flags (Table 8-8). -/
structure RouteOut where
  flags : Nat := 0
  pairs : Nat := 0
  kept : Nat := 0
  dropped : Nat := 0
  nans : Nat := 0
  pads : Nat := 0
  ties : Nat := 0
  fill : Nat := 0
  deriving DecidableEq, Repr

/-- Device-time stamp of records (Table 8-8). -/
def Device.stamp (d : Device) : List Byte := toLE 8 ((d.secs % 65536) <<< 48 + d.nanos <<< 16 + d.frac <<< 12)

/-- The 64 bytes of a status record; a route that dropped pairs and did not fail shows DROPPED_CAPACITY (log 132). -/
def Device.statusBytes (d : Device) (r : Route) (st : Nat) (o : RouteOut) : List Byte :=
  let blend := rdOp r.desc = 2
  toLE 1 (if st = stOk ∧ 0 < o.dropped then 6 else st) ++ toLE 1 (o.flags ||| b2n r.fixed) ++ toLE 2 0 ++ toLE 4 (if blend then 0 else o.pairs) ++ toLE 4 o.kept ++
  toLE 4 o.dropped ++ toLE 4 o.nans ++ toLE 4 o.pads ++ toLE 4 o.ties ++ toLE 4 o.fill ++
  toLE 4 (if blend then 0 else r.dup) ++ toLE 4 0 ++ d.stamp ++ toLE 8 (d.cycle - r.started) ++ toLE 8 0

/-- A route or blend ends: status record, token, counters, and the command's share (R235, R236, R239, R258, R259). -/
def Device.endRoute (d : Device) (e x : Nat) (r : Route) (st detail : Nat) (o : RouteOut) : Device :=
  let d := (d.ownWrite r.ten (rdStatus r.desc) (d.statusBytes r st o) .none).1
  let c := d.rctx e x
  let d := (d.setRctx e x { c with route := none }).incWrap RTE_STAT.ended e 1
  let d := (d.setReg .MEM_CHAN_STAT (routeChan e x) 0).showEngine e
  let ok := st = stOk
  let d := d.setToken r.core r.serial r.tok (!ok) (if ok then 0 else st)
  let d := if ok then d.modRun r.sn fun q => { q with dropped := q.dropped + o.dropped } else d.failRun r.sn st detail
  d.endMover r.sn

/-- A failed route or blend, with its record (Table 8-13). -/
def Device.failRoute (d : Device) (e x : Nat) (r : Route) (st detail : Nat) (fl : Nat) : Device :=
  d.endRoute e x r st detail { flags := fl }

/-- A retired engine's routes and blends in progress end (Table 8-13), and it waits for its spare in Recovery (R375). -/
def Device.sweepEngines (d : Device) : Device :=
  (List.range 8).foldl (fun d e =>
    let u := d.engineUnit e
    match d.ras.retiring.find? fun r => r.1 == u with
    | none => d
    | some rec_ =>
      let d := if d.rd RTE_MAP.state e = 5 then d else d.wr RTE_MAP.state e 4
      (List.range 8).foldl (fun d x =>
        match (d.rctx e x).route with
        | some r => d.failRoute e x r stEcc (eccDetail rec_.2 u 0xFFFF) 8
        | none => d) d) d

/-- An uncorrectable error ends a route or blend (Table 8-13). -/
def Device.eccRoute (d : Device) (e x : Nat) (r : Route) : Device :=
  let u := d.engineUnit e
  let idx := d.nextRec
  let d := d.uncorr u 4 { unit := u, sev := 2, op := 0x02, ten := r.ten, mid := r.mid }
  (d.failRoute e x r stEcc (eccDetail idx u 0xFFFF) 8).sweepEngines

/-- A translation fault of a route or blend suspends its channel, or ends it at the fourth on one page (R258, R288). -/
def Device.faultRoute (d : Device) (e x : Nat) (r : Route) (ga : Nat) : Device :=
  let p := d.suspendChan (routeChan e x) r.ten ga false
  if p.2 then (p.1.logXlate (chanUnit (routeChan e x)) r.ten ga).failRoute e x r stFault ga 8 else p.1

/-! ### Submission -/

/-- Whether fixed-order mode is in force for a tenancy (R420). -/
def Device.fixedOrder (d : Device) (t : Nat) : Bool := d.on DET_TEN_CFG.fixed_order t

/-- The bias store of a route is loaded (R245). -/
def Device.loadBias (d : Device) (e x : Nat) : Device :=
  let c := d.rctx e x
  match c.route with
  | none => d
  | some r =>
    if r.bias.isSome || rdOp r.desc ≠ 1 || d.rd MEM_CHAN_STAT.state (routeChan e x) ≠ chActive then d
    else if !rdBias r.desc then d.setRctx e x { c with route := some { r with bias := some [] } }
    else
      match d.readGA r.ten (rdBiasAt r.desc) (4 * rdE r.desc) with
      | .ok bs =>
        let v := (List.range (rdE r.desc)).map fun i => leAt bs (4 * i) 4
        d.setRctx e x { c with route := some { r with bias := some v } }
      | .waits => d
      | .fault ga => d.faultRoute e x r ga
      | .poison _ => d.eccRoute e x r

/-- RTSUBMIT pos, desc, tok by a leg (R235, R238): stalls while the context holds an earlier route; a bad descriptor ends the leg. -/
def rtsubmit (n pos desc tok : Nat) (d : Device) (l : Leg) : Option LegRes :=
  let engines := match d.cmd? l.sn with
    | some c => (match c.run with
      | some r => r.engines
      | none => [])
    | none => []
  match engines[pos]? with
  | none => some (.stop d l stDenied 0x05 desc)
  | some (e, x) =>
    let c := d.rctx e x
    if c.route.isSome || d.rd RTE_MAP.state e = 4 then none
    else if desc % 128 ≠ 0 then some (.stop d l stDenied 0x05 desc)
    else
      some <| d.tsRead n l desc 128 fun b =>
        if !((rdOp b == 1 && d.routeOk b) || (rdOp b == 2 && d.blendOk b)) then .stop d l stDenied 0x05 desc
        else
          let r : Route := { desc := b, core := n, serial := l.serial, tok := tok, leg := l.idx, ten := l.ten, mid := l.mid,
                             sn := l.sn, fixed := d.fixedOrder l.ten, started := d.cycle }
          let q := match d.cmd? l.sn with
            | some c => c.queue
            | none => 0
          let d := d.setRctx e x { c with route := some r }
          let ch := routeChan e x
          let d := (((d.wr MEM_CHAN_STAT.tenancy ch l.ten).wr MEM_CHAN_STAT.kind ch 4).wr MEM_CHAN_STAT.queue ch q).wr
            MEM_CHAN_STAT.state ch chActive
          let d := d.modRun l.sn fun q => { q with movers := q.movers + 1 }
          let d := d.setCore n { d.core n with leg := some l }
          let u := d.engineUnit e
          let d := if d.rd RTE_MAP.state e = 5 then d.failRoute e x r stEcc (eccDetail (smGet d.ras.lostRecs u 0) u 0xFFFF) 8
            else (d.showEngine e).loadBias e x
          .go d ((d.core n).leg.getD l)

/-! ### Logit intake -/

def Route.nb (r : Route) : Nat := ceilDiv (rdT r.desc) 8
def Route.nc (r : Route) : Nat := ceilDiv (rdE r.desc) 8

/-- Bands of a route with a tile but not all. -/
def Route.openBands (r : Route) : Nat :=
  ((List.range r.nb).filter fun b =>
    let n := (r.tiles.filter fun t => t.band == b).length
    decide (0 < n) && decide (n < r.nc)).length

/-- Bands a context may hold open (R243). -/
def Route.maxOpen (r : Route) : Nat :=
  let k := rdK r.desc
  let G := rdG r.desc
  let m := if G = 1 then k else G * min k (rdE r.desc / G)
  4096 / (8 * m)

/-- Whether every tile of a route has arrived. -/
def Route.full (r : Route) : Bool := r.tiles.length == r.nb * r.nc

/-- A tag that fails its check: dropped, with a record (R139). -/
def Device.badTag (d : Device) (unit : Nat) (t : List Byte) : Device :=
  d.log { unit := unit, sev := 2, op := 0x07, detail := leAt t 0 8 }

/-- Whether a logit tile must wait at the engine's input: the bias store is not loaded, or it would open one band too many (R243, R245). -/
def Route.holds (r : Route) (t : RIn) : Bool :=
  r.bias.isNone || ((r.tiles.all fun y => y.band != t.band) && r.nc != 1 && decide (r.maxOpen ≤ r.openBands))

/-- A tile that no route takes. -/
def Route.bad (r : Route) (t : RIn) : Bool :=
  rdOp r.desc != 1 || t.fmt != (if rdBf16 r.desc then 1 else 0) || decide (r.nb ≤ t.band) || decide (r.nc ≤ t.col) ||
    r.tiles.any fun y => y.band == t.band && y.col == t.col

/-- Whether a tile goes into the route of its context: a good tag of the route's command, and a good tile. -/
def Device.tileGood (d : Device) (t : RIn) : Option Route :=
  (d.rctx t.e t.x).route.filter fun r => tagOk t.tag && tagTen t.tag == r.ten && tagMid t.tag == r.mid && !r.bad t

/-- A logit tile that the engine takes (R139, R241, R242): it joins its route, or is dropped with a record; a bad one is counted. -/
def Device.takeTile (d : Device) (t : RIn) : Device :=
  let u := d.engineUnit t.e
  let c := d.rctx t.e t.x
  let at_ := t.band + t.col <<< 32
  if !tagOk t.tag then d.badTag u t.tag
  else
    match c.route with
    | none => d.log { unit := u, sev := 2, op := 0x19, ten := tagTen t.tag, mid := tagMid t.tag, detail := at_ }
    | some r =>
      if tagTen t.tag ≠ r.ten || tagMid t.tag ≠ r.mid then
        d.log { unit := u, sev := 2, op := 0x07, ten := tagTen t.tag, mid := tagMid t.tag, detail := leAt t.tag 0 8 }
      else if r.bad t then
        let d := d.setRctx t.e t.x { c with route := some { r with dup := r.dup + 1 } }
        let d := d.incSat RTE_STALL.dup_tiles t.e 1
        d.log { unit := u, sev := 2, op := 0x19, ten := r.ten, mid := r.mid, detail := at_ }
      else
        let vals := (List.range 64).map fun i => if t.fmt = 1 then leAt t.data (2 * i) 2 * 65536 else leAt t.data (4 * i) 4
        let y : LTile := ⟨t.band, t.col, d.rteSeq, vals⟩
        { d with rteSeq := d.rteSeq + 1 }.setRctx t.e t.x { c with route := some { r with tiles := r.tiles ++ [y] } }

/-- Waiting tiles that no earlier tile of their sender precedes: a towline delivers in order. -/
def firstOfSrc : List Nat → List RIn → List RIn
  | _, [] => []
  | seen, t :: ts => if seen.contains t.src then firstOfSrc seen ts else t :: firstOfSrc (t.src :: seen) ts

/-- The tile that an engine takes next (R244): a Prompt context's before a Spare context's, and among the contexts of a class in rotation. -/
def Device.nextTile (d : Device) (e : Nat) : Option RIn :=
  let ready := (firstOfSrc [] (d.rteIn.waiting.filter fun t => t.e == e)).filter fun t =>
    !d.rteFenced.contains (e, d.reqUnit t.src 27) && !((d.tileGood t).map fun r => r.holds t).getD false
  let rank (t : RIn) : Nat := 8 * tagCls t.tag + (t.x + 7 - smGet d.rteIn.last (8 * e + tagCls t.tag) 7) % 8
  ready.foldl (fun a t => match a with
    | none => some t
    | some b => if rank t < rank b then some t else a) none

/-- A tile leaves the input; the sender's towline goes on (R65). -/
def Device.leaveInput (d : Device) (t : RIn) : Device :=
  let last := smIns d.rteIn.last (8 * t.e + tagCls t.tag) t.x
  let d : Device := { d with rteIn := { d.rteIn with waiting := d.rteIn.waiting.erase t, last := last } }
  match (d.core t.src).leg with
  | some l => if l.serial = t.serial && 0 < l.tows then d.setCore t.src { d.core t.src with leg := some { l with tows := l.tows - 1 } } else d
  | none => d

/-- An engine takes tiles up to four in a cycle (R244). -/
def takeTiles : Nat → Nat → Device → Device
  | 0, _, d => d
  | n + 1, e, d =>
    let took := smGet d.rteIn.took e (0, 0)
    let k := if took.1 = d.cycle then took.2 else 0
    if 4 ≤ k then d
    else
      match d.nextTile e with
      | none => d
      | some t =>
        let d : Device := { d with rteIn := { d.rteIn with took := smIns d.rteIn.took e (d.cycle, k + 1) } }
        takeTiles n e ((d.leaveInput t).takeTile t)

/-- The intake of an engine in this cycle: bias stores first (R245). -/
def Device.intake (d : Device) (e : Nat) : Device := takeTiles 4 e ((List.range 8).foldl (fun d x => d.loadBias e x) d)

/-- A logit tile comes to an engine's input (R243, R244): a fenced sender is ignored. -/
def Device.offerTile (d : Device) (t : RIn) : Device :=
  if d.rteFenced.contains (t.e, d.reqUnit t.src 27) then d
  else Device.intake { d with rteIn := { d.rteIn with waiting := d.rteIn.waiting ++ [t] } } t.e

/-- A cycle of every engine's input: tiles that still wait after it count a stall cycle (Table 8-16). -/
def Device.intakeAll (d : Device) : Device :=
  ((d.rteIn.waiting.map fun t => t.e).eraseDups).foldl (fun d e =>
    let d := d.intake e
    if d.rteIn.waiting.any fun t => t.e == e then d.incSat RTE_STALL.intake_stall e 1 else d) d

/-- A logit tile from core `src` reaches context x of engine e (R241–R244). `fmt` is the form's out_fmt: 0 FP32, 1 BF16. -/
def logitTileArrival (e x src : Nat) (tag : List Byte) (band col fmt : Nat) (data : List Byte) (d : Device) : Device :=
  d.offerTile { e := e, x := x, src := src, tag := tag, band := band, col := col, fmt := fmt, data := data }

/-- The watchdog of an engine input fences its sender (R244). -/
def engineInputWatchdogFire (e src : Nat) (d : Device) : Device :=
  let u := d.reqUnit src 27
  if d.rteFenced.contains (e, u) then d
  else
    let d := { d with rteFenced := (e, u) :: d.rteFenced }
    (d.incSat RTE_STALL.fenced e 1).log { unit := u, sev := 4, op := 0x08, detail := u }

/-! ### Selection and gates -/

/-- One expert of a token: index, logit, score, key, order of arrival. -/
structure Cand where
  e : Nat
  l : Nat
  s : Nat
  key : Nat
  order : Nat
  deriving DecidableEq, Repr

/-- Score of a logit (R246). -/
def scoreOf (sig : Bool) (l : Nat) : Nat :=
  if sig then (actMulTo .sigmoid fp32 (fp32.decode l) (.fin false 1 0)).val else l

/-- Candidates of token t. -/
def Route.cands (r : Route) (t : Nat) : List Cand :=
  (List.range (rdE r.desc)).filterMap fun e =>
    (r.tiles.find? fun x => x.band == t / 8 && x.col == e / 8).map fun x =>
      let l := x.vals.getD (8 * (t % 8) + e % 8) 0
      let s := scoreOf (rdSigmoid r.desc) l
      let key := if rdBias r.desc then (fAdd s ((r.bias.getD []).getD e 0)).val else s
      ⟨e, l, s, key, x.order⟩

/-- Whether candidate a ranks above b (R247). -/
def Cand.above (fixed : Bool) (a b : Cand) : Bool :=
  if ordKey b.key < ordKey a.key then true
  else if ordKey a.key < ordKey b.key then false
  else if fixed then decide (a.e < b.e)
  else decide (a.order < b.order) || (a.order == b.order && decide (a.e < b.e))

/-- Insertion into a ranked list of at most k. -/
def insertTop {α : Type} (above : α → α → Bool) (k : Nat) (a : α) : List α → List α
  | [] => if k = 0 then [] else [a]
  | b :: bs => if above a b then (a :: b :: bs).take k else (b :: insertTop above (k - 1) a bs).take k

/-- The k ranked highest, in rank order. -/
def topK {α : Type} (above : α → α → Bool) (k : Nat) (xs : List α) : List α :=
  xs.foldl (fun acc a => insertTop above k a acc) []

/-- Groups allowed for a token (R246): the n_g of highest score, the lower index first among equals. -/
def Route.allowed (r : Route) (cs : List Cand) : List Cand :=
  let G := rdG r.desc
  if G ≤ 1 then cs
  else
    let sz := rdE r.desc / G
    let gs := (List.range G).map fun g =>
      let two := topK (Cand.above true) 2 (cs.filter fun c => c.e / sz == g)
      let k1 := (two.map fun c => c.key).headD 0
      let k2 := ((two.map fun c => c.key).drop 1).headD 0
      (g, if rdGroupSum r.desc then (fAdd k1 k2).val else k1)
    let kept := topK (fun (a b : Nat × Nat) => decide (ordKey b.2 < ordKey a.2) || (ordKey a.2 == ordKey b.2 && decide (a.1 < b.1)))
      (rdNg r.desc) gs
    cs.filter fun c => kept.any fun g => g.1 == c.e / sz

/-- One selected pair of a token: rank, expert, gate weight; `nan` marks a removed one (R248). -/
structure Pair where
  t : Nat
  rank : Nat
  e : Nat
  gate : Nat
  nan : Bool
  dest : Nat := 0
  deriving DecidableEq, Repr

/-- Gate weights of the selected experts in rank order (R249). -/
def gates (norm scale : Nat) (sel : List Cand) : List Nat :=
  let raw :=
    if norm = 1 then
      let mx := (sel.map fun c => c.l).foldl (fun a b => if isNan32 a || isNan32 b then fp32.nan else if ordKey a < ordKey b then b else a)
        ((sel.map fun c => c.l).headD 0)
      let xs := sel.map fun c => fExp (fAdd c.l (mx ^^^ 2 ^ 31)).val
      let sum := xs.tail.foldl (fun a b => (fAdd a b).val) (xs.headD 0)
      xs.map fun x => fDiv x sum
    else if norm = 2 then
      let xs := sel.map fun c => c.s
      let sum := xs.tail.foldl (fun a b => (fAdd a b).val) (xs.headD 0)
      xs.map fun x => fDiv x sum
    else sel.map fun c => c.s
  raw.map fun g => (fMul g scale).val

/-- Selection of one token: its pairs, and whether the tie rule decided anything about a selected expert (R246–R249). -/
def Route.select (r : Route) (t : Nat) : List Pair × Bool :=
  let all := r.allowed (r.cands t)
  let sel := topK (Cand.above r.fixed) (rdK r.desc) all
  let tie := sel.any fun c => !isNan32 c.key && all.any fun o => o.e != c.e && ordKey o.key == ordKey c.key
  let good := sel.filter fun c => !isNan32 c.key
  let gs := gates (rdNorm r.desc) (rdScale r.desc) good
  let ps := sel.zipIdx.map fun c =>
    let nan := isNan32 c.1.key
    { t := t, rank := c.2, e := c.1.e, gate := if nan then 0 else gs.getD (good.idxOf c.1) 0, nan := nan : Pair }
  (ps, tie)

/-! ### Sort, capacity and lists -/

/-- A destination entry of the home table (Table 8-2). -/
structure Dest where
  idx : Nat
  dev : Nat
  slot : Nat
  cap : Nat
  deriving DecidableEq, Repr

/-- Destination of a pair by the home table (R250). -/
def destOf (home : List Byte) (first t e : Nat) : Nat :=
  let x := leAt home (8 * e) 8
  bits x 15 0 + (first + t) % (max 1 (bits x 20 16))

/-- Whether the home table is valid for the route (R250, R251). -/
def homeOk (E D : Nat) (home : List Byte) (ds : List Dest) : Bool :=
  ((List.range E).all fun e =>
    let x := leAt home (8 * e) 8
    decide (1 ≤ bits x 20 16) && decide (bits x 20 16 ≤ 16) && decide (bits x 15 0 + bits x 20 16 ≤ D)) &&
  (ds.all fun a => a.cap != 0 && ds.all fun b => a.idx == b.idx || a.dev != b.dev || a.slot != b.slot)

/-- Order of the pairs of a destination for capacity (R251). -/
def pairAbove (order : Nat) (a b : Pair) : Bool :=
  if order = 0 then decide (a.t < b.t)
  else if order = 1 then decide (a.rank < b.rank) || (a.rank == b.rank && decide (a.t < b.t))
  else decide (ordKey b.gate < ordKey a.gate) || (ordKey a.gate == ordKey b.gate && decide (a.t < b.t))

/-- Sorted by an order. -/
def sortBy {α : Type} (above : α → α → Bool) (xs : List α) : List α := topK above xs.length xs

/-- One destination after capacity: entry, kept pairs in token order, dropped pairs in list order. -/
structure DestOut where
  dst : Dest
  kept : List Pair
  dropped : List Pair
  count : Nat
  deriving DecidableEq, Repr

def destOut (order : Nat) (ps : List Pair) (x : Dest) : DestOut :=
  let mine := sortBy (pairAbove order) (ps.filter fun p => p.dest == x.idx)
  ⟨x, sortBy (pairAbove 0) (mine.take x.cap), mine.drop x.cap, mine.length⟩

/-- First row of each destination in key order. -/
def firstRows : List DestOut → Nat → List (DestOut × Nat)
  | [], _ => []
  | o :: os, n => (o, n) :: firstRows os (n + o.dst.cap)

/-- A row entry (Table 8-5). -/
def rowEntry (first : Nat) (p : Option Pair) : List Byte :=
  match p with
  | some p => toLE 4 (first + p.t) ++ toLE 1 p.rank ++ toLE 1 0 ++ toLE 2 0
  | none => toLE 4 0xFFFFFFFF ++ toLE 1 0xFF ++ toLE 1 1 ++ toLE 2 0

/-- The dispatch list (R253). -/
def dispatchBytes (D first : Nat) (rows : List (DestOut × Nat)) : List Byte :=
  let R := (rows.map fun r => r.1.dst.cap).foldl (· + ·) 0
  let kept := (rows.map fun r => r.1.kept.length).foldl (· + ·) 0
  let dropped := (rows.map fun r => r.1.dropped.length).foldl (· + ·) 0
  let head := toLE 4 R ++ toLE 4 D ++ toLE 4 kept ++ toLE 4 dropped ++ toLE 4 first ++ List.replicate 44 0
  let ents := rows.flatMap fun r =>
    toLE 2 r.1.dst.dev ++ toLE 2 r.1.dst.slot ++ toLE 2 r.1.dst.cap ++ toLE 2 r.1.kept.length ++ toLE 4 r.2 ++ toLE 4 r.1.dst.idx
  let gap := roundUp (64 + 16 * D) 64 - (64 + 16 * D)
  head ++ ents ++ List.replicate gap 0 ++
  rows.flatMap fun r => (List.range r.1.dst.cap).flatMap fun i => rowEntry first r.1.kept[i]?

/-- Row of a pair in the dispatch list. -/
def rowOf (rows : List (DestOut × Nat)) (p : Pair) : Nat :=
  match rows.find? fun r => r.1.dst.idx == p.dest with
  | some r =>
    (match findIdxFrom (fun q => q.t == p.t && q.rank == p.rank) r.1.kept 0 with
     | some i => r.2 + i
     | none => 0xFFFFFFFF)
  | none => 0xFFFFFFFF

/-- A drop-list entry (Table 8-9). -/
def dropEntry (first : Nat) (p : Pair) : List Byte :=
  toLE 4 (first + p.t) ++ toLE 2 p.e ++ toLE 1 p.rank ++ toLE 1 (if p.nan then 2 else 1)

/-- Several writes of an engine: all proceed, or the first obstacle. -/
def Device.writeAll (d : Device) (t : Nat) : List (Nat × List Byte) → Device × Wr
  | [] => (d, .ok)
  | (a, bs) :: ws =>
    let r := d.ownWrite t a bs .none
    match r.2 with
    | .ok => r.1.writeAll t ws
    | w => (d, w)

/-- One part of the scratch area, whose contents a sort leaves unspecified (R251); the answer keeps the first address that faults. -/
def scratchPart (t : Nat) (a : Device × Option Nat) (p : Nat × Nat) : Device × Option Nat :=
  match a.1.meet t p.1 true with
  | .proceeds l _ => (a.1.scramble l.sp l.off p.2, a.2)
  | _ => (a.1, a.2.orElse fun _ => some p.1)

/-- The sort of a route's pairs, its lists and its end (R250–R254), once every band has closed, in the order in which last bands closed. -/
def routeSort (e x : Nat) (d : Device) : Device :=
  let c := d.rctx e x
  let lastOf (r : Route) : Nat := (r.tiles.map fun t => t.order).foldl max 0
  match c.route with
  | none => d
  | some r =>
    let earlier := (List.range 8).any fun y => y != x && (match (d.rctx e y).route with
      | some o => rdOp o.desc == 1 && o.full && decide (lastOf o < lastOf r) &&
          d.rd MEM_CHAN_STAT.state (routeChan e y) == chActive
      | none => false)
    if rdOp r.desc ≠ 1 || !r.full || d.rd MEM_CHAN_STAT.state (routeChan e x) ≠ chActive || earlier then d
    else if r.dup ≠ 0 then d.failRoute e x r stDenied (denied 0x0E 0x03 r.leg) 0
    else
      let E := rdE r.desc
      let D := rdD r.desc
      let T := rdT r.desc
      let k := rdK r.desc
      let first := rdFirst r.desc
      match d.readGA r.ten (rdHome r.desc) (64 * ceilDiv E 8 + 8 * D) with
      | .waits => d
      | .fault ga => d.faultRoute e x r ga
      | .poison _ => d.eccRoute e x r
      | .ok home =>
        let ds := (List.range D).map fun i =>
          let w := leAt home (64 * ceilDiv E 8 + 8 * i) 8
          (⟨i, bits w 11 0, bits w 27 12, bits w 43 28⟩ : Dest)
        if !homeOk E D home ds then d.failRoute e x r stDenied (denied 0x0E 0x04 r.leg) 0
        else
          let sels := (List.range T).map r.select
          let all := sels.flatMap fun s => s.1
          let pairs := (all.filter fun p => !p.nan).map fun p => { p with dest := destOf home first p.t p.e }
          let nans := all.filter fun p => p.nan
          let sorted := sortBy (fun (a b : Dest) => decide (a.dev * 65536 + a.slot < b.dev * 65536 + b.slot)) ds
          let outs := sorted.map (destOut (rdOrder r.desc) pairs)
          let rows := firstRows outs 0
          let drops := nans ++ outs.flatMap fun o => o.dropped
          let nDrop := (outs.map fun o => o.dropped.length).foldl (· + ·) 0
          let nKept := (outs.map fun o => o.kept.length).foldl (· + ·) 0
          let R := (ds.map fun q => q.cap).foldl (· + ·) 0
          let fr := d.fresh (2 ^ 32)
          let combine := all.flatMap fun p =>
            if p.nan then toLE 4 0xFFFFFFFF ++ toLE 4 fr.1
            else toLE 4 (rowOf rows { p with dest := destOf home first p.t p.e }) ++ toLE 4 p.gate
          let nanGate := pairs.any fun p => isNan32 p.gate
          let full := rdDrops r.desc ≠ 0 && decide (rdDropCap r.desc < drops.length)
          let ws := [(rdDispatch r.desc, dispatchBytes D first rows), (rdCombine r.desc, combine)] ++
            (if rdDrops r.desc = 0 then [] else
              [(rdDrops r.desc, (drops.take (rdDropCap r.desc)).flatMap (dropEntry first))])
          let w := fr.2.writeAll r.ten ws
          match w.2 with
          | .waits => d
          | .fault ga => d.faultRoute e x r ga
          | .poison _ => d.eccRoute e x r
          | .ok =>
            let scr := (parts (rdScratch r.desc) (16 * T * k)).foldl (scratchPart r.ten) (w.1, none)
            match scr.2 with
            | some ga => d.faultRoute e x r ga
            | none =>
              let d := scr.1
              let d := (d.incSat RTE_STAT.pairs_dropped e nDrop).incWrap RTE_TEN_DROP.pairs_dropped r.ten nDrop
              let d := if nanGate || !nans.isEmpty then
                  d.log { unit := d.engineUnit e, sev := 0, op := 0x19, ten := r.ten, mid := r.mid } else d
              d.endRoute e x r stOk 0
                { flags := 2 * b2n nanGate + 4 * b2n full, pairs := T * k, kept := nKept, dropped := nDrop, nans := nans.length,
                  pads := R - nKept, ties := (sels.filter fun s => s.2).length, fill := (outs.map fun o => o.count).foldl max 0 }

/-! ### Blend -/

/-- An FP32 code converted to an output element: exact, or RNE to BF16 (R256). -/
def blendOut (bf : Bool) (x : Nat) : List Byte :=
  if bf then toLE 2 (bf16.round (fp32.decode x)).val else toLE 4 x

/-- One element of a blended row. -/
def blendElem (terms : List (Nat × Nat)) : Nat :=
  terms.foldl (fun acc p => (fFma fp32 p.1 p.2 acc).val) 0

/-- One row of `len` bytes of a blend's returns read, beside those read before; the first obstacle stays. -/
def blendRow (d : Device) (t base len : Nat) (acc : Rd × List (Nat × List Byte)) (w : Nat) : Rd × List (Nat × List Byte) :=
  match acc.1 with
  | .ok _ =>
    (match d.readGA t (base + w * len) len with
     | .ok bs => (.ok [], acc.2 ++ [(w, bs)])
     | o => (o, acc.2))
  | _ => acc

/-- The blend of a context (R256). -/
def blend (e x : Nat) (d : Device) : Device :=
  let c := d.rctx e x
  match c.route with
  | none => d
  | some r =>
    if rdOp r.desc ≠ 2 || d.rd MEM_CHAN_STAT.state (routeChan e x) ≠ chActive then d
    else
      let b := r.desc
      let T := bdT b
      let k := rdK b
      let H := bdH b
      let inB := if bdIn b then 2 else 4
      let outB := if bdOut b then 2 else 4
      match d.readGA r.ten (bdCombine b) (8 * T * k) with
      | .waits => d
      | .fault ga => d.faultRoute e x r ga
      | .poison _ => d.eccRoute e x r
      | .ok comb =>
        let row (t i : Nat) := leAt comb (8 * (k * t + i)) 4
        let wt (t i : Nat) := leAt comb (8 * (k * t + i) + 4) 4
        let used := (List.range (T * k)).map fun j => leAt comb (8 * j) 4
        if used.any fun w => w != 0xFFFFFFFF && decide (bdR b ≤ w) then d.failRoute e x r stDenied (denied 0x0E 0x05 r.leg) 0
        else
          let need := (used.filter fun w => w != 0xFFFFFFFF).eraseDups
          let rd := need.foldl (blendRow d r.ten (bdReturns b) (H * inB)) (.ok [], [])
          match rd.1 with
          | .waits => d
          | .fault ga => d.faultRoute e x r ga
          | .poison _ => d.eccRoute e x r
          | .ok _ =>
            let elem (w j : Nat) : Nat :=
              let bs := smGet rd.2 w []
              if bdIn b then leAt bs (2 * j) 2 * 65536 else leAt bs (4 * j) 4
            let outs := (List.range T).map fun t =>
              (bdOutput b + t * H * outB,
               (List.range H).flatMap fun j =>
                 blendOut (bdOut b) (blendElem ((List.range k).filterMap fun i =>
                   if row t i = 0xFFFFFFFF then none else some (wt t i, elem (row t i) j))))
            let w := d.writeAll r.ten outs
            match w.2 with
            | .waits => d
            | .fault ga => d.faultRoute e x r ga
            | .poison _ => d.eccRoute e x r
            | .ok => w.1.endRoute e x r stOk 0 { kept := (used.filter fun w => w != 0xFFFFFFFF).length }

/-- Routes of a command whose logits have not all arrived when its last started leg ends (R240). -/
def Device.abandonRoutes (d : Device) (sn : Nat) : Device :=
  (d.engines.filter fun k => k.2.sn == sn).foldl (fun d k =>
    match k.2.route with
    | none => d
    | some r =>
      if rdOp r.desc = 1 && !r.full then
        let run := match d.cmd? sn with
          | some c => c.run
          | none => none
        let st : Nat × Nat := match run with
          | some q => (match q.fail with
            | some f => f
            | none => if q.preempted then (stPreempted, q.firstWaiting) else (stDenied, denied 0x0E 0x03 r.leg))
          | none => (stDenied, denied 0x0E 0x03 r.leg)
        d.failRoute (k.1 / 8) (k.1 % 8) r st.1 st.2 0
      else d) d

/-- Pre-emption abandons the routes of a command at once (R289). -/
def Device.dropRoutes (d : Device) (sn : Nat) : Device :=
  (d.engines.filter fun k => k.2.sn == sn && k.2.route.isSome).foldl (fun d k =>
    let e := k.1 / 8
    let x := k.1 % 8
    let d := d.setRctx e x { d.rctx e x with route := none }
    ((d.setReg .MEM_CHAN_STAT (routeChan e x) 0).showEngine e).moverDone sn) d

/-- n engines with a free context for a command, by most free contexts, then the lower number (R233). -/
def Device.pickEngines (d : Device) : Nat → List Nat → Option (List (Nat × Nat))
  | 0, _ => some []
  | n + 1, used =>
    let free (e : Nat) : Nat := ((List.range 8).filter fun x => (d.rctx e x).sn == 0).length
    let ok := (List.range 8).filter fun e => !used.contains e && d.engineWorks e && decide (0 < free e)
    match ok.foldl (fun (a : Option Nat) e => match a with
      | none => some e
      | some b => if free b < free e then some e else some b) none with
    | none => none
    | some e =>
      match (List.range 8).find? fun x => (d.rctx e x).sn == 0, d.pickEngines n (e :: used) with
      | some x, some rest => some ((e, x) :: rest)
      | _, _ => none

end Sys2Proof.Machine
end

