-- ==== Sys2Proof/Machine/LegEnd.lean ====
section
/-! DEFINITION. Windows and the gap rule (R154, R161), and how a leg ends, stops or is discarded (R59, R65, R66, R110, R111, R165, R428, R429). -/

namespace Sys2Proof.Machine

/-- Core states (Table 2-9). -/
def csGated : Nat := 0
def csFill : Nat := 1
def csTest : Nat := 2
def csIdle : Nat := 3
def csRunning : Nat := 4
def csRecovery : Nat := 5
def csLost : Nat := 6

def Device.coreSt (d : Device) (n : Nat) : Nat := d.rd COR_LMAP.state n

/-- A core's new state; in Idle-hold a core that would be Idle is Gated (Table 2-9). -/
def Device.setCoreSt (d : Device) (n st : Nat) : Device :=
  d.wr COR_LMAP.state n (if st = csIdle && d.rd PWR_STATE_STAT.state 0 == 1 then csGated else st)

/-! ### Windows -/

/-- Slots near now, within which every window that can still matter lies: offsets reach 8 ms, patterns repeat every 10 ms. -/
def Device.slotsNear (d : Device) (mu : Nat) : List Nat :=
  let s := d.slotCount mu
  let lo := s - 9 * 2 ^ mu
  (List.range (40 * 2 ^ mu)).map (lo + ·)

/-- Image that governs a target slot of timetable k (R158). -/
def TtSlot.at (x : TtSlot) (s : Nat) : Option Timetable :=
  let older := match x.cur with
    | some c => if c.from_ ≤ s then some c else x.prev.filter fun p => decide (p.from_ ≤ s)
    | none => none
  match x.next.reverse.find? fun t => decide (t.from_ ≤ s) with
  | some t => some t
  | none => older

/-- Images of timetable k in force or pending, the one replaced among them; an image whose code is still being placed has no target slot yet. -/
def TtSlot.images (x : TtSlot) : List Timetable := x.prev.toList ++ x.cur.toList ++ x.next

/-- Whether a job runs for a target slot. -/
def TtJob.covers (j : TtJob) (period s : Nat) : Bool := bit j.mask (s % period)

/-- Windows of one image for one target slot: window, its start cycle. -/
def Device.windowsAt (d : Device) (t : Timetable) (s : Nat) : List (Window × Int) :=
  (t.windows.filter fun w => match t.jobs[w.job]? with
    | some j => j.covers t.period s
    | none => false).map fun w => (w, d.cycleAt (d.slotStart t.mu s + 144 * w.off))

/-- Numerology of timetable k. -/
def TtSlot.mu (x : TtSlot) : Nat :=
  match x.cur, x.next.head? with
  | some t, _ => t.mu
  | none, some t => t.mu
  | none, none => 0

/-- Start cycle and bound of every window on a core, over every timetable in force or pending, and those moved to it (R69, R161, R163). -/
def Device.coreWindows (d : Device) (n : Nat) : List (Int × Nat) :=
  (d.sched.tts.flatMap fun k =>
    k.2.images.flatMap fun t =>
      (d.slotsNear t.mu).flatMap fun s =>
        match k.2.at s with
        | some t' => if t' = t then ((d.windowsAt t s).filter fun w => w.1.core == n).map fun w => (w.2, w.1.bound) else []
        | none => []) ++
  (d.sched.moved.filter fun m => m.1 == n).map fun m => ((m.2.1 : Int), m.2.2)

/-- Start of the earliest window on a core that lies after a cycle. -/
def Device.nextWindow (d : Device) (n : Nat) (c : Int) : Option Int :=
  (d.coreWindows n).foldl (fun a w =>
    if w.1 ≤ c then a
    else match a with
      | none => some w.1
      | some x => some (min x w.1)) none

/-- First cycle after the window that a leg starting in cycle c faces (R161). -/
def Device.facedEnd (d : Device) (n : Nat) (c : Int) : Int :=
  match d.nextWindow n c with
  | none => c
  | some w => ((d.coreWindows n).filter fun x => x.1 == w).foldl (fun a x => max a (w + (x.2 : Int))) w

/-- The gap rule (R161): a leg of a bound may have leg cycle 0 in cycle c. -/
def Device.gapOk (d : Device) (n : Nat) (c : Int) (bound : Nat) : Bool :=
  match d.nextWindow n c with
  | none => true
  | some w => decide (c + bound ≤ w - 3600)

/-! ### The end of a leg -/

/-- The tag step of a leg's command: the tenancy step counter. -/
def Leg.rec_ (l : Leg) : FaultRec :=
  { unit := 0, sev := 2, op := 0, ten := l.ten, cls := l.cls, mid := l.mid, client := l.client, step := l.step, leg := l.idx }

/-- Flags and cycle count of the last leg, and the core Idle again (R65, R110). A memory timing event that lasts marks the leg (R291). -/
def Device.closeLeg (d : Device) (n : Nat) (l : Leg) (cycles st : Nat) : Device :=
  let x := d.core n
  let pert := l.perturbed || d.memoryEvent
  let d := d.setCore n { x with leg := none }
  let d := (d.wr COR_SEQ_STAT.running n 0).wr COR_TIMING.last_leg_cycles n (min cycles (2 ^ 32 - 1))
  let d := d.wr COR_ARITH_STAT.last_leg n (l.flags % 65536)
  let d := if pert then d.wr COR_TIMING.perturbed n 1 else d
  let mv := if l.moved then d.sched.moved.filter (fun m => m.1 != n) else d.sched.moved
  let d := { d with sched := { d.sched with moved := mv } }
  (d.setCoreSt n st).showReserve

/-- The time check of an ended leg (R429). -/
def Device.timeCheck (d : Device) (n : Nat) (l : Leg) (cycles : Nat) : Device :=
  let pert := l.perturbed || d.memoryEvent
  if !d.on DET_TEN_CFG.time_check l.ten || l.body = 0 || pert || l.internal != 0 then d
  else if cycles = l.body + d.rd COR_TIMING.leg_start n then d
  else
    let d := d.incSat DET_TEN_STAT.time_mismatch l.ten 1
    let d := (d.wr DET_TIME_LAST.leg_index 0 l.idx).wr DET_TIME_LAST.core 0 n
    (d.wr DET_TIME_LAST.tenancy 0 l.ten).wr DET_TIME_LAST.cycles 0 (min cycles (2 ^ 32 - 1))

/-- Whether no leg of a RUN runs or will run. -/
def RunCtx.legsOver (r : RunCtx) : Bool :=
  r.legSt.all fun s => s == .ended || ((r.fail.isSome || r.preempted) && s != .running)

/-- A leg of a command is over: at the last one, routes that still miss logits are abandoned (R240), and the RUN may complete (R121). -/
def Device.legOver (d : Device) (l : Leg) : Device :=
  if l.internal ≠ 0 then d
  else
    let d := d.setLegSt l.sn l.idx .ended
    let d := match d.cmd? l.sn with
      | some c => (match c.run with
        | some r => if r.legsOver then (if r.fail.isSome || r.preempted then (d.withdrawMail l.sn).abandonRoutes l.sn
            else d.abandonRoutes l.sn) else d
        | none => d)
      | none => d
    d.settleRun l.sn

/-- Detail of a leg's failure by status (Table 4-14). `op` is the record's operation, `idx` its index. -/
def legDetail (st op idx unit addr leg : Nat) : Nat :=
  if st = stEcc then eccDetail idx unit leg
  else if st = stDenied then
    if op = 0x05 then denied 0x0E 0x02 leg
    else if op = 0x04 then addr
    else if op = 0x1A then denied addr 0 leg
    else denied 0x0E op leg
  else addr

/-- A leg stops (R59, R60, R99, R238): a record where one is due, the first failure of its command, the core Idle. DESIGN CHOICE (log 139): it counts as ended in
the cycle it stops in, so last_leg_cycles takes the count; a discarded leg leaves that field alone. Operations: 0x02
uncorrectable, 0x102 an error mark (no error is counted again), 0x04 repeat limit (`addr` is then the completion's detail), 0x05 route descriptor, 0x09 partition, 0x1A trap; others name the sub-code of reason 0x0E. -/
def Device.stopLeg (d : Device) (n : Nat) (l : Leg) (st op addr : Nat) : Device :=
  let u := d.coreUnit n
  let idx := d.nextRec
  let d :=
    if st = stEcc && op = 0x02 then d.uncorr u 0 { l.rec_ with addr := addr }
    else if op = 0x102 then d.log { l.rec_ with unit := u, op := 0x02 }
    else if op = 0x05 || op = 0x09 then d.log { l.rec_ with unit := u, op := op, addr := addr, detail := addr }
    else if op = 0x04 then d.log { l.rec_ with unit := u, op := op, detail := l.lane.pc }
    else if op = 0 then d
    else d.log { l.rec_ with unit := u, op := 0x1A, detail := l.lane.pc }
  let d := d.closeLeg n l (l.count + 1) csIdle
  let d := if l.internal = 0 then d.failRun l.sn st (legDetail st op idx u addr l.idx) else d
  d.legOver l

/-- An operation of a running leg. -/
def Device.legAct (n : Nat) (f : Device → Leg → LegRes) (d : Device) : Device :=
  match (d.core n).leg with
  | none => d
  | some l =>
    match f d l with
    | .go d l => d.setCore n { d.core n with leg := some l }
    | .stop d l st op addr => d.stopLeg n l st op addr

/-- Zero-fill of the granules of a tenancy on a core (R66). -/
def Device.zeroOwned (d : Device) (n t : Nat) : Device :=
  (List.range 16).foldl (fun d g =>
    if d.granuleOwner n g = some t then d.zero spTS (tsOff n (131072 * g)) 131072 else d) d

/-- The counter passes the declared bound (R66): overrun sets, and the scheduler counts the leg (R121). -/
def Device.passBound (d : Device) (n : Nat) (l : Leg) : Device :=
  if l.overrun then d
  else
    let d := d.setCore n { d.core n with leg := some { l with overrun := true } }
    let d := d.wr COR_SEQ_STAT.overrun n 1
    if l.internal ≠ 0 then d else d.modRun l.sn fun r => { r with late := r.late ++ [l.idx] }

/-! ### The cycles of a leg -/

/-- Withheld cycles of a frame for legs of a class (R167). -/
def Device.duty (d : Device) (die cls : Nat) : Nat :=
  if cls = 1 then d.rd SCH_THR_STAT.prompt_duty die else if cls = 2 then d.rd SCH_THR_STAT.spare_duty die else 0

/-- Whether R69 bars withholding the present cycle from a leg: its core is a reserve core, or the leg, run to its full bound after this cycle, would end less
than 3,600 cycles before the next window. -/
def Device.barred (d : Device) (n : Nat) (l : Leg) : Bool :=
  d.isReserve n ||
  match d.nextWindow n d.cycle with
  | none => false
  | some w => decide (w < (d.cycle : Int) + 1 + ((l.bound - l.count : Nat) : Int) + 3600)

/-- Whether a Spare leg of a die holds issue slots by R69: Prompt legs are then not throttled (R19, R168). -/
def Device.spareExempt (d : Device) (die : Nat) : Bool :=
  d.cores.any fun c => coreDie c.1 == die && (match c.2.leg with
    | some l => l.cls == 2 && d.barred c.1 l
    | none => false)

/-- Whether duty throttling takes the present cycle from legs of a class on a die: one of the first cycles of its 256-cycle frame (R167, R168). -/
def Device.dutyTakes (d : Device) (die cls : Nat) : Bool :=
  decide (d.cycle % 256 < d.duty die cls) && !(cls == 1 && d.spareExempt die)

/-- Whether the present cycle is withheld from the leg that runs on a core (R68, R69). -/
def Device.withheld (d : Device) (n : Nat) (l : Leg) : Bool := d.dutyTakes (coreDie n) l.cls && !d.barred n l

/-- Stores whose cycle has come reach the tile store, in order (Table 2-6). -/
def landAll (n : Nat) : List WPend → Device → Leg → LegRes
  | [], d, l => .go d l
  | w :: ws, d, l =>
    match d.tsWrite n l w.addr w.data with
    | .go d l => landAll n ws d l
    | s => s

def landStores (n cyc : Nat) (d : Device) (l : Leg) : LegRes :=
  let due (w : WPend) : Bool := decide (w.due ≤ cyc)
  landAll n (l.lane.stores.filter due) d { l with lane := { l.lane with stores := l.lane.stores.filter fun w => !due w } }

/-- A leg comes to leg cycle c: at the bound overrun sets, and stores due by then have reached the tile store. -/
def Device.atCycle (n c : Nat) (d : Device) (l : Leg) : LegRes :=
  landStores n c (if l.bound ≤ c then d.passBound n l else d) { l with count := c, overrun := l.overrun || decide (l.bound ≤ c) }

/-- What a leg does in leg cycle `cyc`, or in the cycle it has reached (R63, R66, R68): not before cycle `first`, not before the cycle it has reached, not in a
withheld cycle, and not from four times the bound on. -/
def Device.legAt (n first : Nat) (cyc : Option Nat) (f : Device → Leg → LegRes) (d : Device) : Device :=
  d.legAct n fun d l =>
    let c := cyc.getD (max l.count first)
    if c < first || c < l.count || 4 * l.bound ≤ c || d.withheld n l then .go d l
    else
      match d.atCycle n c l with
      | .go d l => f d l
      | s => s

/-- Whether a tile-store requester of a core is fenced: its requests are ignored (R56). -/
def Device.isFenced (d : Device) (n r : Nat) : Bool := (d.core n).fenced.contains r

/-- An instruction of the sequencer, from the body origin on: none issues while it waits on a token or its end instruction has issued, or while its fetch port is
fenced, or while another instruction stalls issue. -/
def Device.seqAct (n : Nat) (cyc : Option Nat) (f : Device → Leg → LegRes) (d : Device) : Device :=
  d.legAt n (d.rd COR_TIMING.leg_start n) cyc fun d l =>
    if l.seqWait.isSome || l.endIssued || d.isFenced n 6 || l.stall.isSome then .go d l else f d l

/-- Codes of the sequencer instructions that can stall issue, which lead the operands in `Leg.stall`. -/
def scSubmit : Nat := 1
def scDma : Nat := 2
def scMove : Nat := 3
def scSoft : Nat := 4
def scLoad : Nat := 5
def scStore : Nat := 6
def scAtomic : Nat := 7

/-- A sequencer instruction that stalls issue while `f` has no answer; it is known by its code and operands, and tries again (R235, R286, R312). -/
def stallOp (code : List Nat) (f : Device → Leg → Option LegRes) (d : Device) (l : Leg) : LegRes :=
  match f d { l with stall := none } with
  | some r => r
  | none => .go d { l with stall := some code }

def Device.seqStall (n : Nat) (code : List Nat) (f : Device → Leg → Option LegRes) (d : Device) : Device :=
  d.legAt n (d.rd COR_TIMING.leg_start n) none fun d l =>
    if l.seqWait.isSome || l.endIssued || d.isFenced n 6 || (l.stall.isSome && l.stall != some code) then .go d l else stallOp code f d l

/-- An optional token among the operands of a stalled instruction. -/
def tokCode (t : Option Nat) : Nat := (t.map fun k => k + 1).getD 0

/-- The signal lane's next instruction after one that has issued (R47): at the end of a REPEAT's body the next iteration begins, or the REPEAT is over. -/
def advance : List Rep → Nat → List Rep × Nat
  | [], pc => ([], pc)
  | r :: rs, pc =>
    if pc = r.body + 8 * r.len then
      if 1 < r.left then ({ r with left := r.left - 1 } :: rs, r.body) else advance rs r.ret
    else (r :: rs, pc)

/-- An instruction has issued from address pc: while a REPEAT runs the cache holds it from then on, and issue goes on at the next address (R47). -/
def Lane.issued (x : Lane) (cyc : Nat) : Lane :=
  let a := advance x.reps.reverse (x.pc + 8)
  let cache := if x.reps.isEmpty || x.cache.contains x.pc then x.cache else x.pc :: x.cache
  { x with next := cyc + 1, pc := a.2, reps := a.1.reverse, cache := cache }

/-- An instruction of the signal lane (R42): the lane runs, does not wait on a token, and has not issued one in this cycle or a later one. The instruction's fetch
needs the fetch port, unless the repeat cache holds it. -/
def Device.laneAct (n cyc : Nat) (f : Device → Leg → LegRes) (d : Device) : Device :=
  d.legAt n (d.rd COR_TIMING.leg_start n) (some cyc) fun d l =>
    if l.laneWait.isSome || !l.lane.running || decide (cyc < l.lane.next) || (d.isFenced n 6 && !l.lane.cache.contains l.lane.pc) then .go d l
    else
      match f d l with
      | .go d l => .go d { l with lane := l.lane.issued cyc }
      | s => s

/-- A leg is discarded with all pipeline contents (R66): no further output, its tenancy's granules zero-filled, the core in Recovery. It has not
ended by R65, so last_leg_cycles stands. -/
def Device.dropLeg (d : Device) (n : Nat) (l : Leg) : Device :=
  let d : Device := { d with rteIn := { d.rteIn with waiting := d.rteIn.waiting.filter fun t => t.src != n } }
  (d.closeLeg n l (d.rd COR_TIMING.last_leg_cycles n) csRecovery).zeroOwned n l.ten

/-- A RUN that misses its deadline under R160 or R165 posts nothing: what its ended legs posted and no deadline has taken up is withdrawn (R216). -/
def Device.missRun (d : Device) (sn slot : Nat) : Device :=
  let first := match d.cmd? sn with
    | some c => (c.run.map fun r => r.fail.isNone).getD false
    | none => false
  let d := d.failRun sn stMissed slot
  if !first then d
  else
    let d := d.modRun sn fun r => { r with unposted := true }
    { d with radio := { d.radio with posts := d.radio.posts.filter fun p => p.sn != sn } }

/-- The RUN's class by its leg: what a discarded leg does to its command (R165). -/
def Device.failDiscarded (d : Device) (l : Leg) : Device :=
  if l.internal ≠ 0 then d
  else if l.cls = 0 then
    let slot := match d.cmd? l.sn with
      | some c => (match c.run with
        | some r => r.slot.getD 0
        | none => 0)
      | none => 0
    d.missRun l.sn slot
  else
    let tc := smGet d.tens l.ten {}
    let d := { d with tens := smSet d.tens l.ten {} { tc with rollback := max tc.rollback 7 } }
    d.failRun l.sn stRolled 7

end Sys2Proof.Machine
end

