-- ==== Sys2Proof/Machine/Txn.lean ====
section
/-! DEFINITION. Configuration transactions: staging, begin, commit and rollback (R8, R140–R147). -/

namespace Sys2Proof.Machine

/-- Transaction states (Table 4-16). -/
def txIdle : Nat := 0
def txOpen : Nat := 1
def txCommitting : Nat := 2

def Device.txState (d : Device) (t : Nat) : Nat := d.rd TXN_STAT.state t

/-- Whether a register belongs to the RAD or TIM block, whose fields take effect at a slot boundary (R145). -/
def slotReg (r : Reg) : Bool := decide (Reg.RAD_PORT_CFG.code ≤ r.code) && decide (r.code ≤ Reg.TIM_TOD_NEXT.code)

/-- Whether a function may stage a field (R140, R439, R444, R447). -/
def mayStage (fn : Nat) (f : Fld) (i : Nat) : Bool := fn == 0 || ((f.reg == .DET_TEN_CFG || f.reg == .DET_WSET) && i == fn)

/-- An entry of a list of staged fields. -/
def stagedVal (xs : List Staged) (f : Fld) (i : Nat) : Option Nat := (xs.find? fun s => s.fld == f && s.idx == i).map fun s => s.val

/-- A write of an RWT field (R8, R140–R143): the device, and whether the write was discarded for want of an open transaction or of the right to it. -/
def Device.stage (fn : Nat) (f : Fld) (i v : Nat) (d : Device) : Device × Bool :=
  let x := d.txn fn
  if !mayStage fn f i || d.txState fn ≠ txOpen || x.visible ≠ 0 then (d, true)
  else if (List.range 64).any fun t => t != fn && d.txState t != txIdle && (stagedVal (d.txn t).staged f i).isSome then
    (d.wr TXN_STAT.conflict fn 1, false)
  else if (stagedVal x.staged f i).isSome then
    (d.setTxn fn { x with staged := x.staged.map fun s => if s.fld == f && s.idx == i then { s with val := v } else s }, false)
  else if 1024 ≤ x.staged.length then (d.wr TXN_STAT.overflow fn 1, true)
  else
    let d := d.setTxn fn { x with staged := x.staged ++ [⟨f, i, v⟩] }
    let d := d.wr TXN_STAT.staged fn (x.staged.length + 1)
    (if slotReg f.reg then d.wr TXN_STAT.slot_aligned fn 1 else d, false)

/-- The transaction of a tenancy is over; its staged values are gone. -/
def Device.endTxn (d : Device) (t : Nat) : Device :=
  let x := d.txn t
  let d := d.setTxn t { x with staged := [], commit := none, valid := false, validAt := 0 }
  ((d.wr TXN_STAT.state t txIdle).wr TXN_STAT.staged t 0).wr TXN_STAT.slot_aligned t 0

/-- A rollback (R9, R146): nothing takes effect, the cause is recorded, and a waiting commit completes with ROLLED_BACK. -/
def Device.rollbackTxn (d : Device) (t cause : Nat) : Device :=
  if d.txState t = txIdle then d
  else
    let c := (d.txn t).commit
    let d := (d.endTxn t).wr TXN_STAT.cause t cause
    match c with
    | some sn => d.finish sn stRolled cause none
    | none => d

/-- A transaction is in force (R145): its commit completes with OK. -/
def Device.commitDone (d : Device) (t sn : Nat) : Device := (d.incWrap TXN_STAT.committed t 1).finish sn stOk 0 none

/-- A core has adopted its value; commits that wait for no core any more complete (R62, R145). -/
def Device.adopted (d : Device) (t n : Nat) : Device :=
  let x := d.txn t
  let late := x.late.map fun c => (c.1, c.2.filter fun k => k != n)
  let d := d.setTxn t { x with late := late.filter fun c => !c.2.isEmpty }
  (late.filter fun c => c.2.isEmpty).foldl (fun d c => d.commitDone t c.1) d

/-- A sub-op that finds the transaction in the wrong state (R147). -/
def Device.noTxn (d : Device) (c : Cmd) : Device := d.finish c.sn stDenied (denied 0x0C 0 0) none

/-- CFG_TXN begin. -/
def cfgTxnBegin (q : Nat) (d : Device) : Device :=
  d.begin q 0x09 (fun e => leAt e 28 1 == 0) fun d c =>
    if d.txState c.ten ≠ txIdle then d.noTxn c
    else (((d.endTxn c.ten).wr TXN_STAT.overflow c.ten 0).wr TXN_STAT.state c.ten txOpen).finish c.sn stOk 0 none

/-- CFG_TXN commit: Committing; one that overflowed rolls back (R142, R143). -/
def cfgTxnCommit (q : Nat) (d : Device) : Device :=
  d.begin q 0x09 (fun e => leAt e 28 1 == 1) fun d c =>
    let t := c.ten
    if d.txState t ≠ txOpen then d.noTxn c
    else
      let d := (d.setTxn t { d.txn t with commit := some c.sn, valid := false }).wr TXN_STAT.state t txCommitting
      if d.on TXN_STAT.overflow t then d.rollbackTxn t 3 else d

/-- CFG_TXN rollback; it cancels a commit that waits. -/
def cfgTxnRollback (q : Nat) (d : Device) : Device :=
  d.begin q 0x09 (fun e => leAt e 28 1 == 2) fun d c =>
    if d.txState c.ten = txIdle then d.noTxn c else (d.rollbackTxn c.ten 1).finish c.sn stOk 0 none

/-- No boundary within commit_timeout_ms (R146). -/
def txnCommitTimeout (t : Nat) (d : Device) : Device := if d.txState t = txCommitting then d.rollbackTxn t 4 else d

end Sys2Proof.Machine
end

