-- ==== Sys2Proof/Machine/Legs.lean ====
section
/-! DEFINITION. Legs from start to end: start, end, overrun, discard, recovery, tokens, moves and the sequencer's own instructions
(R62–R67, R119–R121). -/

namespace Sys2Proof.Machine

/-- Fields of a leg descriptor (Table 4-5). -/
def dsTag (b : List Byte) : List Byte := (b.drop 32).take 16
def dsArgs (b : List Byte) : Nat := leAt b 48 8
def dsIdx (b : List Byte) : Nat := leAt b 56 2

/-- The 64 bytes of a leg descriptor. -/
def mkDesc (entry tag : List Byte) (args idx : Nat) : List Byte := entry ++ tag ++ toLE 8 args ++ toLE 2 idx ++ List.replicate 6 0

/-- The head descriptor leaves the mailbox. -/
def Device.popMail (d : Device) (n : Nat) : Device :=
  let x := d.core n
  let mail := x.mail.tail
  ((d.setCore n { x with mail := mail }).wr COR_SEQ_STAT.mailbox n mail.length).showReserve

/-- Whether duty throttling withholds a leg start of a class in this cycle (R167). Radio starts are never withheld (R69). -/
def Device.dutyHolds (d : Device) (n cls : Nat) : Bool := d.dutyTakes (coreDie n) cls

/-- Whether the legs a leg waits for have ended (Table 4-3). -/
def RunCtx.depsDone (r : RunCtx) (i : Nat) : Bool :=
  let e := r.legs.getD i []
  [lgAfter0 e, lgAfter1 e].all fun j => j == 0xFFFF || r.legSt[j]? == some .ended

/-- A Radio leg whose predecessors have not ended at its window misses its slot (R165). -/
def Device.depsMissed (d : Device) (m : Mail) : Bool :=
  m.internal == 0 && m.start.isSome &&
  (match d.cmd? m.sn with
   | some c => (match c.run with
     | some r => !r.depsDone m.idx
     | none => false)
   | none => false)

/-- A manifest of the step ran a leg (R431): its hash, and whether its header asks for a caddy. -/
def Device.ranManifest (d : Device) (t step : Nat) (hash : List Byte) (caddy : Bool) : Device :=
  let c := smGet d.det t {}
  let m := (step, hash, caddy)
  if c.manifests.contains m then d else { d with det := smSet d.det t {} { c with manifests := m :: c.manifests } }

/-- The stall of a recovery ends with the first leg of the tenancy after its mark has cleared (R413). -/
def Device.endStall (d : Device) (t : Nat) : Device :=
  match smGet d.ftp.stall t 0 with
  | 0 => d
  | e + 1 =>
    if (smGet d.tens t {}).rollback ≠ 0 then d
    else { d.incSat FTP_ACCT_STALL.stall_ns t ((d.cycle - e) * 5 / 9) with ftp := { d.ftp with stall := smDel d.ftp.stall t } }

/-- The first leg of a command starts: it accounts its queue wait (R176). Radio legs account none. -/
def Device.firstStart (d : Device) (m : Mail) (ten client cls : Nat) : Device :=
  match d.cmd? m.sn with
  | none => d
  | some c =>
    match c.run with
    | none => d
    | some r =>
      let d := if r.started || cls = 0 then d else d.acctStart ten client ((d.time - r.readyAt) / 144)
      let d := if cls = 0 then d else d.ranManifest ten (tagStep (dsTag m.desc)) r.hash (bit r.flags 1)
      let d := d.endStall ten
      d.setCmd { c with run := some { r with started := true, legSt := r.legSt.set m.idx .running } }

/-- The fresh leg of a descriptor: nothing carried over (R67). -/
def freshLeg (serial : Nat) (m : Mail) : Leg :=
  let tag := dsTag m.desc
  { serial := serial, sn := m.sn, idx := dsIdx m.desc, ten := tagTen tag, cls := tagCls tag, mid := tagMid tag,
    client := tagClient tag, step := tagStep tag, bound := lgBound m.desc, args := dsArgs m.desc,
    formBase := lgFormBase m.desc, granules := lgGranules m.desc, body := lgBody m.desc, internal := m.internal,
    moved := m.moved, origin := m.fromCore }

/-- Whether the Radio leg at the head of a mailbox misses its window (R160, R164, R165): its core cannot start it in its start cycle, or, for a moved leg, is
in Recovery or Lost; a moved leg otherwise starts in the first cycle after the leg before it. Also when a predecessor has not ended. -/
def Device.missesWindow (d : Device) (n : Nat) (m : Mail) : Bool :=
  let x := d.core n
  let st := d.coreSt n
  let ready := st == csIdle && x.leg.isNone && x.newPart.isNone
  (match m.start with
   | some w => if m.moved then st == csRecovery || st == csLost else decide (w < d.cycle) || !ready
   | none => false) || d.depsMissed m

/-- A leg starts (R63): checks of R64, COR_SEQ_STAT from the descriptor (R120), the rotation pointers at U0 (R51). The numerics level
of the third check was compared at the RUN, and GEN_ID never changes. -/
def legStart (n : Nat) (d : Device) : Device :=
  let x := d.core n
  match x.mail with
  | [] => d
  | m :: _ =>
    let tag := dsTag m.desc
    let cls := tagCls tag
    let early := match m.start with
      | some st => decide (d.cycle < st)
      | none => false
    let crit := d.pwr.crit.any fun c => c.1 == coreDie n
    if early then d
    else if d.missesWindow n m || (crit && m.start.isSome) then
      let slot := match d.cmd? m.sn with
        | some c => ((c.run.map fun r => r.slot.getD 0).getD 0)
        | none => 0
      let d := (d.popMail n).setLegSt m.sn m.idx .waiting
      (d.missRun m.sn slot).settleRun m.sn
    else if d.coreSt n ≠ csIdle || x.leg.isSome || x.newPart.isSome || crit || (m.start.isNone && decide (d.cycle < m.hold)) then d
    else if m.start.isNone && !d.gapOk n d.cycle (lgBound m.desc) then
      d.setCore n { x with mail := { m with hold := d.facedEnd n d.cycle } :: x.mail.tail }
    else if d.dutyHolds n cls then
      d.setCore n { x with mail := { m with withheld := true } :: x.mail.tail }
    else
      let d := if m.withheld then d.incSat SCH_THR_STAT.starts_withheld (coreDie n) 1 else d
      let d := d.popMail n
      let l := freshLeg (x.serials + 1) m
      let d := (((d.wr COR_SEQ_STAT.manifest_id n l.mid).wr COR_SEQ_STAT.tenancy n l.ten).wr COR_SEQ_STAT.class_ n cls).wr
        COR_SEQ_STAT.leg_index n l.idx
      let d := (d.wr COR_SEQ_STAT.overrun n 0).wr COR_SEQ_STAT.running n 1
      let d := if m.internal = 0 then d.firstStart m l.ten l.client cls else d
      let y := d.core n
      let d := d.setCore n { y with leg := some l, serials := x.serials + 1, banks := y.banks.map fun b => (b.1, { b.2 with rot := 0 }) }
      let d := (d.setCoreSt n csRunning).showReserve
      if decide (262144 < l.bound) || decide (l.bound ≤ d.rd COR_TIMING.leg_start n) || !d.ownsMask n l.ten l.granules then
        let d := d.closeLeg n l 5 csIdle
        let d := if l.internal = 0 then d.failRun l.sn stDenied (denied 0x0E 0x01 l.idx) else d
        d.legOver l
      else d

/-- What of a leg is still under way: passes and full banks, towed tiles, remote operations (R65, R312). -/
def Leg.quiet (l : Leg) : Bool :=
  l.tows == 0 && l.ops == 0 &&
  l.cubes.all fun c => c.2.queue.isEmpty && c.2.full0.isNone && c.2.full1.isNone

/-- The end instruction issues in leg cycle `cyc`, and the leg ends when its writes, the signal lane's last store among them, its tows and its remote operations
are done (R65): posts take
effect (R209, R211), the flags and count are recorded, the time check runs (R429), and the command may complete (R121). `test` is the
outcome of a periodic test leg (R385). -/
def legEnd (n cyc test : Nat) (d : Device) : Device :=
  match (d.core n).leg with
  | none => d
  | some l =>
    let last := (l.lane.stores.map WPend.due).foldl max cyc
    if l.seqWait.isSome || l.stall.isSome || cyc < d.rd COR_TIMING.leg_start n || cyc < l.count || 4 * l.bound ≤ last || d.withheld n l || d.isFenced n 6 then d
    else if !l.quiet then d.setCore n { d.core n with leg := some { l with endIssued := true, count := cyc } }
    else match landStores n last d l with
    | .stop d l st op a => d.stopLeg n l st op a
    | .go d l =>
      let d := if l.bound ≤ last then d.passBound n l else d
      let r := (if d.mayPost l.sn then l.posts else []).foldl (fun (acc : Device × Option Nat) p =>
        let x := acc.1.commitPost l.sn p.1 p.2.1 p.2.2
        (x.1, if x.2 && acc.2.isNone then some p.2.2 else acc.2)) (d, none)
      let d := match r.2 with
        | some s => r.1.failRun l.sn stMissed s
        | none => r.1
      let d := ((d.closeLeg n l (last + 1) csIdle).timeCheck n l (last + 1)).legOver l
      if l.internal = 1 then d.testEnd n test else d

/-- The leg cycle counter reaches the declared bound (R66). -/
def legOverrun (n : Nat) (d : Device) : Device :=
  match (d.core n).leg with
  | none => d
  | some l => d.passBound n { l with count := max l.count l.bound }

/-- The leg cycle counter reaches four times the bound (R66, R165). -/
def legDiscard (n : Nat) (d : Device) : Device :=
  match (d.core n).leg with
  | none => d
  | some l =>
    if !l.overrun then d
    else
      let l := { l with count := 4 * l.bound }
      ((d.dropLeg n l).failDiscarded l).legOver l

/-- A core in Recovery after a discarded leg is Idle again; its fences end with the reset (R56, R66). -/
def coreRecoveryDone (n : Nat) (d : Device) : Device :=
  let x := d.core n
  if d.coreSt n = csRecovery && !x.bringIn then (d.setCore n { x with fenced := [], banks := [] }).setCoreSt n csIdle else d

/-- The core adopts a committed COR_TSPART value when it runs no leg: granules whose owner changes are zero-filled (R62). -/
def tspartAdoption (n : Nat) (d : Device) : Device :=
  let x := d.core n
  match x.newPart, x.leg with
  | some (v, t), none =>
    let old := (d.reg .COR_TSPART n).toNat
    let d := (List.range 16).foldl (fun d g =>
      if ownerIn old g = ownerIn v g then d else d.zero spTS (tsOff n (131072 * g)) 131072) d
    let d := (d.setCore n { x with newPart := none }).setReg .COR_TSPART n (BitVec.ofNat 64 v)
    d.adopted t n
  | _, _ => d

/-! ### Tokens and moves -/

/-- A token of the leg set without an error mark: the waits on it end. -/
def Leg.setTok (l : Leg) (tok : Nat) : Leg :=
  { l with tokens := smIns l.tokens tok { err := false }, seqWait := if l.seqWait = some tok then none else l.seqWait,
           laneWait := if l.laneWait = some tok then none else l.laneWait }

/-- A sequencer instruction sets a token. -/
def tokenSet (n tok : Nat) (d : Device) : Device := d.seqAct n none fun d l => .go d (l.setTok tok)

/-- Status of a leg that waits on an error-marked token, and the record: ECC_UNCORR (R139), or the failure status of the route (R236). -/
def Tok.stopSt (t : Tok) : Nat := if t.st = 0 then stEcc else t.st
def Tok.stopOp (t : Tok) : Nat := if t.stopSt = stEcc then 0x102 else 0x1A

/-- A wait of the sequencer, or of the signal lane, on a token; an error mark stops the leg (R139, R236). -/
def waitTok (lane : Bool) (tok : Nat) (d : Device) (l : Leg) : LegRes :=
  match l.tokens.find? fun t => t.1 == tok with
  | some t => if t.2.err then .stop d l t.2.stopSt t.2.stopOp 0 else .go d l
  | none => .go d (if lane then { l with laneWait := some tok } else { l with seqWait := some tok })

def tokenWait (n cyc tok : Nat) (lane : Bool) (d : Device) : Device :=
  if lane then d.laneAct n cyc (waitTok true tok) else d.seqAct n (some cyc) (waitTok false tok)

/-- Tokens waited on, set with an error mark while the wait stands, stop the leg (R139). -/
def Device.errorWaits (d : Device) (n : Nat) : Device :=
  d.legAct n fun d l =>
    match l.tokens.find? fun x => x.2.err && (l.seqWait == some x.1 || l.laneWait == some x.1) with
    | some t => .stop d l t.2.stopSt t.2.stopOp 0
    | none => .go d l

/-- Every core whose waits an error mark has met. -/
def Device.errorWaitsAll (d : Device) : Device :=
  (d.cores.filter fun c => match c.2.leg with
    | some l => l.tokens.any fun x => x.2.err && (l.seqWait == some x.1 || l.laneWait == some x.1)
    | none => false).foldl (fun d c => d.errorWaits c.1) d

/-- The sequencer starts signal-lane code. -/
def startSignalLane (n addr : Nat) (d : Device) : Device :=
  d.seqAct n none fun d l =>
    let x := l.lane
    .go d { l with lane := { x with running := true, pc := addr, reps := [], cache := [] } }

/-- A sequencer move between the tile store and the die pool; a page fault stops the leg, a page in a crossing stalls the move, and with its
route lost it stops as on an uncorrectable read (R268; log 149). -/
def moveOp (n : Nat) (toPool : Bool) (ts pool len : Nat) (tok : Option Nat) (d : Device) (l : Leg) : Option LegRes :=
  if d.isFenced n 28 then some (.go d l) else
  let ga := d.devId <<< 52 + 2 <<< 48 + pool
  let done (d : Device) (l : Leg) : LegRes :=
    match tok with
    | some t => .go d (l.setTok t)
    | none => .go d l
  if (parts ga len).any fun p => (match d.meet l.ten p.1 toPool with
      | .waits _ => true
      | _ => false) then none
  else if (parts ga len).any fun p => (match d.locate l.ten p.1 toPool with
      | some (k, _) => d.routeLost (coreDie n) k p.2
      | none => false) then some (.stop d l stEcc 0x102 0)
  else some <|
  if toPool then
    d.tsRead n l ts len fun bs =>
        let r := d.ownWrite l.ten ga bs .none
        match r.2 with
        | .fault a => .stop r.1 l stFault 0x09 a
        | .poison x => .stop r.1 l stEcc 0x02 x.off
        | _ => done r.1 l
  else
    match d.readGA l.ten ga len with
    | .waits => .go d l
    | .fault a => .stop d l stFault 0x09 a
    | .poison x => .stop d l stEcc 0x02 x.off
    | .ok bs =>
      match d.tsWrite n l ts bs with
      | .go d l => done d l
      | s => s

def seqMove (n : Nat) (toPool : Bool) (ts pool len : Nat) (tok : Option Nat) (d : Device) : Device :=
  d.seqStall n [scMove, b2n toPool, ts, pool, len, tokCode tok] (moveOp n toPool ts pool len tok)

/-- RSLOAD: σ values of a landed trailer into a quad's row-scale buffer (R106). DESIGN CHOICE (log 140): entry numbers count modulo 256. -/
def rsloadOp (n q ts base count : Nat) (d : Device) (l : Leg) : LegRes :=
  d.tsRead n l ts (4 * count) fun bs =>
    let x := l.quad q
    let rs := (List.range count).foldl (fun m i => smSet m ((base + i) % 256) 0 (leAt bs (4 * i) 4)) x.rowScale
    .go d (l.setQuad q { x with rowScale := rs })

def rsload (n q ts base count : Nat) (d : Device) : Device := d.seqAct n none (rsloadOp n q ts base count)

/-- EXPSET: EXP from a scalar register, which the sequencer's scalar code has set to `value` (R90). -/
def expset (n cyc sreg value : Nat) (d : Device) : Device :=
  d.laneAct n cyc fun d l =>
    let x := l.lane
    .go d { l with s := smSet l.s sreg 0 value, lane := { x with exp := (value : Nat) } }

/-- An uncorrectable operand read, or instruction or descriptor fetch (R59, R367): the error is recorded, output stops and so does the leg. -/
def tileStoreUncorrectable (n addr : Nat) (d : Device) : Device :=
  d.legAct n fun d l => .stop (d.poisonAt spTS (tsOff n addr)) l stEcc 0x02 addr

end Sys2Proof.Machine
end

