-- ==== Sys2Proof/Machine/Sched.lean ====
section
/-! DEFINITION. The scheduler: RUN, binding, placement of legs, pre-emption, Radio windows and moves, reserve counts and duty frames
(R115–R121, R148–R151, R155, R159–R169, R386). -/

namespace Sys2Proof.Machine

/-- RUN fields (Table 4-12). -/
def rnMid (e : List Byte) : Nat := leAt e 28 3
def rnImage (e : List Byte) : Nat := leAt e 32 8
def rnArgs (e : List Byte) : Nat := leAt e 40 8
def rnPref (e : List Byte) : Nat := leAt e 48 1

/-- Whether Radio commands are refused: radio service is not offered (R23, R27). -/
def Device.radioDown (d : Device) : Bool := d.on GEN_SVC.eval_done 0 && d.rd GEN_SVC.svc_level 0 != 3

/-- The image of a command: that of a verified key without checks 5 to 12, since its pages are sealed (R118), else read and checked. -/
def Device.loadImage (d : Device) (t ga mid cls : Nat) (a : PeerAns) : ImgRes :=
  match d.verifiedOf t mid ga with
  | some v => if classAllowed v.im.hdr cls then .ok v.im else .bad stDenied (denied 0x03 0 0)
  | none => d.checkImage t ga mid (some cls) (d.fixedOrder t) a

/-- A RUN that failed a check on memory: the record of an uncorrectable image read comes with it (R367). -/
def Device.endBad (d : Device) (sn st detail : Nat) (stepVal : Option Nat) : Device :=
  let d := if st = stEcc then d.uncorr unitSched 2 { unit := 0, sev := 2, op := 0x02 } else d
  d.finish sn st detail stepVal

/-- Start cycle of window w of an image for a target slot. -/
def Device.windowCycle (d : Device) (t : Timetable) (s : Nat) (w : Window) : Int :=
  d.cycleAt (d.slotStart t.mu s + 144 * w.off)

/-- Earliest window start of a job for a target slot, or of all its windows. -/
def Device.firstWindow (d : Device) (t : Timetable) (s : Nat) (job : Option Nat) : Option Int :=
  (d.windowsAt t s).foldl (fun a w =>
    if job.all fun j => w.1.job == j then
      match a with
      | none => some w.2
      | some x => some (min x w.2)
    else a) none

/-- A Radio RUN resolves its radio header against its timetable (R155), and must have passed its checks 9,000 cycles before its job's first
window (R160). -/
def Device.acceptRadio (d : Device) (c : Cmd) (run : RunCtx) (hdr : PeerAns) : Device :=
  match d.readAny c.ten run.args 16 hdr with
  | .waits => d
  | .fault g => d.endBad c.sn stFault g none
  | .poison _ => d.endBad c.sn stEcc (eccDetail d.nextRec unitSched 0xFFFF) none
  | .ok b =>
    let s := leAt b 0 8
    let j := leAt b 8 2
    let k := leAt b 10 1
    let wrong := d.finish c.sn stDenied (denied 0x0F 0 0) (some s)
    match (smGet d.sched.tts k {}).at s with
    | none => wrong
    | some t =>
      match t.jobs[j]? with
      | none => wrong
      | some job =>
        if job.mid ≠ run.mid || !job.covers t.period s || d.sched.accepted.contains (k, j, s) || leAt b 11 5 ≠ 0 then wrong
        else
          let late := match d.firstWindow t s (some j) with
            | some w => decide (w < d.cycle + 9000)
            | none => false
          let d := { d with sched := { d.sched with accepted := (k, j, s) :: d.sched.accepted } }
          if late then (d.incSat SCH_RADIO_STAT.misses 0 1).finish c.sn stMissed s (some s)
          else d.setCmd { c with run := some { run with slot := some s, job := j, tt := k, started := true } }

/-- The argument fetch of a Prompt or Spare RUN whose block lies in host memory is an ingest (R434). The manual gives the block no length: its digest is that of
free bytes (log 3). -/
def Device.argIngest (d : Device) (t mid cid args : Nat) : Device :=
  if gaSp args = 8 && d.isLocal args then
    let f := d.freshBytes 64
    f.2.ingest t (f.2.step t) (toLE 3 mid ++ toLE 2 0xFFFF ++ toLE 3 0 ++ toLE 4 0 ++ toLE 2 cid ++ toLE 2 0) f.1
  else d

/-- What a RUN does once it starts (R116): the image and its checks, the verified set, then it waits to bind, or for its windows. A tenancy
with a rollback mark of a suspect or lost step starts no RUN (R352, R414). -/
def runEffect (img hdr : PeerAns) (ready : Nat) (d : Device) (c : Cmd) : Device :=
  let e := c.entry
  let cls := eClass e
  match d.markEnd c.ten with
  | some (st, detail) => d.finish c.sn st detail none
  | none =>
  if cls = 0 && d.isX then d.finish c.sn stDenied (denied 0x04 0 0) none
  else if cls = 0 && d.radioDown then d.finish c.sn stUnserv 0 none
  else
    match d.loadImage c.ten (rnImage e) (rnMid e) cls img with
    | .waits => d
    | .bad st detail => d.endBad c.sn st detail none
    | .ok im =>
      if !d.check13 im.res cls then d.finish c.sn stDenied (denied 0x0A 0 0) none
      else
        let d := d.useVerified c.ten (rnMid e) (rnImage e) c.sn im
        let run : RunCtx := { mid := rnMid e, image := rnImage e, args := rnArgs e, diePref := rnPref e, legs := im.legs,
                              forms := im.forms, code := rnImage e + mhCode im.hdr, res := im.res, flags := mhFlags im.hdr,
                              legSt := im.legs.map fun _ => .waiting, readyAt := ready, hash := im.hash }
        if cls = 0 then d.acceptRadio { c with run := some run } run hdr
        else (d.setCmd { c with run := some run }).argIngest c.ten (rnMid e) (eCmdId e) (rnArgs e)

/-- Whether a RUN can go on: no page of its image or header waits for a crossing or for a peer's answer, and the verified set has room for a new entry
(R118). -/
def Device.runReady (d : Device) (q : Nat) (img hdr : PeerAns) (e : List Byte) : Bool :=
  let t := d.qTen q
  (match d.loadImage t (rnImage e) (rnMid e) (eClass e) img with
   | .waits => false
   | .ok im => !d.check13 im.res (eClass e) || !d.verifyWaits t (rnMid e) (rnImage e)
   | .bad _ _ => true) &&
  (eClass e != 0 || (match d.readAny t (rnArgs e) 16 hdr with
   | .waits => false
   | _ => true))

/-- RUN (R116). `img` and `hdr` are what a peer answers where the image or the argument block lies on one. -/
def run (q : Nat) (img hdr : PeerAns) (d : Device) : Device :=
  let ready := match d.frontReady q with
    | some x => x.1
    | none => 0
  d.begin q 0x01 (d.runReady q img hdr) (runEffect img hdr ready)

/-! ### Binding -/

/-- Whether a core lies in a tenancy's core set (R149). -/
def Device.inCoreSet (d : Device) (t n : Nat) : Bool := bit (d.rd TEN_CORES.cores (3 * t + n / 64)) (n % 64)

/-- The Prompt or Spare command bound to a core. -/
def Device.boundTo (d : Device) (n : Nat) : Option Cmd :=
  d.cmds.find? fun c => (match c.run with
    | some r => r.cores.contains n
    | none => false)

/-- Reserve status for a new binding: the status in force, and the one that waits for it (R162). -/
def Device.reserveFor (d : Device) (n : Nat) : Bool :=
  d.isReserve n || (decide (48 - d.rd SCH_RESERVE.count (n / 48) ≤ n % 48) && !d.isX)

/-- The four conditions of R149; `freed` are cores that pre-emption will free. -/
def Device.eligible (d : Device) (c : Cmd) (r : RunCtx) (freed : List Nat) (n : Nat) : Bool :=
  let short := eClass c.entry == 2 && r.legs.all fun e => decide (lgBound e ≤ d.rd SCH_RESERVE.short_bound (n / 48))
  d.coreServes n && d.inCoreSet c.ten n && ((d.boundTo n).isNone || freed.contains n) && (!d.reserveFor n || short)

/-- Dies by most eligible cores, the lower number first on a tie. -/
def diesByRoom (room : Nat → Nat) : List Nat :=
  (List.range 4).foldl (fun (acc : List Nat) k =>
    (acc.takeWhile fun j => decide (room k ≤ room j)) ++ [k] ++ (acc.dropWhile fun j => decide (room k ≤ room j))) []

/-- The cores a command would take (R149): the preferred die when it can take the command, else the die with most; over several dies, in
that order, when one die cannot hold it and need not (log 26). -/
def Device.pickCores (d : Device) (c : Cmd) (r : RunCtx) (freed : List Nat) : Option (List Nat) :=
  let need := leAt r.res 0 2
  let on (k : Nat) : List Nat := ((List.range 48).map (48 * k + ·)).filter (d.eligible c r freed)
  let order := diesByRoom fun k => (on k).length
  let pref := if r.diePref < 4 && need ≤ (on r.diePref).length then [r.diePref] else []
  let dies := if leAt r.res 2 1 = 1 then (pref ++ order).filter fun k => decide (need ≤ (on k).length)
    else pref ++ order
  let dies := if leAt r.res 2 1 = 1 then dies.take 1 else if pref.isEmpty then order else pref
  let cores := (dies.flatMap on).take need
  if cores.length = need then some cores else none

/-- Commands of a class that wait to bind. -/
def Device.waitingCmds (d : Device) (cls : Nat) : List (Cmd × RunCtx) :=
  d.cmds.filterMap fun c => match c.run with
    | some r => if eClass c.entry = cls && r.cores.isEmpty && r.fail.isNone && !r.preempted then some (c, r) else none
    | none => none

/-- Distance of a tenancy from the round-robin position, which stays on a tenancy until it has been served its share of times in a row
(R150; the manual gives the weight and not the pattern, log 27). -/
def Device.rrDistance (d : Device) (pos t : Nat) : Nat :=
  let last := pos / 256
  let start := if pos % 256 < d.rd TEN_CFG.share last then last else (last + 1) % 64
  (t + 64 - start) % 64

/-- The order of R150 between two waiting commands of a class. -/
def Device.bindsBefore (d : Device) (pos : Nat) (a b : Cmd × RunCtx) : Bool :=
  let key (x : Cmd × RunCtx) : List Nat :=
    [d.rrDistance pos x.1.ten, 3 - d.rd QUE_CFG.priority x.1.queue, x.2.readyAt, x.1.sn]
  decide (key a < key b)

/-- The first waiting command in order among those that pass a test. -/
def Device.firstWaitingCmd (d : Device) (cls pos : Nat) (ok : Cmd × RunCtx → Bool) : Option (Cmd × RunCtx) :=
  (d.waitingCmds cls).foldl (fun a x =>
    if !ok x then a
    else match a with
      | none => some x
      | some y => if d.bindsBefore pos x y then some x else some y) none

/-- Whether a command can bind now: cores, engines, and tier 2 filled where it needs it (R149, R233, R293). -/
def Device.canBind (d : Device) (x : Cmd × RunCtx) : Bool :=
  (d.pickCores x.1 x.2 []).isSome && (d.pickEngines (leAt x.2.res 3 1) []).isSome &&
  (leAt x.2.res 24 8 == 0 || d.on MEM_FILL_STAT.t2_done 0)

/-- Round-robin position after a service. -/
def rrNext (pos t : Nat) : Nat := if pos / 256 = t then t * 256 + min (pos % 256 + 1) 255 else t * 256 + 1

/-- A command takes its cores and engine contexts (R149, R233). -/
def Device.bindNow (d : Device) (x : Cmd × RunCtx) : Device :=
  match d.pickCores x.1 x.2 [], d.pickEngines (leAt x.2.res 3 1) [] with
  | some cores, some es =>
    let d := es.zipIdx.foldl (fun d p =>
      (d.setRctx p.1.1 p.1.2 { sn := x.1.sn, pos := p.2 }).showEngine p.1.1) d
    let d := d.setCmd { x.1 with run := some { x.2 with cores := cores, engines := es } }
    let sc := d.sched
    if eClass x.1.entry = 1 then { d with sched := { sc with rrPrompt := rrNext sc.rrPrompt x.1.ten } }
    else { d with sched := { sc with rrSpare := rrNext sc.rrSpare x.1.ten } }
  | _, _ => d

/-- One binding: the first Prompt command in order when it can bind, else the first Spare command that can (R150). -/
def commandBind (d : Device) : Device :=
  match d.firstWaitingCmd 1 d.sched.rrPrompt (fun _ => true) with
  | some x =>
    if d.canBind x then d.bindNow x
    else
      match d.firstWaitingCmd 2 d.sched.rrSpare d.canBind with
      | some y => d.bindNow y
      | none => d
  | none =>
    match d.firstWaitingCmd 2 d.sched.rrSpare d.canBind with
    | some y => d.bindNow y
    | none => d

/-! ### Pre-emption -/

/-- A Spare command is pre-empted (R151, R289): its waiting legs stay unstarted, its routes and copies are abandoned. -/
def Device.preempt (d : Device) (sn : Nat) : Device :=
  let d := d.modRun sn fun r => { r with preempted := true }
  let d := d.dropRoutes sn
  let mine := d.mm.chans.filter fun c => c.2.sn == sn && c.2.kind == 1
  let d := mine.foldl (fun d c => (d.dropChan c.1).moverDone sn) d
  d.settleRun sn

/-- The Spare commands that are pre-empted for a waiting Prompt command: the youngest that holds a core it could bind, until enough cores
will be free; commands whose every leg has started are passed over (R151). -/
def Device.victims (d : Device) (x : Cmd × RunCtx) : List Nat → List Nat → List Nat
  | [], _ => []
  | sn :: rest, freed =>
    if (d.pickCores x.1 x.2 freed).isSome then []
    else
      match d.cmd? sn with
      | some c => (match c.run with
        | some r =>
          let could := r.cores.any fun n => d.eligible x.1 x.2 (r.cores ++ freed) n
          let unstarted := r.legSt.any fun s => s == .waiting || s == .placed
          if could && unstarted && !r.preempted then sn :: d.victims x rest (r.cores ++ freed) else d.victims x rest freed
        | none => d.victims x rest freed)
      | none => d.victims x rest freed

/-- The wait of a Prompt command for cores runs out (R151). -/
def preemptWaitExpiry (sn : Nat) (d : Device) : Device :=
  match (d.waitingCmds 1).find? fun x => x.1.sn == sn with
  | none => d
  | some x =>
    let spares := ((d.cmds.filter fun c => eClass c.entry == 2 && (match c.run with
      | some r => !r.cores.isEmpty
      | none => false)).map fun c => c.sn).reverse
    (d.victims x spares []).foldl (fun d v => d.preempt v) d

/-! ### Placement -/

/-- A descriptor enters a mailbox, at the head for a Radio leg (R159), else at the end. -/
def Device.putMail (d : Device) (n : Nat) (m : Mail) : Device :=
  let x := d.core n
  let mail := if m.start.isSome then m :: x.mail else x.mail ++ [m]
  ((d.setCore n { x with mail := mail }).wr COR_SEQ_STAT.mailbox n (min mail.length 3)).showReserve

/-- A leg's code is copied to its line of a core's tile store through the external port (R60, R119). -/
def Device.placeCode (d : Device) (n t code : Nat) (e : List Byte) (a : PeerAns) : Device × Rd :=
  if lgCodeLen e = 0 then (d, .ok [])
  else
    match d.readAny t (code + lgCodeOff e) (lgCodeLen e) a with
    | .ok bs =>
      let at_ := 128 * lgLine e
      if !d.ownsRange n t at_ bs.length then
        (d.log { unit := d.coreUnit n, sev := 2, op := 0x09, detail := at_, ten := t, addr := at_ }, .ok bs)
      else
        match d.poisonWrite spTS (tsOff n at_) bs.length with
        | some d => (d.store spTS (tsOff n at_) bs, .ok bs)
        | none => (d, .ok bs)
    | r => (d, r)

/-- The descriptor of leg i of a command (R120). -/
def legDesc (c : Cmd) (r : RunCtx) (i step : Nat) : List Byte :=
  mkDesc (r.legs.getD i []) (mkTag c.ten (eClass c.entry) (eClient c.entry) 0 step r.mid) r.args i

/-- The leg of a command that may be placed on a core (R115, R150): the legs of a core position start in leg-table order, so it is the first of that
position not yet placed (log 58), once its predecessors have ended and if it would be clear of the windows if it started now. -/
def Device.placeable (d : Device) (n : Nat) (r : RunCtx) : Option Nat :=
  match leastBelow r.legs.length fun i => r.legSt[i]? == some .waiting && r.cores[lgPos (r.legs.getD i [])]? == some n with
  | some i => if r.depsDone i && d.gapOk n d.cycle (lgBound (r.legs.getD i [])) then some i else none
  | none => none

/-- An internal leg of a core (R386): a taste record for its die, else a periodic test that is due. A steeping core never tastes; the third
core differs from the first two (R381, R382). -/
def Device.internalLeg (d : Device) (n : Nat) : Option (Nat × Nat × Nat) :=
  let x := d.core n
  let die := coreDie n
  match d.ras.tastes.find? fun t => t.die == die && t.core != n && !(t.phase == 1 && t.other == n) && !t.placed with
  | some t => if d.steeping (d.coreUnit n) then (if x.testDue then some (1, 18000, 0) else none)
    else some (2 + t.id, min 3600 (max t.pass.desc.n 4 + 25), max t.pass.desc.n 4)
  | none => if x.testDue then some (1, 18000, 0) else none

/-- An internal leg is placed: a Spare leg of tenancy 0 with no command and no granules. -/
def Device.placeInternal (d : Device) (n : Nat) (i : Nat × Nat × Nat) : Device :=
  if !d.gapOk n d.cycle i.2.1 then d
  else
    let entry := toLE 4 i.2.1 ++ toLE 4 i.2.2 ++ toLE 2 0 ++ toLE 2 0xFFFF ++ toLE 2 0xFFFF ++ List.replicate 18 0
    let desc := mkDesc entry (mkTag 0 2 0 0 0 0) 0 0
    let x := d.core n
    let d := d.setCore n { x with legsSince := 0, testDue := x.testDue && i.1 != 1 }
    let ts := d.ras.tastes.map fun t => if 2 + t.id = i.1 then { t with placed := true } else t
    let d := { d with ras := { d.ras with tastes := ts } }
    d.putMail n { sn := 0, idx := 0, desc := desc, internal := i.1 }

/-- The next leg of the command bound to a core, or an internal leg, goes into its mailbox (R119, R150, R159, R386). -/
def legPlace (n : Nat) (a : PeerAns) (d : Device) : Device :=
  let x := d.core n
  let st := d.coreSt n
  if (x.mail.any fun m => m.start.isNone) || 2 ≤ x.mail.length || !(st == csIdle || st == csRunning) then d
  else
    let bound : Option (Cmd × RunCtx) := match d.boundTo n with
      | some c => (match c.run with
        | some r => if r.fail.isNone && !r.preempted then some (c, r) else none
        | none => none)
      | none => none
    let next : Option (Cmd × RunCtx × Nat) := match bound with
      | some (c, r) => (d.placeable n r).map fun i => (c, r, i)
      | none => none
    match next, d.internalLeg n with
    | none, some i => d.placeInternal n i
    | none, none => d
    | some (c, r, i), il =>
      match il, decide (64 ≤ x.legsSince) with
      | some il, true => d.placeInternal n il
      | _, _ =>
        let e := r.legs.getD i []
        let p := if lgResident e then (d, Rd.ok []) else d.placeCode n c.ten r.code e a
        match p.2 with
        | .waits => d
        | .fault g => (p.1.failRun c.sn stFault g).settleRun c.sn
        | .poison _ =>
          let u := unitSched
          let idx := p.1.nextRec
          ((p.1.uncorr u 2 { unit := 0, sev := 2, op := 0x02 }).failRun c.sn stEcc (eccDetail idx u i)).settleRun c.sn
        | .ok _ =>
          let d := p.1.putMail n { sn := c.sn, idx := i, desc := legDesc c r i (p.1.step c.ten) }
          let y := d.core n
          (d.setCore n { y with legsSince := y.legsSince + 1 }).setLegSt c.sn i .placed

/-! ### Radio windows -/

/-- The accepted Radio RUN of a job and target slot. -/
def Device.radioRun (d : Device) (k j s : Nat) : Option (Cmd × RunCtx) :=
  d.cmds.findSome? fun c => match c.run with
    | some r => if r.slot = some s && r.tt = k && r.job = j && r.fail.isNone then some (c, r) else none
    | none => none

/-- Whether a core is not Idle in the sense of R163. -/
def Device.notIdle (d : Device) (n : Nat) : Bool :=
  let st := d.coreSt n
  st == csRecovery || st == csLost || (match (d.core n).leg with
    | some l => l.overrun
    | none => false)

/-- The reserve core of a die that takes a moved window (R163). -/
def Device.pickReserve (d : Device) (die : Nat) : Option Nat :=
  let cand := ((List.range 48).map (48 * die + ·)).filter fun n => d.isReserve n && d.coreServes n &&
    !((d.core n).mail.any fun m => m.moved) && !(match (d.core n).leg with
      | some l => l.moved
      | none => false)
  match cand.find? fun n => d.coreSt n == csIdle with
  | some n => some n
  | none => cand.find? fun n => match (d.core n).leg with
    | some l => l.cls == 2 && (decide (l.bound ≤ d.rd SCH_RESERVE.short_bound die) || l.internal != 0)
    | none => false

/-- 3,600 cycles before window w of timetable k for target slot s (R159, R163, R164): its descriptor goes to the head of its core's mailbox,
the window moves to a reserve core, or its RUN misses. The scheduler knows no carrier: that byte of the record is free (log 3). -/
def radioWindowCheck (k s w : Nat) (d : Device) : Device :=
  match (smGet d.sched.tts k {}).at s with
  | none => d
  | some t =>
    match t.windows[w]? with
    | none => d
    | some win =>
      let covered := match t.jobs[win.job]? with
        | some j => j.covers t.period s
        | none => false
      if !covered then d
      else
        let start := (d.windowCycle t s win).toNat
        let target := d.radioRun k win.job s
        let place (d : Device) (n : Nat) (moved : Bool) : Device :=
          match target with
          | none => d
          | some (c, r) =>
            let m : Mail := { sn := c.sn, idx := win.leg, desc := legDesc c r win.leg s, start := some start, moved := moved,
                              fromCore := win.core }
            (d.setLegSt c.sn win.leg .placed).putMail n m
        if !d.notIdle win.core then place d win.core false
        else
          match d.pickReserve (win.core / 48) with
          | none =>
            (match target with
             | some (c, _) => (d.missRun c.sn s).settleRun c.sn
             | none => d)
          | some n =>
            let f := d.fresh 256
            let d := { f.2 with sched := { f.2.sched with moved := (n, start, win.bound) :: f.2.sched.moved } }
            let d := d.log { unit := d.coreUnit win.core, sev := 0, op := 0x16, detail := f.1 + (s % 2 ^ 32) <<< 8, ten := t.ten,
                             step := s, leg := win.leg }
            let d := (d.incSat SCH_RADIO_STAT.moves 0 1).wr SCH_RADIO_STAT.last_move_core 0 win.core
            place d n true

/-- A changed reserve count takes effect at a core to which no command is bound (R162). -/
def reserveCountApply (n : Nat) (d : Device) : Device :=
  if (d.boundTo n).isSome then d
  else { d with sched := { d.sched with reserveNow := d.sched.reserveNow.filter fun r => r.1 != n } }

/-! ### Duty frames -/

/-- Withheld cycles of a running leg in a frame, short of the limit of R69. -/
def Device.withholdable (d : Device) (n : Nat) (l : Leg) (want : Nat) : Nat :=
  if d.isReserve n then 0
  else
    match d.nextWindow n d.cycle with
    | none => want
    | some w => min want (w - 3600 - ((l.bound - l.count : Nat) : Int) - d.cycle).toNat

/-- A 256-cycle frame of a die starts (R69, R167, R168): running Spare and Prompt legs are withheld cycles, counted for their client, and
a head that an Idle core could start is withheld its start. While a Spare leg holds issue slots by R69 no Prompt leg is withheld any. -/
def dutyFrame (die : Nat) (d : Device) : Device :=
  let exempt := d.spareExempt die
  ((List.range 48).map (48 * die + ·)).foldl (fun d n =>
    let x := d.core n
    let duty (cls : Nat) : Nat := if cls = 1 && exempt then 0 else d.duty die cls
    match x.leg with
    | some l =>
      let k := d.withholdable n l (duty l.cls)
      if k = 0 then d
      else
        let d := d.setCore n { x with leg := some { l with withheld := l.withheld + k } }
        if l.internal = 0 then d.acctWithheld l.ten l.client k else d
    | none =>
      match x.mail with
      | m :: ms => if d.coreSt n = csIdle && x.newPart.isNone && m.start.isNone && decide (m.hold ≤ d.cycle) && duty (tagCls (dsTag m.desc)) ≠ 0 && d.gapOk n d.cycle (lgBound m.desc) then d.setCore n { x with mail := { m with withheld := true } :: ms } else d
      | [] => d) d

end Sys2Proof.Machine
end

