-- ==== Sys2Proof/Machine/Batch.lean ====
section
/-! DEFINITION. Continuous batching: joins, leaves, the work of a step boundary, KVGET, and the crossings of evictions and resumptions
(R169–R175, R284). -/

namespace Sys2Proof.Machine

def Device.batch (d : Device) (t : Nat) : BatchCtx := smGet d.batches t {}
def Device.setBatch (d : Device) (t : Nat) (b : BatchCtx) : Device := { d with batches := smSet d.batches t {} b }

/-- SCH_KV_STAT of a tenancy (Table 5-13). -/
def Device.showKv (d : Device) (t : Nat) : Device :=
  let b := d.batch t
  ((d.wr SCH_KV_STAT.free_pages t b.free.length).wr SCH_KV_STAT.reserve_avail t b.reserve.length).wr SCH_KV_STAT.deferred t
    (min b.pending.length 65535)

/-- Least element of a list of pages. -/
def leastPage : List Nat → Option Nat
  | [] => none
  | x :: xs => some (xs.foldl min x)

/-- A page goes back to the pool: to the reserve until its target, then to the free pages (R170). -/
def Device.returnPage (d : Device) (t p : Nat) : Device :=
  let b := d.batch t
  let d := d.setPage (pageKey 0 p) pgPlain
  if b.reserve.length < d.rd SCH_KV_POOL.reserve t then d.setBatch t { b with reserve := b.reserve ++ [p] }
  else d.setBatch t { b with free := b.free ++ [p] }

/-- The pool's pages after a change of its range: held pages stay held, the rest is reserve or free (R169). -/
def Device.syncPool (d : Device) (t : Nat) : Device :=
  let b := d.batch t
  let base := d.rd SCH_KV_POOL.base_page t
  let range := (List.range (d.rd SCH_KV_POOL.pages t)).map (base + ·)
  let held := b.seqs.flatMap fun s => s.pages
  let reserve := b.reserve.filter range.contains
  let free := range.filter fun p => !held.contains p && !reserve.contains p
  (d.setBatch t { b with reserve := reserve, free := free }).showKv t

/-! ### Commands -/

/-- BATCH_JOIN: refused, already there, or pending for a boundary (R171). -/
def batchJoin (q : Nat) (d : Device) : Device :=
  d.begin q 0x07 (fun _ => true) fun d c =>
    let e := c.entry
    let t := c.ten
    let id := leAt e 28 4
    let b := d.batch t
    if eClass e = 0 then d.finish c.sn stDenied (denied 0x03 0 0) none
    else if d.rd SCH_BATCH_CFG.max_seq t = 0 then d.finish c.sn stDenied (denied 0x11 0 0) none
    else if b.seqs.any (fun s => s.id == id) || b.pending.any (fun p => p.2.id == id) then d.finish c.sn stOk 0 none
    else
      let s : Seq := { id := id, batch := leAt e 32 2, prio := leAt e 34 1, cls := eClass e, client := eClient e,
                       area := leAt e 40 8, need := leAt e 36 4, arrival := b.arrivals }
      (d.setBatch t { b with pending := b.pending ++ [(c.sn, s)], arrivals := b.arrivals + 1 }).showKv t

/-- BATCH_LEAVE: applied at the next boundary (R170). -/
def batchLeave (q : Nat) (d : Device) : Device :=
  d.begin q 0x08 (fun _ => true) fun d c =>
    let b := d.batch c.ten
    d.setBatch c.ten { b with leaves := b.leaves ++ [(c.sn, leAt c.entry 28 4, leAt c.entry 32 2)] }

/-! ### Crossings of sequences -/

/-- A batch crossing between a pool page and place i of a state area (R174, R284); the pool side is a physical page of tier 1. -/
def Device.pageXfer (d : Device) (t : Nat) (s : Seq) (i p : Nat) (out : Bool) : Device :=
  let pool := d.devId <<< 52 + p * pageSize
  let area := s.area + 4096 + pageSize * i
  d.queueXfer { kind := 3, sn := 0, queue := 0, ten := t, cls := s.cls, client := s.client, step := d.step t, mid := 0,
                src := if out then pool else area, dst := if out then area else pool, len := pageSize, chunk := 65536,
                entry := p, seq := s.id }

/-- The 4 KiB header of a state area, which carries the page list in a layout the manual does not give: free bytes (log 3). -/
def Device.writeAreaHeader (d : Device) (t area : Nat) : Device :=
  match d.locate t area true with
  | some (l, _) => d.scramble l.sp l.off 4096
  | none => d

/-- Whether a sequence's state area lies in tier 2 of this device (R174). -/
def Device.areaOk (d : Device) (s : Seq) : Bool := d.isLocal s.area && gaSp s.area == spT2

/-- An eviction that cannot cross, as one whose crossing aborts (R284): the sequence stays suspended with its pages, and a record is written. DESIGN CHOICE
(log 146): so for a state area outside tier 2, where R174 says it must lie and R171 lets no join be refused for it. -/
def Device.evictStuck (d : Device) (t : Nat) (s : Seq) : Device :=
  let b := d.batch t
  let d := d.setBatch t { b with seqs := b.seqs.map fun x => if x.id = s.id then { x with state := 2, stuck := true } else x }
  d.log { unit := unitSched, sev := 2, op := 0x18, detail := s.id, ten := t, cls := s.cls, client := s.client, step := d.step t }

/-- An eviction: the sequence is suspended, its pages start to cross to its state area, it becomes a pending resumption, and its client and
tenancy count a pre-emption (R174). -/
def Device.evict (d : Device) (t : Nat) (s : Seq) : Device :=
  if !d.areaOk s then d.evictStuck t s else
  let s' : Seq := { s with state := 2, moving := s.pages, need := s.pages.length }
  let b := d.batch t
  let seqs := b.seqs.map fun x => if x.id = s.id then s' else x
  let d := d.setBatch t { b with seqs := seqs, pending := b.pending ++ [(0, { s' with arrival := b.arrivals })],
                                 arrivals := b.arrivals + 1 }
  let d := (d.acctPre t s.client true).writeAreaHeader t s.area
  s.pages.zipIdx.foldl (fun d p => d.pageXfer t s' p.2 p.1 true) d

/-- The sequence that a reserve shortfall evicts next: Spare class, lowest priority, then latest join step, then highest ID (R170). -/
def spareVictim (seqs : List Seq) : Option Seq :=
  (seqs.filter fun s => s.cls == 2 && s.state == 0 && !s.stuck).foldl (fun a s =>
    match a with
    | none => some s
    | some v =>
      if s.prio < v.prio || (s.prio == v.prio && (decide (v.joinStep < s.joinStep) || (s.joinStep == v.joinStep && decide (v.id < s.id))))
      then some s else some v) none

/-- Step 5 of R170, second half. -/
def evictSpare : Nat → Nat → Nat → Device → Device
  | 0, _, _, d => d
  | n + 1, t, short, d =>
    let b := d.batch t
    let going := ((b.seqs.filter fun s => s.state == 2).map fun s => s.moving.length).foldl (· + ·) 0
    if short ≤ going then d
    else
      match spareVictim b.seqs with
      | none => d
      | some s => evictSpare n t short (d.evict t s)

/-- Pending joins and resumptions in their order (R171). -/
def pendingBefore (a b : Nat × Seq) : Bool :=
  decide (b.2.prio < a.2.prio) || (a.2.prio == b.2.prio &&
    ((a.1 == 0 && b.1 != 0) || ((a.1 == 0) == (b.1 == 0) && decide (a.2.arrival < b.2.arrival))))

/-- The first pending entry in order. -/
def firstPending (ps : List (Nat × Seq)) : Option (Nat × Seq) :=
  ps.foldl (fun a p => match a with
    | none => some p
    | some x => if pendingBefore p x then some p else some x) none

/-- The n lowest pages of a list, and the rest. -/
def takeLowest : Nat → List Nat → List Nat × List Nat
  | 0, xs => ([], xs)
  | n + 1, xs =>
    match leastPage xs with
    | none => ([], xs)
    | some p =>
      let r := takeLowest n (xs.filter fun x => x != p)
      (p :: r.1, r.2)

/-- Step 6: joins admitted in turn until one fails a condition (R171); the answers list the commands of new joins. A
resumption counts once its pages have left, at a later boundary than the one that evicted it (`now` lists those, R174). The pages taken are the
lowest free ones (log 28). -/
def admitJoins : Nat → Nat → List Nat → List Nat → Device → Device × List Nat
  | 0, _, _, done, d => (d, done)
  | n + 1, t, now, done, d =>
    let b := d.batch t
    match firstPending (b.pending.filter fun p =>
      p.1 != 0 || (!now.contains p.2.id && b.seqs.any fun x => x.id == p.2.id && x.moving.isEmpty)) with
    | none => (d, done)
    | some (sn, s) =>
      let others := (b.seqs.filter fun x => x.id != s.id).length
      if b.free.length < s.need || d.rd SCH_BATCH_CFG.max_seq t ≤ others then (d, done)
      else
        let r := takeLowest s.need b.free
        let rest := b.pending.filter fun p => p.2.id != s.id
        if sn = 0 then
          let s' : Seq := { s with pages := r.1, moving := r.1, state := if r.1.isEmpty then 0 else 1 }
          let seqs := b.seqs.map fun x => if x.id = s.id then s' else x
          let d := d.setBatch t { b with free := r.2, pending := rest, seqs := seqs }
          admitJoins n t now done (r.1.zipIdx.foldl (fun d p => d.pageXfer t s' p.2 p.1 false) d)
        else
          let s' : Seq := { s with pages := r.1, joinStep := d.step t, state := 0 }
          admitJoins n t now (done ++ [sn]) (d.setBatch t { b with free := r.2, pending := rest, seqs := b.seqs ++ [s'] })

/-- A leave is applied (R170, R171): a pending join it names is withdrawn, its command completing first; pages of a crossing in progress
return when that ends. -/
def Device.applyLeave (d : Device) (t : Nat) (l : Nat × Nat × Nat) : Device × List Nat :=
  let b := d.batch t
  let joins := (b.pending.filter fun p => p.2.id == l.2.1 && p.1 != 0).map fun p => p.1
  let gone := b.seqs.filter fun s => s.id == l.2.1
  let d := d.setBatch t { b with pending := b.pending.filter (fun p => p.2.id != l.2.1), seqs := b.seqs.filter fun s => s.id != l.2.1 }
  let back := gone.flatMap fun s => if s.stuck then s.pages else s.pages.filter fun p => !s.moving.contains p
  (back.foldl (fun d p => d.returnPage t p) d, joins ++ [l.1])

/-- A batch table entry (Table 5-14). -/
def Seq.bytes (s : Seq) : List Byte :=
  toLE 4 s.id ++ toLE 2 s.batch ++ toLE 1 s.prio ++ toLE 1 (s.cls + 4 * s.state + 16 * b2n s.void) ++ toLE 8 s.joinStep ++
  toLE 4 s.pages.length ++ toLE 4 0 ++ toLE 8 s.area ++ List.replicate 32 0

/-- Insertion by batch ID, then sequence ID. -/
def insSeq (s : Seq) : List Seq → List Seq
  | [] => [s]
  | x :: xs => if s.batch < x.batch || (s.batch == x.batch && decide (s.id < x.id)) then s :: x :: xs else x :: insSeq s xs

/-- Step 7: the batch table (R175), its end entry too where there is no sequence. -/
def Device.writeBatchTable (d : Device) (t : Nat) : Device :=
  let b := d.batch t
  let es := (b.seqs.foldl (fun a s => insSeq s a) []).flatMap Seq.bytes
  let fin := List.replicate 7 (0 : Byte) ++ [0x80] ++ List.replicate 56 0
  let d := d.poke devKey spT1 (d.rd SCH_BATCH_CFG.table_page t * pageSize) (es ++ fin)
  d.setBatch t { b with seqs := b.seqs.map fun s => { s with void := false } }

/-- Steps 3 to 7 of R170 at a step boundary. -/
def Device.batchBoundary (d : Device) (t : Nat) : Device :=
  let b := d.batch t
  -- resumed sequences whose pages have all landed run from this boundary (R174)
  let d := d.setBatch t { b with seqs := b.seqs.map (fun s => if s.state = 1 && s.moving.isEmpty then { s with state := 0 } else s), leaves := [] }
  let r := b.leaves.foldl (fun (acc : Device × List Nat) l =>
    let x := acc.1.applyLeave t l
    (x.1, acc.2 ++ x.2)) (d, [])
  let d := r.1
  let before := ((d.batch t).pending.filter fun p => p.1 == 0).map fun p => p.2.id
  let d := ((d.batch t).seqs.filter fun s => s.state == 2 && s.moving.isEmpty && !s.stuck &&
    !((d.batch t).pending.any fun p => p.2.id == s.id)).foldl (fun d s => d.evict t s) d
  let target := d.rd SCH_KV_POOL.reserve t
  let b := d.batch t
  let up := takeLowest (target - b.reserve.length) b.free
  let d := d.setBatch t { b with reserve := b.reserve ++ up.1, free := up.2 }
  let short := if d.rd SCH_KV_POOL.pages t = 0 then 0 else target - (d.batch t).reserve.length
  let d := evictSpare ((d.batch t).seqs.length + 1) t short d
  let now := (((d.batch t).pending.filter fun p => p.1 == 0).map fun p => p.2.id).filter fun i => !before.contains i
  let j := admitJoins ((d.batch t).pending.length + 1) t now [] d
  let d := (j.1.writeBatchTable t).showKv t
  (r.2 ++ j.2).foldl (fun d sn => d.finish sn stOk 0 none) d

/-! ### During a step -/

/-- KVGET tok, seq by a leg (R172, R173): the lowest reserve page, or the null page and a suspended sequence. A sequence the tenancy does not
have gets nothing. -/
def kvgetOp (tok seq : Nat) (d : Device) (l : Leg) : LegRes :=
  let b := d.batch l.ten
  match b.seqs.find? fun s => s.id == seq with
  | none => .go d l
  | some s =>
    let put (s' : Seq) (reserve : List Nat) (page : Nat) : LegRes :=
      let b' : BatchCtx := { b with seqs := b.seqs.map (fun x => if x.id = seq then s' else x), reserve := reserve }
      let d := (d.setBatch l.ten b').showKv l.ten
      .go d { l with tokens := smIns l.tokens tok { err := false }, kv := smIns l.kv tok page,
                     seqWait := if l.seqWait = some tok then none else l.seqWait,
                     laneWait := if l.laneWait = some tok then none else l.laneWait }
    match leastPage b.reserve with
    | some p =>
      if 1024 ≤ s.pages.length then put { s with state := 2, void := true } b.reserve 0xFFFFF
      else put { s with pages := s.pages ++ [p] } (b.reserve.filter fun x => x != p) p
    | none => put { s with state := 2, void := true } b.reserve 0xFFFFF

def kvget (n tok seq : Nat) (d : Device) : Device := d.seqAct n none (kvgetOp tok seq)

/-- The crossing of a sequence's page ends (R174, R284): an evicted page returns to the pool, a resumed page is in place. Its destination pages
become Landed, its source pages Vacated, and accesses held for it go on. -/
def evictionCrossingDone (t seq page : Nat) (d : Device) : Device :=
  match d.mm.chans.find? fun c => c.2.kind == 3 && c.2.ten == t && c.2.seq == seq && c.2.entry == page &&
      d.rd MEM_CHAN_STAT.state c.1 == chFlipping with
  | none => d
  | some (ch, x) =>
    let out := x.src == d.devId <<< 52 + page * pageSize
    let still := d.mm.chans.any fun c => c.1 != ch && c.2.kind == 3 && c.2.arriving.any fun p => x.arriving.contains p
    let d := if still then d else d.setPages x.arriving pgLanded
    let d := d.setPages x.departing pgVacated
    let d := d.releaseHeld ch fun ga => if inRange ga x.src x.len then x.dst + (ga - x.src) else ga
    let d := d.dropChan ch
    let b := d.batch t
    let mine := b.seqs.any fun s => s.id == seq
    let seqs := b.seqs.map fun s =>
      if s.id = seq then
        { s with moving := s.moving.filter (fun p => p != page), pages := if out then s.pages.filter (fun p => p != page) else s.pages }
      else s
    let d := d.setBatch t { b with seqs := seqs }
    let d := if out || !mine then d.returnPage t page else d
    d.showKv t

end Sys2Proof.Machine
end

