-- ==== Sys2Proof/Machine/Det.lean ====
section
/-! DEFINITION. Determinism and provenance: the caddy, the release of a STEP_COMMIT, LOG_MARK (R406, R430–R437). -/

namespace Sys2Proof.Machine

/-- Order of byte strings as unsigned strings from byte 0 (R431, R434). -/
def bytesBelow : List Byte → List Byte → Bool
  | [], [] => false
  | [], _ => true
  | _, [] => false
  | a :: as, b :: bs => if a.toNat = b.toNat then bytesBelow as bs else decide (a.toNat < b.toNat)

def insBytes (x : List Byte) : List (List Byte) → List (List Byte)
  | [] => [x]
  | y :: ys => if bytesBelow y x then y :: insBytes x ys else x :: y :: ys

def sortBytes (xs : List (List Byte)) : List (List Byte) := xs.foldr insBytes []

/-- Digest of a concatenation in ascending order; 64 zero bytes for none. -/
def setHash (xs : List (List Byte)) : List Byte := if xs.isEmpty then List.replicate 64 0 else sha512 (sortBytes xs).flatten

/-- Step manifest hash, weight-set hash and input hash of the present step (R431, R432, R434). -/
def Device.manifestHash (d : Device) (t : Nat) : List Byte :=
  setHash (((smGet d.det t {}).manifests.filter fun m => m.1 == d.step t).map fun m => m.2.1).eraseDups
def Device.weightHash (d : Device) (t : Nat) : List Byte :=
  let h := (smGet d.det t {}).whash
  if h.isEmpty then List.replicate 64 0 else h
def Device.inputHash (d : Device) (t : Nat) : List Byte :=
  setHash (((smGet d.det t {}).ingests.filter fun i => i.step % 2 ^ 40 == d.step t % 2 ^ 40).map fun i => i.key ++ i.digest)

/-- Provenance message (Table 14-3). -/
def Device.provenance (d : Device) (t : Nat) : List Byte :=
  let fixed := d.on DET_TEN_STAT.fixed_now t && !(smGet d.det t {}).mixed
  toLE 4 0x09604344 ++ toLE 1 (d.rd GEN_ID.numerics_level 0) ++ toLE 1 (b2n fixed + d.ftMode t <<< 1) ++ toLE 2 0 ++ toLE 8 (d.step t) ++
  d.manifestHash t ++ d.weightHash t ++ d.inputHash t

/-- Caddy record (Table 14-5). -/
def Device.caddyRecord (d : Device) (t : Nat) : List Byte :=
  let m := d.provenance t
  m ++ sha512 m ++ toLE 2 d.devId ++ toLE 6 0 ++ toLE 8 d.stamp8 ++ List.replicate 32 0

/-! ### STEP_COMMIT -/

/-- Fields of a STEP_COMMIT entry (Table 4-12). -/
def scCaddy (e : List Byte) : Bool := bit (leAt e 28 1) 0
def scList (e : List Byte) : Nat := leAt e 32 8
def scCount (e : List Byte) : Nat := leAt e 40 4

/-- A STEP_COMMIT has its status: the step-end record is written, and it may complete at once, or when the partner holds the log so far (R406).
`note` is then 2 and `idx` the number of records the partner must hold, or 3. -/
def Device.closeCommit (d : Device) (sn st detail : Nat) : Device :=
  match d.cmd? sn with
  | none => d
  | some c =>
    let t := c.ten
    let d := d.logRec t 9 d.devId 0 [] []
    let l := d.inLog t
    let need := l.next + l.waiting.length
    let waits := d.isProtected t && !d.on FTP_TEN_STAT.unprotected t && !d.replaying t && decide (l.acked < need)
    d.setCmd { c with fin := some (st, detail), note := if waits then 2 else 3, idx := need }

/-- Whether the step's caddy record is written (R436). -/
def Device.wantsCaddy (d : Device) (t : Nat) (e : List Byte) : Bool :=
  scCaddy e || (smGet d.det t {}).manifests.any fun m => m.1 == d.step t && m.2.2

/-- The release goes on with its next entry, or is done: then the caddy record follows (R435, R436). Entries are copied one after another in the list's order;
an entry the list may not hold fails with FAULT_XLATE. -/
def Device.commitNext (d : Device) (sn : Nat) : Device :=
  match d.cmd? sn with
  | none => d
  | some c =>
    let t := c.ten
    let e := c.entry
    if scCount e ≤ c.idx then
      let d := if d.wantsCaddy t e then (d.writeHost t (scList e) (d.caddyRecord t)).incSat DET_TEN_STAT.caddies t 1 else d
      d.closeCommit sn stOk 0
    else
      let ent := d.peek devKey (spHost t) (scList e + 320 + 32 * c.idx) 32
      let src := leAt ent 0 8
      let len := leAt ent 16 4
      if 2 < gaSp src || len = 0 then d.closeCommit sn stFault src
      else
        let x : Xfer := { kind := 2, sn := sn, queue := c.queue, ten := t, cls := eClass e, client := eClient e, step := d.cmdStep t (eClass e), mid := 0, src := src,
                          dst := leAt ent 8 8, len := len, chunk := 4096 }
        (d.setCmd { c with idx := c.idx + 1 }).queueXfer x

/-- Commands that a STEP_COMMIT waits for (R353, R435): earlier Prompt and Spare commands, collectives and STEP_COMMITs of the tenancy, but for those that
themselves wait for this boundary: a transaction's commit, joins and leaves. -/
def Device.commitBlocked (d : Device) (c : Cmd) : Bool :=
  d.cmds.any fun x => x.ten == c.ten && decide (x.sn < c.sn) && (eClass x.entry != 0 || eOp x.entry == 0x03 || eOp x.entry == 0x0B) &&
    eOp x.entry != 0x07 && eOp x.entry != 0x08 && !isCommit x.entry

/-- A STEP_COMMIT that waits starts its release once nothing stands before it; under a rollback mark or a double loss it releases nothing (R165, R352, R415). -/
def Device.commitTry (d : Device) (c : Cmd) : Device :=
  if c.note ≠ 0 || d.commitBlocked c then d
  else
    let m := (smGet d.tens c.ten {}).rollback
    match d.markEnd c.ten with
    | some (st, detail) => d.closeCommit c.sn st detail
    | none =>
      if m ≠ 0 then d.closeCommit c.sn stRolled m
      else (d.setCmd { c with note := 1 }).commitNext c.sn

/-- STEP_COMMIT: it starts at the front of its queue; one that has started goes on when what it waited for is done. -/
def stepCommit (q : Nat) (d : Device) : Device :=
  let d := d.begin q 0x0B (fun _ => true) fun d _ => d
  (d.cmds.filter fun c => c.queue == q && eOp c.entry == 0x0B).foldl (fun d c =>
    match d.cmd? c.sn with
    | some c => d.commitTry c
    | none => d) d

/-- The partner's confirmation lets waiting commits complete (R406). -/
def Device.commitsAcked (d : Device) (t : Nat) : Device :=
  let l := d.inLog t
  let free := !(d.isProtected t) || d.on FTP_TEN_STAT.unprotected t
  { d with cmds := d.cmds.map fun c => if c.ten = t && eOp c.entry == 0x0B && c.note == 2 && (free || decide (c.idx ≤ l.acked)) then { c with note := 3 } else c }

/-- LOG_MARK: a record of kind 0x08 (R406). -/
def logMark (q : Nat) (d : Device) : Device :=
  d.begin q 0x0C (fun _ => true) fun d c =>
    let tag := mkTag c.ten (eClass c.entry) (eClient c.entry) 0 (d.step c.ten) 0
    (d.logRec c.ten 8 d.devId 0 tag ((c.entry.drop 32).take 8)).finish c.sn stOk 0 none

end Sys2Proof.Machine
end

