-- ==== Sys2Proof/Machine/Channels.lean ====
section
/-! DEFINITION. Transfer channels from grant to end or failure, DMAGO, host translation services, and the shared memory arbiters
(R273, R274, R279, R281, R284–R291). -/

namespace Sys2Proof.Machine

/-- The end of a DMAGO (R286): its token, and its command's share. -/
def Device.endDma (d : Device) (ch : Nat) (x : Xfer) (err : Bool) : Device :=
  let d := d.dropChan ch
  let d := match x.notify with
    | .token n s t => d.setToken n s t err
    | _ => d
  (d.endMover x.sn).errorWaitsAll

/-- The abort of a batch crossing (R284): its pages stay held by the sequence, which stays suspended; a record with op 0x18. -/
def Device.abortBatch (d : Device) (ch : Nat) (x : Xfer) : Device :=
  let d := x.arriving.foldl (fun d p => (d.setPage p pgPlain).scramble (p / 2 ^ 20) (p % 2 ^ 20 * pageSize) pageSize) d
  let d := d.setPages x.departing pgLanded
  let d := (d.releaseHeld ch id).dropChan ch
  let b := d.batch x.ten
  let seqs := b.seqs.map fun s => if s.id = x.seq then { s with state := 2, stuck := true, moving := s.moving.filter fun p => p != x.entry } else s
  let d := (d.setBatch x.ten { b with seqs := seqs, pending := b.pending.filter fun p => !(p.1 == 0 && p.2.id == x.seq) }).showKv x.ten
  d.log { unit := chanUnit ch, sev := 2, op := 0x18, detail := x.seq, ten := x.ten, cls := x.cls, client := x.client, step := x.step }

/-- A transfer fails with a status (Table 9-7, R281, R284, R286). -/
def Device.failXfer (d : Device) (ch st detail : Nat) : Device :=
  match d.chan? ch with
  | none => d
  | some x =>
    if x.kind = 0 then d.abortCross ch x st detail
    else if x.kind = 1 then (d.failRun x.sn st detail).endDma ch x true
    else if x.kind = 2 then (d.dropChan ch).closeCommit x.sn st detail
    else d.abortBatch ch x

/-- A channel or route context fails with FAULT_XLATE: the second record (R288). -/
def Device.failChan (d : Device) (ch : Nat) : Device :=
  let ga := d.rd MEM_CHAN_ADDR.fault_addr ch
  if 192 ≤ ch then
    let e := (ch - 192) / 8
    let x := (ch - 192) % 8
    match (d.rctx e x).route with
    | some r => ((d.logXlate (chanUnit ch) r.ten ga).failRoute e x r stFault ga 8).errorWaitsAll
    | none => d
  else
    match d.chan? ch with
    | some x => (d.logXlate (chanUnit ch) x.ten ga).failXfer ch stFault ga
    | none => d

/-- A channel that an error or a fence halts (Table 9-7): its transfer ends with ECC_UNCORR, and MEM_CHAN_STAT reads Halted until the number is
taken again. -/
def Device.haltChan (d : Device) (ch detail : Nat) : Device :=
  match d.chan? ch with
  | none => d
  | some x =>
    let d := d.failXfer ch stEcc detail
    (((d.wr MEM_CHAN_STAT.tenancy ch x.ten).wr MEM_CHAN_STAT.kind ch x.kind).wr MEM_CHAN_STAT.queue ch x.queue).wr
      MEM_CHAN_STAT.state ch chHalted

/-! ### Chunks -/

/-- PREPARE or OPEN of a peer crossing (R283, R327): the destination range, as address and length. -/
def Device.sendFlip (d : Device) (f : PeerFlip) : Device :=
  d.answer f.dst (if f.phase = 0 then 0x20 else 0x22) 0 0 0 (chanUnit f.ch) 0 f.first 16 f.tag
    (toLE 8 f.first ++ toLE 8 f.len)

/-- The last chunk of a crossing to a peer has landed: the peer is asked to prepare (R283). -/
def Device.startPrepare (d : Device) (ch : Nat) (x : Xfer) : Device :=
  let f : PeerFlip := { ch := ch, dst := gaDev x.dst, first := x.dst, len := x.len, phase := 0, since := d.time, tag := x.tag }
  { d with fab := { d.fab with flips := d.fab.flips ++ [f] } }.sendFlip f

/-- A release copy is followed by the next of its STEP_COMMIT (R436); a DMAGO ends with its last chunk; crossings are Flipping. `data` is what a peer
answered where the source lies on one. -/
def chunkLanded (ch k : Nat) (data : List Byte) (d : Device) : Device :=
  let r := chunkLand ch k data d
  match r.2, r.1.chan? ch with
  | true, some x =>
    if x.kind = 1 then r.1.endDma ch x false
    else if x.kind = 2 then (r.1.dropChan ch).commitNext x.sn
    else if x.kind = 0 && !d.isLocal x.dst then r.1.startPrepare ch x
    else r.1
  | _, _ => r.1

/-- The flip of a crossing with a local destination, 2 µs after its last chunk (R279). One to a peer flips when the peer has prepared (R283). -/
def crossingFlip (ch : Nat) (d : Device) : Device :=
  match d.chan? ch with
  | some x =>
    if x.kind = 0 && d.rd MEM_CHAN_STAT.state ch = chFlipping && (d.isLocal x.dst || x.peerPhase == 2) then
      let d := d.flip ch x
      match d.fab.flips.find? fun f => f.ch == ch && f.phase == 0 with
      | some f =>
        let f' := { f with phase := 1, since := d.time }
        { d with fab := { d.fab with flips := d.fab.flips.map fun g => if g = f then f' else g } }.sendFlip f'
      | none => d
    else d
  | none => d

/-- DMAGO src, dst, len, tok by a leg (R286): it takes the lowest free channel at once, or stalls issue; a protected tenancy without a key sends nothing (R480). -/
def dmagoOp (n src dst len tok : Nat) (d : Device) (l : Leg) : Option LegRes :=
  if !d.mm.waiting.isEmpty then none
  else if (leastBelow 192 fun ch => !(d.mm.chans.any fun c => c.1 == ch) && !d.mm.fenced.contains (chanUnit ch)).isNone then none
  else
    let q := match d.cmd? l.sn with
      | some c => c.queue
      | none => 0
    let remote := !d.isLocal src || !d.isLocal dst
    if remote && d.protects l.ten && (d.fabKeys l.ten).cur.isNone then some (.stop d l stDenied 0x0C 0)
    else
    let x : Xfer := { kind := 1, sn := l.sn, queue := q, ten := l.ten, cls := l.cls, client := l.client, step := l.step, mid := l.mid,
                      src := src, dst := dst, len := len, chunk := if remote then 4096 else chunkSize src dst,
                      notify := .token n l.serial tok, leg := l.idx, ord := l.dmas }
    let l := { l with dmas := l.dmas + 1 }
    let d := d.modRun l.sn fun r => { r with movers := r.movers + 1 }
    -- bytes that lie in both ranges end unspecified (R286)
    let d := if src < dst + len && dst < src + len && d.isLocal dst && !remote then
        (parts (max src dst) (min (src + len) (dst + len) - max src dst)).foldl (fun d p =>
          match d.locate l.ten p.1 true with
          | some (loc, _) => if loc.sp ≤ 2 then d.scramble loc.sp loc.off p.2 else d
          | none => d) d
      else d
    some (.go (channelGrant (d.queueXfer x)) l)

def dmago (n src dst len tok : Nat) (d : Device) : Device := d.seqStall n [scDma, src, dst, len, tok] (dmagoOp n src dst len tok)

/-! ### Faults of a channel -/

/-- The first fault of the channel's leading chunks up to the next to issue: whether it lies in host memory, and its address. -/
def Device.faultOf (d : Device) (ch : Nat) (x : Xfer) : Option (Bool × Nat) :=
  let done := d.rd MEM_CHAN_STAT.done ch
  (List.range (x.issued + 1 - done)).findSome? fun i =>
    if x.landed.contains (done + i) then none
    else
      match chunkOf x.chunk x.pieces (done + i) with
      | some (s, dst, n) => (match d.issueCheck x s dst n with
        | .fault ga => some (gaSp ga == 8 || (x.kind == 2 && (match d.srcCheck x s n with
          | .ok _ => true
          | _ => false)), ga)
        | _ => none)
      | none => none

/-- Requests outstanding at the host (R273). -/
def AtsCtx.outstanding (a : AtsCtx) (fn : Nat) : Nat := (a.reqs.filter fun r => r.fn == fn && r.pri).length

/-- A miss in the address translation cache issues a Translation Request (R273); the channel waits, Active. -/
def Device.askHost (d : Device) (ch fn page : Nat) (write : Bool) : Device :=
  if d.mm.ats.reqs.any fun r => r.fn == fn && r.page == page && r.ch == ch then d
  else
    let a := d.mm.ats
    { d with mm := { d.mm with ats := { a with reqs := a.reqs ++ [⟨fn, page, write, ch, false⟩] } }, sent := .atsRequest fn page write :: d.sent }

/-- A chunk faults in translation (R273, R288): a host page under ATS asks the host; otherwise the channel suspends, and the fourth fault in a row
on one page fails it. With `hostErr` the host answered an untranslated request with an error, which fails the access at once. -/
def chunkFault (ch : Nat) (hostErr : Bool) (d : Device) : Device :=
  match d.chan? ch with
  | none => d
  | some x =>
    if hostErr then
      let host := if x.kind = 2 then some x.dst else (x.pieces.flatMap fun p => [p.1, p.2.1]).find? fun ga => d.isLocal ga && gaSp ga == 8
      match host with
      | some ga => if d.mm.ats.enabled.contains x.ten then d else (d.wr MEM_CHAN_ADDR.fault_addr ch ga).failChan ch
      | none => d
    else if d.rd MEM_CHAN_STAT.state ch ≠ chActive then d
    else
      match d.faultOf ch x with
      | none => d
      | some (host, ga) =>
        if host && d.mm.ats.enabled.contains x.ten then
          d.askHost ch x.ten ((if x.kind = 2 then ga else gaOff ga) / 4096) (x.kind == 2 || x.pieces.any fun p => gaSp p.2.1 == 8)
        else
          let r := d.suspendChan ch x.ten ga host
          if r.2 then (r.1.wr MEM_CHAN_ADDR.fault_addr ch ga).failChan ch else r.1

/-- A suspended channel goes on from the leading chunks that landed (R288). -/
def Device.resumeChan (d : Device) (ch : Nat) : Device :=
  let d := d.wr MEM_CHAN_STAT.state ch chActive
  match d.chan? ch with
  | some x => issueMore 16 ch (d.setChan ch { x with issued := d.rd MEM_CHAN_STAT.done ch, asked := d.rd MEM_CHAN_STAT.done ch, landed := [] })
  | none => if 192 ≤ ch then d.loadBias ((ch - 192) / 8) ((ch - 192) % 8) else d

/-- Whether a function may write MEM_CHAN_CTL for a channel (R294). -/
def Device.mayChan (d : Device) (fn ch : Nat) : Bool := d.rd MEM_CHAN_STAT.tenancy ch == fn

/-- Resume and abort by the owner, of a channel that awaits device service (R288, R294). -/
def chanResume (fn ch : Nat) (d : Device) : Device :=
  if !d.fnAwake fn then d
  else if !d.mayChan fn ch then d.hostErr 0x800618 0
  else if d.rd MEM_CHAN_STAT.state ch = chDevice then d.resumeChan ch else d

def chanAbort (fn ch : Nat) (d : Device) : Device :=
  if !d.fnAwake fn then d
  else if !d.mayChan fn ch then d.hostErr 0x800618 0
  else if d.rd MEM_CHAN_STAT.state ch = chDevice then d.failChan ch else d

/-- No service within dev_timeout_ms (R288). -/
def chanServiceTimeout (ch : Nat) (d : Device) : Device :=
  if d.rd MEM_CHAN_STAT.state ch = chDevice then d.failChan ch else d

/-- The unit of data of this device that a tenancy's address reads is poisoned (R359). -/
def Device.poisonGA (d : Device) (t ga : Nat) : Device :=
  match d.locate t ga false with
  | some (l, _) => if d.isLocal ga && l.sp ≤ 3 then d.poisonAt l.sp l.off else d
  | none => d

/-- An uncorrectable error on a chunk, or on what a route or blend reads, found at an address (R258, R281, R359, Table 9-7). -/
def channelUncorrectable (ch kind ga : Nat) (d : Device) : Device :=
  if 192 ≤ ch then
    let e := (ch - 192) / 8
    let x := (ch - 192) % 8
    match (d.rctx e x).route with
    | some r => ((d.poisonGA r.ten ga).eccRoute e x r).errorWaitsAll
    | none => d
  else
    match d.chan? ch with
    | none => d
    | some x =>
      let idx := d.nextRec
      let d := d.poisonGA x.ten ga
      let d := d.uncorr (chanUnit ch) kind { unit := 0, sev := 2, op := 0x02, ten := x.ten, cls := x.cls, client := x.client, mid := x.mid, step := x.step, addr := ga }
      d.haltChan ch (eccDetail idx (chanUnit ch) 0xFFFF)

/-! ### Host translation -/

/-- A translation enters the cache of 16,384 entries; beyond that the oldest leaves (R273). -/
def Device.addAtc (d : Device) (e : Atc) : Device :=
  let a := d.mm.ats
  let rest := a.cache.filter fun x => !(x.fn == e.fn && x.page == e.page)
  { d with mm := { d.mm with ats := { a with cache := (e :: rest).take 16384 } } }

/-- The faulting address of a host page on a channel: the host address of a release entry (R435), else the global address in space 8. -/
def Device.hostGa (d : Device) (ch page : Nat) : Nat :=
  page * 4096 + (if (d.chan? ch).any fun x => x.kind == 2 then 0 else d.devId <<< 52 + 8 <<< 48)

/-- A channel suspends for PRI with its record (R273, R288). -/
def Device.askPage (d : Device) (r : AtsReq) : Device :=
  let ga := d.hostGa r.ch r.page
  let a := d.mm.ats
  let max_ := smGet a.priMax r.fn 0
  if max_ ≤ a.outstanding r.fn || 512 ≤ (a.reqs.filter fun q => q.pri).length then d
  else
    let s := d.suspendChan r.ch r.fn ga true
    if s.2 then (s.1.wr MEM_CHAN_ADDR.fault_addr r.ch ga).failChan r.ch
    else
      let b := s.1.mm.ats
      { s.1 with mm := { s.1.mm with ats := { b with reqs := b.reqs ++ [{ r with pri := true }] } },
                 sent := .pageRequest r.fn r.page r.write :: s.1.sent }

/-- A Translation Completion (R273): with the permission it enters the cache and the channel goes on; without, PRI asks for the page, or the
access fails. -/
def translationCompletionRx (fn page : Nat) (ok write : Bool) (target : Nat) (d : Device) : Device :=
  match d.mm.ats.reqs.find? fun r => r.fn == fn && r.page == page && !r.pri with
  | none => d
  | some r =>
    let a := d.mm.ats
    let d := { d with mm := { d.mm with ats := { a with reqs := a.reqs.filter fun q => q != r } } }
    let good := ok && (write || !r.write)
    if good then
      let d := d.addAtc { fn := fn, page := page, write := write, target := target }
      issueMore 16 r.ch d
    else if r.ch = chNone then d
    else if d.mm.ats.pri.contains fn then d.askPage r
    else (d.wr MEM_CHAN_ADDR.fault_addr r.ch (d.hostGa r.ch page)).failChan r.ch

/-- A PRG Response (R273): 0 Success retries the translation; another code fails the access. A response to an abandoned channel is discarded. -/
def prgResponseRx (fn page code : Nat) (d : Device) : Device :=
  match d.mm.ats.reqs.find? fun r => r.fn == fn && r.page == page && r.pri with
  | none => d
  | some r =>
    let a := d.mm.ats
    let d := { d with mm := { d.mm with ats := { a with reqs := a.reqs.filter fun q => q != r } } }
    if d.rd MEM_CHAN_STAT.state r.ch ≠ chPri then d
    else if code = 0 then
      (d.resumeChan r.ch).askHost r.ch fn page r.write
    else d.failChan r.ch

/-- No PRG Response within pri_timeout_ms (R273). -/
def priTimeout (fn page : Nat) (d : Device) : Device := prgResponseRx fn page 15 d

/-- An ATS Invalidation Request (R274): the translation leaves the cache, and the completion follows once requests issued under it have
ended. -/
def atsInvalidationRx (fn page : Nat) (d : Device) : Device :=
  let a := d.mm.ats
  let cache := a.cache.filter fun x => !(x.fn == fn && x.page == page)
  { d with mm := { d.mm with ats := { a with cache := cache } }, sent := .atsInvalidated fn page :: d.sent }

/-! ### Arbiters, refresh -/

/-- Whether a resource is a die-pool bank, whose order ends in round robin (Table 9-8). -/
def isPoolBank (u : Nat) : Bool := decide (u / 4096 < 4) && decide (0x40 ≤ u % 4096) && decide (u % 4096 ≤ 0x5F)

/-- Winner among requests in order of arrival (Table 9-8): debug; Radio tags; then, in a die-pool bank, round robin after the last unit granted,
and in memory the oldest of the 32-request window. -/
def memWinner (pool : Bool) (last : Option Nat) (reqs : List MReq) : Option Nat :=
  match reqs.find? fun r => r.debug, reqs.find? fun r => r.radio with
  | some r, _ => some r.unit
  | none, some r => some r.unit
  | none, none =>
    if pool then
      let next := reqs.filter fun r => decide (last.getD 0 < r.unit)
      let least (rs : List MReq) : Option Nat := rs.foldl (fun a r => match a with
        | none => some r.unit
        | some u => some (min u r.unit)) none
      match least next with
      | some u => some u
      | none => least reqs
    else (reqs.take 32).head?.map fun r => r.unit

/-- One arbitration of a die-pool bank, pseudo-channel or LPDDR6 channel (R290, R291). In service the grant is for the next cycle, a standing
grant whose requester withdrew is stale, and refresh comes first. -/
def memArbiterGrant (unit : Nat) (reqs : List MReq) (withdrawn inService : Bool) (d : Device) : Device :=
  let a := smGet d.mm.arbs unit {}
  let reqs := reqs.filter fun r => !d.mm.fenced.contains r.unit && (!r.debug || d.debugOpen)
  let d := if inService && a.grant.isSome && withdrawn then d.incSat MEM_ARB_STAT.stale_grants 0 1 else d
  let win := if d.mm.refreshing.contains unit then none else memWinner (isPoolBank unit) a.holder reqs
  let a' : Arb := { holder := if win.isSome then win else a.holder, grant := if inService then win else none }
  { d with mm := { d.mm with arbs := smSet d.mm.arbs unit {} a' } }

/-- A requester that held or awaited a grant for the watchdog period is fenced (R56, R290): a channel halts, a core's requester stops its leg. -/
def memArbWatchdogFire (u : Nat) (d : Device) : Device :=
  let idx := d.nextRec
  let d := d.log { unit := u, sev := 4, op := 0x08, detail := u }
  let d := (d.incSat MEM_ARB_STAT.wdt_fires 0 1).wr MEM_ARB_STAT.last_unit 0 u
  let d := { d with mm := { d.mm with fenced := u :: d.mm.fenced.filter fun f => f != u } }
  if u / 4096 = 6 && 0x100 ≤ u % 4096 && u % 4096 < 0x200 then
    let ch := u % 4096 - 0x100
    if ch < 192 then d.haltChan ch (eccDetail idx u 0xFFFF)
    else
      let e := (ch - 192) / 8
      let x := (ch - 192) % 8
      match (d.rctx e x).route with
      | some r => (d.failRoute e x r stEcc (eccDetail idx u 0xFFFF) 8).errorWaitsAll
      | none => d
  else
    match d.logicalOf (coreOfUnit u) with
    | none => d
    | some n =>
      match (d.core n).leg with
      | some l =>
        let d := d.closeLeg n l (l.count + 1) csIdle
        let d := if l.internal = 0 then d.failRun l.sn stEcc (eccDetail idx u l.idx) else d
        d.legOver l
      | none => d

/-- Refresh of a pseudo-channel or LPDDR6 channel begins or ends: it takes the resource from its holder, and no data changes (R291). -/
def refresh (u : Nat) (begins : Bool) (d : Device) : Device :=
  let rest := d.mm.refreshing.filter fun x => x != u
  { d with mm := { d.mm with refreshing := if begins then u :: rest else rest } }

/-- The fill of tier 2 ends (R293): accesses and commands that waited for it go on. -/
def tier2FillDone (d : Device) : Device :=
  if d.on MEM_FILL_STAT.t2_done 0 then d
  else
    let d := d.wr MEM_FILL_STAT.t2_done 0 1
    let d := d.releaseHeld chNone id
    (d.mm.chans.map fun c => c.1).foldl (fun d ch => issueMore 16 ch d) d

end Sys2Proof.Machine
end

