-- ==== Sys2Proof/Machine/Banks.lean ====
section
/-! DEFINITION. The tile-store bank arbiters, their watchdog, and the debug window (R51–R57, R263, R445, R484). -/

namespace Sys2Proof.Machine

/-- Requester numbers of Table 12-3: 0 debug, 1 external, 2–5 epilogue, 6 fetch, 7 W store, 8–10 loads, 11–26 fills, 27 towline, 28 moves
and remote operations. -/
def inLegReq (r : Nat) : Bool := decide (2 ≤ r)

/-- Requesters of a bank in priority order (Table 2-7), the fill ports rotated; the towline and move ports, which the table does not rank,
come last (log 25). -/
def bankOrder (rot : Nat) : List Nat :=
  [2, 3, 4, 5, 6, 7, 8, 9, 10] ++ ((List.range 16).map fun i => 11 + (rot + i) % 16) ++ [27, 28]

/-- Who gets a bank among requests: the debug port from anyone; the external port in the bank's reserved cycles, and in any cycle that no leg uses; the other
requesters outside the reserved cycles, and none of them in a cycle withheld from the leg (R51, R52, R57, R68). `leg` tells that a leg runs, `reserved` whether the
cycle is reserved, none in a withheld cycle. -/
def bankWinner (reqs : List Nat) (leg : Bool) (reserved : Option Bool) (rot : Nat) : Option Nat :=
  if reqs.contains 0 then some 0
  else
    match reserved, leg with
    | some false, true => (bankOrder rot).find? reqs.contains
    | _, true => if reqs.contains 1 then some 1 else none
    | _, false => if reqs.contains 1 then some 1 else (bankOrder rot).find? reqs.contains

/-- One arbitration of bank b with the requests present, each with the address it asks for, which lies in the bank (R50). In Idle and Running the grant is for the
next cycle, and a standing grant whose requester has withdrawn is stale (R53, R54); in Fill, Test and Recovery it is for this cycle. A holder that keeps the
bank (`keep`, R55) yields to the debug port alone: DESIGN CHOICE (log 142), also in a cycle reserved for the external port. `cyc` is the leg cycle that the grant
is for, none while no leg runs. A fill that asked in vain is noted for its cube (Table 2-14). A write of COR_BANK_WDT that waits takes effect as the grant
changes (R72). -/
def tileStoreBankGrant (n b : Nat) (reqs : List (Nat × Nat)) (withdrawn keep : Bool) (cyc : Option Nat) (d : Device) : Device :=
  let x := d.core n
  let k := smGet x.banks b {}
  let st := d.coreSt n
  let pipelined := st == csIdle || st == csRunning
  let asked := ((reqs.filter fun r => tsBank r.2 == b).map fun r => r.1).filter fun r => !x.fenced.contains r && (r != 0 || d.debugOpen)
  let reserved := match x.leg, cyc with
    | some l, some c => if d.withheld n l then none else some (c % 8 == b % 8)
    | _, _ => none
  let d := if pipelined && k.grant.isSome && withdrawn then d.incSat COR_BANKSTAT.stale_grants n 1 else d
  let win := match k.holder, k.locked with
    | some h, true => if asked.contains 0 then some 0 else some h
    | _, _ => bankWinner asked x.leg.isSome reserved k.rot
  let d := if win = some 0 && (asked.any fun r => r != 0) then d.perturb n else d
  let rot := match win with
    | some w => if 11 ≤ w && w ≤ 26 then (w - 11 + 1) % 16 else k.rot
    | none => k.rot
  let k' : Bank := { holder := win, locked := keep && win.isSome, grant := if pipelined then win else none, rot := rot,
                     period := if win = k.holder then k.period else none }
  let lost := (asked.filter fun r => decide (11 ≤ r) && decide (r ≤ 26) && some r != win).map fun r => r - 11
  let y := d.core n
  let leg := y.leg.map fun l => { l with lostFills := lost ++ l.lostFills.filter fun u => !lost.contains u }
  d.setCore n { y with banks := smSet x.banks b {} k', leg := leg }

/-- Watchdog period of a bank in µs (R72, Table 2-17): at least 10, at most 100,000. -/
def Device.wdtPeriod (d : Device) (n b : Nat) : Nat :=
  clampN 10 100000 ((smGet (d.core n).banks b {}).period.getD (d.rd COR_BANK_WDT.period_us 0))

/-- A write of COR_BANK_WDT while a core runs waits, for each bank that has a holder, for that bank's next grant change; `old` is the period until then (R72). -/
def Device.deferWdt (d : Device) (old : Nat) : Device :=
  if (List.range 192).all fun n => d.coreSt n != csRunning then d
  else
    let bank (b : Nat × Bank) : Nat × Bank := (b.1, if b.2.holder.isSome && b.2.period.isNone then { b.2 with period := some old } else b.2)
    { d with cores := d.cores.map fun c => (c.1, { c.2 with banks := c.2.banks.map bank }) }

/-- Whether a transfer moves data of a core's tile store, through its external port. -/
def Xfer.touches (x : Xfer) (dev n : Nat) : Bool :=
  [x.src, x.dst].any fun ga => gaDev ga == dev && gaSp ga == 3 && decide (gaOff ga < (n + 1) * 2097152) && decide (n * 2097152 < gaOff ga + x.len)

/-- The bank watchdog fires (R56): the holder is fenced until the core's next reset, with a record; an in-leg requester stops its leg, and a fenced external port
halts the channels that move data through it (Table 9-7). DESIGN CHOICE (log 143): the leg's command completes with ECC_UNCORR, whose detail names the fence's
record. -/
def bankWatchdogFire (n b : Nat) (d : Device) : Device :=
  let x := d.core n
  let k := smGet x.banks b {}
  match k.holder with
  | none => d
  | some r =>
    let u := d.reqUnit n r
    let idx := d.nextRec
    let d := d.log { unit := u, sev := 4, op := 0x08, detail := u }
    let d := (d.incSat COR_BANKSTAT.wdt_fires n 1).wr COR_BANKSTAT.last_wdt_bank n b
    let k' : Bank := { k with holder := none, locked := false, grant := none, period := none }
    let y := d.core n
    let d := (d.setCore n { y with banks := smSet y.banks b {} k', fenced := r :: y.fenced.filter fun f => f != r }).perturb n
    let d := if r = 1 then (d.mm.chans.filter fun c => c.2.touches d.devId n).foldl (fun d c => d.haltChan c.1 (eccDetail idx u 0xFFFF)) d else d
    match (d.core n).leg with
    | none => d
    | some l =>
      if !inLegReq r then d
      else
        let d := d.closeLeg n l (l.count + 1) csIdle
        let d := if l.internal = 0 then d.failRun l.sn stEcc (eccDetail idx u l.idx) else d
        d.legOver l

/-- A debug read is answered. -/
def Device.debugAnswers (d : Device) (off : Nat) (bs : List Byte) : Device := { d with sent := .debugAnswer off bs :: d.sent }

/-- An access through the debug window (R57, R263, R445, R529): while it is locked a read answers all ones and a write is ignored; above the tile stores a read answers
0; otherwise it takes
the bank, and the leg that runs there is perturbed. A write is `data`; a read has no data and reaches `len` bytes. -/
def debugAccess (off len : Nat) (data : Option (List Byte)) (d : Device) : Device :=
  if !d.fnAwake 0 then d
  else if !d.debugOpen || decide (0x18000000 ≤ off) then
    (if data.isSome then d else d.debugAnswers off (List.replicate len (if d.debugOpen then 0 else 0xFF)))
  else
    let n := off / 2097152
    let d := d.perturb n
    match data with
    | none => if (d.poisonIn spTS off len).isSome then d.uncorr (d.reqUnit n 0) 0 { unit := 0, sev := 2, op := 0x02, addr := off } else d.debugAnswers off (d.peek devKey spTS off len)
    | some bs =>
      match d.poisonWrite spTS off bs.length with
      | none => d.uncorr (d.reqUnit n 0) 0 { unit := 0, sev := 2, op := 0x02, addr := off }
      | some d => d.store spTS off bs

end Sys2Proof.Machine
end

