-- ==== Sys2Proof/Machine/LaneRows.lean ====
section
/-! DEFINITION. Signal-lane instructions as they issue: arithmetic, loads, W stores, REPEAT, block exponents and division (R42–R49,
R88–R96). `cyc` is the leg cycle of issue. -/

namespace Sys2Proof.Machine

/-- An arithmetic, permute or seed instruction: its result is readable after its latency (R42, R43). -/
def laneArith (n cyc : Nat) (op : LaneOp) (d : Device) (l : Leg) : LegRes :=
  let r := laneOp l.lane cyc op
  goFl d n { l with lane := l.lane.write cyc r.2.1 r.1 r.2.2.val } r.2.2.fl

def signalLaneOp (n cyc : Nat) (op : LaneOp) (d : Device) : Device := d.laneAct n cyc (laneArith n cyc op)

/-- A load from bus 0 X, 1 Y or 2 Z into a vector register, readable 3 cycles from issue; Z reads at its generator's address and advances
it (R44), first set up when `setup` is given. -/
def laneLoad (n cyc bus v addr : Nat) (setup : Option ZGen) (d : Device) (l : Leg) : LegRes :=
  if bus = 2 then
    let z := (setup.getD l.lane.z).next
    let l := { l with lane := { l.lane with z := z.2 } }
    if d.isFenced n 10 then .go d l else d.tsRead n l z.1 128 fun bs => .go d { l with lane := l.lane.write cyc 3 v bs }
  else if d.isFenced n (8 + bus) then .go d l
  else d.tsRead n l addr 128 fun bs => .go d { l with lane := l.lane.write cyc 3 v bs }

def signalLaneLoad (n cyc bus v addr : Nat) (setup : Option ZGen) (d : Device) : Device :=
  d.laneAct n cyc (laneLoad n cyc bus v addr setup)

/-- A store through W (R45, R89, R91, R92): shift, detection and conversion at once; the vector and its exponent record reach the tile store in cycle +2
(Table 2-6). A range outside the leg's granules stops it with nothing written (R60). -/
def laneStore (n cyc : Nat) (srcs : List Nat) (ty : WTy) (dst : WDst) (scaled : Bool) (addr recAddr : Nat) (d : Device)
    (l : Leg) : LegRes :=
  let x := l.lane
  let bytes := srcs.flatMap (x.read cyc)
  let r := wStore ty dst (if scaled then x.sh else 0) x.exp bytes
  let l := { l with lane := { x with be := r.val.be, bem := max x.bem r.val.be } }
  let rec_ := r.val.rec_.toList.map fun e => [BitVec.ofNat 8 e]
  if !d.ownsRange n l.ten addr r.val.data.length then .stop d l stFault 0x09 addr
  else if !rec_.isEmpty && !d.ownsRange n l.ten recAddr 1 then .stop d l stFault 0x09 recAddr
  else if d.isFenced n 7 then goFl d n l r.fl
  else
    let ws := ⟨cyc + 2, addr, r.val.data⟩ :: rec_.map fun b => (⟨cyc + 2, recAddr, b⟩ : WPend)
    goFl d n { l with lane := { l.lane with stores := l.lane.stores ++ ws } } r.fl

def wStoreRow (n cyc : Nat) (srcs : List Nat) (ty : WTy) (dst : WDst) (scaled : Bool) (addr recAddr : Nat) (d : Device) : Device :=
  d.laneAct n cyc (laneStore n cyc srcs ty dst scaled addr recAddr)

/-- Addresses of a REPEAT's body. -/
def Rep.addrs (r : Rep) : List Nat := (List.range r.len).map fun i => r.body + 8 * i

/-- REPEAT (R47, R48): issue goes on at its body, `count` times, and then after the body where that follows the REPEAT itself, else after the REPEAT (log 141).
The repeat cache starts empty with an outer REPEAT, and fills as its instructions issue. Inside two open REPEATs it traps, and inside one when the instructions of
both bodies together do not fit in the cache. The manual gives that trap's completion no detail: a free value (log 3). -/
def repeatAct (cyc body len count : Nat) (d : Device) (l : Leg) : LegRes :=
  let x := l.lane
  let rep : Rep := ⟨body, len, count, if body = x.pc + 8 then body + 8 * len else x.pc + 8⟩
  let extra := match x.reps with
    | [] => 0
    | r :: _ => r.len + (rep.addrs.filter fun a => !r.addrs.contains a).length
  if 2 ≤ x.reps.length || 256 < extra then
    let f := d.fresh 256
    .stop f.2 l stDenied 0x04 (denied 0x0E f.1 l.idx)
  else
    let cache := if x.reps.isEmpty then [] else if x.cache.contains x.pc then x.cache else x.pc :: x.cache
    .go d { l with lane := { x with reps := x.reps ++ [rep], pc := body, cache := cache, next := cyc + 1 } }

/-- A REPEAT issues; the instruction after it is the first of its body. -/
def repeatOp (n cyc body len count : Nat) (d : Device) : Device :=
  d.legAt n (d.rd COR_TIMING.leg_start n) (some cyc) fun d l =>
    if l.laneWait.isSome || !l.lane.running || decide (cyc < l.lane.next) || (d.isFenced n 6 && !l.lane.cache.contains l.lane.pc) then .go d l
    else repeatAct cyc body len count d l

/-- A parity error of the repeat cache (R49, R366), on an instruction that would issue from it: the lane refetches the body of the REPEAT it is in, stalls 2 cycles and
one a line of that body, and goes on at that instruction; the leg is perturbed, and the core counts a correctable error. -/
def repeatCacheParityError (n : Nat) (d : Device) : Device :=
  match (d.core n).leg with
  | none => d
  | some l =>
    match l.lane.reps.getLast? with
    | none => d
    | some r =>
      if !l.lane.cache.contains l.lane.pc then d else
      let lines := (r.body + 8 * r.len + 127) / 128 - r.body / 128
      let next := max l.count l.lane.next + 2 + lines
      let l := { l with perturbed := true, lane := { l.lane with next := next } }
      let d := (d.setCore n { d.core n with leg := some l }).wr COR_TIMING.perturbed n 1
      let u := d.coreUnit n
      let c := d.correctable u 4 0
      if c.2 then c.1.legAct n fun d l => .stop d l stEcc 0x02 r.body else c.1

/-- A step on the lane's registers alone. -/
def laneSet (f : Lane → Lane) (d : Device) (l : Leg) : LegRes := .go d { l with lane := f l.lane }

/-- SHSET t, lo, hi (R90), and BECLR (R89). -/
def shset (n cyc : Nat) (t lo hi : Int) (d : Device) : Device := d.laneAct n cyc (laneSet fun x => { x with sh := shsetVal x.bem t lo hi })
def beclr (n cyc : Nat) (d : Device) : Device := d.laneAct n cyc (laneSet fun x => { x with bem := 0 })

/-- DIVSETUP on the signed 32-bit values of the lanes (R93, R94). -/
def divsetup (n cyc a b : Nat) (d : Device) : Device :=
  let go (p q : Nat) : DivLane := divSetup (toSigned 32 p) (toSigned 32 q)
  d.laneAct n cyc (laneSet fun x => { x with div := List.zipWith go (lanes32 (x.read cyc a)) (lanes32 (x.read cyc b)) })

/-- DIVSETUP.F on FP32 lanes (R95). -/
def divsetupF (n cyc a b : Nat) (d : Device) : Device :=
  d.laneAct n cyc (laneSet fun x => { x with div := List.zipWith divSetupF (lanes32 (x.read cyc a)) (lanes32 (x.read cyc b)) })

/-- One quotient bit in every lane (R46, R93). -/
def divisionStep (n cyc : Nat) (d : Device) : Device := d.laneAct n cyc (laneSet fun x => { x with div := x.div.map divStep })

/-- DIVQ15 and DIVRND write the quotients of the 32 lanes to a vector register, a Q15 value sign-extended to its lane (R94, R95).
DESIGN CHOICE (log 137): with the latency of a division step. -/
def divq15Act (n cyc v : Nat) (d : Device) (l : Leg) : LegRes :=
  let r := Res.gather (l.lane.div.map divQ15)
  goFl d n { l with lane := l.lane.write cyc 1 v ((r.val.flatMap fun q => toLE 4 (ofSigned 32 q)) ++ List.replicate (128 - 4 * r.val.length) 0) } r.fl

def divq15 (n cyc v : Nat) (d : Device) : Device := d.laneAct n cyc (divq15Act n cyc v)

def divrndAct (n cyc v : Nat) (d : Device) (l : Leg) : LegRes :=
  let r := Res.gather (l.lane.div.map divRnd)
  goFl d n { l with lane := l.lane.write cyc 1 v (vec32 r.val ++ List.replicate (128 - 4 * r.val.length) 0) } r.fl

def divrnd (n cyc v : Nat) (d : Device) : Device := d.laneAct n cyc (divrndAct n cyc v)

end Sys2Proof.Machine
end

