-- ==== Sys2Proof/Machine/Pass.lean ====
section
/-! DEFINITION. Passes: the issue of a pass descriptor, feeders and cubes, the epilogue with its towline, the choice of passes to taste, and
the landing of towed tiles (R33–R37, R97–R106, R139, R380, R381). -/

namespace Sys2Proof.Machine

/-- Epilogue form of a pass: form_base plus its relative index in the manifest's form table (R99). -/
def Device.formOf (d : Device) (l : Leg) (rel : Nat) : Option (List Byte) :=
  match d.cmd? l.sn with
  | some c => (match c.run with
    | some r => r.forms[l.formBase + rel]?
    | none => none)
  | none => none

/-- Pass descriptors waiting in the command queue of a quad: one a first part of each descriptor that no cube has begun (32 entries). -/
def Leg.cmdqLen (l : Leg) (q : Nat) : Nat :=
  ((List.range 4).map fun i => ((l.cube (4 * q + i)).queue.filter fun p => p.done == 0).length).foldl max 0

/-- The three errors of R99 that arise when a pass uses a form. -/
def formTrap (parts : List PassDesc) (p : PassDesc) : Option (List Byte) → Bool
  | none => true
  | some f => (formGate f == 1 && !(parts.any fun x => x.cube == sharePartner false p.cube)) ||
      (formOut f == 7 && p.fmt != .cbf16)

/-- A pass descriptor issues to a quad's command queue (R33, R99): its parts take pass numbers in ascending cube number (R380). A full
queue stalls issue. -/
def issueOp (q : Nat) (parts : List PassDesc) (d : Device) (l : Leg) : LegRes :=
  if 32 ≤ l.cmdqLen q then .go d l
  else if parts.any fun p => formTrap parts p (d.formOf l p.form) then .stop d l stDenied 0x1A 0x09
  else
    let ps := (List.range 4).filterMap fun i => parts.find? fun p => p.cube == 4 * q + i
    let l' := ps.zipIdx.foldl (fun (l' : Leg) p =>
      let c := l'.cube p.1.cube
      l'.setCube p.1.cube { c with queue := c.queue ++ [{ desc := p.1, num := l.passes + p.2, cube := p.1.cube }] }) l
    .go d { l' with passes := l.passes + ps.length }

def passDescriptorIssue (n cyc q : Nat) (parts : List PassDesc) (d : Device) : Device := d.seqAct n (some cyc) (issueOp q parts)

/-- A cube pops, in the cycle before the body origin at the earliest (R40), or a granted fill lands (R35–R37). -/
def popRow (n cyc u : Nat) (d : Device) : Device := d.legAt n 24 (some cyc) fun d l => feederPop d n l u cyc
def fillRow (n u : Nat) (isB : Bool) (d : Device) : Device := d.legAt n 12 none fun d l => if d.isFenced n (11 + u) then .go d l else feederFill d n l u isB

/-! ### Tasting -/

/-- Selection of a pass for tasting (R380). -/
def Device.tasted (d : Device) (n : Nat) (l : Leg) (num : Nat) : Bool :=
  let f := d.rd RAS_TASTE_CFG.fraction 0
  let share := if f = 0 then 0 else if f = 1 then 1 else if f = 2 then 4 else 16
  let step := if l.cls = 0 then d.step l.ten else l.step
  let h := crc32c (toLE 4 (d.rd RAS_TASTE_CFG.seed 0) ++ toLE 3 l.mid ++ toLE 2 l.idx ++ toLE 4 num ++ toLE 4 step)
  (l.cls != 0 || d.on RAS_TASTE_CFG.radio 0) && (d.steeping (d.coreUnit n) || decide (h % 64 < share))

/-- The die whose core tastes: the lowest other die with a working core, else the same (R381; which other die is the model's choice,
log 24). -/
def Device.tasteDie (d : Device) (n : Nat) : Nat :=
  (leastBelow 4 fun k => k != coreDie n && d.coresOn k != 0).getD (coreDie n)

/-- A selected pass is copied into a taste record; a full queue of its taster's die skips it (R381). -/
def Device.queueTaste (d : Device) (n : Nat) (l : Leg) (p : Pass) (form : List Byte) (part : Option (List Accu))
    (scales : List Nat) (out : List Byte) (sums : List Nat) : Device :=
  if !d.tasted n l p.num then d
  else
    let die := d.tasteDie n
    if 4096 ≤ (d.ras.tastes.filter fun t => t.die == die).length then d.incSat RAS_CORE_HEALTH.skipped n 1
    else
      let u := d.coreUnit n
      let t : Taste := { id := d.ras.tasteSeq, core := n, cube := p.cube, sn := l.sn, ten := l.ten, mid := l.mid, leg := l.idx,
                         fmt := p.desc.fmt, pass := p, form := form, part := part, scales := scales, out := out, sums := sums,
                         die := die, temp := ofSigned 16 (d.tempOf u), volt := d.voltOf u }
      let d := { d with ras := { d.ras with tastes := d.ras.tastes ++ [t], tasteSeq := d.ras.tasteSeq + 1 } }
      d.modRun l.sn fun r => { r with tastes := r.tastes + 1 }

/-! ### Step 10 -/

/-- A logit tile goes onto the towline to the routing-engine context at a position of its command (R241); while it waits there the towline waits with it, and the
leg does not end (R65, R243). -/
def Device.towRoute (d : Device) (n : Nat) (l : Leg) (p : PassDesc) (pos fmt : Nat) (data : List Byte) : Device × Leg :=
  let engines := match d.cmd? l.sn with
    | some c => (match c.run with
      | some r => r.engines
      | none => [])
    | none => []
  match engines[pos]? with
  | none => (d.log { l.rec_ with unit := d.coreUnit n, op := 0x19, detail := p.band + p.colTile <<< 32 }, l)
  | some (e, x) =>
    let tag := mkTag l.ten l.cls l.client 2 l.step l.mid
    let t : RIn := { e := e, x := x, src := n, serial := l.serial, tag := tag, band := p.band, col := p.colTile, fmt := fmt, data := data }
    if d.rteFenced.contains (e, d.reqUnit n 27) then (d, l)
    else
      let l := { l with tows := l.tows + 1 }
      let d := (d.setCore n { d.core n with leg := some l }).offerTile t
      (d, (d.core n).leg.getD l)

/-- A tile or trailer goes onto the towline with its tag (R102, R103): to a core of this device, or out of it. -/
def Device.towOut (d : Device) (n : Nat) (l : Leg) (p : PassDesc) (kind addr : Nat) (tok : Option Nat) (data : List Byte)
    (expAddr : Option Nat) : Device :=
  if p.towDev = d.devId && decide (p.towCore < 192) then
    { d with tows := d.tows ++ [{ src := n, sn := l.sn, dst := p.towCore, addr := addr, tok := tok, kind := kind, ten := l.ten, cls := l.cls,
                                  client := l.client, step := l.step, mid := l.mid, data := data, expAddr := expAddr }] }
  else { d with sent := .towed n p.towDev p.towCore (mkTag l.ten l.cls l.client kind l.step l.mid ++ data) :: d.sent }

/-- The finished tile: written locally, its CBF16 exponent byte at destExp, or towed (step 10). -/
def putTile (n : Nat) (form : List Byte) (p : PassDesc) (o : EpiOut) (d : Device) (l : Leg) : LegRes :=
  if formTow form && p.towRe.isSome then
    let r := d.towRoute n l p (p.towRe.getD 0) (formOut form) o.data
    .go r.1 r.2
  else if formTow form then
    .go (d.towOut n l p 2 p.dest p.towTok (o.data ++ (o.exp.toList.map fun e => BitVec.ofNat 8 e)) (o.exp.map fun _ => p.destExp)) l
  else
    match d.tsWrite n l p.dest o.data with
    | .go d l => (match o.exp with
      | some e => d.tsWrite n l p.destExp [BitVec.ofNat 8 e]
      | none => .go d l)
    | s => s

/-- Step 8 of one tile (R104, R105): the sums of its band, and with the band's last tile the trailer. -/
def rowStat (n q : Nat) (form : List Byte) (p : PassDesc) (xs : List Nat) (d : Device) (l : Leg) : Res (Device × Leg × List Nat) :=
  let x := l.quad q
  let b := smGet x.bands p.band {}
  let r := statTile form p.colTile b.sums xs
  let inf := b.inf || (r.fl &&& flInf != 0)
  if !p.lastTile then ⟨(d, l.setQuad q { x with bands := smIns x.bands p.band { sums := r.val, tiles := b.tiles + 1, inf := inf } }, r.val), r.fl⟩
  else
    let sig := Res.gather (r.val.map (rowSigma form))
    let nan := r.val.any fun s => (fp32.decode s).isNan
    let body := trailer form sig.val (b.tiles + 1) p.rowMask (b2n nan + 2 * b2n inf)
    let d := d.towOut n l p 3 p.trailAddr p.trailTok body none
    ⟨(d, l.setQuad q { x with bands := smDel x.bands p.band }, r.val), r.fl ||| sig.fl⟩

/-- The completed bank that a cube's epilogue reads first: the older pass. -/
def Cube.ready (c : Cube) : Option (Pass × List Accu) :=
  match c.full0, c.full1 with
  | some a, some b => if a.num ≤ b.num then some (a, c.bank0) else some (b, c.bank1)
  | some a, none => some (a, c.bank0)
  | none, some b => some (b, c.bank1)
  | none, none => none

/-- A bank is free again, and the held partial replaced. -/
def Cube.drain (c : Cube) (p : Pass) (part : Option (List Accu)) : Cube :=
  if p.bank = 0 then { c with full0 := none, partialT := part } else { c with full1 := none, partialT := part }

/-- Steps 1 to 5 of one cube, with its column-scale and bias vectors read from the tile store. -/
def cubeSteps (n : Nat) (form : List Byte) (u : Nat) (p : Pass) (bank : List Accu) (d : Device) (l : Leg)
    (k : Res (List Nat × List Accu) × Option (List Accu) → LegRes) : LegRes :=
  let rs (r : Nat) : Nat := smGet (l.quad (u / 4)).rowScale ((p.desc.rowBase + r) % 256) 0
  let c := l.cube u
  let go (cs bs : List Byte) : LegRes := k (epi15 form p bank c.partialT rs cs bs)
  let withBias (cs : List Byte) : LegRes := if formBias form then d.tsRead n l p.desc.bias 32 (go cs) else go cs []
  if formColscale form then d.tsRead n l p.desc.colScale 32 withBias else withBias []

/-- Steps 6 to 10 on the tile of one cube or of a gated pair, its tokens and its taste (R33, R97, R98). -/
def finishTile (n u : Nat) (form : List Byte) (p : Pass) (g : Res (List Nat × List Accu)) (v : Option (Res (List Nat × List Accu)))
    (tastes : List (Pass × Option (List Accu))) (d : Device) (l : Leg) : LegRes :=
  let o := epi69 p.desc.fmt form g.val (v.map fun x => x.val.1)
  let fl := g.fl ||| o.fl ||| (match v with
    | some x => x.fl
    | none => 0)
  match putTile n form p.desc o.val d l with
  | .stop d l st op a => .stop (d.raiseFl n fl) (l.addFl fl) st op a
  | .go d l =>
    let s : Res (Device × Leg × List Nat) :=
      if formRowstat form = 1 then rowStat n (u / 4) form p.desc o.val.xs d l else ⟨(d, l, []), 0⟩
    let d := s.val.1
    let l := s.val.2.1
    let scales := (List.range 8).map fun r => smGet (l.quad (u / 4)).rowScale ((p.desc.rowBase + r) % 256) 0
    let d := tastes.foldl (fun d t => d.queueTaste n l t.1 form t.2 scales o.val.data s.val.2.2) d
    let l := tastes.foldl (fun (l : Leg) t => match t.1.desc.token with
      | some k => l.setTok k
      | none => l) l
    goFl d n l (fl ||| s.fl)

/-- The epilogue of a quad reads a completed bank of cube u (R33); with gate = 1 the pair is read together, once both are complete, and the
side that act_side names is activated (Table 3-8). -/
def epilogueOp (n u : Nat) (d : Device) (l : Leg) : LegRes :=
  match (l.cube u).ready with
  | none => .go d l
  | some (p, bank) =>
    match d.formOf l p.desc.form with
    | none => .go d l
    | some form =>
      if formGate form = 0 then
        cubeSteps n form u p bank d l fun r =>
          let part := (l.cube u).partialT
          let l := l.setCube u ((l.cube u).drain p r.2)
          finishTile n u form p r.1 none [(p, part)] d l
      else
        let lo := u / 2 * 2
        match (l.cube lo).ready, (l.cube (lo + 1)).ready with
        | some (p0, b0), some (p1, b1) =>
          if p1.num ≠ p0.num + 1 then .go d l
          else
            cubeSteps n form lo p0 b0 d l fun r0 =>
              cubeSteps n form (lo + 1) p1 b1 d l fun r1 =>
                let ts := [(p0, (l.cube lo).partialT), (p1, (l.cube (lo + 1)).partialT)]
                let l := l.setCube lo ((l.cube lo).drain p0 r0.2)
                let l := l.setCube (lo + 1) ((l.cube (lo + 1)).drain p1 r1.2)
                if formActSide form = 0 then finishTile n lo form p0 r0.1 (some r1.1) ts d l
                else finishTile n lo form p0 r1.1 (some r0.1) ts d l
        | _, _ => .go d l

def epiloguePass (n u : Nat) (d : Device) : Device := d.legAt n 24 none fun d l => if d.isFenced n (2 + u / 4) then .go d l else epilogueOp n u d l

/-! ### Towed tiles -/

/-- The landing token of an inbound item, in the leg that runs. -/
def Device.landTok (d : Device) (n : Nat) (tok : Option Nat) (err : Bool) : Device :=
  match tok, (d.core n).leg with
  | some t, some l => (d.setToken n l.serial t err).errorWaits n
  | _, _ => d

/-- A towed tile or trailer lands at core n (R60, R103, R139): its tag is checked, its range must lie in granules of its tag's tenancy, and
its landing token sets. `expAddr` places the last byte of a CBF16 tile. The items of one stream land in the order they were emitted (R103): one that another of its
source core, command and destination precedes does not arrive yet; none lands while the external port is fenced (R56). -/
def towedTileArrival (n : Nat) (tag : List Byte) (addr : Nat) (tok expAddr : Option Nat) (data : List Byte) (d : Device) : Device :=
  let u := d.coreUnit n
  let land : Device :=
    if !tagOk tag then (d.badTag u tag).landTok n tok true
    else
      let t := tagTen tag
      let body := match expAddr with
        | some _ => data.dropLast
        | none => data
      let ok := d.ownsRange n t addr body.length && (match expAddr with
        | some a => d.ownsRange n t a 1
        | none => true)
      if !ok then
        d.log { unit := u, sev := 2, op := 0x09, detail := addr, ten := t, cls := tagCls tag, mid := tagMid tag,
                client := tagClient tag, addr := addr, step := tagStep tag }
      else
        let put (d : Device) (a : Nat) (bs : List Byte) : Option Device :=
          (d.poisonWrite spTS (tsOff n a) bs.length).map fun d => d.store spTS (tsOff n a) bs
        let r := match put d addr body, expAddr with
          | some d, some a => put d a (data.drop (data.length - 1))
          | x, _ => x
        match r with
        | some d => d.landTok n tok false
        | none => (d.uncorr u 0 { unit := u, sev := 2, op := 0x02, ten := t, addr := addr }).landTok n tok true
  if d.isFenced n 1 then d
  else match d.tows.findIdx? fun w => w.dst == n && w.addr == addr && w.data == data with
  | some i =>
    match d.tows[i]? with
    | some w =>
      if (d.tows.take i).any fun x => x.src == w.src && x.sn == w.sn && x.dst == n then d
      else { land with tows := land.tows.eraseIdx i }.settleRun w.sn
    | none => land
  | none => land

end Sys2Proof.Machine
end

