-- ==== Sys2Proof/Machine/Timetable.lean ====
section
/-! DEFINITION. Timetables: the image, admission, placement and coming into force (R152–R158). -/

namespace Sys2Proof.Machine

/-- Header fields (Table 5-3). -/
def ttNum (b : List Byte) : Nat := leAt b 6 1
def ttMu (b : List Byte) : Nat := leAt b 7 1
def ttPeriod (b : List Byte) : Nat := leAt b 8 1
def ttJobs (b : List Byte) : Nat := leAt b 10 2
def ttWindows (b : List Byte) : Nat := leAt b 12 4
def ttJobTab (b : List Byte) : Nat := leAt b 16 4
def ttWinTab (b : List Byte) : Nat := leAt b 20 4

/-- Header, tables and entries against R152 to R154, as far as the image alone shows (check 0x01); the index of the first failing entry. -/
def ttForm (b : List Byte) (len : Nat) : Option Nat :=
  let regions := [(0, 64), (ttJobTab b, 32 * ttJobs b), (ttWinTab b, 16 * ttWindows b)]
  let header := decide (64 ≤ len) && leAt b 0 4 == 0x09605454 && leAt b 4 2 == 1 && decide (ttNum b ≤ 7) && decide (ttMu b ≤ 3) &&
    ttPeriod b != 0 && (10 * 2 ^ ttMu b) % ttPeriod b == 0 && leAt b 9 1 == 0 && decide (ttJobs b ≤ 256) &&
    decide (ttWindows b ≤ 16384) && ttJobTab b % 64 == 0 && ttWinTab b % 64 == 0 && leAt b 24 40 == 0 &&
    (regions.all fun r => r.2 == 0 || decide (r.1 + r.2 ≤ len)) && disjoint regions
  if !header then some 0
  else
    let job (i : Nat) : Bool :=
      let o := ttJobTab b + 32 * i
      leAt b (o + 3) 5 == 0 && decide (leAt b (o + 16) 16 < 2 ^ ttPeriod b)
    let win (i : Nat) : Bool :=
      let o := ttWinTab b + 16 * i
      let x := toSigned 32 (leAt b o 4)
      decide (-8000000 ≤ x) && decide (x ≤ 8000000) && decide (leAt b (o + 4) 2 < ttJobs b) &&
        decide (leAt b (o + 8) 2 < 192) && leAt b (o + 10) 6 == 0
    match leastBelow (ttJobs b) fun i => !job i with
    | some i => some i
    | none => leastBelow (ttWindows b) fun i => !win i

/-- Outcome of admission: the image with what its jobs' manifests gave, the sub-code and index of the check that failed, or a read that must wait. -/
inductive TtRes (α : Type) where
  | ok (x : α)
  | bad (sub idx : Nat)
  | waits
  deriving DecidableEq, Repr

/-- Job entries, their manifests checked (checks 0x03 and, for the classes, 0x01), of a verified key too: each job with its image. -/
def Device.ttReadJobs (d : Device) (t : Nat) (b : List Byte) : List Nat → TtRes (List (TtJob × ManImg))
  | [] => .ok []
  | i :: is =>
    let o := ttJobTab b + 32 * i
    let mid := leAt b o 3
    let image := leAt b (o + 8) 8
    if !d.isLocal image || decide (2 < gaSp image) then .bad 0x03 i
    else
      match d.checkImage t image mid none (d.fixedOrder t) ⟨0, []⟩ with
      | .ok im =>
        if !classAllowed im.hdr 0 then .bad 0x01 i
        else
          match d.ttReadJobs t b is with
          | .ok js =>
            let j : TtJob := { mid := mid, image := image, mask := leAt b (o + 16) 16, legs := im.legs, forms := im.forms,
                               code := image + mhCode im.hdr, res := im.res }
            .ok ((j, im) :: js)
          | e => e
      | .waits => .waits
      | .bad _ _ => .bad 0x03 i

/-- Window entries with the bounds of their legs. -/
def ttReadWindows (b : List Byte) (jobs : List TtJob) : List Window :=
  (List.range (ttWindows b)).map fun i =>
    let o := ttWinTab b + 16 * i
    let j := leAt b (o + 4) 2
    let leg := leAt b (o + 6) 2
    { off := toSigned 32 (leAt b o 4), job := j, leg := leg, core := leAt b (o + 8) 2,
      bound := lgBound (((jobs.getD j ⟨0, 0, 0, [], [], 0, []⟩).legs).getD leg []) }

/-- Leg entry of a window. -/
def Timetable.leg (t : Timetable) (w : Window) : List Byte :=
  match t.jobs[w.job]? with
  | some j => j.legs.getD w.leg []
  | none => []

/-- Each leg of each job has exactly one window (R154); the first window or job that breaks it. -/
def Timetable.onePer (t : Timetable) : Option Nat :=
  match findIdxFrom (fun w => match t.jobs[w.job]? with
      | some j => decide (j.legs.length ≤ w.leg)
      | none => true) t.windows 0 with
  | some i => some i
  | none => leastBelow t.jobs.length fun j =>
      !((List.range ((t.jobs[j]?.map fun x => x.legs.length).getD 0)).all fun l =>
        (t.windows.filter fun w => w.job == j && w.leg == l).length == 1)

/-- Slots of numerology `mu` from 20 ms before to 40 ms after slot S of numerology `m`: windows reach 8 ms from their slot, and every pattern repeats within 10 ms. -/
def slotsAround (mu m S : Nat) : List Nat :=
  (List.range (60 * 2 ^ mu)).map (S * 2 ^ mu / 2 ^ m - 20 * 2 ^ mu + ·)

/-- Occurrences of an image's windows for a list of target slots: window index, core, start and end cycle. -/
def Device.occurrences (d : Device) (t : Timetable) (slots : List Nat) : List (Nat × Nat × Int × Int) :=
  slots.flatMap fun s => t.windows.zipIdx.filterMap fun w =>
      match t.jobs[w.1.job]? with
      | some j =>
        if j.covers t.period s then
          let c := d.windowCycle t s w.1
          some (w.2, w.1.core, c, c + (w.1.bound : Int))
        else none
      | none => none

/-- Other images that govern target slots beside a new image of timetable k with first slot S: every one of another number, and of k those that begin before S
(checks 0x05, 0x08). -/
def Device.otherImages (d : Device) (k S : Nat) : List (Nat × TtSlot × Timetable) :=
  d.sched.tts.flatMap fun x => (x.2.images.filter fun o => x.1 != k || decide (o.from_ < S)).map fun o => (x.1, x.2, o)

/-- Check 0x05: the first window closer than 3,600 cycles to another on its core, where each image's windows are those of the target slots it governs. The
spans looked at stand around each change of images from the new one's first slot on. -/
def Device.windowsApart (d : Device) (k S : Nat) (t : Timetable) : Option Nat :=
  let others := d.otherImages k S
  let apart (a b : Nat × Nat × Int × Int) : Bool :=
    a.2.1 != b.2.1 || decide (a.2.2.2 + 3600 ≤ b.2.2.1) || decide (b.2.2.2 + 3600 ≤ a.2.2.1)
  let refs := (t.mu, S) :: others.map fun o => (o.2.2.mu, o.2.2.from_)
  leastBelow t.windows.length fun i => refs.any fun r =>
    let mine := d.occurrences t ((slotsAround t.mu r.1 r.2).filter fun s => decide (S ≤ s))
    let rest := others.flatMap fun o => d.occurrences o.2.2 ((slotsAround o.2.2.mu r.1 r.2).filter fun s =>
      decide (o.2.1.at s = some o.2.2) && (o.1 != k || decide (s * 2 ^ t.mu < S * 2 ^ o.2.2.mu)))
    (mine.filter fun a => a.1 == i).any fun a => !((mine.all fun b => a == b || apart a b) && (rest.all fun b => apart a b))

/-- Check 0x06: the first window that starts before a predecessor's window has ended. -/
def Device.windowsOrdered (d : Device) (t : Timetable) : Option Nat :=
  let s := d.slotCount t.mu
  leastBelow t.windows.length fun i =>
    match t.windows[i]? with
    | none => false
    | some w =>
      let e := t.leg w
      !([lgAfter0 e, lgAfter1 e].all fun a => a == 0xFFFF ||
        (t.windows.filter fun v => v.job == w.job && v.leg == a).all fun v =>
          decide (d.windowCycle t s v + (v.bound : Int) ≤ d.windowCycle t s w))

/-- Reserve cores of a die. -/
def Device.reserveCores (d : Device) (die : Nat) : List Nat := ((List.range 48).map (48 * die + ·)).filter d.isReserve

/-- Whether two legs need the same tile-store lines for different code (check 0x08). -/
def codeClash (a b : Nat × List Byte) : Bool :=
  let la := 128 * lgLine a.2
  let lb := 128 * lgLine b.2
  decide (la < lb + lgCodeLen b.2) && decide (lb < la + lgCodeLen a.2) &&
  !(a.1 + lgCodeOff a.2 == b.1 + lgCodeOff b.2 && la == lb && lgCodeLen a.2 == lgCodeLen b.2)

/-- Legs of an image that a core holds code of: those of its windows, and on a reserve core those of the die's windows (R157). -/
def Device.placedOn (d : Device) (t : Timetable) (n : Nat) : List (Nat × Nat × List Byte) :=
  t.windows.zipIdx.filterMap fun w =>
    if w.1.core = n || (d.isReserve n && decide (w.1.core / 48 = n / 48)) then
      (t.jobs[w.1.job]?).map fun j => (w.2, j.code, j.legs.getD w.1.leg [])
    else none

/-- Check 0x08: the first window whose code clashes on some core. -/
def Device.codeApart (d : Device) (k S : Nat) (t : Timetable) : Option Nat :=
  let others := (d.otherImages k S).map fun o => o.2.2
  leastBelow t.windows.length fun i => (List.range 192).any fun n =>
    let mine := d.placedOn t n
    (mine.filter fun x => x.1 == i).any fun x =>
      (mine.any fun y => codeClash x.2 y.2) || others.any fun o => (d.placedOn o n).any fun y => codeClash x.2 y.2

/-- The first target slot whose earliest window starts at least 150 µs from now (R158); with no window at all, the next slot. -/
def Device.firstSlot (d : Device) (t : Timetable) : Nat :=
  let lead : Int := (d.time : Int) + 150 * usT
  let ok (s : Nat) : Bool := match (d.windowsAt t s).map fun w => d.slotStart t.mu s + 144 * w.1.off with
    | [] => false
    | x :: xs => decide (lead ≤ xs.foldl min x)
  ((d.slotsNear t.mu).find? ok).getD (d.slotCount t.mu + 1)

/-- Check 0x09 for a given slot. -/
def Device.slotAhead (d : Device) (t : Timetable) (s : Nat) : Bool :=
  ((d.windowsAt t s).all fun w => decide ((d.time : Int) + 150 * usT ≤ d.slotStart t.mu s + 144 * w.1.off))

/-- The checks of Table 5-6 in order on a timetable's bytes: the image with its jobs' manifests. -/
def Device.admission (d : Device) (t given len : Nat) (b : List Byte) : TtRes (Timetable × List ManImg) :=
  match ttForm b len with
  | some i => .bad 0x01 i
  | none =>
    if !((List.range 64).any fun c => d.rd RAD_CAR_CFG.owner c == t) then .bad 0x02 0
    else
      match d.ttReadJobs t b (List.range (ttJobs b)) with
      | .bad s i => .bad s i
      | .waits => .waits
      | .ok js =>
        let jobs := js.map fun j => j.1
        let im : Timetable := { mu := ttMu b, period := ttPeriod b, jobs := jobs, windows := ttReadWindows b jobs, from_ := 0, ten := t }
        let k := ttNum b
        let S := if given = 0 then d.firstSlot im else given
        match im.onePer with
        | some i => .bad 0x01 i
        | none =>
          match findIdxFrom (fun (w : Window) => !d.coreServes w.core || d.isReserve w.core || !d.ownsMask w.core t (lgGranules (im.leg w)))
              im.windows 0 with
          | some i => .bad 0x04 i
          | none =>
            match d.windowsApart k S im with
            | some i => .bad 0x05 i
            | none =>
              match d.windowsOrdered im with
              | some i => .bad 0x06 i
              | none =>
                match findIdxFrom (fun (w : Window) => !((d.reserveCores (w.core / 48)).all fun n => d.ownsMask n t (lgGranules (im.leg w))))
                    im.windows 0 with
                | some i => .bad 0x07 i
                | none =>
                  match d.codeApart k S im with
                  | some i => .bad 0x08 i
                  | none =>
                    if given ≠ 0 && !d.slotAhead im given then .bad 0x09 0
                    else .ok (im, js.map fun j => j.2)

/-- SCH_TT_STAT of a timetable (Table 5-9). -/
def Device.showTt (d : Device) (k : Nat) : Device :=
  let x := smGet d.sched.tts k {}
  let live : Option Timetable → Bool := fun t => match t with
    | some t => !(t.jobs.isEmpty && t.windows.isEmpty)
    | none => false
  let newest := ((x.load.map fun l => l.1).orElse fun _ => x.next.getLast?.orElse fun _ => x.cur).getD {}
  let empty := newest.jobs.isEmpty && newest.windows.isEmpty
  let st := b2n (x.load.isSome || !x.next.isEmpty) + 2 * b2n (live x.cur)
  let d := ((d.wr SCH_TT_STAT.windows k newest.windows.length).wr SCH_TT_STAT.jobs k newest.jobs.length).wr SCH_TT_STAT.period k
    (if empty then 0 else newest.period)
  ((d.wr SCH_TT_STAT.tenancy k newest.ten).wr SCH_TT_STAT.mu k newest.mu).wr SCH_TT_STAT.state k st

/-- Code of every leg to its window core and to the reserve cores of that die (R157), and the first read of it that failed. -/
def Device.placeTt (d : Device) (t : Timetable) : Device × Option Rd :=
  t.windows.foldl (fun a w =>
    match t.jobs[w.job]? with
    | none => a
    | some j =>
      let cores := w.core :: a.1.reserveCores (w.core / 48)
      cores.foldl (fun a n =>
        let r := a.1.placeCode n t.ten j.code (j.legs.getD w.leg []) ⟨0, []⟩
        (r.1, a.2.orElse fun _ => match r.2 with
          | .ok _ => none
          | e => some e)) a) (d, none)

/-- Whether a load's code is being placed. -/
def Device.placing (d : Device) : Bool := d.sched.tts.any fun x => x.2.load.isSome

/-- Whether the verified set can take every job's image of a load now (R118). -/
def Device.ttVerifyWaits (d : Device) (t : Timetable) : Bool :=
  let new := (t.jobs.filter fun j => (d.verifiedOf t.ten j.mid j.image).isNone).map fun j => (j.mid, j.image)
  let idle := d.verified.filter fun v => !d.verifiedBusy v
  decide (4096 < (d.verified.length - idle.length) + new.eraseDups.length)

/-- The command at the front of the load order is checked (R157); one that fails completes at once, and the next is checked. One whose reads must wait, or whose
images find no room in the verified set, stays at the front. -/
def Device.runLoads : Nat → PeerAns → Device → Device
  | 0, _, d => d
  | n + 1, a, d =>
    match d.sched.loads with
    | [] => d
    | sn :: rest =>
      match d.cmd? sn with
      | none => Device.runLoads n a { d with sched := { d.sched with loads := rest } }
      | some c =>
        let e := c.entry
        let drop (d : Device) (st detail : Nat) : Device :=
          Device.runLoads n a ({ d with sched := { d.sched with loads := rest } }.endBad sn st detail none)
        match d.readAny c.ten (leAt e 32 8) (leAt e 40 4) a with
        | .waits => d
        | .fault g => drop d stFault g
        | .poison _ => drop d stEcc (eccDetail d.nextRec unitSched 0xFFFF)
        | .ok b =>
          match d.admission c.ten (leAt e 48 8) (leAt e 40 4) b with
          | .bad sub i => drop d stDenied (denied 0x10 sub i)
          | .waits => d
          | .ok (t, ims) =>
            let k := ttNum b
            let x := smGet d.sched.tts k {}
            if d.ttVerifyWaits t then d
            else
              let d := (List.zip t.jobs ims).foldl (fun d j => d.useVerified t.ten j.1.mid j.1.image sn j.2) d
              let p := d.placeTt t
              match p.2 with
              | some (.poison _) => drop p.1 stEcc (eccDetail p.1.nextRec unitSched 0xFFFF)
              | some (.fault g) => drop p.1 stFault g
              | some .waits => d
              | _ =>
                let d := p.1
                { d with sched := { d.sched with tts := smSet d.sched.tts k {} { x with load := some (t, sn) } } }.showTt k

/-- The load at the front of the order goes on, unless a load's code is being placed. -/
def Device.retryLoads (d : Device) (a : PeerAns) : Device := if d.placing then d else d.runLoads 4096 a

/-- TIMETABLE_LOAD: not on a -X part, class Radio, then one at a time in order of arrival (R3, R156, R157). `a` is a peer's answer where the image lies on one.
DESIGN CHOICE (log 33): another class fails admission with sub-code 0x01, since R156 gives reason 0x10 and Table 5-6 names no sub-code for it. -/
def timetableLoad (q : Nat) (a : PeerAns) (d : Device) : Device :=
  d.begin q 0x0A (fun _ => true) fun d c =>
    if d.isX then d.finish c.sn stDenied (denied 0x04 0 0) none
    else if eClass c.entry ≠ 0 then d.finish c.sn stDenied (denied 0x10 0x01 0) none
    else if d.radioDown then d.finish c.sn stUnserv 0 none
    else
      let busy := !d.sched.loads.isEmpty
      let d := { d with sched := { d.sched with loads := d.sched.loads ++ [c.sn] } }
      if busy then d else d.runLoads 4096 a

/-- Code placement of the load in progress ends: S is fixed and the command completes (R158), and images that were to govern from S on give way; carriers muted for a lost service
level resume at S (R28); the next load is checked. With no load in placement, one that had to wait is tried again. `a` answers for a peer where that load's image lies on one. -/
def timetablePlacementDone (k : Nat) (a : PeerAns) (d : Device) : Device :=
  let x := smGet d.sched.tts k {}
  match x.load with
  | none => d.retryLoads a
  | some (t, sn) =>
    if d.sched.loads.head? ≠ some sn then d
    else
      let given := match d.cmd? sn with
        | some c => leAt c.entry 48 8
        | none => 0
      let S := if given = 0 then d.firstSlot t else given
      let ok := given == 0 || d.slotAhead t given
      let next := if ok then (x.next.filter fun o => decide (o.from_ < S)) ++ [{ t with from_ := S }] else x.next
      let tts := smSet d.sched.tts k {} { x with next := next, load := none }
      let d := { d with sched := { d.sched with tts := tts, loads := d.sched.loads.tail } }
      let d := d.showTt k
      let d := if ok then d.finish sn stOk 0 (some S) else d.finish sn stDenied (denied 0x10 0x09 0) none
      let d := if ok then d.svcUnmute (d.slotStart t.mu S) else d
      d.runLoads 4096 a

/-- Slot count S is reached: the new timetable is in force, and the old one governs earlier target slots alone (R158). Accepted RUNs of slots
long past are forgotten. -/
def timetableInForce (k : Nat) (d : Device) : Device :=
  let x := smGet d.sched.tts k {}
  match x.next with
  | [] => d
  | t :: rest =>
    if d.slotCount t.mu < t.from_ then d
    else
      let tts := smSet d.sched.tts k {} { x with cur := some t, prev := x.cur, next := rest }
      ({ d with sched := { d.sched with tts := tts } }.showTt k).timeEval

end Sys2Proof.Machine
end

