-- ==== Sys2Proof/Machine/Service.lean ====
section
/-! DEFINITION. Service levels: what works, the evaluation, the loss of radio service, and the unserviceable state (R22–R29). -/

namespace Sys2Proof.Machine

/-- Working fronthaul ports and control processors. -/
def Device.fhWorks (d : Device) (p : Nat) : Bool := d.serves (unitOf 6 (0x40 + p)) && !d.isX
def Device.cpCount (d : Device) : Nat := ((List.range 4).filter fun i => d.dieWorks 6 && bit (d.rd RAS_CP_STAT.working 0) i).length

/-- A mask of the numbers below n that meet a test. -/
def maskOf (n : Nat) (p : Nat → Bool) : Nat := ((List.range n).map fun i => b2n (p i) <<< i).foldl (· + ·) 0

/-- Unit ID of the first enabled core found not working. -/
def Device.deadCore (d : Device) : Nat := ((List.range 192).find? fun n => !d.coreServes n).elim unitNone d.coreUnit

/-- What R22 and R23 require, in their order, each with the unit to name when it is missing. DESIGN CHOICE (log 66): of several units of which none works the
first is named: CP0, H0, E0, or the lowest logical core that does not work. -/
def Device.inferenceNeeds (d : Device) : List (Bool × Nat) :=
  [(decide (1 ≤ d.cpCount), unitOf 6 0), (d.serves (unitOf 6 0x010), unitOf 6 0x010), (d.serves unitPcie, unitPcie),
   ((List.range 8).any d.stackWorks, stackUnit 0), ((List.range 4).any fun k => decide (8 ≤ d.coresOn k), d.deadCore)]
def Device.radioNeeds (d : Device) : List (Bool × Nat) :=
  [(d.serves unitTiming, unitTiming), ((List.range 4).any d.fhWorks, unitOf 6 0x40),
   (decide (24 ≤ ((List.range 4).map d.coresOn).foldl (· + ·) 0), d.deadCore)]

/-- First unit found missing. -/
def missing (xs : List (Bool × Nat)) : Option Nat := (xs.find? fun x => !x.1).map fun x => x.2

/-- The service level, and the first required unit found not working (R22, R23). A -X part never offers radio service. -/
def Device.svcLevel (d : Device) : Nat × Option Nat :=
  match missing d.inferenceNeeds with
  | some u => (0, some u)
  | none =>
    match missing d.radioNeeds with
    | some u => (1, some u)
    | none => if d.isX then (1, none) else (3, none)

/-- Radio service is lost (R27): every carrier mutes, and loads and Radio RUNs, started ones too, complete with UNSERVICEABLE. -/
def Device.loseRadio (d : Device) : Device :=
  let d := d.svcMute
  let loads := (d.cmds.filter fun c => eOp c.entry == 0x0A).map fun c => c.sn
  let runs := (d.cmds.filter fun c => eOp c.entry == 0x01 && eClass c.entry == 0).map fun c => c.sn
  let tts := d.sched.tts.map fun k => (k.1, { k.2 with load := none })
  let d := { d with sched := { d.sched with loads := [], tts := tts } }
  let d := (List.range 8).foldl (fun d k => d.showTt k) d
  let d := loads.foldl (fun d sn => d.finish sn stUnserv 0 none) d
  runs.foldl (fun d sn =>
    match d.cmd? sn with
    | some c => if c.run.isSome then (d.failRun sn stUnserv 0).settleRun sn else d.finish sn stUnserv 0 none
    | none => d) d

/-- A core halts at once without writing results. -/
def Device.haltCore (d : Device) (n : Nat) : Device :=
  let x := d.core n
  let d := d.setCore n { x with leg := none, mail := [] }
  let d := (d.wr COR_SEQ_STAT.mailbox n 0).wr COR_SEQ_STAT.running n 0
  if d.coreSt n = csRunning then d.setCoreSt n csIdle else d

/-- Outputs while unserviceable (R29, Table 1-5): legs, routes and transfers stop, crossings abort, pulse outputs go low, no frame is
sent, and every submitted command completes with UNSERVICEABLE. -/
def Device.enterUnserviceable (d : Device) : Device :=
  let d := (d.cores.map fun c => c.1).foldl (fun d n => d.haltCore n) d
  let d := d.engines.foldl (fun d x => (d.setRctx (x.1 / 8) (x.1 % 8) {}).showEngine (x.1 / 8)) d
  let d := { d with tows := [], rteIn := {}, mm := { d.mm with waiting := [], hashing := [], crossWait := [] } }
  let d := d.mm.chans.foldl (fun d c => if c.2.kind = 0 || c.2.kind = 3 then d.failXfer c.1 stUnserv 0 else d.dropChan c.1) d
  let rad := { d.radio with posts := [], waits := [], egress := [] }
  let d : Device := { d.pulsesLow with radio := rad, sched := { d.sched with loads := [] } }
  let d := d.cmds.foldl (fun d c => d.finish c.sn stUnserv 0 none) d
  d.queues.foldl (fun d q => d.settle q.1) d

/-- RUN commands that wait to bind and whose needs now exceed the working units complete with POLICY_DENIED (R24). -/
def Device.denyUnfit (d : Device) : Device :=
  (d.waitingCmds 1 ++ d.waitingCmds 2).foldl (fun d x =>
    if d.check13 x.2.res (eClass x.1.entry) then d else d.finish x.1.sn stDenied (denied 0x0A 0 0) none) d

/-- What an evaluation publishes (Table 1-4). -/
def Device.showSvc (d : Device) : Device :=
  let per := (List.range 4).map d.coresOn
  let d := (d.wr GEN_SVC.cores_die_max 0 (per.foldl max 0)).wr GEN_SVC.cores_total 0 (per.foldl (· + ·) 0)
  let d := (d.wr GEN_SVC.hbm_ok 0 (maskOf 8 d.stackWorks)).wr GEN_SVC.cp_count 0 d.cpCount
  let d := (d.wr GEN_SVC.fh_ok 0 (maskOf 4 d.fhWorks)).wr GEN_SVC.md_ok 0 (maskOf 2 fun i => d.dieWorks (4 + i))
  d.wr GEN_SVC.timing_ok 0 (b2n (d.serves unitTiming))

/-- A change of level after the first evaluation (R26–R29). -/
def Device.changeSvc (d : Device) (old new unit : Nat) : Device :=
  let falls := decide (new < old)
  let d := if falls then d.wr GEN_SVC.missing_unit 0 unit else d
  let d := (d.wr GEN_SVC.svc_level 0 new).wr GEN_SVC.svc_changed 0 1
  let d := d.log { unit := if falls then unit else unitNone, sev := 6, op := 0x10, detail := old <<< 8 + new }
  let d := if falls then (List.range 64).foldl (fun d t => d.rollbackTxn t 5) d else d
  let d := if old = 3 && new = 1 then d.loseRadio else d
  if new = 0 then d.enterUnserviceable else d

/-- An evaluation of the service level (R25). The first after reset sets the level and counts as no change. Only a device reset leaves level 0: there an
evaluation publishes what works, and no more. -/
def serviceEvaluation (d : Device) : Device :=
  if d.unserviceable then d.showSvc
  else
    let first := !d.on GEN_SVC.eval_done 0
    let old := d.rd GEN_SVC.svc_level 0
    let r := d.svcLevel
    let d := d.showSvc
    let d := if first then (d.wr GEN_SVC.svc_level 0 r.1).wr GEN_SVC.eval_done 0 1
      else if old = r.1 then d else d.changeSvc old r.1 (r.2.getD unitNone)
    if first && r.1 = 0 then d.enterUnserviceable else d.denyUnfit

end Sys2Proof.Machine
end

