-- ==== Sys2Proof/Machine/Ras.lean ====
section
/-! DEFINITION. The reliability unit: the fault log, scrub, write-back, field repair, retirement, spares, control processors, tasting and
periodic tests (chapter 12). -/

namespace Sys2Proof.Machine

/-! ### The fault log -/

/-- The 64 bytes of a fault record (Table 12-2). -/
def FaultRec.bytes (r : FaultRec) : List Byte :=
  let b := toLE 2 r.unit ++ toLE 1 r.sev ++ toLE 1 r.op ++ toLE 4 r.index ++ toLE 6 (r.time / secT) ++
    toLE 4 (r.time % secT / 144) ++ toLE 1 (r.time % 144 / 9) ++ toLE 1 r.flags ++ toLE 2 r.temp ++ toLE 2 r.volt ++
    toLE 1 (r.ten + r.cls <<< 6) ++ toLE 3 r.mid ++ toLE 4 r.client ++ toLE 8 r.addr ++ toLE 8 r.step ++ toLE 8 r.detail ++
    toLE 2 r.leg ++ toLE 1 r.tbin ++ toLE 1 r.vbin
  b ++ toLE 4 (crc32c b)

/-- The handling of in-flight record k ends: it is written to the ring (R361, R364); while a control processor is taken over records wait
(R378). -/
def faultRecordLogged (k : Nat) (d : Device) : Device :=
  if d.ras.cpBusy.isSome then d
  else
    match d.ras.inflight[k]? with
    | none => d
    | some r =>
      let lapped := decide (4096 ≤ (r.index + 2 ^ 32 - d.rd RAS_LOG_STAT.consumed 0) % 2 ^ 32)
      let rest := d.ras.inflight.eraseIdx k
      let d := { d with ras := { d.ras with inflight := rest, ring := smIns d.ras.ring (r.index % 4096) r } }
      let d := d.wr RAS_LOG_CNT.inflight 0 rest.length
      if lapped then d.incSat RAS_LOG_CNT.overwrites 0 1 else d

/-- Every leak_s seconds every nonzero bucket level decreases by 1 (R366). -/
def bucketLeakTick (d : Device) : Device :=
  d.ras.buckets.foldl (fun d b => if b.2.1 = 0 then d else d.setBucket b.1 (b.2.1 - 1) b.2.2) d

/-- A corrected word or block of a unit has been written back (R358, R369). -/
def correctedWriteBack (u : Nat) (d : Device) : Device :=
  { d with ras := { d.ras with corr := d.ras.corr.filter fun x => x != u } }

/-! ### Units of transfers, scrub -/

/-- Units that a transfer uses on this device, from the IOD (R285). -/
def Device.xferUnits (d : Device) (x : Xfer) : List Nat :=
  (x.pieces.flatMap fun p => (p.1, p.2.2) :: (if x.kind = 2 then [] else [(p.2.1, p.2.2)])).flatMap fun e =>
    if !d.isLocal e.1 then []
    else (parts e.1 e.2).flatMap fun p => match d.xfLocate x p.1 false with
      | some (l, _) => if l.sp ≤ 2 then (linesOf l p.2).flatMap (d.unitsOf 6) else []
      | none => []

/-- Transfers that use a lost or fenced unit end with ECC_UNCORR (R281, Table 9-7). -/
def Device.sweepLost (d : Device) : Device :=
  let dead := d.ras.lost ++ d.mm.fenced
  if dead.isEmpty then d
  else
    d.mm.chans.foldl (fun d c =>
      match (d.xferUnits c.2).find? dead.contains with
      | some u => d.haltChan c.1 (eccDetail (smGet d.ras.lostRecs u 0) u 0xFFFF)
      | none => d) d

/-- A patrol-scrub read of a line (R292, R359): `res` 0 clean, 1 corrected, 2 uncorrectable. An error of a pending unit is handled
one level higher. A System page is not poisoned: its error resets the device (`deviceReset`). -/
def scrubRead (sp off res row : Nat) (d : Device) : Device :=
  if !d.on MEM_SCRUB_CFG.enable 0 then d
  else
    let u := d.placeUnit sp off
    let poisoned (d : Device) (sev fl : Nat) : Device :=
      if sp ≤ 2 && d.pageState (pageKey sp (off / pageSize)) == pgSystem then d
      else
        let f := d.fresh (2 ^ 56)
        let d := f.2.incSat RAS_ECC_CNT.uncorrectable u.2 1
        let d := d.log { unit := u.1, sev := sev, op := 0x03, detail := f.1 + u.2 <<< 56, flags := fl, addr := off }
        d.poisonAt sp off
    if res = 0 then d
    else if res = 1 then
      let r := d.correctable u.1 u.2 row
      if r.2 then poisoned r.1 3 1 else r.1
    else
      let pending := d.unitPending u.1
      let d := poisoned d (if pending then 3 else 2) (b2n pending)
      let d := if isPcUnit u.1 then d.addEvent u.1 evUncorr 0 0x03 0 else d
      if pending then d.retire u.1 0x03 else d

/-! ### Retirement and spares -/

/-- A control processor stops working (R378): the spare, or with no spare the processors left, begin to take over. With none left nothing takes over, and the service evaluation that follows finds
the device unserviceable (R25, R29). -/
def Device.failCp (d : Device) (k : Nat) : Device :=
  let working := d.rd RAS_CP_STAT.working 0
  if !bit working k then d
  else
    let w := working &&& (15 - 2 ^ k)
    let act := d.rd RAS_CP_STAT.active 0
    let spare := d.rd RAS_CP_STAT.spare 0
    let noSpare := d.on RAS_CP_STAT.no_spare 0
    let d := (d.wr RAS_CP_STAT.working 0 w).wr RAS_CP_STAT.active 0 (act &&& (15 - 2 ^ k))
    if w = 0 then d
    else
      match d.ras.cpBusy with
      | some (k0, takers) =>
        -- a failure while another's tasks are taken over: its own tasks come next, and it takes over none
        let left := takers &&& (15 - 2 ^ k)
        let left := if left = 0 then act &&& (15 - 2 ^ k) else left
        { d with ras := { d.ras with cpBusy := some (k0, left), cpNext := if bit act k then d.ras.cpNext ++ [k] else d.ras.cpNext } }
      | none =>
        if !noSpare && spare = k then d.wr RAS_CP_STAT.no_spare 0 1
        else
          let takers := if noSpare then act &&& (15 - 2 ^ k) else 2 ^ spare
          { d with ras := { d.ras with cpBusy := some (k, takers) } }

/-- CP_FAILURE (R377, R378). -/
def cpFailure (k : Nat) (d : Device) : Device := d.failCp k

/-- The takeover ends (R378): the op 0x14 record names the failed processor and those that took over. -/
def cpTakeoverDone (d : Device) : Device :=
  match d.ras.cpBusy with
  | none => d
  | some (k, takers) =>
    let act := d.rd RAS_CP_STAT.active 0 ||| takers
    let next := d.ras.cpNext.head?.map fun k => (k, act)
    let d := { d with ras := { d.ras with cpBusy := next, cpNext := d.ras.cpNext.drop 1 } }
    let d := (d.incSat RAS_CP_STAT.takeovers 0 1).wr RAS_CP_STAT.no_spare 0 1
    let d := d.wr RAS_CP_STAT.active 0 act
    d.log { unit := unitOf 6 k, sev := 5, op := 0x14, detail := k + takers <<< 8 }

/-- Every 1 ms an active processor writes a checkpoint, and its journal starts again (R377). -/
def cpCheckpoint (k : Nat) (d : Device) : Device :=
  if bit (d.rd RAS_CP_STAT.active 0) k then
    let t := smGet d.ras.cpTasks k {}
    { d with ras := { d.ras with cpTasks := smSet d.ras.cpTasks k {} { seq := t.seq + 1, journal := 0 } } }
  else d

/-- Every 600 s the spare role passes to the next working processor (R379; its order is the model's choice, log 35). -/
def cpSpareRotation (d : Device) : Device :=
  if d.on RAS_CP_STAT.no_spare 0 || d.ras.cpBusy.isSome then d
  else
    let s := d.rd RAS_CP_STAT.spare 0
    match ([1, 2, 3].map fun i => (s + i) % 4).find? fun k => bit (d.rd RAS_CP_STAT.active 0) k with
    | none => d
    | some k =>
      let act := d.rd RAS_CP_STAT.active 0
      (d.wr RAS_CP_STAT.active 0 ((act &&& (15 - 2 ^ k)) ||| 2 ^ s)).wr RAS_CP_STAT.spare 0 k

/-- Unit IDs of Table 12-3 that name something that can be retired or lost. -/
def unitExists (u : Nat) : Bool :=
  let die := u / 4096
  let i := u % 4096
  if i = 0xFFE then decide (die ≤ 6)
  else if die < 4 then decide (i < 0x34) || inRange i 0x40 32 || inRange i 0x70 3
  else if die < 6 then decide (i < 4) || inRange i 0x10 16 || inRange i 0x20 5 || i == 0x30 || inRange i 0x70 3 || isPcUnit u
  else die == 6 && (decide (i < 4) || inRange i 0x10 8 || inRange i 0x20 20 || inRange i 0x40 4)

/-- RAS_RETIRE with op 0b10 and 0b11 (R384). -/
def startSteeping (fn u : Nat) (d : Device) : Device :=
  if fn ≠ 0 then d.hostErr 0xE00030 0 else d.steep u
def endSteeping (fn u : Nat) (d : Device) : Device :=
  if fn ≠ 0 then d.hostErr 0xE00030 0 else d.unsteep u

/-- A unit leaves steeping after steep_hours without an event (R384). -/
def steepingExpiry (u : Nat) (d : Device) : Device :=
  match d.ras.steeping.find? fun s => s.1 == u with
  | some s => if s.2 + d.rd RAS_POLICY.steep_hours 0 * 3600 * secCycles ≤ d.cycle then d.unsteep u else d
  | none => d

/-- A spare physical core of a die that works and serves no logical number, the lowest first (R373). -/
def Device.spareCore (d : Device) (die : Nat) : Option Nat :=
  ((List.range 4).map (52 * die + 48 + ·)).find? fun p =>
    d.works (unitOf die (p % 52)) && !((List.range 192).any fun n => d.phys n == p) && !(d.ras.cores.any fun b => b.spare == p)

/-! ### Field repair entries -/

/-- Fields of a field repair entry (Table 12-8). -/
def reKind (e : Nat) : Nat := bits e 63 60
def reUnit (e : Nat) : Nat := bits e 59 44
def reLoc (e : Nat) : Nat := bits e 43 12

/-- The entries of the field repair array that are valid and not cancelled. -/
def Device.bootRepairs (d : Device) : List Nat :=
  let good (e : Nat) : Bool := e != 0 && crc12 e == e % 4096
  let xs := d.ras.array.zipIdx
  let off := (xs.filter fun x => good x.1 && reKind x.1 == 0xF).map fun x => (bits x.1 43 36, x.2)
  (xs.filter fun x => good x.1 && !(off.any fun o => o.1 == x.2 && decide (x.2 < o.2))).map fun x => x.1

/-- Bit position of a cube's field in COR_CUBE_REPAIR (Table 2-12). -/
def cubeField (w u : Nat) : Nat := bits w (4 * u + 3) (4 * u)

/-- COR_CUBE_REPAIR with a row of a cube repaired; a cube whose spare row is in use keeps it. -/
def repairRow (w cube row : Nat) : Nat := if 8 ≤ cubeField w cube then w else w - cubeField w cube <<< (4 * cube) + (8 + row) <<< (4 * cube)

/-- Cube repairs that the array holds for a physical core. -/
def Device.cubeRepairs (d : Device) (u : Nat) : Nat :=
  (d.bootRepairs.filter fun e => reKind e == 3 && reUnit e == u).foldl (fun w e => repairRow w (bits e 43 40) (bits e 39 37)) 0

/-- A logical number's registers describe the physical core behind it (R38, R71): its repairs, depth and leg start, nothing of the core before it. -/
def Device.describeCore (d : Device) (n : Nat) : Device :=
  let u := d.coreUnit n
  let w := d.cubeRepairs u
  let g := d.rd COR_TIMING.generation n
  let d := (((d.setReg .COR_CUBE_REPAIR n (BitVec.ofNat 64 w)).setReg .COR_BANKSTAT n 0).setReg .COR_TIMING n 0).setReg .COR_SEQ_STAT n 0
  let d := ((d.wr COR_TIMING.generation n g).wr COR_TIMING.cube_depth n (if w = 0 then 4 else 5)).wr COR_TIMING.leg_start n (if w = 0 then 24 else 25)
  let d := d.wr COR_SEQ_STAT.mailbox n (min (d.core n).mail.length 3)
  (d.wr RAS_CORE_HEALTH.steeping n (b2n (d.steeping u))).wr RAS_CORE_HEALTH.bucket n (d.bucket u).1

/-- Spare cores still available on a die, in COR_LMAP of each of its logical cores. -/
def Device.showSpares (d : Device) (die : Nat) : Device :=
  let n := (((List.range 4).map (52 * die + 48 + ·)).filter fun p =>
    d.works (unitOf die (p % 52)) && !((List.range 192).any fun n => d.phys n == p)).length
  (List.range 48).foldl (fun d i => d.wr COR_LMAP.die_spares (48 * die + i) n) d

/-- The record of a bring-in (Table 12-5). -/
def Device.logBringIn (d : Device) (old new : Nat) : Device :=
  d.log { unit := old, sev := 5, op := 0x0C, detail := old + new <<< 48 }

/-- Step 1 of a core bring-in (R373): the leg is dropped, bound commands fail with ECC_UNCORR, a Radio leg with DEADLINE_MISSED. -/
def Device.failCore (d : Device) (n rec_ u : Nat) : Device :=
  let x := d.core n
  let leg := x.leg
  let d := match leg with
    | some l => d.dropLeg n l
    | none => d.setCoreSt n csRecovery
  let ts := d.ras.tastes.map fun t => match leg with
    | some l => if 2 + t.id = l.internal then { t with placed := false } else t
    | none => t
  let d : Device := { d with ras := { d.ras with tastes := ts } }
  let d := match leg with
    | some l => if l.internal = 0 && l.cls = 0 then (d.failDiscarded l).legOver l else d
    | none => d
  let bound := d.cmds.filter fun c => (match c.run with
    | some r => r.cores.contains n
    | none => false)
  let d := bound.foldl (fun d c =>
    let idx := match leg with
      | some l => if l.internal = 0 && l.sn = c.sn then l.idx else 0xFFFF
      | none => 0xFFFF
    (d.failRun c.sn stEcc (eccDetail rec_ u idx)).settleRun c.sn) d
  match leg with
  | some l => if l.internal = 0 && l.cls ≠ 0 then d.legOver l else d
  | none => d

/-- The spare of a core bring-in is chosen, or the core is lost (R372, R373). -/
def Device.nextSpare (d : Device) (n u : Nat) : Device :=
  let x := d.core n
  match d.spareCore (n / 48) with
  | some p =>
    let d := d.setCore n { x with bringIn := true }
    { d with ras := { d.ras with cores := d.ras.cores.filter (fun b => b.logical != n) ++ [⟨u, n, p, d.phys n⟩] } }
  | none =>
    let d := (d.setCore n { x with bringIn := false }).setCoreSt n csLost
    let d := { d with ras := { d.ras with cores := d.ras.cores.filter fun b => b.logical != n } }
    d.lose u (smGet d.ras.causes u 0xFF)

/-- CORE_BRING_IN of a logical core whose physical core is being retired (R373, steps 1 and 2). -/
def coreBringIn (n : Nat) (d : Device) : Device :=
  let u := d.coreUnit n
  match d.ras.retiring.find? fun r => r.1 == u with
  | none => d
  | some r => if d.ras.cores.any fun b => b.logical == n then d else (d.failCore n r.2 u).nextSpare n u

/-- Code of every window on a logical number, from every timetable pending or in force (R373 step 4, R157). -/
def Device.placeWindows (d : Device) (n : Nat) : Device :=
  let tts := d.sched.tts.flatMap fun k => k.2.cur.toList ++ k.2.next ++ (k.2.load.map fun t => t.1).toList
  tts.foldl (fun d t => t.windows.foldl (fun d w =>
    match t.jobs[w.job]? with
    | none => d
    | some j =>
      if w.core = n || (d.isReserve n && w.core / 48 == n / 48) then
        (d.placeCode n t.ten j.code (j.legs.getD w.leg []) ⟨0, []⟩).1
      else d) d) d

/-- A spare fails during its bring-in, in its test or by an error: it is retired, and the next spare is tried (R373, Table 12-7). -/
def Device.spareFails (d : Device) (b : BringIn) (cause : Nat) : Device :=
  let su := unitOf (b.spare / 52) (b.spare % 52)
  let d := d.log { unit := su, sev := 5, op := 0x0D, flags := 32, detail := cause }
  let d := { d with ras := { d.ras with lost := su :: d.ras.lost } }
  (d.nextSpare b.logical b.unit).showSpares (b.logical / 48)

/-- CORE_BRING_IN_DONE (R373, steps 3 to 5): a spare that passed its test takes the number, with COR_LMAP and COR_TIMING describing it and zeroed
granules; one that failed is retired, and the next is tried. -/
def coreBringInDone (n : Nat) (passed : Bool) (d : Device) : Device :=
  match d.ras.cores.find? fun b => b.logical == n with
  | none => d
  | some b =>
    let su := unitOf (b.spare / 52) (b.spare % 52)
    if !passed then d.spareFails b 0xFF
    else
      let x := d.core n
      let d := d.setCore n { x with bringIn := false, fenced := [], banks := [] }
      let d := { d with ras := { d.ras with cores := d.ras.cores.filter (fun c => c.logical != n),
                                            retiring := d.ras.retiring.filter (fun r => r.1 != b.unit), lost := b.unit :: d.ras.lost } }
      let d := d.zero spTS (tsOff n 0) 2097152
      let d := ((d.wr COR_LMAP.phys n b.spare).wr COR_LMAP.remapped n 1).describeCore n
      let d := (d.incWrap COR_TIMING.generation n 1).showSpares (n / 48)
      let d := (d.setCoreSt n csIdle).placeWindows n
      (d.logBringIn b.unit su).showReserve

/-- CUBE_ROW_BRING_IN: between two legs, with the next window at least 110 µs away (R374). A cube whose spare row is in use retires its
core. -/
def cubeRowBringIn (n : Nat) (d : Device) : Device :=
  let u := d.coreUnit n
  match d.ras.rows.find? fun r => r.1 == u with
  | none => d
  | some (_, cube, _) =>
    let x := d.core n
    let near := match d.nextWindow n d.cycle with
      | some w => decide (w < d.cycle + 198000)
      | none => false
    if x.leg.isSome || d.coreSt n ≠ csIdle || near then d
    else if 8 ≤ cubeField (d.reg .COR_CUBE_REPAIR n).toNat cube then
      { d with ras := { d.ras with rows := d.ras.rows.filter fun r => r.1 != u } }.retire u 0x0F
    else (d.setCore n { x with bringIn := true }).setCoreSt n csRecovery

/-- CUBE_ROW_BRING_IN_DONE: the spare row is switched in (R374, R38–R41). -/
def cubeRowBringInDone (n : Nat) (d : Device) : Device :=
  let u := d.coreUnit n
  match d.ras.rows.find? fun r => r.1 == u with
  | none => d
  | some (_, cube, row) =>
    let x := d.core n
    if !x.bringIn || d.coreSt n ≠ csRecovery || d.ras.cores.any (fun b => b.logical == n) then d
    else
      let new := repairRow (d.reg .COR_CUBE_REPAIR n).toNat cube row
      let d := (d.setCore n { x with bringIn := false, fenced := [], banks := [] }).setReg .COR_CUBE_REPAIR n (BitVec.ofNat 64 new)
      let d := (d.wr COR_TIMING.cube_depth n 5).wr COR_TIMING.leg_start n 25
      let d := (d.incWrap COR_TIMING.generation n 1).setCoreSt n csIdle
      let ras := { d.ras with rows := d.ras.rows.filter fun r => !(r.1 == u && r.2.1 == cube) }
      { d with ras := ras }.logBringIn u u

/-- Spare engine of a memory-side die, while it is available (R232). -/
def spareEngine (e : Nat) : Nat := if e < 4 then 8 else 9
def engineUnitOf (p : Nat) : Nat := if p = 8 then unitOf 4 0x24 else if p = 9 then unitOf 5 0x24 else unitOf (4 + p / 4) (0x20 + p % 4)
def Device.engineSpareFree (d : Device) (e : Nat) : Bool :=
  d.works (engineUnitOf (spareEngine e)) && !((List.range 8).any fun k => d.rd RTE_MAP.phys k == spareEngine e)

/-- ENGINE_BRING_IN: a retired engine with nothing in progress is replaced by its die's spare, when that passes its test; bound contexts stay
(R232, R375). Without a spare the logical engine is Lost. -/
def engineBringIn (e : Nat) (passed : Bool) (d : Device) : Device :=
  let u := d.engineUnit e
  if !d.isRetiring u then d
  else
    let d := d.sweepEngines
    let p := spareEngine e
    let su := engineUnitOf p
    let showAvail (d : Device) : Device :=
      (List.range 4).foldl (fun d i => d.wr RTE_MAP.spare_avail (e / 4 * 4 + i) (b2n (d.engineSpareFree e))) d
    if d.engineSpareFree e && passed then
      let d := (d.wr RTE_MAP.phys e p).wr RTE_MAP.remapped e 1
      let ras := { d.ras with retiring := d.ras.retiring.filter (fun r => r.1 != u), lost := u :: d.ras.lost }
      (showAvail ((({ d with ras := ras }.wr RTE_MAP.state e 2).showEngine e).logBringIn u su))
    else
      let d := if d.engineSpareFree e then
          let d := d.log { unit := su, sev := 5, op := 0x0D, flags := 32, detail := 0xFF }
          { d with ras := { d.ras with lost := su :: d.ras.lost } }
        else d
      showAvail ((d.lose u (smGet d.ras.causes u 0xFF)).wr RTE_MAP.state e 5)

/-- Loss of a die (Table 12-3, index 0xFFE): every core and routing engine on it is lost, its spares too, each with its record (R372); bound commands
fail as in step 1 of R373, and routes in progress as in Table 8-13. -/
def Device.loseDie (d : Device) (k cause : Nat) : Device :=
  let spares := if k < 4 then (List.range 52).map (unitOf k ·) else if k < 6 then [unitOf k 0x24] else []
  let serves (u : Nat) : Bool := (List.range 192).any (fun n => d.coreUnit n == u) || (List.range 8).any fun e => d.engineUnit e == u
  let d := d.lose (unitOf k 0xFFE) cause
  let dead := spares.filter fun u => !serves u && !d.ras.lost.contains u
  let d : Device := { d with ras := { d.ras with lost := dead ++ d.ras.lost } }
  let d := if 4 ≤ k then d else
    ((List.range 48).map (48 * k + ·)).foldl (fun d n =>
      if d.coreSt n = csLost then d
      else
        let u := d.coreUnit n
        let idx := d.nextRec
        ((((d.lose u cause).failCore n idx u).setCoreSt n csLost).showSpares k)) d
  (List.range 8).foldl (fun d e =>
    let u := d.engineUnit e
    if u / 4096 ≠ k || d.rd RTE_MAP.state e = 5 then d
    else
      let idx := d.nextRec
      let d := (d.lose u cause).wr RTE_MAP.state e 5
      let d := d.wr RTE_MAP.spare_avail e 0
      (List.range 8).foldl (fun d x =>
        match (d.rctx e x).route with
        | some r => d.failRoute e x r stEcc (eccDetail idx u 0xFFFF) 8
        | none => d) d) d

/-- A spare lane Sg leaves service (R296): the port that uses it retrains without it. -/
def Device.retireLane (d : Device) (g : Nat) : Device :=
  let p := 4 * g + d.rd FAB_LANE_SPARE.port g
  let d := if d.on FAB_LANE_SPARE.in_use g then laneFail p 4 d else d
  d.wr FAB_LANE_SPARE.avail g 0

/-- Retirement of a unit, by its kind (R372, Table 12-9): cores, engines and pseudo-channels wait for their bring-in; control processors are
taken over; a die takes its cores and engines with it; a unit without a kind of spare is lost. -/
def Device.retireUnit (d : Device) (u cause : Nat) : Device :=
  if !unitExists u then d
  else if isCoreUnit u || isPcUnit u then d.retire u cause
  else if isEngineUnit u then (d.retire u cause).sweepEngines
  else if inRange u (unitOf 6 0) 4 then
    let d := d.log { unit := u, sev := 5, op := 0x0D, flags := 32, detail := cause }
    d.failCp (u % 4096)
  else if u % 4096 = 0xFFE then d.loseDie (u / 4096) cause
  else
    let d := d.lose u cause
    if inRange u (unitOf 6 0x20) 16 then portDown (u % 4096 - 0x20) d
    else if inRange u (unitOf 6 0x30) 4 then d.retireLane (u % 4096 - 0x30)
    else d

/-- RAS_RETIRE with op 0b01 (R372, R388). -/
def retireUnit (fn u : Nat) (d : Device) : Device :=
  if fn ≠ 0 then d.hostErr 0xE00030 0 else d.retireUnit u 0

/-- A spare pseudo-channel of a unit's stack that works and serves nothing. -/
def Device.sparePc (d : Device) (u : Nat) : Option Nat :=
  let first := u / 4096 * 4096 + 0x100 + (u % 4096 - 0x100) / 128 * 128 + 64
  [first, first + 1].find? fun s => d.works s && !(d.ras.psMap.any fun m => m.2 == s) && !(d.ras.psCopies.any fun m => m.2 == s)

/-- PSEUDO_CHANNEL_COPY (R376): the copy starts; without a spare the pseudo-channel stays in service. It is a memory timing event (R291). -/
def pseudoChannelCopy (u : Nat) (d : Device) : Device :=
  if !d.isRetiring u || !isPcUnit u || d.ras.psCopies.any (fun c => c.1 == u) then d
  else
    match d.sparePc u with
    | none => { d with ras := { d.ras with retiring := d.ras.retiring.filter fun r => r.1 != u } }
    | some s => { d with ras := { d.ras with psCopies := d.ras.psCopies ++ [(u, s)], memEvents := u :: d.ras.memEvents } }.perturbLegs

/-- Hashed pseudo-channel behind a unit. -/
def Device.pcOrigin (d : Device) (u : Nat) : Nat := ((d.ras.psMap.find? fun m => m.2 == u).map fun m => m.1).getD u

/-- PSEUDO_CHANNEL_COPY_DONE: the spare serves the retired pseudo-channel's lines (R267, R376). -/
def pseudoChannelCopyDone (u : Nat) (d : Device) : Device :=
  match d.ras.psCopies.find? fun c => c.1 == u with
  | none => d
  | some (_, s) =>
    let ras := { d.ras with psCopies := d.ras.psCopies.filter (fun c => c.1 != u), memEvents := d.ras.memEvents.filter (fun x => x != u),
                            psMap := smIns d.ras.psMap (d.pcOrigin u) s, retiring := d.ras.retiring.filter (fun r => r.1 != u),
                            lost := u :: d.ras.lost }
    { d with ras := ras }.log { unit := u, sev := 5, op := 0x1B, detail := u + s <<< 16 }

/-! ### Field repair -/

/-- Writing go programs RAS_REPAIR_OP's entry (R371); the position is refused when the array is exhausted. -/
def repairProgram (fn : Nat) (d : Device) : Device :=
  if fn ≠ 0 then d.hostErr 0xE00040 0
  else if d.on RAS_REPAIR_STAT.busy 0 || d.rd RAS_REPAIR_STAT.free 0 == 0 then d
  else d.startRepair (d.rd RAS_REPAIR_OP.entry 0)

/-- What a programmed entry does at once (R371). Row and column repairs of a core's store move its corrected contents, which changes no
data; DRAM rows move only while no timetable is pending or in force; the rest waits for the next start-up. -/
def Device.applyRepair (d : Device) (e : Nat) : Device :=
  let u := reUnit e
  match reKind e with
  | 0x3 => { d with ras := { d.ras with rows := d.ras.rows ++ [(u, bits e 43 40, bits e 39 37)] } }
  | 0x4 | 0x5 =>
    if d.timetablesExist then d
    else { d with ras := { d.ras with rowMove := u :: d.ras.rowMove, memEvents := u :: d.ras.memEvents } }.perturbLegs
  | 0x6 | 0x7 | 0x8 | 0x9 | 0xA => d.retireUnit u 0x0F
  | _ => d

/-- REPAIR_PROGRAM_DONE (R371): read back and verified, or the position is bad. The next entry that waits is programmed. -/
def repairProgramDone (good : Bool) (d : Device) : Device :=
  match d.ras.repairing with
  | none => d
  | some e =>
    let valid := crc12 e == e % 4096
    let ok := good && d.rd RAS_REPAIR_STAT.free 0 != 0
    let ras := { d.ras with repairing := none, array := if d.rd RAS_REPAIR_STAT.free 0 = 0 then d.ras.array else d.ras.array ++ [if ok then e else 0] }
    let d : Device := { d with ras := ras }
    let d := (d.wr RAS_REPAIR_STAT.busy 0 0).wr RAS_REPAIR_STAT.free 0 (d.rd RAS_REPAIR_STAT.free 0 - 1)
    let d := if ok then (d.wr RAS_REPAIR_STAT.ok 0 1).log { unit := reUnit e, sev := 0, op := 0x0F, detail := e }
      else d.wr RAS_REPAIR_STAT.fail 0 1
    let d := if ok && valid then d.applyRepair e else d
    match d.ras.pendingRepair with
    | [] => d
    | p :: ps => { d with ras := { d.ras with pendingRepair := ps } }.startRepair p

/-- DRAM_ROW_REPAIR_DONE: the row has moved, and requests go on (R371). -/
def dramRowRepairDone (u : Nat) (d : Device) : Device :=
  if d.ras.rowMove.contains u then
    { d with ras := { d.ras with rowMove := d.ras.rowMove.filter (fun x => x != u), memEvents := d.ras.memEvents.filter (fun x => x != u) } }
  else d

/-! ### Tasting and periodic tests -/

/-- Format row of the environment bins (R387). -/
def CFmt.binRow : CFmt → Nat
  | .fp8e4m3 | .fp8e5m2 => 0
  | .mxfp8e4m3 | .mxfp8e5m2 | .mxfp6e2m3 | .mxfp6e3m2 => 1
  | .mxfp4 => 2
  | .int8 | .mxint8 => 3
  | .bf16 | .fp16 => 4
  | .cbf16 => 5

/-- A taste has its verdict: its record leaves, and its command may complete (R383). -/
def Device.tasteOver (d : Device) (t : Taste) : Device :=
  let d := { d with ras := { d.ras with tastes := d.ras.tastes.filter fun x => x.id != t.id } }
  (d.modRun t.sn fun r => { r with tastes := r.tastes - 1 }).settleRun t.sn

/-- The taste record that the leg running on a core recomputes. -/
def Device.tasteOn (d : Device) (n : Nat) : Option Taste :=
  match (d.core n).leg with
  | some l => d.ras.tastes.find? fun t => 2 + t.id == l.internal
  | none => none

/-- A die for the third core: one with a working core that is neither the original's nor the taster's, else any (R382). -/
def Device.thirdDie (d : Device) (t : Taste) (n : Nat) : Nat :=
  let ok (k : Nat) (n' : Nat) : Bool := d.coreServes n' && n' / 48 == k && n' != t.core && n' != n
  let any_ (k : Nat) : Bool := (List.range 48).any fun i => ok k (48 * k + i)
  ((([0, 1, 2, 3].filter fun k => k != t.core / 48 && k != n / 48) ++ [0, 1, 2, 3]).find? any_).getD t.die

/-- TASTE_LEG: the tasting core has recomputed the pass; `equal` is the outcome of the bit-for-bit comparison (R381). -/
def tasteLeg (n : Nat) (equal : Bool) (d : Device) : Device :=
  match d.tasteOn n with
  | none => d
  | some t =>
    if t.phase ≠ 0 || !t.placed then d
    else
      let d := (d.incWrap RAS_TASTE_CNT.tasted t.core 1).binAdd t.core (tbinOf (toSigned 16 t.temp)) (vbinOf t.volt) t.fmt.binRow 1
      if equal then d.tasteOver t
      else
        let t' : Taste := { t with phase := 1, other := n, placed := false, die := d.thirdDie t n }
        { d with ras := { d.ras with tastes := d.ras.tastes.map fun x => if x.id = t.id then t' else x } }

/-- TASTE_ARBITRATION: the third core's verdict, 1 original wrong, 2 taster wrong, 3 undecided (R382–R384, R387). -/
def tasteArbitration (n verdict : Nat) (d : Device) : Device :=
  match d.tasteOn n with
  | none => d
  | some t =>
    if t.phase ≠ 1 || !t.placed || n = t.other || !inRange verdict 1 3 then d
    else
      let u := d.coreUnit t.core
      let o := d.coreUnit t.other
      let idx := d.nextRec
      let d := d.log { unit := u, sev := 2, op := 0x0A, flags := 4, temp := t.temp, volt := t.volt, ten := t.ten, mid := t.mid, leg := t.leg,
                       detail := t.cube + (t.cube / 4) <<< 4 + verdict <<< 8 + o <<< 32 }
      let d := if verdict ≠ 2 then (d.incSat RAS_CORE_HEALTH.as_original t.core 1).steep u else d
      let d := if verdict ≠ 1 then (d.incSat RAS_CORE_HEALTH.as_taster t.other 1).steep o else d
      let d := if verdict = 1 then
          (d.binAdd t.core (tbinOf (toSigned 16 t.temp)) (vbinOf t.volt) t.fmt.binRow 0).addEvent u evVerdict 0 0x0A 0
        else d
      let d := if verdict ≠ 2 then d.failRun t.sn stTaste (idx % 65536 + u <<< 16) else d
      d.tasteOver t

/-- PERIODIC_TEST_DUE: a core's test interval expires, and a test leg waits for a gap; `late` when its interval plus 10 % has passed without
one (R385). -/
def periodicTestDue (n : Nat) (late : Bool) (d : Device) : Device :=
  let x := d.core n
  if late then (if x.testDue then d.incSat RAS_CORE_HEALTH.tests_late n 1 else d)
  else d.setCore n { x with testDue := true }

end Sys2Proof.Machine
end

