-- ==== Sys2Proof/Machine/CollBase.lean ====
section
/-! DEFINITION. Collectives of this device: descriptors, chunks, landing, the ring, the ends of a COLL, and the rollback mark (R329–R343, R348–R353).
Where the manual leaves a layout open (count chunks, the verdict token, the address field of COLL_DATA) the model takes one of its own (log 39). -/

namespace Sys2Proof.Machine

/-! ### The rollback mark -/

/-- The rollback mark is set: no further leg of the tenancy's started RUNs starts, and they complete with ROLLED_BACK (R352, R408). -/
def Device.setMark (d : Device) (t cause : Nat) : Device :=
  let tc := smGet d.tens t {}
  let d := { d with tens := smSet d.tens t {} { tc with rollback := max tc.rollback cause } }
  let d := if cause = 9 then d.wr FTP_TEN_STAT.marked t 1 else d
  (d.cmds.filter fun c => c.ten == t && c.run.isSome).foldl (fun d c => (d.failRun c.sn stRolled cause).settleRun c.sn) d

/-! ### Reading what a collective names -/

/-- Outcome of reading and checking a collective's inputs. -/
inductive Prep (α : Type) where
  | waits
  | bad (st detail : Nat)
  | ecc (l : Loc)
  | ok (a : α)
  deriving DecidableEq, Repr

def Prep.bind {α β : Type} (x : Prep α) (f : α → Prep β) : Prep β :=
  match x with
  | .ok a => f a
  | .waits => .waits
  | .bad st detail => .bad st detail
  | .ecc l => .ecc l

def Device.fetch (d : Device) (t ga n : Nat) : Prep (List Byte) :=
  match d.readGA t ga n with
  | .ok bs => .ok bs
  | .waits => .waits
  | .fault ga => .bad stFault ga
  | .poison l => .ecc l

/-- Refusal of reason 0x0E with a sub-code (Table 4-18). -/
def Prep.deny {α : Type} (sub : Nat) : Prep α := .bad stDenied (denied 0x0E sub 0)

/-- A list of readings, in order. -/
def Prep.all {α β : Type} (f : α → Prep β) : List α → Prep (List β)
  | [] => .ok []
  | a :: as => (f a).bind fun b => (Prep.all f as).bind fun bs => .ok (b :: bs)

/-! ### Descriptor and group table -/

/-- Fields of the collective descriptor (Table 11-1), which `desc` holds from byte 28 of the entry. -/
def cdKind (b : List Byte) : Nat := leAt b 0 1
def cdFallback (b : List Byte) : Bool := bit (leAt b 1 1) 0
def cdProgress (b : List Byte) : Bool := bit (leAt b 1 1) 1
def cdType (b : List Byte) : Nat := leAt b 2 1
def cdGroup (b : List Byte) : Nat := leAt b 4 8
def cdSrc (b : List Byte) : Nat := leAt b 12 8
def cdDst (b : List Byte) : Nat := leAt b 20 8
def cdLen (b : List Byte) : Nat := leAt b 28 4
def cdEvent (b : List Byte) : Nat := leAt b 32 2
def cdDist (b : List Byte) : Nat := leAt b 34 2

/-- An address a descriptor may hold (R329). -/
def Device.collAddr (d : Device) (ga : Nat) : Bool := d.isLocal ga && decide (gaSp ga ≤ 2) && ga % 64 == 0

/-- The descriptor's own fields (R329, R330). -/
def Device.cdOk (d : Device) (b : List Byte) : Bool :=
  let k := cdKind b
  let len := cdLen b
  decide (1 ≤ k) && decide (k ≤ 5) && bits (leAt b 1 1) 7 2 == 0 && decide (cdType b ≤ (if k = 5 then 2 else 0)) && leAt b 3 1 == 0 &&
  d.collAddr (cdGroup b) && d.collAddr (cdSrc b) &&
  (if k = 3 || k = 4 then cdDst b == 0 && len == 0
   else d.collAddr (cdDst b) && (if k = 2 then decide (len ≤ 4096) else decide (8 ≤ len) && decide (len ≤ 2 ^ 32 - 64) && len % 8 == 0)) &&
  !(k == 5 && decide (cdDst b < cdSrc b + len) && decide (cdSrc b < cdDst b + len))

/-- A group table that holds for this device: its members in rank order (Table 11-2). -/
def Device.groupOf (d : Device) (t : Nat) (b : List Byte) : Prep (List Byte × List Nat) :=
  (d.fetch t (cdGroup b) 64).bind fun h =>
    let n := leAt h 2 2
    let rank := leAt h 4 2
    if !(decide (1 ≤ leAt h 0 2) && decide (leAt h 0 2 ≤ 0xFFFE) && decide (2 ≤ n) && decide (n ≤ 4096) && decide (rank < n) && leAt h 6 2 == 0 &&
        le (h.drop 12) == 0) then .deny 0x08
    else
      (d.fetch t (cdGroup b + 64) (2 * n)).bind fun m =>
        let devs := (List.range n).map fun r => leAt m (2 * r) 2 % 4096
        if devs.getD rank 4096 ≠ d.devId then .deny 0x08
        else if cdKind b = 1 && !(decide (1 ≤ cdDist b) && decide (cdDist b < n)) then .deny 0x08
        else .ok (h, devs)

/-! ### What a member sends -/

/-- A chunk for a rank: whether it is a count chunk, its index, its data. -/
structure Send where
  rank : Nat
  count : Bool
  idx : Nat
  data : List Byte
  deriving DecidableEq, Repr

/-- Data bytes cut into chunks of at most 4,096 (R334), numbered from `from_`. -/
def chunksOf (rank : Nat) (count : Bool) (from_ : Nat) (bs : List Byte) : List Send :=
  (List.range (ceilDiv bs.length 4096)).map fun i => ⟨rank, count, from_ + i, (bs.drop (4096 * i)).take 4096⟩

/-- Chunks of several pieces, each starting a chunk. -/
def chunksOfAll (rank : Nat) : Nat → List (List Byte) → List Send
  | _, [] => []
  | n, p :: ps => chunksOf rank false n p ++ chunksOfAll rank (n + ceilDiv p.length 4096) ps

/-- What a count chunk holds: the total bytes that follow, number of items, then the items. -/
def countBytes (total : Nat) (items : List (List Byte)) : List Byte := toLE 8 total ++ toLE 4 items.length ++ items.flatten

def sendsTo (rank : Nat) (items pieces : List (List Byte)) : List Send :=
  chunksOf rank true 0 (countBytes (pieces.map List.length).sum items) ++ chunksOfAll rank 0 pieces

/-- Sends of a permutation (R339). -/
def Device.permuteSends (d : Device) (t : Nat) (b : List Byte) (n : Nat) : Prep (List Send) :=
  (d.fetch t (cdSrc b) (32 * cdLen b)).bind fun l =>
    let es := (List.range (cdLen b)).map fun i => (l.drop (32 * i)).take 32
    if es.any fun e => decide (n ≤ leAt e 0 2) || leAt e 2 2 != 0 || le (e.drop 24) != 0 then .deny 0x08
    else
      (Prep.all (fun r =>
        let mine := es.filter fun e => leAt e 0 2 == r
        (Prep.all (fun e => d.fetch t (leAt e 8 8) (leAt e 4 4)) mine).bind fun ps =>
          .ok (sendsTo r (mine.map fun e => (e.drop 16).take 8 ++ (e.drop 4).take 4) ps)) (List.range n)).bind fun xs => .ok xs.flatten

/-- The dispatch block (Table 11-5). -/
structure DBlock where
  list : Nat
  rows : Nat
  map : Nat
  recv : Nat
  fill : Nat
  out : Nat
  returns : Nat
  rowBytes : Nat
  slots : Nat
  deriving DecidableEq, Repr

def Device.blockAt (d : Device) (t ga : Nat) : Prep DBlock :=
  (d.fetch t ga 64).bind fun b =>
    let x : DBlock := ⟨leAt b 0 8, leAt b 8 8, leAt b 16 8, leAt b 24 8, leAt b 32 8, leAt b 40 8, leAt b 48 8, leAt b 56 4, leAt b 60 4⟩
    if decide (64 ≤ x.rowBytes) && decide (x.rowBytes ≤ 262144) && x.rowBytes % 64 == 0 && decide (1 ≤ x.slots) && decide (x.slots ≤ 65536) then .ok x
    else .deny 0x08

/-- Destination entries of the member's dispatch list (Table 8-4): device, slot, capacity, filled, first row; with its first token. -/
structure DEntry where
  dev : Nat
  slot : Nat
  cap : Nat
  filled : Nat
  first : Nat
  deriving DecidableEq, Repr

def Device.destEntries (d : Device) (t : Nat) (x : DBlock) : Prep (Nat × Nat × List DEntry) :=
  (d.fetch t x.list 64).bind fun h =>
    let n := leAt h 4 4
    (d.fetch t (x.list + 64) (16 * n)).bind fun es =>
      .ok (leAt h 16 4, roundUp (64 + 16 * n) 64, (List.range n).map fun i =>
        let e := es.drop (16 * i)
        ⟨leAt e 0 2 % 4096, leAt e 2 2, leAt e 4 2, leAt e 6 2, leAt e 8 4⟩)

/-- Rows of a destination that are kept, from the member's token rows (R340). -/
def Device.keptRows (d : Device) (t : Nat) (x : DBlock) (first rowsAt : Nat) (e : DEntry) : Prep (List (List Byte)) :=
  Prep.all (fun j =>
    (d.fetch t (x.list + rowsAt + 8 * (e.first + j)) 8).bind fun r => d.fetch t (x.rows + (leAt r 0 4 - first) * x.rowBytes) x.rowBytes) (List.range e.filled)

/-- Sends of a dispatch (R340). -/
def Device.dispatchSends (d : Device) (t : Nat) (x : DBlock) (devs : List Nat) : Prep (List Send) :=
  (d.destEntries t x).bind fun l =>
    if l.2.2.any fun e => !devs.contains e.dev then .deny 0x08
    else
      (Prep.all (fun r =>
        let mine := l.2.2.filter fun e => e.dev == devs.getD r 4096
        (Prep.all (d.keptRows t x l.1 l.2.1) mine).bind fun ps =>
          .ok (sendsTo r (mine.map fun e => toLE 4 e.slot ++ toLE 4 e.cap ++ toLE 4 e.filled) ps.flatten)) (List.range devs.length)).bind
        fun xs => .ok xs.flatten

/-- Row base and capacity of a local slot (Table 11-5). -/
def Device.slotMap (d : Device) (t : Nat) (x : DBlock) (s : Nat) : Prep (Nat × Nat) :=
  (d.fetch t (x.map + 8 * s) 8).bind fun b => .ok (leAt b 0 4, leAt b 4 2)

/-- Sends of a return (R341). -/
def Device.returnSends (d : Device) (t : Nat) (x : DBlock) (n : Nat) : Prep (List Send) :=
  (Prep.all (fun r =>
    (Prep.all (fun s =>
      (d.fetch t (x.fill + 4 * (s * n + r)) 4).bind fun f =>
        (d.slotMap t x s).bind fun m =>
          (Prep.all (fun j => d.fetch t (x.out + (m.1 + r * m.2 + j) * x.rowBytes) x.rowBytes) (List.range (le f))).bind fun rows =>
            .ok (s, le f, rows)) (List.range x.slots)).bind fun ss =>
      let ss := ss.filter fun s => s.2.1 != 0
      .ok (sendsTo r (ss.map fun s => toLE 4 s.1 ++ toLE 4 s.2.1) (ss.flatMap fun s => s.2.2))) (List.range n)).bind fun xs => .ok xs.flatten

/-! ### State of a collective -/

def Device.coll? (d : Device) (sn : Nat) : Option Coll := d.colls.find? fun c => c.sn == sn
def Device.setColl (d : Device) (c : Coll) : Device := { d with colls := d.colls.map fun x => if x.sn = c.sn then c else x }
def Coll.n (c : Coll) : Nat := c.devs.length
def Coll.tag (c : Coll) : List Byte := mkTag c.ten c.cls c.client 5 c.step 0
/-- What the address field of its packets holds (R334). -/
def Coll.ga (c : Coll) : Nat := c.gid <<< 48 + c.seq
/-- The collective engine has no unit ID in Table 12-3; its packets carry the scheduler's. -/
def collUnit : Nat := unitSched

/-- Chunks of the result of a reduction, and the bytes of one. -/
def Coll.chunks (c : Coll) : Nat := ceilDiv (cdLen c.desc) 4096
def Coll.chunkLen (c : Coll) (i : Nat) : Nat := min 4096 (cdLen c.desc - 4096 * i)

/-- Chunk header (Table 11-4). -/
def Coll.header (c : Coll) (idx flags len : Nat) (data : List Byte) : List Byte :=
  toLE 4 idx ++ toLE 4 (crc32c data) ++ toLE 1 c.kind ++ toLE 1 (cdType c.desc) ++ toLE 1 (flags + b2n c.fixed) ++ toLE 1 0 ++ toLE 4 len

/-- A packet to the switch (R334): its dst is rank 0. -/
def Device.toSwitch (d : Device) (c : Coll) (op seq : Nat) (payload : List Byte) : Device :=
  d.sendPacket (c.devs.getD 0 0) op 0 (pathOf c.ga (c.devs.getD 0 0)) (ftClass c.cls) 0 seq collUnit 0 c.ga payload.length c.tag payload

/-- A COLL ends (R337, R342): its place is free; requests still unanswered stay so that their streams go on, and serve nobody. -/
def Device.endColl (d : Device) (c : Coll) (st detail : Nat) : Device :=
  let colls := d.colls.filter fun x => x.sn != c.sn
  let d := { d with colls := colls }
  (d.wr COL_INFLIGHT.count 0 colls.length).finish c.sn st detail none

/-- A COLL fails; a switch reduction tells the switch (R347). -/
def Device.failColl (d : Device) (c : Coll) (st detail : Nat) : Device :=
  let d := if c.phase ≤ 2 then d.toSwitch c 0x17 0 [1] else d
  d.endColl c st detail

/-- The detail of a suspect collective (R351). -/
def Coll.suspectDetail (c : Coll) (finder : Nat) : Nat := c.seq + c.gid <<< 32 + finder <<< 48

/-- A collective ends with its group's verdict (R346, R349, R351). Who found the chunk is not told to the others: free for them. -/
def Device.verdict (d : Device) (c : Coll) (bad : Bool) : Device :=
  if !bad then d.endColl c stOk 0
  else
    let f := match c.finder with
      | some u => (u, d)
      | none => d.fresh 4096
    let d := ((f.2.wr COL_LAST_SUSPECT.group_id 0 c.gid).wr COL_LAST_SUSPECT.coll_seq 0 c.seq).wr COL_LAST_SUSPECT.finder 0 f.1
    let d := if c.finder.isSome then d.endColl c stSuspect (c.suspectDetail d.devId) else d.endColl c stRolled 8
    d.setMark c.ten 8

/-- One landed chunk of results raises the progress event (R342). -/
def Device.progress (d : Device) (c : Coll) : Device := if cdProgress c.desc then d.signal c.ten (cdEvent c.desc) 1 true else d

/-- A chunk goes to a member as COLL_DATA (R334, R336); a device that has left the membership ends the COLL (R320). -/
def Device.sendChunk (d : Device) (sn : Nat) (s : Send) (flags : Nat) : Device :=
  match d.coll? sn with
  | none => d
  | some c =>
    let dev := c.devs.getD s.rank 0
    if !d.isMember dev then d.failColl c stTimeout (cdGroup c.desc)
    else
      let payload := c.header s.idx (flags + (if s.count then 4 else 0)) (cdLen c.desc) s.data ++ s.data
      d.issueReq 0x10 dev (ftClass c.cls) collUnit c.ga payload.length 0 sn c.tag payload (.coll sn s.rank s.idx)

/-! ### What a member receives -/

/-- Items of a rank's count chunks once they are whole. -/
def countItems (size : Nat) (b : List Byte) : Option (List (List Byte)) :=
  let n := leAt b 8 4
  if b.length < 12 then none
  else if b.length < 12 + size * n then none
  else some ((List.range n).map fun i => (b.drop (12 + size * i)).take size)

def Coll.itemSize (c : Coll) : Nat := if c.kind = 4 then 8 else 12

/-- Counts of rank r. -/
def Coll.items (c : Coll) (r : Nat) : Option (List (List Byte)) :=
  if c.kind = 1 then (if r = (c.rank + c.n - cdDist c.desc) % c.n then some [[]] else some []) else countItems c.itemSize (smGet c.counts r [])

/-- Landing places of rank r's data, in the order in which it comes: address and length (R338–R341). -/
def Device.places (d : Device) (c : Coll) (r : Nat) (items : List (List Byte)) : Prep (List (Nat × Nat)) :=
  let dst := cdDst c.desc
  match c.kind with
  | 1 => .ok (items.map fun _ => (dst, cdLen c.desc))
  | 2 => .ok (items.map fun i => (dst + leAt i 0 8, leAt i 8 4))
  | 3 =>
    (d.blockAt c.ten (cdSrc c.desc)).bind fun x =>
      (Prep.all (fun i => (d.slotMap c.ten x (leAt i 0 4)).bind fun m =>
        .ok ((List.range (leAt i 8 4)).map fun j => (x.recv + (m.1 + r * m.2 + j) * x.rowBytes, x.rowBytes))) items).bind fun ps => .ok ps.flatten
  | _ =>
    (d.blockAt c.ten (cdSrc c.desc)).bind fun x =>
      (d.destEntries c.ten x).bind fun l =>
        .ok (items.flatMap fun i =>
          let first := ((l.2.2.find? fun e => e.dev == c.devs.getD r 4096 && e.slot == leAt i 0 4).map fun e => e.first).getD 0
          (List.range (leAt i 4 4)).map fun j => (x.returns + (first + j) * x.rowBytes, x.rowBytes))

/-- Number of data chunks of some places. -/
def placeChunks (ps : List (Nat × Nat)) : Nat := (ps.map fun p => ceilDiv p.2 4096).foldl (· + ·) 0

/-- Counts of rank r have come: fill table, pad rows, and the checks of R340 and R341. The answer is none where the counts disagree. -/
def Device.takeCounts (d : Device) (c : Coll) (r : Nat) (items : List (List Byte)) : Option Device :=
  if c.kind ≠ 3 && c.kind ≠ 4 then some d
  else
    match d.blockAt c.ten (cdSrc c.desc) with
    | .ok x =>
      if c.kind = 4 then
        match d.destEntries c.ten x with
        | .ok l =>
          if items.all fun i => l.2.2.any fun e => e.dev == c.devs.getD r 4096 && e.slot == leAt i 0 4 && e.filled == leAt i 4 4 then some d else none
        | _ => none
      else
        (List.range x.slots).foldl (fun acc s =>
          match acc with
          | none => none
          | some d =>
            match d.slotMap c.ten x s with
            | .ok m =>
              let it := items.find? fun i => leAt i 0 4 == s
              if it.any fun i => leAt i 4 4 != m.2 then none
              else
                let filled := (it.map fun i => leAt i 8 4).getD 0
                let d := (d.writeGA c.ten (x.fill + 4 * (s * c.n + r)) (toLE 4 filled) .none).1
                some (d.writeGA c.ten (x.recv + (m.1 + r * m.2 + filled) * x.rowBytes) (List.replicate ((m.2 - filled) * x.rowBytes) 0) .none).1
            | _ => some d) (if items.any fun i => decide (x.slots ≤ leAt i 0 4) then none else some d)
    | _ => none

/-- Whether every rank's counts and data are in place (R342). -/
def Device.allLanded (d : Device) (c : Coll) : Bool :=
  (List.range c.n).all fun r =>
    match c.items r with
    | none => false
    | some items =>
      match d.places c r items with
      | .ok ps => decide (placeChunks ps ≤ (c.got.filter fun g => g.1 == r).length)
      | _ => false

/-- Completion of a shift, permutation, dispatch or return (R342). -/
def Device.tryEndColl (d : Device) (sn : Nat) : Device :=
  match d.coll? sn with
  | none => d
  | some c =>
    let open_ := d.fab.reqs.any fun r => match r.who with
      | .coll s _ _ => s == sn
      | _ => false
    if c.phase = 4 && !open_ && d.allLanded c then d.endColl c stOk 0 else d

/-- What taking a chunk comes to. -/
inductive Took where
  | done
  | fault (ga : Nat)
  | ecc (l : Loc)
  | refused
  deriving DecidableEq, Repr

/-- A count or data chunk of rank r, of a shift, permutation, dispatch or return. -/
def Device.takeChunk (d : Device) (c : Coll) (r idx : Nat) (count : Bool) (data : List Byte) : Device × Took :=
  if count then
    let c := { c with counts := smIns c.counts r (smGet c.counts r [] ++ data) }
    let d := d.setColl c
    match c.items r with
    | none => (d, .done)
    | some items =>
      match d.takeCounts c r items with
      | some d => (d, .done)
      | none => (d.failColl c stDenied (denied 0x0E 0x0A 0), .refused)
  else
    match c.items r with
    | none => (d.failColl c stDenied (denied 0x0E 0x0A 0), .refused)
    | some items =>
      match d.places c r items with
      | .ok ps =>
        (match chunkOf 4096 (ps.map fun p => (0, p.1, p.2)) idx with
         | none => (d.failColl c stDenied (denied 0x0E 0x0A 0), .refused)
         | some (_, ga, n) =>
           if data.length ≠ n || c.got.contains (r, idx) then (d, .done)
           else
             match d.writeGA c.ten ga data .none with
             | (d, .fault ga) => (d, .fault ga)
             | (d, .poison l) => (d, .ecc l)
             | (d, _) => ((d.setColl { c with got := (r, idx) :: c.got }).progress c, .done))
      | _ => (d, .fault (cdSrc c.desc))

/-! ### The ring -/

/-- Elements of a chunk as FP32 codes or INT32 values (Table 11-6). -/
def elems (dtype : Nat) (b : List Byte) : List Nat :=
  if dtype = 1 then (List.range (b.length / 2)).map fun i => leAt b (2 * i) 2 * 65536 else (List.range (b.length / 4)).map fun i => leAt b (4 * i) 4

/-- A sum of two partials, element by element (Table 11-6). -/
def addElems (dtype : Nat) (a b : List Nat) : List Nat :=
  List.zipWith (fun x y => if dtype = 2 then (x + y) % 2 ^ 32 else (fAdd x y).val) a b

/-- A finished sum as result bytes: a BF16 sum is rounded once. -/
def sumBytes (dtype : Nat) (xs : List Nat) : List Byte :=
  xs.flatMap fun x => if dtype = 1 then toLE 2 (bf16.round (fp32.decode x)).val else toLE 4 x

/-- Own contribution to chunk i. -/
def Device.ownChunk (d : Device) (c : Coll) (i : Nat) : Prep (List Nat) :=
  (d.fetch c.ten (cdSrc c.desc + 4096 * i) (c.chunkLen i)).bind fun b => .ok (elems (cdType c.desc) b)

/-- Start rank of a ring chunk, this device's place after it, and its successor (R349). -/
def Coll.startRank (c : Coll) (i : Nat) : Nat := if c.fixed then 0 else i % c.n
def Coll.place (c : Coll) (i : Nat) : Nat := (c.rank + c.n - c.startRank i) % c.n
def Coll.succ (c : Coll) : Nat := (c.rank + 1) % c.n

/-- Flag of a partial in FP32. -/
def Coll.partFlag (c : Coll) : Nat := if cdType c.desc = 2 then 0 else 2

/-- A read of a collective that fails ends it. -/
def Device.collRead (d : Device) (c : Coll) (x : Prep (List Nat)) (f : Device → List Nat → Device) : Device :=
  match x with
  | .ok a => f d a
  | .bad st detail => d.failColl c st detail
  | .ecc l =>
    let u := d.placeUnit l.sp l.off
    let idx := d.nextRec
    let d := d.uncorr u.1 u.2 { unit := 0, sev := 2, op := 0x02, ten := c.ten, cls := c.cls, client := c.client, step := c.step }
    d.failColl c stEcc (eccDetail idx u.1 0xFFFF)
  | .waits => d.failColl c stFault (cdSrc c.desc)

/-- The verdict token goes to the next rank. It carries the verdict in byte 0. -/
def Device.passToken (d : Device) (c : Coll) (bad : Bool) : Device :=
  d.sendChunk c.sn ⟨c.succ, true, c.token, [BitVec.ofNat 8 (b2n bad)]⟩ 0

/-- Whether every chunk of a reduction's result has landed or been found suspect. -/
def Coll.resultsIn (c : Coll) : Bool := decide (c.chunks ≤ c.landed.length)

/-- A rank whose results have landed starts the token (rank 0) or passes on what it holds (R349). `held` keeps the token's verdict that waits. -/
def Device.ringToken (d : Device) (sn : Nat) : Device :=
  match d.coll? sn with
  | none => d
  | some c =>
    if c.phase ≠ 3 || !c.resultsIn then d
    else if c.rank = 0 && c.token = 0 then
      let c := { c with token := 1 }
      (d.setColl c).passToken c c.suspect
    else
      match c.held with
      | [] => d
      | (k, b) :: _ =>
        let bad := c.suspect || leAt b 0 1 != 0
        let last := decide (2 ≤ k)
        let c := { c with held := [], token := k + (if c.rank = 0 then 1 else 0) }
        let d := d.setColl c
        let d := if last && c.rank = 0 then d else d.passToken c bad
        if last then (match d.coll? sn with
          | some c => d.verdict c bad
          | none => d) else d

/-- A result of chunk i lands. -/
def Device.landResult (d : Device) (c : Coll) (i : Nat) (data : List Byte) : Device × Took :=
  match d.writeGA c.ten (cdDst c.desc + 4096 * i) data .none with
  | (d, .fault ga) => (d, .fault ga)
  | (d, .poison l) => (d, .ecc l)
  | (d, _) => ((d.setColl { c with landed := i :: c.landed }).progress c, .done)

/-- A ring chunk from the previous rank: first a partial, except at the start rank, then the result (R349). -/
def Device.ringChunk (d : Device) (c : Coll) (i : Nat) (data : List Byte) : Device × Took :=
  let p := c.place i
  let first := !c.got.contains (1, i)
  let ty := cdType c.desc
  if p ≠ 0 && first then
    let c := { c with got := (1, i) :: c.got }
    let d := d.setColl c
    match d.ownChunk c i with
    | .ok own =>
      let sum := addElems ty (elems (if ty = 1 then 0 else ty) data) own
      if p + 1 = c.n then
        let r := d.landResult c i (sumBytes ty sum)
        ((r.1.sendChunk c.sn ⟨c.succ, false, i, sumBytes ty sum⟩ 0).ringToken c.sn, r.2)
      else (d.sendChunk c.sn ⟨c.succ, false, i, sum.flatMap (toLE 4)⟩ c.partFlag, .done)
    | x => (d.collRead c x fun d _ => d, .refused)
  else
    let r := d.landResult c i data
    let d := if p + 2 = c.n then r.1 else r.1.sendChunk c.sn ⟨c.succ, false, i, data⟩ 0
    (d.ringToken c.sn, r.2)

/-- The chunks that start at this rank go out in order, while the contribution can be read (R349). -/
def ringPump : Nat → Nat → Device → Device
  | 0, _, d => d
  | n + 1, sn, d =>
    match d.coll? sn with
    | none => d
    | some c =>
      if c.phase ≠ 3 || decide (c.chunks ≤ c.sent) then d
      else if c.startRank c.sent ≠ c.rank then ringPump n sn (d.setColl { c with sent := c.sent + 1 })
      else
        match d.ownChunk c c.sent with
        | .waits => d
        | x => ringPump n sn ((d.setColl { c with sent := c.sent + 1 }).collRead c x fun d own =>
            d.sendChunk sn ⟨c.succ, false, c.sent, own.flatMap (toLE 4)⟩ c.partFlag)

/-- A reduction runs around the ring. -/
def Device.ringStart (d : Device) (sn : Nat) : Device :=
  match d.coll? sn with
  | none => d
  | some c => ringPump (c.chunks + 1) sn (d.setColl { c with phase := 3, sent := 0 })

/-- What a COLL_DATA chunk reads and writes at its collective: the contribution it is added to, and where it lands. -/
def Device.collTouches (d : Device) (c : Coll) (src : Nat) (payload : List Byte) : Option (Nat × Nat) × Option (Nat × Nat) :=
  let i := leAt payload 0 4
  match findIdxFrom (fun x => x == src) c.devs 0 with
  | none => (none, none)
  | some r =>
    if bit (leAt payload 10 1) 2 then (none, none)
    else if c.kind = 5 then
      let part := c.place i != 0 && !c.got.contains (1, i)
      (if part then some (cdSrc c.desc + 4096 * i, c.chunkLen i) else none,
       if part && c.place i + 1 != c.n then none else some (cdDst c.desc + 4096 * i, c.chunkLen i))
    else
      match c.items r with
      | none => (none, none)
      | some items =>
        match d.places c r items with
        | .ok ps => (none, (chunkOf 4096 (ps.map fun p => (0, p.1, p.2)) i).map fun q => (q.2.1, q.2.2))
        | _ => (none, none)

/-- Whether a chunk is held by a crossing of what it reads or writes (check 10 of Table 10-6). -/
def Device.collHeld (d : Device) (c : Coll) (src : Nat) (payload : List Byte) : Bool :=
  let x := d.collTouches c src payload
  (match x.1 with
   | some (ga, n) => (match d.readGA c.ten ga n with
     | .waits => true
     | _ => false)
   | none => false) ||
  (match x.2 with
   | some (ga, n) => d.writeWaits c.ten ga n
   | none => false)

/-! ### An arriving COLL_DATA -/

/-- The collective a packet belongs to. -/
def Device.collOf (d : Device) (ga : Nat) : Option Coll := d.colls.find? fun c => c.ga == ga

/-- A chunk whose values or mode differ ends the COLL (R333, R422). -/
def Coll.agrees (c : Coll) (h : List Byte) : Bool :=
  leAt h 8 1 == c.kind && leAt h 9 1 == cdType c.desc && leAt h 12 4 == cdLen c.desc && bits (leAt h 10 1) 7 3 == 0 && leAt h 11 1 == 0

/-- A COLL_DATA chunk taken by its collective: source rank, chunk header with data. -/
def Device.collData (d : Device) (c : Coll) (src : Nat) (payload : List Byte) : Device × Took :=
  let h := payload.take 16
  let data := payload.drop 16
  let fl := leAt h 10 1
  let differ (d : Device) : Device × Took := ((d.logUncoded collUnit c.ten (c.suspectDetail 0)).failColl c stDenied (denied 0x0E 0x09 0), .refused)
  if !c.agrees h || (c.kind = 5 && c.fixed && !bit fl 0) then differ d
  else
    match findIdxFrom (fun x => x == src) c.devs 0 with
    | none => (d, .refused)
    | some r =>
      if c.kind = 5 then
        let i := leAt h 0 4
        if bit fl 2 then ((d.setColl { c with held := [(i, data)] }).ringToken c.sn, .done)
        else if c.chunks ≤ i || data.length ≠ (if bit fl 1 && cdType c.desc = 1 then 2 else 1) * c.chunkLen i then (d, .done)
        else d.ringChunk c (leAt h 0 4) data
      else
        let r := d.takeChunk c r (leAt h 0 4) (bit fl 2) data
        (r.1.tryEndColl c.sn, r.2)

/-- The end of a COLL_DATA this device sent (R337). -/
def Device.collReqEnd (d : Device) (sn : Nat) (fail : Option (Nat × Nat)) : Device :=
  match d.coll? sn with
  | none => d
  | some c =>
    match fail with
    | some (st, _) => d.failColl c st (cdGroup c.desc)
    | none => d.tryEndColl sn

end Sys2Proof.Machine
end

