-- ==== Sys2Proof/Machine/FabricRx.lean ====
section
/-! DEFINITION. Remote operations: their issue by legs and channels, the checks at the target, execution at the line serialisers, answers,
duplicates and timeouts, peer crossings (R311–R327, R478–R480). -/

namespace Sys2Proof.Machine

/-! ### Arriving packets -/

/-- Payload bytes that stand in a packet of an op (Table 10-5): a READ's length is what it asks for. -/
def payloadOf (op len : Nat) : Nat := if op = 1 then 0 else len

/-- Lengths and codes an op admits (Tables 10-4, 10-5, 10-8, 11-3). A collective chunk is a 16-byte header and up to 4,096 data bytes, or twice that for a BF16 partial in
FP32 (log 39). -/
def opFrame (op code len : Nat) : Bool :=
  match op with
  | 0x01 | 0x03 => decide (8 ≤ len) && decide (len ≤ 4096) && code == 0
  | 0x02 => decide (len ≤ 4096) && code == 0
  | 0x05 => len == 16 && decide (code ≤ 5)
  | 0x06 => len == 8 && code == 0
  | 0x08 => len == 0 && decide (code ≤ 0x0F)
  | 0x0C => len == 8 && code == 0
  | 0x04 | 0x07 | 0x09 | 0x0A | 0x0B => len == 0 && code == 0
  | 0x20 | 0x21 | 0x22 | 0x23 => len == 16 && code == 0
  | _ => decide (0x10 ≤ op) && decide (op ≤ 0x17) && decide (len ≤ 8208) && code == 0

/-- Check 1: framing, ops and reserved fields (R305). -/
def Device.framed (d : Device) (b : List Byte) : Bool :=
  leAt b 0 2 == d.devId && decide (leAt b 2 2 < 4096) && decide (leAt b 5 1 < 4) && decide (leAt b 6 1 < 64) &&
  opFrame (leAt b 4 1) (leAt b 7 1) (leAt b 24 4) && b.length == 64 + payloadOf (leAt b 4 1) (leAt b 24 4)

/-- A key opens a protected packet when the first 8 bytes of its tag agree (R478). -/
def openWith (key hdr tag ct integ : List Byte) : Option (List Byte) :=
  let iv := hdr.drop 2 |>.take 2
  let r := gcmUnseal key (iv ++ toLE 2 0 ++ integ.take 8) (hdr ++ tag) ct
  if r.2.take 8 = (integ.drop 8).take 8 then some r.1 else none

/-- Check 4 (R479): the payload in clear, and whether only the previous key opened it. -/
def Device.verifyPkt (d : Device) (b : List Byte) : Option (List Byte × Bool) :=
  let hdr := b.take 32
  let tag := (b.drop 32).take 16
  let body := b.drop 48
  let ct := body.take (body.length - 16)
  let integ := body.drop (body.length - 16)
  let t := tagTen tag
  let prot := bit (leAt b 5 1) 1
  if !prot then (if opProtected (leAt b 4 1) && d.protects t then none else some (ct, false))
  else
    let ks := d.fabKeys t
    let e := leAt b 28 4
    let k := streamKey (leAt b 2 2) (leAt b 6 1 % 16) (leAt b 6 1 / 16)
    let near := decide (e ≤ d.epoch + 1) && decide (d.epoch ≤ e + 1) && decide ((d.inn k).resetEpoch ≤ e)
    if !near then none
    else
      match (ks.cur.toList ++ ks.next.toList).findSome? fun x => openWith x.2 hdr tag ct integ with
      | some pt => some (pt, false)
      | none => (ks.prev.bind fun x => openWith x.2 hdr tag ct integ).map fun pt => (pt, true)

/-- The record of a packet dropped at check 4. -/
def Device.logFabric (d : Device) (sev op src : Nat) (tag : List Byte) : Device :=
  d.log { unit := unitNone, sev := sev, op := 0x15, detail := op + src <<< 16, ten := tagTen tag, cls := tagCls tag, mid := tagMid tag,
          client := tagClient tag, step := tagStep tag }

/-- Checks 1 to 4 of Table 10-6 (an isolated or unserviceable device drops FT1 to FT3, R399, Table 1-5) on a packet of any op but muster; every packet of ops 0x02–0x0C restarts the timeout clocks of requests to
its source (R320). -/
def Device.checkPkt (d : Device) (b : List Byte) : Device × Option Pkt :=
  let d := { d with fab := { d.fab with arrived := d.fab.arrived.erase b } }
  let tag := (b.drop 32).take 16
  let src := leAt b 2 2
  let op := leAt b 4 1
  if !d.framed b then (d.incSat FAB_XPORT_STAT.malformed 0 1, none)
  else if (d.isolated || d.unserviceable) && leAt b 6 1 / 16 ≠ 0 then (d, none)
  else if !tagOk tag then (d.badTag unitNone tag, none)
  else if !d.isMember src then (d.incSat FAB_XPORT_STAT.malformed 0 1, none)
  else
    match d.verifyPkt b with
    | none => (((d.incSat SEC_FAB_STAT.auth_fail 0 1).logFabric 0 op src tag), none)
    | some (pt, old) =>
      let d := if old then d.incSat SEC_FAB_STAT.prev_accept 0 1 else d
      let d := if decide (2 ≤ op) && decide (op ≤ 0x0C) then
          { d with fab := { d.fab with reqs := d.fab.reqs.map fun r => if r.dst = src then { r with clock := d.time } else r } }
        else d
      (d, some { src := src, op := op, path := leAt b 6 1 % 16, cls := leAt b 6 1 / 16, code := leAt b 7 1, seq := leAt b 8 4,
                 unit := leAt b 12 2, reqId := leAt b 14 2, ga := leAt b 16 8, len := leAt b 24 4, epoch := leAt b 28 4, tag := tag,
                 payload := pt })

/-! ### How a request ends at its requester -/

/-- Outcomes of Table 10-7. -/
inductive ReqEnd where
  | data (bs : List Byte)
  | failed (st detail : Nat)
  | lost
  deriving DecidableEq, Repr

/-- A leg of a request, while it still runs. -/
def Device.legOf (d : Device) (n serial : Nat) : Option Leg :=
  match (d.core n).leg with
  | some l => if l.serial = serial then some l else none
  | none => none

/-- Detail of a leg's failure: the leg index in its place of Table 4-14 (R121). -/
def withLeg (idx st detail : Nat) : Nat :=
  if st = stEcc then detail % 2 ^ 32 + idx <<< 32 else if st = stDenied then detail % 2 ^ 16 + idx <<< 16 else detail

/-- A remote operation of a leg ends: its data or old value is in place, its token set without a mark (R312), its failure noted for the
command while the leg runs on (R319). -/
def Device.endLegOp (d : Device) (r : Req) (n serial tok : Nat) (put : Device → Leg → Device × Leg) (fail : Option (Nat × Nat)) : Device :=
  match d.legOf n serial with
  | none => d
  | some l =>
    let d := match fail with
      | some (st, detail) => d.failRun r.sn st (withLeg l.idx st detail)
      | none => d
    let p := put d l
    let d := p.1.setCore n { p.1.core n with leg := some { p.2 with ops := p.2.ops - 1 } }
    d.setToken n serial tok false

/-- Status and detail of a request that ended without data: lost ones by Table 10-7. -/
def Req.failure (r : Req) : ReqEnd → Option (Nat × Nat)
  | .data _ => none
  | .failed st detail => some (st, detail)
  | .lost => if r.op = 5 && 0 < r.sent then some (stIndet, r.ga) else some (stTimeout, r.ga)

/-- A piece of a channel's chunk has its answer; when the chunk has all of its own, it lands (R279, R286, R313). -/
def Device.gotPiece (d : Device) (ch k off : Nat) (bs : List Byte) : Device :=
  match d.chan? ch with
  | none => d
  | some x =>
    let got := x.got ++ [(k, off, bs)]
    let d := d.setChan ch { x with got := got }
    if d.fab.reqs.any fun r => match r.who with
      | .chunk c j _ => c == ch && j == k
      | _ => false then d
    else
      match chunkOf x.chunk x.pieces k with
      | none => d
      | some (s, _, len) =>
        let mine := got.filter fun g => g.1 == k
        let data := if d.isLocal s then [] else mine.foldl (fun (acc : List Byte) g => acc.take g.2.1 ++ g.2.2 ++ acc.drop (g.2.1 + g.2.2.length))
          (List.replicate len 0)
        let d := d.setChan ch { x with got := got.filter fun g => g.1 != k }
        chunkLanded ch k data d

/-- What comes back for a request is kept for replay (kinds 0x04 and 0x06 of Table 13-3). -/
def Device.logAnswer (d : Device) (r : Req) : ReqEnd → Device
  | .data bs => if r.op = 1 then d.logRec (tagTen r.tag) 4 r.dst r.ga r.tag bs else if r.op = 5 then d.logRec (tagTen r.tag) 6 r.dst r.ga r.tag bs else d
  | .failed st _ => d.logRec (tagTen r.tag) 6 r.dst r.ga r.tag [BitVec.ofNat 8 st]
  | .lost => d

/-- A request of this device ends (Table 10-7). -/
def Device.endReq (d : Device) (r : Req) (o : ReqEnd) : Device :=
  let d := (d.dropReq r.id).logAnswer r o
  let fail := r.failure o
  let d := match o with
    | .lost =>
      let d := d.incSat FAB_RMT_STAT.timeouts 0 1
      if r.op = 5 && 0 < r.sent then
        let d := d.incSat FAB_RMT_STAT.indeterminate 0 1
        if d.isMember r.dst then d.logFabric 2 5 r.dst r.tag else d
      else d
    | _ => d
  let ones := fun n => List.replicate n (255 : Byte)
  let d := match r.who with
    | .rload n serial ts tok =>
      let bs := match o with
        | .data bs => bs.take r.len
        | _ => ones r.len
      d.endLegOp r n serial tok (fun d l => (match d.poisonWrite spTS (tsOff n ts) bs.length with
        | some d => d.store spTS (tsOff n ts) bs
        | none => d, l)) fail
    | .rstore n serial tok => d.endLegOp r n serial tok (fun d l => (d, l)) fail
    | .ratom n serial sd tok =>
      let v := match o with
        | .data bs => le (bs.take 8)
        | _ => 2 ^ 64 - 1
      d.endLegOp r n serial tok (fun d l => (d, { l with s := smSet l.s sd 0 v })) fail
    | .chunk ch k off =>
      (match fail with
       | some (st, detail) => d.failXfer ch st detail
       | none => d.gotPiece ch k off (match o with
         | .data bs => bs
         | _ => []))
    | .coll sn _ _ => d.collReqEnd sn fail
    | _ => d
  d.pumpOut r.stream

/-! ### At the target -/

/-- Bytes a request touches. -/
def TReq.size (t : TReq) : Nat := if t.op = 5 then (if t.code = 5 then 4 else 8) else t.len
def TReq.writes (t : TReq) : Bool := t.op == 3 || t.op == 5
def TReq.ten (t : TReq) : Nat := tagTen t.tag

/-- Physical 64-byte blocks of a request, by space and number (R321, R324). -/
def Device.blocksOf (d : Device) (t : TReq) : List (Nat × Nat) :=
  match d.locate t.ten t.ga t.writes with
  | some (l, _) => (List.range ((l.off + t.size - 1) / 64 + 1 - l.off / 64)).map fun i => (l.sp, l.off / 64 + i)
  | none => []

/-- Whether request t waits behind x: both are for one block (R324), or both come from one device in one class for one 256-byte line (R316). -/
def Device.behind (d : Device) (t x : TReq) : Bool :=
  (d.blocksOf t).any (d.blocksOf x).contains ||
  (x.src == t.src && x.cls == t.cls && decide (x.ga / 256 ≤ (t.ga + t.size - 1) / 256) && decide (t.ga / 256 ≤ (x.ga + x.size - 1) / 256))

/-- What the checks from row 7 on decide. -/
inductive Verdict where
  | run
  | hold
  | ask
  | fail
  deriving DecidableEq, Repr

/-- Checks 7 to 10 (Table 10-6). Space-8 accesses under ATS that miss ask the host once, and issue no Page Request (R317). A crossing's writes
meet Plain, Vacated or Arriving pages (R283). A chunk of a collective waits until this member's COLL runs; check 8 is not for it (R336). Everything waits
while the input log holds (R407). -/
def Device.targetCheck (d : Device) (t : TReq) : Verdict :=
  if t.op = 0x10 then
    match d.collOf t.ga with
    | some c => if d.logHolds t.ten || d.collHeld c t.src t.payload then .hold else .run
    | none => .hold
  else if d.logHolds t.ten then .hold
  else
  let ps := parts t.ga t.size
  let miss := gaSp t.ga == 8 && d.mm.ats.enabled.contains t.ten && (d.locate t.ten t.ga t.writes).isNone
  if miss then (if t.op == 5 then .fail
    else if d.mm.ats.reqs.any (fun r => r.fn == t.ten && r.page == gaOff t.ga / 4096) then .hold
    else if t.asked then .fail else .ask)
  else if !(ps.all fun p => (d.locate t.ten p.1 t.writes).isSome) then .fail
  else if t.op = 5 && gaSp t.ga = 8 then .fail
  else if t.writes && !d.regionOk t.ten t.ga t.size t.src then .fail
  else
    let cross := t.op == 3 && tagKind t.tag == 0
    let one (p : Nat × Nat) : Verdict :=
      match d.meet t.ten p.1 t.writes with
      | .proceeds _ _ => .run
      | .waits l => if cross && d.pageState l.page == pgArriving then .run else .hold
      | .faults =>
        match d.locate t.ten p.1 true with
        | some (l, _) => if cross && d.pageState l.page == pgVacated && !d.sealed l.page then .run else .fail
        | none => .fail
    if ps.any fun p => one p == .fail then .fail
    else if ps.any fun p => one p == .hold then .hold
    else .run

/-- Signed 64-bit order. -/
def sLess (a b : Nat) : Bool := decide (toSigned 64 a < toSigned 64 b)

/-- New value of an atomic (Table 10-8). -/
def atomicNew (code old v c : Nat) : Nat :=
  match code with
  | 0 => (old + v) % 2 ^ 64
  | 1 => if sLess v old then v else old
  | 2 => if sLess old v then v else old
  | 3 => v
  | 4 => if old = c then v else old
  | _ => (fAdd (old % 2 ^ 32) (v % 2 ^ 32)).val

/-- The receiver's grant for a stream rises by one for each request that leaves its intake (R306; how much intake space frees a grant is the
model's choice, log 38). -/
def Device.giveCredit (d : Device) (t : TReq) : Device :=
  let k := streamKey t.src t.path t.cls
  let s := d.inn k
  let d := d.setIn k { s with grant := s.grant + 1 }
  d.answer t.src 0x0C 0 0 0 0 0 t.ga 8 (mkTag t.ten (tagCls t.tag) 0 4 0 0) (toLE 1 t.path ++ toLE 1 t.cls ++ toLE 2 0 ++ toLE 4 ((s.grant + 1) % 2 ^ 32))

/-- The answer to a request of another device (R317, R322). An ERROR_RSP with ECC_UNCORR carries the reporting unit in its address field (R319;
the manual does not say where, log 37). -/
def Device.reply (d : Device) (t : TReq) (op code ga : Nat) (bs : List Byte) : Device :=
  let d := d.answer t.src op t.cls code t.seq t.unit t.reqId ga bs.length t.tag bs
  let d := if op = 6 || (op = 8 && t.op != 1) then
      let rest := d.fab.replies.filter fun r => !(r.src == t.src && r.unit == t.unit && r.reqId == t.reqId)
      let r : Reply := { src := t.src, unit := t.unit, reqId := t.reqId, seq := t.seq, op := op, code := code, value := bs }
      { d with fab := { d.fab with replies := rest ++ [r] } }
    else d
  d.giveCredit t

/-- The local request that a request of this device itself stands for (R314). -/
def Device.localReq (d : Device) (t : TReq) : Option Req :=
  d.fab.reqs.find? fun r => r.dst == d.devId && r.unit == t.unit && r.reqId == t.reqId

/-- A request is answered with data, or with an error. -/
def Device.respond (d : Device) (t : TReq) (op : Nat) (bs : List Byte) : Device :=
  if t.src = d.devId then
    match d.localReq t with
    | some r => d.endReq r (.data bs)
    | none => d
  else d.reply t op 0 t.ga bs

def Device.refuse (d : Device) (t : TReq) (st unit : Nat) : Device :=
  if t.src = d.devId then
    match d.localReq t with
    | some r => d.endReq r (.failed st (if st = stEcc then eccDetail 0xFFFF unit 0xFFFF else t.ga))
    | none => d
  else d.reply t 8 st (if st = stEcc then unit else t.ga) []

/-- Execution (check 11). An uncorrectable error is recorded at the target (Table 12-6). -/
def Device.execReq (d : Device) (t : TReq) : Device :=
  let bad (d : Device) (l : Loc) : Device :=
    let u := d.placeUnit l.sp l.off
    let d := d.uncorr u.1 u.2 { unit := 0, sev := 2, op := 0x02, ten := t.ten, cls := tagCls t.tag, client := tagClient t.tag, mid := tagMid t.tag, step := tagStep t.tag, addr := t.ga }
    d.refuse t stEcc u.1
  if t.op = 0x10 then
    match d.collOf t.ga with
    | none => d
    | some c =>
      let d := d.logRec t.ten 2 t.src 0 t.tag t.payload
      match d.collData c t.src t.payload with
      | (d, .done) => d.respond t 4 []
      | (d, .fault ga) => d.refuse { t with ga := ga } stFault 0
      | (d, .ecc l) => bad d l
      | (d, .refused) => d.refuse t stDenied 0
  else if t.op = 1 then
    match d.readGA t.ten t.ga t.len with
    | .ok bs => (d.touchTS t.ga t.len).respond t 2 bs
    | .poison l => bad d l
    | _ => d.refuse t stFault 0
  else if t.op = 3 then
    if tagKind t.tag = 0 then
      let ls := (parts t.ga t.len).filterMap fun p => (d.locate t.ten p.1 true).map fun l => (l, p)
      let d := ls.foldl (fun (d : Device) l =>
        let d := (d.setPage l.1.1.page pgArriving).writeLoc t.ten l.1.1 l.1.2 ((t.payload.drop (l.2.1 - t.ga)).take l.2.2)
        { d with fab := { d.fab with arriving := smIns d.fab.arriving l.1.1.page t.src } }) d
      d.respond t 4 []
    else
      let r := (d.logRec t.ten 2 t.src t.ga t.tag t.payload).writeGA t.ten t.ga t.payload .none
      match r.2 with
      | .ok => r.1.respond t 4 []
      | .poison l => bad r.1 l
      | _ => r.1.refuse t stFault 0
  else
    let n := t.size
    match d.readGA t.ten t.ga n with
    | .ok bs =>
      let old := le bs
      let new := atomicNew t.code old (leAt t.payload 0 8) (leAt t.payload 8 8)
      let d := d.logRec t.ten 5 t.src t.ga t.tag (toLE 2 t.unit ++ toLE 2 t.reqId ++ toLE 4 t.seq ++ toLE 8 old ++ toLE 8 new)
      (d.writeGA t.ten t.ga (toLE n new) .none).1.respond t 6 (toLE 8 old)
    | .poison l => bad d l
    | _ => d.refuse t stFault 0

/-- The request leaves the intake; its block is no longer hot once nothing waits for it (R324). -/
def Device.leaveIntake (d : Device) (t : TReq) : Device :=
  let rest := d.fab.intake.erase t
  let d := { d with fab := { d.fab with intake := rest } }
  let gone := (d.blocksOf t).filter fun b => !rest.any fun x => (d.blocksOf x).contains b
  { d with fab := { d.fab with hot := d.fab.hot.filter fun h => !gone.any fun b => cellAt b.1 (64 * b.2) == h } }

/-- A request waits at its block; the 256th makes the block hot (R324). -/
def Device.enterIntake (d : Device) (t : TReq) : Device :=
  let d := { d with fab := { d.fab with intake := d.fab.intake ++ [t] } }
  if d.fab.intake.length < 256 then d
  else
    (d.blocksOf t).foldl (fun d b =>
      let at_ := cellAt b.1 (64 * b.2)
      if !d.fab.hot.contains at_ && decide (256 ≤ (d.fab.intake.filter fun x => (d.blocksOf x).contains b).length) then
        let d := { d with fab := { d.fab with hot := at_ :: d.fab.hot } }
        (d.incSat FAB_RMT_STAT.hot_events 0 1).wr FAB_HOT_ADDR.block 0 (d.devId <<< 52 + b.1 <<< 48 + 64 * b.2)
      else d) d

/-- Whether an atomic must wait for a reply cache entry (R322). -/
def Device.cacheFull (d : Device) (t : TReq) : Bool := t.op == 5 && t.src != d.devId && decide (65536 ≤ d.fab.replies.length)

/-- An accepted request meets checks 7 to 11: executed when nothing older waits for its block, refused, or held (R317, R324). -/
def Device.serve (d : Device) (t : TReq) : Device :=
  let queued := d.fab.intake.any (d.behind t)
  match d.targetCheck t with
  | .fail => d.refuse t stFault 0
  | .ask =>
    let a := d.mm.ats
    let page := gaOff t.ga / 4096
    let q : AtsReq := ⟨t.ten, page, t.writes, chNone, false⟩
    let mm := { d.mm with ats := { a with reqs := a.reqs ++ [q] } }
    let d := { d with mm := mm, sent := .atsRequest t.ten page t.writes :: d.sent }
    d.enterIntake { t with asked := true }
  | .hold => d.enterIntake t
  | .run =>
    if d.cacheFull t then (d.incSat FAB_RMT_STAT.reply_full 0 1).enterIntake { t with counted := true }
    else if queued then d.enterIntake t
    else d.execReq t

/-- The serialiser takes waiting request k, when it is the oldest for its block and may run (R324). -/
def lineSerialiserAccess (k : Nat) (d : Device) : Device :=
  match d.fab.intake[k]? with
  | none => d
  | some t =>
    if (d.fab.intake.take k).any (d.behind t) then d
    else
      match d.targetCheck t with
      | .fail => (d.leaveIntake t).refuse t stFault 0
      | .run =>
        if d.cacheFull t then
          (if t.counted then d
           else { d.incSat FAB_RMT_STAT.reply_full 0 1 with fab := { d.fab with intake := d.fab.intake.set k { t with counted := true } } })
        else (d.leaveIntake t).execReq t
      | _ => d

/-- In Deep the always-on domain answers a sequenced request with UNSERVICEABLE on the keep-alive lane (R492). -/
def Device.deepAnswer (d : Device) (b : List Byte) : Device :=
  let tag := (b.drop 32).take 16
  let src := leAt b 2 2
  if !d.framed b || !tagOk tag || !d.isMember src then d
  else
    let hdr := pktHeader src d.devId 8 0 (leAt b 6 1 % 16) (leAt b 6 1 / 16) stUnserv (leAt b 8 4) (leAt b 12 2) (leAt b 14 2) (leAt b 16 8) 0 d.epoch
    { d with sent := .packet (d.rd PWR_STATE_CTL.deep_port 0) (hdr ++ tag ++ List.replicate 16 0) :: d.sent }

/-- A request packet of one op (checks 5 and 6 and R307, then `serve`). A collective chunk whose CRC fails is dropped before its number counts (R336). -/
def requestRx (op : Nat) (b : List Byte) (d : Device) : Device :=
  if leAt b 4 1 ≠ op then d
  else if d.rd PWR_STATE_STAT.state 0 = 2 then d.deepAnswer b
  else
    match d.checkPkt b with
    | (d, none) => d
    | (d, some p) =>
      if op = 0x10 && crc32c (p.payload.drop 16) ≠ leAt p.payload 4 4 then d.incSat COL_STAT.crc_drops 0 1
      else
      let k := streamKey p.src p.path p.cls
      let s := d.inn k
      let delta := (p.seq + 2 ^ 32 - s.expect % 2 ^ 32) % 2 ^ 32
      let t : TReq := { src := p.src, path := p.path, cls := p.cls, op := p.op, code := p.code, seq := p.seq, unit := p.unit, reqId := p.reqId,
                        ga := p.ga, len := p.len, tag := p.tag, payload := p.payload, arrived := d.time }
      let receipt (d : Device) : Device := d.answer p.src 0x09 0 0 p.seq p.unit p.reqId p.ga 0 p.tag []
      let run (d : Device) : Device := if d.on FAB_TEN_CFG.remote_en t.ten then d.serve t else d.refuse t stFault 0
      if delta = 0 then run (d.setIn k { s with expect := (s.expect + 1) % 2 ^ 32 })
      else if 2 ^ 31 ≤ delta then
        let d := d.incSat FAB_XPORT_STAT.duplicates 0 1
        let held := d.fab.intake.any fun x => x.src == p.src && x.unit == p.unit && x.reqId == p.reqId && x.seq == p.seq
        if op = 1 then run d
        else if held then receipt d
        else
          match d.fab.replies.find? fun r => r.src == p.src && r.unit == p.unit && r.reqId == p.reqId && r.seq == p.seq with
          | some r => d.answer p.src r.op p.cls r.code p.seq p.unit p.reqId p.ga r.value.length p.tag r.value
          | none => if op = 3 || op = 0x10 then d.answer p.src 4 p.cls 0 p.seq p.unit p.reqId p.ga 0 p.tag [] else d
      else
        let d := d.incSat FAB_XPORT_STAT.out_of_order 0 1
        let soon := match s.xnakAt with
          | some t0 => decide (d.cycle < t0 + 1800)
          | none => false
        if soon then d
        else (d.setIn k { s with xnakAt := some d.cycle }).answer p.src 0x0A 0 0 s.expect p.unit p.reqId p.ga 0 p.tag []

def readRx (b : List Byte) (d : Device) : Device := requestRx 1 b d
def writeRx (b : List Byte) (d : Device) : Device := requestRx 3 b d
def atomicRx (b : List Byte) (d : Device) : Device := requestRx 5 b d
def collDataRx (b : List Byte) (d : Device) : Device := requestRx 0x10 b d

/-! ### Issue -/

/-- The outcome of a request whose destination is no member when it is issued (R320). -/
def Device.issueLost (d : Device) (op dst unit ga len sn : Nat) (tag : List Byte) (who : ReqFor) : Device :=
  d.endReq { id := 0, op := op, dst := dst, path := 0, cls := 0, unit := unit, reqId := 0, ga := ga, len := len, tag := tag, payload := [],
             sn := sn, who := who } .lost

/-- Data that peers landed, applied in the log's order up to a record (R410); kind 0x05 records are atomics. -/
def Device.replayLandings (d : Device) (t order : Nat) : Device :=
  let l := d.inLog t
  let due := l.replay.filter fun r => (r.kind == 2 || r.kind == 5) && tagKind r.tag != 5 && decide (r.order < order)
  let d := d.setInLog t { l with replay := l.replay.filter fun r => !due.contains r }
  due.foldl (fun d r => (d.writeGA t r.addr (if r.kind = 5 then (r.payload.drop 16).take 8 else r.payload) .none).1) d

/-- A request under replay is not sent: the log holds its answer, or the command ends (R410). Writes have no record but an error's. -/
def Device.replayReq (d : Device) (r : Req) : Device :=
  let t := tagTen r.tag
  let kinds := if r.op = 1 then [4, 6] else [6]
  match d.takeReplay t fun x => kinds.contains x.kind && x.addr == r.ga && x.src == r.dst && (x.kind == 4 || r.op == 5 || x.payload.length == 1) with
  | some (x, d) =>
    let d := d.replayLandings t x.order
    if x.kind = 6 && x.payload.length = 1 then d.endReq r (.failed (leAt x.payload 0 1) r.ga) else d.endReq r (.data x.payload)
  | none => if r.op = 3 then d.endReq r (.data []) else d.endReq r (.failed stDenied (denied 0x0E 0x0B 0))

/-- A request is issued: to this device itself without the fabric (R314), to a member by a stream, else it ends at once (R320). Under replay the log
answers it. -/
def Device.issueAny (d : Device) (op cls unit ga len code sn : Nat) (tag payload : List Byte) (who : ReqFor) : Device :=
  let dst := gaDev ga
  if dst ≠ d.devId && d.replaying (tagTen tag) then
    d.replayReq { id := 0, op := op, dst := dst, path := 0, cls := cls, unit := unit, reqId := 0, ga := ga, len := len, tag := tag, payload := payload,
                  sn := sn, who := who, sent := 1 }
  else if dst = d.devId then
    let id := smGet d.fab.ids unit 0
    let r : Req := { id := d.fab.nextId, op := op, dst := dst, path := 0, cls := cls, unit := unit, reqId := id, ga := ga, len := len,
                     code := code, tag := tag, payload := payload, sn := sn, who := who, clock := d.time, sent := 1 }
    let fab := d.fab
    let d := { d with fab := { fab with reqs := fab.reqs ++ [r], nextId := fab.nextId + 1, ids := smSet fab.ids unit 0 ((id + 1) % 65536) } }
    d.serve { src := dst, path := 0, cls := cls, op := op, code := code, seq := 0, unit := unit, reqId := id, ga := ga, len := len, tag := tag,
              payload := payload, arrived := d.time }
  else if !d.isMember dst then d.issueLost op dst unit ga len sn tag who
  else d.issueReq op dst cls unit ga len code sn tag payload who

/-- What a leg's remote operation must keep (R311, R480): none, or the sub-code of reason 0x0E. -/
def Device.remoteOk (d : Device) (l : Leg) (ga len align : Nat) : Option Nat :=
  if len < 8 && align ≠ 4 || 4096 < len || (align ≠ 4 && len % 8 ≠ 0) || ga % align ≠ 0 || 4096 < ga % 4096 + len then some 0x06
  else if d.protects l.ten && (d.fabKeys l.ten).cur.isNone then some 0x0C
  else none

/-- Tag of a leg's remote operation. -/
def Leg.remoteTag (l : Leg) : List Byte := mkTag l.ten l.cls l.client 4 l.step l.mid

/-- Unanswered remote operations of a core stay at most 256; atomics of a unit at most 1,024 (R312, R322). -/
def remoteIssue (n : Nat) (op ga len code : Nat) (payload : List Byte) (who : Leg → ReqFor) (d : Device) (l : Leg) : LegRes :=
  let l := { l with ops := l.ops + 1 }
  let d := d.setCore n { d.core n with leg := some l }
  let d := d.issueAny op (ftClass l.cls) (d.coreUnit n) ga len code l.sn l.remoteTag payload (who l)
  .go d ((d.core n).leg.getD l)

/-- RLOAD ts, gaddr, len, tok (R311). -/
def rloadOp (n ts ga len tok : Nat) (d : Device) (l : Leg) : Option LegRes :=
  match d.remoteOk l ga len 8 with
  | some sub => some (.stop d l stDenied sub 0)
  | none =>
    if !d.ownsRange n l.ten ts len then some (.stop d l stDenied 0x06 0)
    else if 256 ≤ l.ops then none
    else some (remoteIssue n 1 ga len 0 [] (fun l => .rload n l.serial ts tok) d l)

def rload (n ts ga len tok : Nat) (d : Device) : Device := d.seqStall n [scLoad, ts, ga, len, tok] (rloadOp n ts ga len tok)

/-- RSTORE gaddr, ts, len, tok (R311). -/
def rstoreOp (n ga ts len tok : Nat) (d : Device) (l : Leg) : Option LegRes :=
  match d.remoteOk l ga len 8 with
  | some sub => some (.stop d l stDenied sub 0)
  | none =>
    if !d.ownsRange n l.ten ts len then some (.stop d l stDenied 0x06 0)
    else if 256 ≤ l.ops then none
    else some (d.tsRead n l ts len fun bs => remoteIssue n 3 ga len 0 bs (fun l => .rstore n l.serial tok) d l)

def rstore (n ga ts len tok : Nat) (d : Device) : Device := d.seqStall n [scStore, ga, ts, len, tok] (rstoreOp n ga ts len tok)

/-- RATOM op, gaddr, sv, sc, sd, tok (R311, R321): operands from scalar registers. -/
def ratomOp (n op ga sv sc sd tok : Nat) (d : Device) (l : Leg) : Option LegRes :=
  let align := if op = 5 then 4 else 8
  match d.remoteOk l ga align align with
  | some sub => some (.stop d l stDenied sub 0)
  | none =>
    if 6 ≤ op || gaSp ga = 8 then some (.stop d l stDenied 0x06 0)
    else if op = 5 && d.fixedOrder l.ten then some (.stop d l stDenied 0x07 0)
    else if 256 ≤ l.ops then none
    else some (remoteIssue n 5 ga 16 op (toLE 8 (smGet l.s sv 0) ++ toLE 8 (smGet l.s sc 0)) (fun l => .ratom n l.serial sd tok) d l)

def ratom (n op ga sv sc sd tok : Nat) (d : Device) : Device := d.seqStall n [scAtomic, op, ga, sv, sc, sd, tok] (ratomOp n op ga sv sc sd tok)

/-- Pieces of a range that stay within 4 KiB (R313). -/
def split4k : Nat → Nat → Nat → List (Nat × Nat)
  | 0, _, _ => []
  | n + 1, ga, len =>
    if len = 0 then []
    else
      let k := min (4096 - ga % 4096) len
      (ga, k) :: split4k n (ga + k) (len - k)

/-- Requests of a channel's chunks that touch a peer: reads of a remote source, writes of a remote destination (R283, R313). -/
def askChunk (ch k : Nat) (x : Xfer) (d : Device) : Device :=
  match chunkOf x.chunk x.pieces k with
  | none => d
  | some (s, dst, len) =>
    let tag := mkTag x.ten x.cls x.client (if x.kind = 1 then 1 else 0) x.step x.mid
    if !d.isLocal s then
      (split4k (len / 4096 + 2) s len).foldl (fun d p =>
        if (d.chan? ch).isNone then d
        else d.issueAny 1 (ftClass x.cls) (chanUnit ch) p.1 p.2 0 x.sn tag [] (.chunk ch k (p.1 - s))) d
    else
      match d.chunkRead x s len [] with
      | none => d
      | some bs =>
        (split4k (len / 4096 + 2) dst len).foldl (fun d p =>
          if (d.chan? ch).isNone then d
          else d.issueAny 3 (ftClass x.cls) (chanUnit ch) p.1 p.2 0 x.sn tag ((bs.drop (p.1 - dst)).take p.2) (.chunk ch k (p.1 - dst))) d

/-- Chunks issued and not yet asked for, over every channel. -/
def askLoop : Nat → Nat → Device → Device
  | 0, _, d => d
  | n + 1, ch, d =>
    match d.chan? ch with
    | none => d
    | some x =>
      if x.issued ≤ x.asked then d
      else
        let k := x.asked
        let d := d.setChan ch { x with asked := k + 1 }
        let far := match chunkOf x.chunk x.pieces k with
          | some (s, dst, _) => !d.isLocal s || (x.kind != 2 && !d.isLocal dst)
          | none => false
        askLoop n ch (if far then askChunk ch k x d else d)

def Device.askRemote (d : Device) : Device := (d.mm.chans.map fun c => c.1).foldl (fun d ch => askLoop 17 ch d) d

/-! ### Answers and transport control at the requester -/

/-- The unanswered request that an answer names. -/
def Device.reqOf (d : Device) (p : Pkt) : Option Req :=
  d.fab.reqs.find? fun r => r.dst == p.src && r.unit == p.unit && r.reqId == p.reqId && r.seq == some p.seq

/-- An answer of one op, for requests of given ops. -/
def answerRx (op : Nat) (ops : List Nat) (b : List Byte) (f : Device → Pkt → Req → Device) (d : Device) : Device :=
  if leAt b 4 1 ≠ op then d
  else
    match d.checkPkt b with
    | (d, none) => d
    | (d, some p) =>
      match d.reqOf p with
      | some r => if ops.contains r.op then f d p r else d
      | none => d

/-- REPLY_ACK to a target (R322). -/
def Device.replyAck (d : Device) (p : Pkt) : Device := d.answer p.src 0x07 0 0 p.seq p.unit p.reqId p.ga 0 p.tag []

def readRspRx (b : List Byte) (d : Device) : Device := (answerRx 2 [1] b (fun d p r => d.endReq r (.data p.payload)) d).askRemote
def writeAckRx (b : List Byte) (d : Device) : Device := (answerRx 4 [3, 0x10] b (fun d _ r => d.endReq r (.data [])) d).askRemote
def atomicRspRx (b : List Byte) (d : Device) : Device := answerRx 6 [5] b (fun d p r => (d.replyAck p).endReq r (.data p.payload)) d

/-- ERROR_RSP: the request fails with its status; every one is acknowledged (R319, R322). -/
def errorRspRx (b : List Byte) (d : Device) : Device :=
  answerRx 8 [1, 3, 5, 0x10] b (fun d p r =>
    (d.replyAck p).endReq r (.failed p.code (if p.code = stEcc then eccDetail 0xFFFF (p.ga % 65536) 0xFFFF else r.ga))) d

/-- RECEIPT: the resend interval doubles, up to its limit (R308). -/
def receiptRx (b : List Byte) (d : Device) : Device :=
  answerRx 9 [1, 3, 5, 0x10] b (fun d _ r => d.setReq { r with interval := min (2 * r.interval) (min (64 * r.base) (r.limit / 2)) }) d

/-- XNAK: every unanswered request of the stream from E onward goes out again (R308). The request it names tells the stream. -/
def xnakRx (b : List Byte) (d : Device) : Device :=
  if leAt b 4 1 ≠ 0x0A then d
  else
    match d.checkPkt b with
    | (d, none) => d
    | (d, some p) =>
      match d.fab.reqs.find? fun r => r.dst == p.src && r.unit == p.unit && r.reqId == p.reqId with
      | none => d
      | some x =>
        (d.fab.reqs.filter fun r => r.stream == x.stream && (match r.seq with
          | some s => decide ((s + 2 ^ 32 - p.seq) % 2 ^ 32 < 2 ^ 31)
          | none => false)).foldl (fun d r => d.transmit r) d

/-- HOLD: nothing but the clocks (R320). -/
def holdRx (b : List Byte) (d : Device) : Device := if leAt b 4 1 ≠ 0x0B then d else (d.checkPkt b).1

/-- CREDIT raises a stream's grant, modulo 2^32 (R306); its payload holds path, class and G (log 37). -/
def creditRx (b : List Byte) (d : Device) : Device :=
  if leAt b 4 1 ≠ 0x0C then d
  else
    match d.checkPkt b with
    | (d, none) => d
    | (d, some p) =>
      let k := streamKey p.src (leAt p.payload 0 1 % 16) (leAt p.payload 1 1 % 4)
      let s := d.out k
      let up := (leAt p.payload 4 4 + 2 ^ 32 - s.grant % 2 ^ 32) % 2 ^ 32
      (d.setOut k { s with grant := if up < 2 ^ 31 then s.grant + up else s.grant }).pumpOut k

/-- REPLY_ACK frees its reply cache entry (R322). -/
def replyAckRx (b : List Byte) (d : Device) : Device :=
  if leAt b 4 1 ≠ 0x07 then d
  else
    match d.checkPkt b with
    | (d, none) => d
    | (d, some p) =>
      { d with fab := { d.fab with replies := d.fab.replies.filter fun r => !(r.src == p.src && r.unit == p.unit && r.reqId == p.reqId && r.seq == p.seq) } }

/-- An entry is freed 20 ms after its answer (R322). -/
def replyCacheExpiry (k : Nat) (d : Device) : Device := { d with fab := { d.fab with replies := d.fab.replies.eraseIdx k } }

/-- The resend interval of unanswered request k has passed (R308). -/
def resendTimeout (k : Nat) (d : Device) : Device :=
  match d.fab.reqs[k]? with
  | some r => if r.seq.isSome && r.dst != d.devId then d.transmit r else d
  | none => d

/-- The timeout clock of request k has run out (R320). -/
def remoteRequestTimeout (k : Nat) (d : Device) : Device :=
  match d.fab.reqs[k]? with
  | some r => if r.dst = d.devId then d else (d.endReq r .lost).askRemote
  | none => d

/-- Every request to a device that has left ends at once (R320). -/
def Device.endRequestsTo (d : Device) (dev : Nat) : Device :=
  (d.fab.reqs.filter fun r => r.dst == dev && r.dst != d.devId).foldl (fun d r =>
    if d.fab.reqs.any fun x => x.id == r.id then d.endReq r .lost else d) d

/-- A request that waits at this device gets a RECEIPT (R318). -/
def receiptTimer (k : Nat) (d : Device) : Device :=
  match d.fab.intake[k]? with
  | none => d
  | some t =>
    if t.receipt || t.src = d.devId then d
    else
      let d := { d with fab := { d.fab with intake := d.fab.intake.set k { t with receipt := true } } }
      d.answer t.src 0x09 0 0 t.seq t.unit t.reqId t.ga 0 t.tag []

/-- Every 4 µs: HOLD to each source with requests held here (R318). -/
def holdTick (d : Device) : Device :=
  ((d.fab.intake.map fun t => t.src).eraseDups.filter fun s => s != d.devId).foldl (fun d s =>
    d.answer s 0x0B 0 0 0 0 0 0 0 (mkTag 0 1 0 4 0 0) []) d

/-! ### Peer crossings -/

/-- PREPARE at the peer: its pages stay Arriving, and it acknowledges (R283, R327). -/
def prepareRx (b : List Byte) (d : Device) : Device :=
  if leAt b 4 1 ≠ 0x20 then d
  else
    match d.checkPkt b with
    | (d, none) => d
    | (d, some p) => d.answer p.src 0x21 0 0 0 p.unit 0 p.ga 16 p.tag p.payload

/-- The crossing whose flip a packet of its peer names. -/
def Device.flipOf (d : Device) (p : Pkt) (phase : Nat) : Option PeerFlip :=
  d.fab.flips.find? fun f => f.dst == p.src && f.first == leAt p.payload 0 8 && f.len == leAt p.payload 8 8 && f.phase == phase

/-- PREPARE_ACK: the crossing may flip; OPEN follows its flip (R283). -/
def prepareAckRx (b : List Byte) (d : Device) : Device :=
  if leAt b 4 1 ≠ 0x21 then d
  else
    match d.checkPkt b with
    | (d, none) => d
    | (d, some p) =>
      match d.flipOf p 0 with
      | none => d
      | some f =>
        match d.chan? f.ch with
        | some x => d.setChan f.ch { x with peerPhase := 2 }
        | none => d

/-- OPEN at the peer: the pages become Landed, and what was held for them may go on (R283). -/
def openRx (b : List Byte) (d : Device) : Device :=
  if leAt b 4 1 ≠ 0x22 then d
  else
    match d.checkPkt b with
    | (d, none) => d
    | (d, some p) =>
      let ps := (parts (leAt p.payload 0 8) (leAt p.payload 8 8)).filterMap fun q => (d.locate (tagTen p.tag) q.1 false).map fun l => l.1.page
      let ps := ps.filter fun q => d.pageState q == pgArriving && smGet d.fab.arriving q 4096 == p.src
      let d := d.setPages ps pgLanded
      let d := { d with fab := { d.fab with arriving := d.fab.arriving.filter fun a => !ps.contains a.1 } }
      (d.releaseHeld chNone id).answer p.src 0x23 0 0 0 p.unit 0 p.ga 16 p.tag p.payload

/-- OPEN_ACK ends the peer crossing's flip (R327). -/
def openAckRx (b : List Byte) (d : Device) : Device :=
  if leAt b 4 1 ≠ 0x23 then d
  else
    match d.checkPkt b with
    | (d, none) => d
    | (d, some p) =>
      match d.flipOf p 1 with
      | some f => { d with fab := { d.fab with flips := d.fab.flips.erase f } }
      | none => d

/-- Every retry_us PREPARE or OPEN goes out again; OPEN until the peer leaves the membership (R327). -/
def peerFlipResend (k : Nat) (d : Device) : Device :=
  match d.fab.flips[k]? with
  | none => d
  | some f =>
    if f.phase = 1 && !d.isMember f.dst then { d with fab := { d.fab with flips := d.fab.flips.eraseIdx k } }
    else d.sendFlip f

/-- No PREPARE_ACK within timeout_us: the crossing aborts with REMOTE_TIMEOUT (R327). -/
def prepareTimeout (k : Nat) (d : Device) : Device :=
  match d.fab.flips[k]? with
  | none => d
  | some f =>
    if f.phase ≠ 0 then d
    else
      let d := { d with fab := { d.fab with flips := d.fab.flips.eraseIdx k } }
      match d.chan? f.ch with
      | some x => if x.peerPhase = 2 then d else d.failXfer f.ch stTimeout f.first
      | none => d

end Sys2Proof.Machine
end

