-- ==== Sys2Proof/Machine/Coll.lean ====
section
/-! DEFINITION. COLL commands and the switch handshake of a reduction (R329–R350, R410, R481). -/

namespace Sys2Proof.Machine

/-- Everything a COLL sends, read and checked (R330). -/
def Device.collSends (d : Device) (t : Nat) (b : List Byte) (devs : List Nat) (rank : Nat) : Prep (List Send) :=
  let n := devs.length
  match cdKind b with
  | 1 => (d.fetch t (cdSrc b) (cdLen b)).bind fun bs => .ok (chunksOf ((rank + cdDist b) % n) false 0 bs)
  | 2 => d.permuteSends t b n
  | 3 => (d.blockAt t (cdSrc b)).bind fun x => d.dispatchSends t x devs
  | 4 => (d.blockAt t (cdSrc b)).bind fun x => d.returnSends t x n
  | _ => (d.fetch t (cdSrc b) 0).bind fun _ => .ok []

/-- A COLL's own state and its sends, or why it does not run. -/
def Device.collPrep (d : Device) (t : Nat) (e : List Byte) (sn : Nat) : Prep (Coll × List Send) :=
  let b := e.drop 28
  if !d.cdOk b then .deny 0x08
  else if d.protects t && (d.fabKeys t).cur.isNone then .deny 0x0C
  else
    (d.groupOf t b).bind fun g =>
      let rank := leAt g.1 4 2
      (d.collSends t b g.2 rank).bind fun xs =>
        .ok ({ sn := sn, ten := t, cls := eClass e, client := eClient e, step := d.cmdStep t (eClass e), kind := cdKind b, desc := b, gid := leAt g.1 0 2,
               seq := leAt g.1 8 4, rank := rank, devs := g.2, fixed := d.fixedOrder t }, xs)

/-- Whether a COLL may start now (R293, R332): what it reads is there, fewer than 64 run, and none of its group. -/
def Device.collReady (d : Device) (t : Nat) (e : List Byte) : Bool :=
  match d.collPrep t e 0 with
  | .waits => false
  | .ok (c, _) => decide (d.colls.length < 64) && !(d.colls.any fun x => x.gid == c.gid)
  | _ => true

/-- What a member sends to its own rank lands without the fabric (R314, R339). -/
def Device.ownSends (d : Device) (sn : Nat) (xs : List Send) : Device :=
  xs.foldl (fun d s =>
    match d.coll? sn with
    | none => d
    | some c =>
      match d.takeChunk c c.rank s.idx s.count s.data with
      | (d, .fault ga) => d.failColl c stFault ga
      | (d, _) => d) d

/-- A reduction begins: RED_OPEN, or the ring where a protected tenancy keeps its contributions from the switch (R344, R481). -/
def Device.startReduce (d : Device) (sn : Nat) : Device :=
  match d.coll? sn with
  | none => d
  | some c =>
    if d.protects c.ten && !d.on SEC_TEN_CFG.reduce_clear c.ten then
      if cdFallback c.desc then (d.incSat COL_STAT.fallbacks 0 1).ringStart sn else d.endColl c stDeclined 0
    else
      let d := d.setColl { c with phase := 0, heard := d.time }
      d.toSwitch c 0x11 0 (c.header 0 0 c.chunks [])

/-- Under replay a collective takes what it landed from the log (R410). -/
def replayColl : Nat → Nat → Device → Device
  | 0, _, d => d
  | n + 1, sn, d =>
    match d.coll? sn with
    | none => d
    | some c =>
      match d.takeReplay c.ten fun r => (r.kind == 2 || r.kind == 3) && tagKind r.tag == 5 with
      | none => d.endColl c stDenied (denied 0x0E 0x0B 0)
      | some (r, d) =>
        let d := d.replayLandings c.ten r.order
        let d :=
          if r.kind = 3 then
            let d := (d.landResult c (leAt r.payload 0 4) (r.payload.drop 16)).1
            match d.coll? sn with
            | some c => if c.resultsIn then d.endColl c stOk 0 else d
            | none => d
          else if c.kind = 5 then
            let h := r.payload
            if c.place (leAt h 0 4) ≠ 0 && c.place (leAt h 0 4) + 1 ≠ c.n && !c.got.contains (1, leAt h 0 4) then
              d.setColl { c with got := (1, leAt h 0 4) :: c.got }
            else if bit (leAt h 10 1) 2 then d
            else
              let d := match d.ownChunk c (leAt h 0 4) with
                | .ok own =>
                  if c.place (leAt h 0 4) + 1 = c.n then
                    let ty := cdType c.desc
                    (d.landResult c (leAt h 0 4) (sumBytes ty (addElems ty (elems (if ty = 1 then 0 else ty) (h.drop 16)) own))).1
                  else (d.landResult c (leAt h 0 4) (h.drop 16)).1
                | _ => d
              match d.coll? sn with
              | some c => if c.resultsIn then d.endColl c stOk 0 else d
              | none => d
          else (d.collData c r.src r.payload).1
        replayColl n sn d

/-- A COLL that has passed its checks runs (R332): the group's number is taken, and its chunks go out. -/
def Device.runColl (d : Device) (c : Coll) (xs : List Send) : Device :=
  let d := (d.writeGA c.ten (cdGroup c.desc + 8) (toLE 4 ((c.seq + 1) % 2 ^ 32)) .none).1
  let colls := d.colls ++ [c]
  let d := { d with colls := colls }.wr COL_INFLIGHT.count 0 colls.length
  let d := d.ownSends c.sn (xs.filter fun s => s.rank == c.rank)
  if d.replaying c.ten then
    replayColl ((d.inLog c.ten).replay.length + 1) c.sn (if c.kind = 5 then d else d.tryEndColl c.sn)
  else if c.kind = 5 then d.startReduce c.sn
  else
    let d := (xs.filter fun s => s.rank != c.rank).foldl (fun d s => d.sendChunk c.sn s 0) d
    d.tryEndColl c.sn

/-- COLL (R330): a bad descriptor, group table or dispatch block sends nothing. -/
def collEffect (d : Device) (c : Cmd) : Device :=
  match d.markEnd c.ten with
  | some (st, detail) => d.finish c.sn st detail none
  | none =>
    match d.collPrep c.ten c.entry c.sn with
    | .ok (x, xs) => d.runColl x xs
    | .bad st detail => d.finish c.sn st detail none
    | .ecc l =>
      let u := d.placeUnit l.sp l.off
      let idx := d.nextRec
      let d := d.uncorr u.1 u.2 { unit := 0, sev := 2, op := 0x02, ten := c.ten, cls := eClass c.entry, client := eClient c.entry }
      d.finish c.sn stEcc (eccDetail idx u.1 0xFFFF) none
    | .waits => d

/-- A COLL of one kind at the front of its queue starts. Kinds that are none of Table 11-1 are refused with the first. -/
def collCmd (kind q : Nat) (d : Device) : Device :=
  let mine (e : List Byte) : Bool := leAt e 28 1 == kind || (kind == 1 && (leAt e 28 1 == 0 || decide (5 < leAt e 28 1)))
  d.begin q 0x03 (fun e => mine e && d.collReady (d.qTen q) e) collEffect

def collShift (q : Nat) (d : Device) : Device := collCmd 1 q d
def collPermute (q : Nat) (d : Device) : Device := collCmd 2 q d
def collDispatch (q : Nat) (d : Device) : Device := collCmd 3 q d
def collReturn (q : Nat) (d : Device) : Device := collCmd 4 q d
def collReduce (q : Nat) (d : Device) : Device := collCmd 5 q d

/-! ### The switch -/

/-- A packet of the switch for a reduction of this device that is in its hands. -/
def redRx (op : Nat) (b : List Byte) (f : Device → Coll → Pkt → Device) (d : Device) : Device :=
  if leAt b 4 1 ≠ op then d
  else
    match d.checkPkt b with
    | (d, none) => d
    | (d, some p) =>
      match d.collOf p.ga with
      | some c =>
        if c.kind = 5 && decide (c.phase ≤ 2) then
          let c := { c with heard := d.time }
          f (d.setColl c) c p
        else d
      | none => d

/-- Contributions go out while chunk i − w has its result (R345). -/
def sendContrib : Nat → Nat → Device → Device
  | 0, _, d => d
  | n + 1, sn, d =>
    match d.coll? sn with
    | none => d
    | some c =>
      let i := c.sent
      if c.phase ≠ 1 || decide (c.chunks ≤ i) || !(decide (i < c.window) || c.landed.contains (i - c.window)) then d
      else
        match d.fetch c.ten (cdSrc c.desc + 4096 * i) (c.chunkLen i) with
        | .ok data =>
          let c := { c with sent := i + 1 }
          sendContrib n sn ((d.setColl c).toSwitch c 0x14 i (c.header i 0 (cdLen c.desc) data ++ data))
        | .bad st detail => d.failColl c st detail
        | .ecc _ => d.collRead c (d.ownChunk c i) fun d _ => d
        | .waits => d

/-- Every reduction sends what it may, once what held its contribution has ended. -/
def Device.pumpColls (d : Device) : Device :=
  (d.colls.filter fun c => c.kind == 5).foldl (fun d c => ringPump (c.chunks + 1) c.sn (sendContrib (c.chunks + 1) c.sn d)) d

/-- RED_GRANT: the window, and the first contributions (R345). -/
def redGrantRx (b : List Byte) (d : Device) : Device :=
  redRx 0x12 b (fun d c p =>
    if c.phase ≠ 0 then d
    else sendContrib (c.chunks + 1) c.sn (d.setColl { c with phase := 1, window := clampN 1 64 (leAt p.payload 0 1) })) d

/-- RED_DECLINED: the ring, or REDUCE_DECLINED (R348). -/
def redDeclinedRx (b : List Byte) (d : Device) : Device :=
  redRx 0x13 b (fun d c _ =>
    if c.phase ≠ 0 then d
    else
      let d := d.incSat COL_STAT.declines 0 1
      if cdFallback c.desc then (d.incSat COL_STAT.fallbacks 0 1).ringStart c.sn else d.endColl c stDeclined 0) d

/-- After the last result a member sends its verdict (R346). -/
def Device.closeReduce (d : Device) (sn : Nat) : Device :=
  match d.coll? sn with
  | none => d
  | some c =>
    if c.phase = 1 && c.resultsIn then
      let c := { c with phase := 2 }
      (d.setColl c).toSwitch c 0x16 0 [BitVec.ofNat 8 (b2n c.suspect)]
    else sendContrib (c.chunks + 1) sn d

/-- RED_RESULT: it lands, or is suspect; values and mode must agree (R333, R345, R351, R422). -/
def redResultRx (b : List Byte) (d : Device) : Device :=
  redRx 0x15 b (fun d c p =>
    let h := p.payload.take 16
    let data := p.payload.drop 16
    let i := leAt h 0 4
    if c.phase ≠ 1 || c.landed.contains i || decide (c.chunks ≤ i) || data.length ≠ c.chunkLen i then d
    else if crc32c data ≠ leAt h 4 4 then
      let d := d.incSat COL_STAT.suspects 0 1
      let c := { c with landed := i :: c.landed, suspect := true, finder := some d.devId }
      let d := d.log { unit := collUnit, sev := 2, op := 0x17, detail := c.suspectDetail d.devId, ten := c.ten, cls := c.cls, client := c.client, step := c.step, addr := i }
      (d.setColl c).closeReduce c.sn
    else if !c.agrees h || (c.fixed && !bit (leAt h 10 1) 0) then
      (d.logUncoded collUnit c.ten (c.suspectDetail 0)).failColl c stDenied (denied 0x0E 0x09 0)
    else
      let d := d.logRec c.ten 3 p.src (cdDst c.desc + 4096 * i) p.tag p.payload
      match d.landResult c i data with
      | (d, .fault ga) => d.failColl c stFault ga
      | (d, .ecc l) =>
        let u := d.placeUnit l.sp l.off
        let idx := d.nextRec
        (d.uncorr u.1 u.2 { unit := 0, sev := 2, op := 0x02, ten := c.ten, cls := c.cls }).failColl c stEcc (eccDetail idx u.1 0xFFFF)
      | (d, _) => d.closeReduce c.sn) d

/-- RED_DONE (the switch's op 0x16) ends the reduction with the group's verdict (R346, R351). -/
def redDoneRx (b : List Byte) (d : Device) : Device :=
  redRx 0x16 b (fun d c p => if c.phase = 2 then d.verdict c (leAt p.payload 0 1 != 0) else d) d

/-- RED_WAIT restarts the timeout, which `redRx` has done (R347). -/
def redWaitRx (b : List Byte) (d : Device) : Device :=
  if leAt b 48 1 ≠ 0 then d else redRx 0x17 b (fun d _ _ => d) d

/-- RED_ABORT ends the COLL with REMOTE_TIMEOUT (R337, R347). -/
def redAbortRx (b : List Byte) (d : Device) : Device :=
  if leAt b 48 1 ≠ 1 then d else redRx 0x17 b (fun d c _ => d.endColl c stTimeout (cdGroup c.desc)) d

/-- No answer to RED_OPEN (R344). -/
def redOpenTimeout (k : Nat) (d : Device) : Device :=
  match d.colls[k]? with
  | some c => if c.kind = 5 && c.phase = 0 then d.failColl c stTimeout (cdGroup c.desc) else d
  | none => d

/-- Nothing from the switch within timeout_us (R347). -/
def redWaitTimeout (k : Nat) (d : Device) : Device :=
  match d.colls[k]? with
  | some c => if c.kind = 5 && (c.phase = 1 || c.phase = 2) then d.failColl c stTimeout (cdGroup c.desc) else d
  | none => d

end Sys2Proof.Machine
end

