-- ==== Sys2Proof/Machine/Ftp.lean ====
section
/-! DEFINITION. Membership of the system: joining, heartbeats and suspicion, managers, epochs, isolation, re-homing (R389–R399, R405, R408, R413–R416). -/

namespace Sys2Proof.Machine

/-! ### Spans and roles -/

/-- Insertion into an ascending list. -/
def insNat (x : Nat) : List Nat → List Nat
  | [] => [x]
  | y :: ys => if y < x then y :: insNat x ys else x :: y :: ys
def sortNat (xs : List Nat) : List Nat := xs.foldr insNat []

def spanOf (dev : Nat) : Nat := dev / 256

/-- Eligible members of a span in rank order, of some members and the capable among them (R390). -/
def rankOrder (members capable : List Nat) (s : Nat) : List Nat := sortNat (members.filter fun m => spanOf m == s && capable.contains m)

/-- Span managers in order of their spans. -/
def managers (members capable : List Nat) : List Nat := (List.range 16).filterMap fun s => (rankOrder members capable s).head?

/-- This device's roles, as FTP_MGR and FTP_STAT show them. -/
def Device.isMemberNow (d : Device) : Bool := d.rd FTP_STAT.state 0 == 2
def Device.isSpanMgr (d : Device) : Bool := d.on FTP_MGR.valid 0 && d.rd FTP_MGR.span_manager 0 == d.devId
def Device.isSysMgr (d : Device) : Bool := d.on FTP_STAT.sys_manager 0
def Device.spanMembers (d : Device) : List Nat := d.fab.members.filter fun m => spanOf m == spanOf d.devId

/-- Roles computed from the membership of the current epoch (R390). -/
def Device.showRoles (d : Device) : Device :=
  let el := rankOrder d.fab.members d.ftp.capable (spanOf d.devId)
  let ms := managers d.fab.members d.ftp.capable
  let sys := ms.getD 0 0
  let d := (((d.wr FTP_MGR.span_manager 0 (el.getD 0 0)).wr FTP_MGR.span_deputy 0 (el.getD 1 0)).wr FTP_MGR.sys_manager 0 sys).wr FTP_MGR.sys_deputy 0 (ms.getD 1 0)
  let d := d.wr FTP_MGR.valid 0 (b2n (d.isMemberNow && !el.isEmpty))
  let d := d.wr FTP_STAT.rank 0 ((findIdxFrom (fun x => x == d.devId) el 0).getD 0xFF)
  let d := d.wr FTP_STAT.span_members 0 d.spanMembers.length
  let mine := d.isMemberNow && ms.contains d.devId
  (d.wr FTP_STAT.sys_manager 0 (b2n (mine && sys == d.devId))).wr FTP_STAT.sys_deputy 0 (b2n (mine && decide (2 ≤ ms.length) && ms.getD 1 0 == d.devId))

/-! ### Muster packets -/

/-- Operations of Table 13-1. -/
def muHeartbeat : Nat := 0x30
def muBeacon : Nat := 0x31
def muProbe : Nat := 0x32
def muProbeAck : Nat := 0x33
def muRemove : Nat := 0x34
def muEpoch : Nat := 0x35
def muEpochAck : Nat := 0x36
def muJoin : Nat := 0x37
def muLeave : Nat := 0x38
def muIsolate : Nat := 0x39

/-- A muster packet leaves on the port of the target's path index, or in Deep on the keep-alive lane's port (R392, R492). -/
def Device.muster (d : Device) (dst op : Nat) (m : Muster) : Device :=
  if dst = d.devId then d
  else
    let port := if d.rd PWR_STATE_STAT.state 0 = 2 then d.rd PWR_STATE_CTL.deep_port 0 else d.pathPort (dst % 16)
    { d with sent := .muster port dst op m :: d.sent }

/-- PROBE goes out on every up port (Table 13-1). -/
def Device.probe (d : Device) (dst : Nat) : Device :=
  ((List.range 16).filter d.portUp).foldl (fun (d : Device) p => { d with sent := .muster p dst muProbe {} :: d.sent }) d

/-! ### Joining and leaving -/

/-- JOIN starts once enable and the lock are both 1 (R391); a removed device stays so until enable has been written 0. -/
def Device.tryJoin (d : Device) : Device :=
  if !d.on FTP_CFG.enable 0 || d.rd FTP_STAT.state 0 ≠ 0 then d
  else if !d.on FAB_DEV_CFG.lock 0 then d.wr FTP_STAT.join_err 0 3
  else (d.wr FTP_STAT.join_err 0 0).wr FTP_STAT.state 0 1

/-- Requests to every peer end, and collectives with them (R320, R337). -/
def Device.cutOff (d : Device) : Device :=
  let peers := ((d.fab.reqs.map fun r => r.dst).eraseDups).filter fun p => p != d.devId
  let d := peers.foldl (fun d p => d.endRequestsTo p) d
  (d.colls.map fun c => c.sn).foldl (fun d sn => match d.coll? sn with
    | some c => d.endColl c stTimeout (cdGroup c.desc)
    | none => d) d

/-- The mute of an isolated device begins and ends (R399). -/
def Device.isoMute (d : Device) : Device := { d with radio := { d.radio with isoFrom := some d.time, isoUntil := none } }
def Device.isoUnmute (d : Device) : Device :=
  if d.radio.isoFrom.isSome && d.radio.isoUntil.isNone then { d with radio := { d.radio with isoUntil := some (d.time : Int) } } else d

/-- Every 1 ms a joining device sends JOIN (R391). Where it knows no manager the manual names no address; FTP_MGR then reads 0 (log 40). -/
def joinTick (d : Device) : Device :=
  if d.rd FTP_STAT.state 0 = 1 then
    d.muster (d.rd FTP_MGR.span_manager 0) muJoin { dev := d.devId, capable := if d.on FTP_CFG.mgr_capable 0 then [d.devId] else [] }
  else d

/-! ### Heartbeats and suspicion -/

/-- Members that this device watches: its span's as manager or deputy (R393, R395). -/
def Device.watched (d : Device) : List Nat :=
  if d.isSpanMgr || (d.on FTP_MGR.valid 0 && d.rd FTP_MGR.span_deputy 0 == d.devId) then d.spanMembers.filter fun m => m != d.devId else []

/-- A heartbeat to another member. -/
def Device.heartbeatTo (d : Device) (dst : Nat) : Device := if d.isMember dst then d.muster dst muHeartbeat {} else d

/-- What a member sends every 250 µs: heartbeats to its managers, and beacons as a manager (R392, R393). -/
def Device.sendBeats (d : Device) : Device :=
  let d := (d.heartbeatTo (d.rd FTP_MGR.span_manager 0)).heartbeatTo (d.rd FTP_MGR.span_deputy 0)
  let d := if d.isSpanMgr then
      d.spanMembers.foldl (fun d m => d.muster m muBeacon {}) ((d.heartbeatTo (d.rd FTP_MGR.sys_manager 0)).heartbeatTo (d.rd FTP_MGR.sys_deputy 0))
    else d
  if d.isSysMgr then (managers d.fab.members d.ftp.capable).foldl (fun d m => d.muster m muBeacon {}) d else d

/-- Misses of the watched members are counted; the fourth in a row makes one suspected (R393). -/
def Device.countMisses (d : Device) : Device :=
  let miss : List (Nat × Nat) := d.watched.map fun (m : Nat) => (m, if d.ftp.heard.contains m then 0 else smGet d.ftp.misses m 0 + 1)
  let new := (miss.filter fun (m : Nat × Nat) => decide (4 ≤ m.2) && !d.ftp.suspected.contains m.1).map fun m => m.1
  { d with ftp := { d.ftp with heard := [], misses := miss.foldl (fun (s : List (Nat × Nat)) (m : Nat × Nat) => smSet s m.1 0 m.2) [], suspected := d.ftp.suspected ++ new } }

/-- Every 250 µs: heartbeats, beacons, counting of misses, probes of the suspected (R392, R393). -/
def heartbeatTick (d : Device) : Device :=
  if !d.isMemberNow then d
  else
    let d := d.sendBeats.countMisses
    if d.isSpanMgr then d.ftp.suspected.foldl (fun d m => d.probe m) d else d

/-- HEARTBEAT (R393). Muster packets of devices that are no members are not accepted (R392). -/
def heartbeatRx (src : Nat) (d : Device) : Device :=
  if !d.isMemberNow || !d.isMember src then d
  else
    let f := d.ftp
    { d with ftp := { f with heard := src :: f.heard.filter fun x => x != src, misses := smSet f.misses src 0 0, hearts := smIns f.hearts src d.cycle } }

/-- BEACON: its sender is there (R395, R399). -/
def beaconRx (src : Nat) (d : Device) : Device :=
  if !d.isMemberNow || !d.isMember src then d else { d with ftp := { d.ftp with beacons := smIns d.ftp.beacons src d.cycle } }

/-- PROBE is answered (R393), by an isolated device too (R399). -/
def probeRx (src : Nat) (d : Device) : Device :=
  if d.rd FTP_STAT.state 0 = 0 || !d.isMember src then d else d.muster src muProbeAck { dev := d.devId }

/-- PROBE_ACK clears a suspicion (R393). -/
def probeAckRx (src : Nat) (d : Device) : Device :=
  if d.ftp.suspected.contains src then
    let f := d.ftp
    { d with ftp := { f with suspected := f.suspected.filter fun x => x != src, misses := smSet f.misses src 0 0 } }.incSat FTP_CNT.suspicions 0 1
  else d

/-! ### Changes gathered for an epoch -/

/-- The system manager gathers removals and admissions (R394). -/
def Device.gatherRemove (d : Device) (dev : Nat) : Device :=
  let f := d.ftp
  if f.remove.contains dev || !d.isMember dev then d
  else { d with ftp := { f with remove := f.remove ++ [dev], gatherAt := some (f.gatherAt.getD d.cycle) } }

/-- A confirmed loss: REMOVE to the system manager (R393); the loss of that manager itself to the deputy, which takes its role over (R395). -/
def Device.confirmLost (d : Device) (dev : Nat) : Device :=
  let f := d.ftp
  let d := { d with ftp := { f with suspected := f.suspected.filter fun x => x != dev } }
  if d.isSysMgr then d.gatherRemove dev 
  else d.muster (d.rd (if dev = d.rd FTP_MGR.sys_manager 0 then FTP_MGR.sys_deputy else FTP_MGR.sys_manager) 0) muRemove { dev := dev }

/-- No PROBE_ACK within 1 ms of suspicion (R393). -/
def probeTimeout (dev : Nat) (d : Device) : Device :=
  if d.isSpanMgr && d.ftp.suspected.contains dev then d.confirmLost dev else d

def removeRx (src dev : Nat) (d : Device) : Device :=
  if !d.isMember src then d else if d.isSysMgr then d.gatherRemove dev else d

/-- JOIN: relayed to the system manager, admitted, or refused where a member holds the ID (R391). The refusal is the present EPOCH, which names the ID as a
member's without admitting it (log 40). -/
def joinRx (dev : Nat) (capable : Bool) (d : Device) : Device :=
  if (d.isSysMgr || d.isSpanMgr) && d.isMember dev then
    d.muster dev muEpoch { dev := d.devId, epoch := d.epoch, members := d.fab.members, capable := d.ftp.capable }
  else if d.isSysMgr then
    let f := d.ftp
    if f.join.any fun j => j.1 == dev then d
    else { d with ftp := { f with join := f.join ++ [(dev, capable)], gatherAt := some (f.gatherAt.getD d.cycle) } }
  else if d.isSpanMgr then d.muster (d.rd FTP_MGR.sys_manager 0) muJoin { dev := dev, capable := if capable then [dev] else [] }
  else d

/-- LEAVE is a confirmed loss at its arrival (R394). -/
def leaveRx (src : Nat) (d : Device) : Device := if d.isMember src && (d.isSpanMgr || d.isSysMgr) then d.confirmLost src else d

/-! ### Leaving -/

/-- LEAVE to the span manager (Table 13-1). A span manager tells the system manager itself, and the system manager gathers its own removal (log 40). -/
def Device.sendLeave (d : Device) : Device :=
  if !d.isMemberNow then d
  else
    let d := if d.isSpanMgr then d.confirmLost d.devId else d.muster (d.rd FTP_MGR.span_manager 0) muLeave { dev := d.devId }
    { d with ftp := { d.ftp with left := true } }

/-- Muster off: nothing is known of any membership. -/
def Device.musterOff (d : Device) : Device :=
  let d := (d.wr FTP_STAT.state 0 0).wr FTP_STAT.join_err 0 0
  let d := { d with fab := { d.fab with members := [] } }
  let d := { d with ftp := { d.ftp with left := false, heard := [], misses := [], suspected := [], hearts := [], beacons := [], remove := [], join := [], gatherAt := none } }
  d.isoUnmute.showRoles

/-- A write of FTP_CFG (R391, R417, R465): 1 starts muster, after a removal too once 0 has been written; 0 makes a member send LEAVE, and the epoch that
follows removes it; where the device is no member, muster is off at once. -/
def musterEnable (fn value : Nat) (d : Device) : Device :=
  if !d.fnAwake fn then d
  else if fn ≠ 0 then d.hostErr 0xF00000 0
  else
    let was := d.on FTP_CFG.enable 0
    let d := ((d.wr FTP_CFG.isolate_ms 0 (bits value 31 24)).wr FTP_CFG.mgr_capable 0 (bits value 1 1)).wr FTP_CFG.enable 0 (bits value 0 0)
    if bit value 0 = was then d
    else if d.isMemberNow then (if was then d.sendLeave else d)
    else if was then d.musterOff
    else d.musterOff.tryJoin

/-! ### Isolation -/

/-- The isolated state (R399). -/
def Device.isolate (d : Device) (st : Nat) : Device :=
  let d := (d.wr FTP_STAT.state 0 st).isoMute.cutOff
  ((d.wr FTP_EVT.isolated 0 1).showRoles).raise 0 (d.rd FTP_EVT.vector 0)

def isolateRx (src : Nat) (d : Device) : Device := if d.isMemberNow && d.isMember src then d.isolate 3 else d

/-- Whether the clock has not reached some milliseconds past a device's last heartbeat or beacon, of a list of such times. -/
def Device.heardIn (d : Device) (times : List (Nat × Nat)) (dev ms : Nat) : Bool := times.any fun x => x.1 == dev && decide (d.cycle < x.2 + 1800000 * ms)

/-- Whether spans that hold more than half of the members have been heard within 3 ms (R399): HEARTBEATs of a span's acting manager, and the own span. -/
def Device.majority (d : Device) : Bool :=
  let live (s : Nat) : Bool := s == spanOf d.devId || d.fab.members.any fun m => spanOf m == s && d.heardIn d.ftp.hearts m 3
  decide (d.fab.members.length < 2 * (d.fab.members.filter fun x => live (spanOf x)).length)

/-- What keeps a member from isolating (R399): a member a BEACON within isolate_ms, which acts as at least 10; a span manager a system BEACON or a HEARTBEAT of
the system deputy; the system manager, which no BEACON reaches, a majority, with a HEARTBEAT of the deputy where there is one (log 40). -/
def Device.connected (d : Device) : Bool :=
  let ms := max 10 (d.rd FTP_CFG.isolate_ms 0)
  let dep := d.rd FTP_MGR.sys_deputy 0
  let beacon := d.ftp.beacons.any fun x => d.heardIn d.ftp.beacons x.1 ms
  if d.isSysMgr then d.majority && (decide ((managers d.fab.members d.ftp.capable).length < 2) || d.heardIn d.ftp.hearts dep ms)
  else beacon || (d.isSpanMgr && d.heardIn d.ftp.hearts dep ms)

/-- Nothing heard for isolate_ms: a span manager tells its span, and isolates as its members do (R399). -/
def isolateTimeout (d : Device) : Device :=
  if !d.isMemberNow || d.connected then d
  else
    let d := if d.isSpanMgr then d.spanMembers.foldl (fun d m => d.muster m muIsolate {}) d else d
    d.isolate 3

/-! ### Epochs -/

/-- A double loss: every command of the tenancy ends with DOUBLE_LOSS, which overrides what a RUN had noted; a STEP_COMMIT does so at its boundary, which
clears the mark (R415). -/
def Device.doubleLoss (d : Device) (t : Nat) : Device :=
  let e := d.epoch
  let d := d.setMark t 9
  let d := { d with ftp := { d.ftp with double := smIns d.ftp.double t (e + 1) } }
  let d := (d.mm.chans.filter fun c => c.2.ten == t && (c.2.kind == 0 || c.2.kind == 2)).foldl (fun d c => d.failXfer c.1 stDouble e) d
  let d := (d.cmds.filter fun c => c.ten == t).foldl (fun d c =>
    if eOp c.entry = 0x01 then
      (if c.run.isSome then (d.modRun c.sn fun r => { r with fail := some (stDouble, e) }).settleRun c.sn else d.finish c.sn stDouble e none)
    else if eOp c.entry = 0x03 then
      (match d.coll? c.sn with
       | some x => d.endColl x stDouble e
       | none => d.finish c.sn stDouble e none)
    else if eOp c.entry = 0x0B then d.setCmd { c with fin := some (stDouble, e), note := 3 }
    else d.finish c.sn stDouble e none) d
  ((d.wr FTP_EVT.double_loss 0 1).incSat FTP_CNT.double_losses 0 1).incSat FTP_ACCT_CNT.double_losses t 1

/-- Accounting of a recovery (R413): what was lost since the last complete generation in progress mode, or since the last commit in exact mode. -/
def Device.acctRecovery (d : Device) (t : Nat) : Device :=
  let s := d.step t
  let g := if d.ftMode t = 1 then ((d.inLog t).gen.getD s) else s
  let lost := match d.ftp.commits.find? fun c => c.1 == t && c.2.1 == g with
    | some c => (d.time - c.2.2) / 144
    | none => 0
  let d := (d.incSat FTP_ACCT_LOST.lost_ns t lost).incSat FTP_ACCT_CNT.recoveries t 1
  let d := d.incSat FTP_ACCT_CNT.steps_rolled_back t (s - g)
  if smGet d.ftp.stall t 0 ≠ 0 then d else { d with ftp := { d.ftp with stall := smSet d.ftp.stall t 0 (d.cycle + 1) } }

/-- Step 4 of R397: protected tenancies whose job holds a removed device (R400, R408, R415). -/
def Device.markJobs (d : Device) (removed lossy : List Nat) : Device :=
  ((List.range 64).filter fun t => d.isProtected t && (smGet d.ftp.jobs t []).any removed.contains).foldl (fun d t =>
    let mine := (smGet d.ftp.jobs t []).filter removed.contains
    let restoring := d.ftp.restore.any fun r => r.1 == t && removed.contains r.2.2
    let d := d.setMark t 9
    let d := d.acctRecovery t
    if restoring || mine.any lossy.contains then d.doubleLoss t else d) d

/-- The areas of lost guests are free again, but for one that a restore from this device names (R404). -/
def Device.freeGuests (d : Device) (lost : List Nat) : Device :=
  let named (g : Nat) : Bool := d.ftp.restore.any fun r => r.2.1 == g && r.2.2 == d.devId
  { d with ftp := { d.ftp with hosted := d.ftp.hosted.map fun h => if lost.contains h.guest && !named h.guest then { h with freed := true } else h } }

/-- A restore ends, well or not (R409). -/
def Device.restoreEnds (d : Device) (ok : Bool) : Device :=
  let lost := (d.ftp.restore.toList.map fun r => r.2.1).filter fun g => d.isMemberNow && !d.isMember g
  let d : Device := { d with ftp := { d.ftp with restore := none } }
  let d := (d.freeGuests lost).wr FTP_RESTORE.busy 0 0
  if ok then d else d.wr FTP_RESTORE.err 0 1

/-- A partner that leaves (R405), a guest that leaves (R404), a restore's source that leaves (R409). -/
def Device.shadowLosses (d : Device) (removed : List Nat) : Device :=
  let d :=
    if d.on FTP_PARTNER.valid 0 && removed.contains d.partner then
      let d := d.wr FTP_PARTNER.state 0 3
      let d := { d with ftp := { d.ftp with gens := [], full := [] }, mm := { d.mm with shadowing := [] } }
      let d := ((List.range 64).filter d.isProtected).foldl (fun d t => (d.wr FTP_TEN_STAT.unprotected t 1).commitsAcked t) d
      d.releaseHeld chNone id
    else d
  if d.ftp.restore.any fun r => removed.contains r.2.2 then (d.restoreEnds false).freeGuests removed else d.freeGuests removed

/-- Radio carriers of a removed device are taken over (R416). -/
def Device.rehome (d : Device) (removed : List Nat) : Device :=
  ((List.range 8).filter fun g => d.on FTP_REHOME0.valid g && removed.contains (d.rd FTP_REHOME0.covers g)).foldl (fun d g =>
    let m := d.rd RAD_MUTE_CTL.host_mute 0
    let c := d.rd FTP_REHOME1.carriers g
    let d := d.wr RAD_MUTE_CTL.host_mute 0 (maskOf 64 fun i => bit m i && !bit c i)
    (((d.wr FTP_REHOME0.valid g 0).wr FTP_EVT.rehomed 0 1)).raise 0 (d.rd FTP_EVT.vector 0)) d

/-- The membership record (R398), its epoch written last. -/
def Device.writeMembers (d : Device) : Device :=
  if !d.on FTP_MEMB_CFG.enable 0 then d
  else
    let base := d.rd FTP_MEMB_CFG.base 0 * 4096
    let body := toLE 2 d.fab.members.length ++ toLE 2 0 ++ toLE 8 d.stamp8 ++ List.replicate 48 0 ++
      (List.range 512).map fun i => BitVec.ofNat 8 (maskOf 8 fun b => d.fab.members.contains (8 * i + b))
    (d.poke devKey spT1 (base + 4) body).poke devKey spT1 base (toLE 4 d.epoch)

/-- Application of an epoch, in the order of R397. -/
def Device.applyEpoch (d : Device) (src : Nat) (m : Muster) : Device :=
  let removed := d.fab.members.filter fun x => !m.members.contains x
  let out := d.fab.members.contains d.devId && !m.members.contains d.devId
  let came := !d.fab.members.contains d.devId && m.members.contains d.devId
  let d := d.wr FTP_STAT.epoch 0 m.epoch
  let joined := m.members.filter fun x => x != d.devId && (!d.fab.members.contains x || m.joins.contains x)
  let left := d.ftp.left && !came
  let d := { d with fab := { d.fab with members := m.members } }
  let d := { d with ftp := { d.ftp with capable := m.capable, left := left, suspected := d.ftp.suspected.filter m.members.contains } }
  let d := if came then (d.wr FTP_STAT.state 0 2).wr FTP_STAT.join_err 0 0 else d
  let d := removed.foldl (fun d x => d.endRequestsTo x) d
  let d := (d.colls.filter fun c => c.devs.any removed.contains).foldl (fun d c =>
    match d.coll? c.sn with
    | some c => d.endColl c stTimeout (((c.devs.find? removed.contains).getD 0) <<< 52)
    | none => d) d
  let d := joined.foldl (fun d x => d.resetStreams x) d
  let d := d.markJobs removed m.lossy
  let d := d.shadowLosses removed
  let d := d.rehome removed
  let d := d.writeMembers
  let d := d.incSat FTP_CNT.removals 0 removed.length
  let d := d.showRoles
  let d := (d.wr FTP_EVT.epoch 0 1).raise 0 (d.rd FTP_EVT.vector 0)
  let d := d.muster src muEpochAck { dev := d.devId, epoch := m.epoch }
  if out then (d.isolate (if d.ftp.left then 4 else 3)).wr FTP_STAT.join_err 0 2 else d

/-- Whether an epoch number follows the current one (R396). -/
def Device.newer (d : Device) (e : Nat) : Bool :=
  let k := (e + 2 ^ 32 - d.epoch) % 2 ^ 32
  decide (1 ≤ k) && decide (k < 2 ^ 31)

/-- Devices of its span that a span manager passes an epoch on to: the members of the new one, and those of the old one that it excludes (R394, R399). -/
def Device.spanTargets (d : Device) (m : Muster) : List Nat :=
  (m.members ++ d.fab.members.filter fun x => !m.members.contains x).filter fun x => spanOf x == spanOf d.devId

/-- EPOCH: relayed by a span manager, of the present epoch or the new one, then applied (R394, R397). A joining device whose ID is a member's without its having been admitted reads that
its ID is in use (R391). -/
def epochRx (src : Nat) (m : Muster) (d : Device) : Device :=
  let st := d.rd FTP_STAT.state 0
  if st = 1 && !m.joins.contains d.devId then (if m.members.contains d.devId then d.wr FTP_STAT.join_err 0 1 else d)
  else if !(st == 1 || (st == 2 && d.isMember src && d.newer m.epoch)) then d
  else
    let relay := d.isSpanMgr || (rankOrder m.members m.capable (spanOf d.devId)).head? == some d.devId
    let d := if relay then (d.spanTargets m).foldl (fun d x => if x = src then d else d.muster x muEpoch m) d else d
    d.applyEpoch src m

/-- EPOCH_ACK (R397). -/
def epochAckRx (src : Nat) (d : Device) : Device :=
  if d.isMember src then { d with ftp := { d.ftp with acks := src :: d.ftp.acks.filter fun x => x != src } } else d

/-- One new epoch for all that was gathered, at most one a millisecond (R394, R399). Which losses are double losses is not said to travel in any packet: `lossy`
brings it (log 40). -/
def epochIssue (lossy : List Nat) (d : Device) : Device :=
  let f := d.ftp
  let soon := match f.lastIssue with
    | some t => decide (d.cycle < t + 1800000)
    | none => false
  if !d.isSysMgr || f.gatherAt.isNone || soon || !d.majority then d
  else
    let joins := f.join.map fun j => j.1
    let members := sortNat ((d.fab.members.filter fun x => !f.remove.contains x) ++ joins)
    let cap := (f.capable ++ (f.join.filter fun j => j.2).map fun j => j.1).filter members.contains
    let m : Muster := { dev := d.devId, epoch := (d.epoch + 1) % 2 ^ 32, members := members, capable := cap, joins := joins, lossy := lossy }
    let d := { d with ftp := { f with remove := [], join := [], gatherAt := none, lastIssue := some d.cycle, acks := [] } }
    let others := (managers members cap ++ managers d.fab.members f.capable).eraseDups.filter fun x => spanOf x != spanOf d.devId
    let d := (others ++ d.spanTargets m).foldl (fun d x => d.muster x muEpoch m) d
    d.applyEpoch d.devId m

/-- A takeover of the span manager's role (`sys` false) or the system manager's (R395): no BEACON of any member ranked before the k-th for 3k ms; those are
confirmed lost. Where its span is the only one, its manager is the system's too. -/
def managerTakeover (sys : Bool) (d : Device) : Device :=
  if !d.isMemberNow then d
  else
    let order := if sys then managers d.fab.members d.ftp.capable else rankOrder d.fab.members d.ftp.capable (spanOf d.devId)
    match findIdxFrom (fun x => x == d.devId) order 0 with
    | none => d
    | some k =>
      if k = 0 || (if sys then d.isSysMgr else d.isSpanMgr) || (order.take k).any (fun x => d.heardIn d.ftp.beacons x (3 * k)) then d
      else
        let alone := !sys && (managers d.fab.members d.ftp.capable).all fun x => spanOf x == spanOf d.devId
        let d := if sys then d else d.wr FTP_MGR.span_manager 0 d.devId
        let d := if sys || alone then (d.wr FTP_MGR.sys_manager 0 d.devId).wr FTP_STAT.sys_manager 0 1 else d
        let d := d.incSat FTP_CNT.takeovers 0 1
        (order.take k).foldl (fun d x => d.confirmLost x) d

end Sys2Proof.Machine
end

