-- ==== Sys2Proof/Machine/Shadow.lean ====
section
/-! DEFINITION. Shadows of a protected tenancy, mirrored log records, and the restore engine (R402–R409). -/

namespace Sys2Proof.Machine

/-! ### The protected device -/

/-- Pages that a tenancy's table maps with write permission: translation index and physical page, in the order of the dirty log. -/
def Device.writablePages (d : Device) (t : Nat) : List (Nat × Nat) :=
  (List.range 3).flatMap fun s => (List.range (d.xtCount t s)).filterMap fun v =>
    let e := d.xtEntry t s v
    if bit e 63 && bit e 62 then some (d.xtIndex t s v, pageKey s (bits e 18 0)) else none

/-- Sizes of the tables a shadow carries. -/
def Device.landBytes (d : Device) (t : Nat) : Nat := 128 * d.rd MEM_LAND_CFG.count t
def Device.batchBytes (d : Device) (t : Nat) : Nat := if d.rd SCH_BATCH_CFG.max_seq t = 0 then 0 else 64 * (d.rd SCH_BATCH_CFG.max_seq t + 1)
def Device.evtBytes (d : Device) (t : Nat) : Nat := if d.on QUE_EVT_BASE.valid t then 524288 else 0

/-- What a shadow of the present moment carries beside its pages (R402). -/
def Device.shadowMeta (d : Device) (t : Nat) : ShadowMeta :=
  { step := d.step t
    xt := d.peek devKey spT1 (d.xtBase t) (d.xtBytes t)
    land := d.peek devKey spT1 (d.landAt t 0) (d.landBytes t)
    events := d.peek devKey spT1 (d.evtAddr t 0) (d.evtBytes t)
    batchTab := d.peek devKey spT1 (d.rd SCH_BATCH_CFG.table_page t * pageSize) (d.batchBytes t)
    batch := d.batch t }

/-- A shadow point (R402, R404, R405): skipped while a generation is under way; a first generation covers every writable page, a later one the pages
written since the last point. -/
def Device.shadowPoint (d : Device) (t : Nat) : Device :=
  if !d.isProtected t || d.rd FTP_PARTNER.state 0 = 3 || d.step t % clampN 1 64 (d.rd FTP_PARTNER.shadow_steps 0) ≠ 0 then d
  else if d.ftp.gens.any fun g => g.1 == t then d.incSat FTP_TEN_STAT.skipped t 1
  else
    let tc := smGet d.tens t {}
    let all := d.writablePages t
    let ps := if d.ftp.full.contains t then all.filter fun p => tc.shadow.contains p.1 else all
    let g : ShadowGen := { step := d.step t, pages := ps.map fun p => p.1, left := ps, count := ps.length, info := d.shadowMeta t }
    let held := d.mm.shadowing ++ ps.map fun p => p.2
    { d with tens := smSet d.tens t {} { tc with shadow := [] }, ftp := { d.ftp with gens := smIns d.ftp.gens t g }, mm := { d.mm with shadowing := held } }

/-- Writes held for pages that have been read, or whose generation failed, go on (R403). -/
def Device.unshadow (d : Device) (ps : List Nat) : Device :=
  ({ d with mm := { d.mm with shadowing := d.mm.shadowing.filter fun p => !ps.contains p } }).releaseHeld chNone id

/-- The next page of a generation is read and sent; the metadata follow the last one (R403). -/
def shadowPageRead (t : Nat) (d : Device) : Device :=
  match d.ftp.gens.find? fun g => g.1 == t with
  | none => d
  | some (_, g) =>
    let info (d : Device) : Device := { d with sent := .shadow d.partner t g.step (.info g.count g.info) :: d.sent }
    match g.left with
    | [] => if g.count = 0 then info d else d
    | (idx, pg) :: rest =>
      let sp := pg / 2 ^ 20
      let data := d.peek (if encrypted sp then d.tenKey t else devKey) sp (pg % 2 ^ 20 * pageSize) pageSize
      let g' : ShadowGen := { g with left := rest }
      let d : Device := { d with ftp := { d.ftp with gens := smIns d.ftp.gens t g' }, sent := .shadow d.partner t g.step (.page idx data) :: d.sent }
      let d := d.unshadow [pg]
      if rest.isEmpty then info d else d

/-- A generation of this device ended without success (R404): unprotected until one completes, with a record. -/
def Device.shadowFailed (d : Device) (t : Nat) (g : ShadowGen) : Device :=
  let tc := smGet d.tens t {}
  let back := tc.shadow ++ g.pages.filter fun i => !tc.shadow.contains i
  let d : Device := { d with tens := smSet d.tens t {} { tc with shadow := back },
                             ftp := { d.ftp with gens := smDel d.ftp.gens t, full := d.ftp.full.filter fun x => x != t } }
  let d := (d.wr FTP_TEN_STAT.unprotected t 1).logUncoded unitNone t g.step
  (d.unshadow (g.left.map fun p => p.2)).commitsAcked t

/-- The partner's answer to a generation (R403, R404). -/
def shadowAckRx (src t step : Nat) (ok : Bool) (d : Device) : Device :=
  match d.ftp.gens.find? fun g => g.1 == t with
  | none => d
  | some (_, g) =>
    if src ≠ d.partner || g.step ≠ step then d
    else if !ok then d.shadowFailed t g
    else if !g.left.isEmpty then d
    else
      let full := t :: d.ftp.full.filter fun x => x != t
      let d : Device := { d with ftp := { d.ftp with gens := smDel d.ftp.gens t, full := full } }
      let d := (d.wr FTP_TEN_STAT.gen_step t step).wr FTP_TEN_STAT.unprotected t 0
      let d := if (List.range 64).all fun x => !d.isProtected x || full.contains x then d.wr FTP_PARTNER.state 0 2 else d
      let d := d.setInLog t { d.inLog t with gen := some step }
      let d := if d.rd FTP_TEN_STAT.log_state t = 2 then d.wr FTP_TEN_STAT.log_state t 0 else d
      (d.drainLogs t).commitsAcked t

/-- A hold of the input log that lasted hold_ms (R407): the needed records are discarded, and the tenancy is unprotected. -/
def logHoldTimeout (t : Nat) (d : Device) : Device :=
  if !d.logHolds t then d
  else
    let d := (d.setInLog t { d.inLog t with kept := [] }).drainLogs t
    let d := (d.wr FTP_TEN_STAT.log_state t 2).wr FTP_TEN_STAT.unprotected t 1
    (d.logUncoded unitNone t (d.step t)).commitsAcked t

/-- The partner confirms that it holds the first `n` records (R406). -/
def logMirrorAckRx (t n : Nat) (d : Device) : Device :=
  let l := d.inLog t
  (d.setInLog t { l with acked := max l.acked (min n l.next) }).commitsAcked t

/-! ### The partner -/

/-- The hosting area of a guest (Table 13-13), and its first page that no generation holds. -/
def Device.hostArea (d : Device) (guest : Nat) : Option Nat :=
  (List.range 4).find? fun i => d.on FTP_SHADOW_HOST.valid i && d.rd FTP_SHADOW_HOST.guest i == guest
def Device.hostFree (d : Device) (i : Nat) : Option Nat :=
  let used := (d.ftp.hosted.filter fun h => !h.freed).flatMap fun h => h.pages.map fun p => p.2
  ((List.range (d.rd FTP_SHADOW_HOST.pages i)).map (d.rd FTP_SHADOW_HOST.base_page i + ·)).find? fun p => !used.contains p

def HostGen.is (h : HostGen) (guest t : Nat) : Bool := h.guest == guest && h.ten == t && !h.freed

/-- The generation of a step that has been landing; another that was not finished gives way to it. -/
def Device.hostGen (d : Device) (guest t step : Nat) : HostGen :=
  (d.ftp.hosted.find? fun h => h.is guest t && h.step == step && !h.complete).getD { guest := guest, ten := t, step := step }
def Device.setHostGen (d : Device) (g : HostGen) : Device :=
  let rest := d.ftp.hosted.filter fun h => !(h.is g.guest g.ten && !h.complete)
  { d with ftp := { d.ftp with hosted := rest ++ [g] } }

/-- Once pages and metadata have landed the generation is complete: it takes over the pages of the one before that it does not replace, the others are free
again (R403). -/
def Device.hostDone (d : Device) (g : HostGen) : Device :=
  match g.info with
  | none => d
  | some (n, _) =>
    if g.pages.length ≠ n then d
    else
      let old := ((d.ftp.hosted.find? fun h => h.is g.guest g.ten && h.complete).map fun h => h.pages).getD []
      let keep := old.filter fun p => !(g.pages.any fun x => x.1 == p.1)
      let new : HostGen := { g with pages := g.pages ++ keep, complete := true }
      let rest := d.ftp.hosted.filter fun h => !h.is g.guest g.ten
      { d with ftp := { d.ftp with hosted := rest ++ [new] }, sent := .shadowAck g.guest g.ten g.step true :: d.sent }

/-- A page or the metadata of a guest's generation (R403, R404): without a free page, or an area at all, the generation fails. Its pages lie in tier 2 under the device key. -/
def shadowPageRx (guest t step : Nat) (x : ShadowItem) (d : Device) : Device :=
  match d.hostArea guest with
  | none => { d with sent := .shadowAck guest t step false :: d.sent }
  | some i =>
    let g := d.hostGen guest t step
    match x with
    | .info n m =>
      let g : HostGen := { g with info := some (n, m) }
      (d.setHostGen g).hostDone g
    | .page idx data =>
      match d.hostFree i with
      | none =>
        let rest := d.ftp.hosted.filter fun h => !(h.is guest t && !h.complete)
        { d with ftp := { d.ftp with hosted := rest }, sent := .shadowAck guest t step false :: d.sent }
      | some p =>
        let g : HostGen := { g with pages := g.pages.filter (fun x => x.1 != idx) ++ [(idx, p)] }
        let d : Device := { d with ftp := { d.ftp with hosted := d.ftp.hosted.filter fun h => !(h.freed && h.pages.any fun x => x.2 == p) } }
        let d := d.poke devKey spT2 (p * pageSize) (data.take pageSize)
        (d.setHostGen g).hostDone g

/-- A mirrored record is stored and confirmed (R406). -/
def logRecordMirrorRx (guest t : Nat) (r : LogRec) (d : Device) : Device :=
  { d with ftp := { d.ftp with mirrored := d.ftp.mirrored ++ [(guest, t, r)] }, sent := .logAck guest t (r.order + 1) :: d.sent }

/-! ### Restore -/

/-- A write of FTP_RESTORE (R409, R417). While a restore is in progress go starts no second one (log 41). -/
def restoreStart (fn value : Nat) (d : Device) : Device :=
  if !d.fnAwake fn then d
  else if fn ≠ 0 then d.hostErr 0xF00500 0
  else
    let d := ((d.wr FTP_RESTORE.tenancy 0 (bits value 60 55)).wr FTP_RESTORE.guest 0 (bits value 54 43)).wr FTP_RESTORE.source 0 (bits value 42 31)
    let d := if bit value 61 then d.wr FTP_RESTORE.err 0 0 else d
    if bit value 63 && d.ftp.restore.isNone then
      let job := (bits value 60 55, bits value 54 43, bits value 42 31)
      { d with ftp := { d.ftp with restore := some job } }.wr FTP_RESTORE.busy 0 1
    else d

/-- Place of the page at a translation index of a tenancy. -/
def Device.indexPage (d : Device) (t idx : Nat) : Option (Nat × Nat) :=
  let n1 := d.rd MEM_XT_CFG.t1_pages t
  let n2 := d.rd MEM_XT_CFG.t2_pages t
  let s := if idx < n1 then 0 else if idx < n1 + n2 then 1 else 2
  if d.xtBytes t ≤ 8 * idx || !d.on MEM_XT_BASE.enable t then none
  else
    let e := d.peekN spT1 (d.xtBase t + 8 * idx) 8
    if bit e 63 then some (s, bits e 18 0) else none

/-- The log records after a generation are written into the device's own ring, without mirroring. -/
def Device.takeRecs (d : Device) (t : Nat) (recs : List LogRec) : Device :=
  recs.foldl (fun d r =>
    let l := d.inLog t
    let bs := r.bytes
    let d := d.ringWrite t l.pos bs
    d.setInLog t { l with next := r.order + 1, pos := l.pos + bs.length, kept := l.kept ++ [(l.pos, r)] }) d

/-- A fetched page takes its place in the tenancy's own memory (R409). -/
def Device.restorePage (t : Nat) (d : Device) (p : Nat × List Byte) : Device :=
  match d.indexPage t p.1 with
  | none => d
  | some (s, ppn) => d.poke (if encrypted s then d.tenKey t else devKey) s (ppn * pageSize) (p.2.take pageSize)

/-- The tables, the batch state and the step counter that a generation carries (R402, R409). -/
def Device.restoreTables (d : Device) (t : Nat) (x : ShadowMeta) : Device :=
  let d := d.poke devKey spT1 (d.landAt t 0) (x.land.take (d.landBytes t))
  let d := d.poke devKey spT1 (d.evtAddr t 0) (x.events.take (d.evtBytes t))
  let d := d.poke devKey spT1 (d.rd SCH_BATCH_CFG.table_page t * pageSize) (x.batchTab.take (d.batchBytes t))
  let d := (d.setBatch t x.batch).showKv t
  { d with tens := smSet d.tens t {} { smGet d.tens t {} with step := x.step } }

/-- The pages of an image that a restore of tenancy `t` writes: for a device that restores itself only those it has written since the generation. -/
def Device.restorePages (d : Device) (t : Nat) (own : Bool) (img : Restored) : List (Nat × List Byte) :=
  let dirty := (smGet d.tens t {}).shadow ++ ((d.ftp.gens.filter fun g => g.1 == t).flatMap fun g => g.2.pages)
  img.pages.filter fun p => !own || dirty.contains p.1

/-- What this device holds as the partner of a guest: the newest complete generation, and the mirrored records after it. -/
def Device.hostedImage (d : Device) (guest t : Nat) : Option Restored :=
  match d.ftp.hosted.find? fun h => h.guest == guest && h.ten == t && h.complete with
  | none => none
  | some h => match h.info with
    | none => none
    | some (_, m) =>
      let ps := h.pages.map fun p => (p.1, d.peek devKey spT2 (p.2 * pageSize) pageSize)
      let rs := (d.ftp.mirrored.filter fun r => r.1 == guest && r.2.1 == t && decide (h.step ≤ r.2.2.step)).map fun r => r.2.2
      some { pages := ps, info := m, recs := rs }

/-- An image takes its place, where the tenancy's own table maps every page of it (log 41). -/
def Device.placeImage (d : Device) (t : Nat) (own : Bool) (img : Restored) : Device :=
  let ps := d.restorePages t own img
  if ps.any fun p => (d.indexPage t p.1).isNone then d.restoreEnds false
  else
    let d := (ps.foldl (Device.restorePage t) (d.restoreEnds true)).restoreTables t img.info
    if own then d else d.takeRecs t img.recs

/-- A restore ends (R409). `img` is what was fetched; where this device is the source itself, it is what it holds. -/
def restoreDone (ok : Bool) (img : Restored) (d : Device) : Device :=
  match d.ftp.restore with
  | none => d
  | some (t, guest, source) =>
    let img := if source = d.devId then d.hostedImage guest t else if ok then some img else none
    match img with
    | none => d.restoreEnds false
    | some img => d.placeImage t (guest == d.devId) img

end Sys2Proof.Machine
end

