-- ==== Sys2Proof/Machine/Tenancy.lean ====
section
/-! DEFINITION. Tenancies: quiesce, resume, reset, dirty-page logs, interrupt gaps, queue positions, virtual functions (R441–R464). -/

namespace Sys2Proof.Machine

/-! ### Quiesce and resume -/

/-- A register of the TEN block is tenancy 0's to write (R466). -/
def Device.tenWrite (d : Device) (fn off : Nat) (f : Device → Device) : Device :=
  if !d.fnAwake fn then d else if fn ≠ 0 then d.hostErr off 0 else f d

/-- Fetched commands of a queue are given back: sq_head moves to the oldest of them (R453). -/
def Device.unfetch (d : Device) (q : Nat) : Device :=
  let qc := d.queue q
  let n := qc.fetched.length
  (d.setQueue q { qc with fetched := [] }).wr QUE_STAT.sq_head q ((d.rd QUE_STAT.sq_head q + 2 ^ 32 - n) % 2 ^ 32)

/-- A write of quiesce to TEN_CTL[t] (R453); during a reset it is ignored (R456). -/
def tenancyQuiesce (fn t : Nat) (d : Device) : Device :=
  d.tenWrite fn (0x100A00 + 8 * t) fun d =>
    if d.rd TEN_STAT.state t ≠ tnActive then d
    else
      let d := d.wr TEN_STAT.state t tnQuiescing
      (d.queues.filter fun q => d.qTen q.1 == t).foldl (fun d q => d.unfetch q.1) d

/-- Everything a tenancy started is done and posted (R453). -/
def Device.tenIdle (d : Device) (t : Nat) : Bool :=
  !(d.cmds.any fun c => c.ten == t) && !(d.mm.chans.any fun c => c.2.ten == t) && !(d.mm.waiting.any fun x => x.ten == t) &&
  !(d.colls.any fun c => c.ten == t) && !(d.queues.any fun q => d.qTen q.1 == t && !q.2.toPost.isEmpty)

/-- A quiescing tenancy has nothing left to do (R453). -/
def tenancyQuiesced (t : Nat) (d : Device) : Device :=
  if d.rd TEN_STAT.state t = tnQuiescing && d.tenIdle t then d.wr TEN_STAT.state t tnQuiesced else d

/-- A write of resume to TEN_CTL[t] (R454). -/
def tenancyResume (fn t : Nat) (d : Device) : Device :=
  d.tenWrite fn (0x100A00 + 8 * t) fun d =>
    let st := d.rd TEN_STAT.state t
    if st = tnQuiescing || st = tnQuiesced then d.wr TEN_STAT.state t tnActive else d

/-! ### Reset -/

/-- Queues disabled and started commands gone, without completions. -/
def Device.dropQueues (d : Device) (t : Nat) : Device :=
  let qs := (d.queues.filter fun q => d.qTen q.1 == t).map fun q => q.1
  let all := (qs ++ (d.cmds.filter fun c => c.ten == t).map fun c => c.queue).eraseDups
  let d := { d with cmds := d.cmds.filter fun c => c.ten != t }
  let d := ((List.range 4096).filter fun q => d.qTen q == t && d.rd QUE_STAT.state q != qDisabled).foldl (fun d q => d.wr QUE_STAT.state q qDisabled) d
  all.foldl (fun d q => ((d.setQueue q {}).wr QUE_STAT.in_flight q 0).wr QUE_STAT.cq_full q 0) d

/-- Running legs, waiting descriptors and towed tiles of a tenancy are discarded as in R66. -/
def Device.dropLegs (d : Device) (t : Nat) (mine : List Nat) : Device :=
  let d := d.cores.foldl (fun d c =>
    let d := match c.2.leg with
      | some l => if l.ten = t then d.dropLeg c.1 l else d
      | none => d
    let x := d.core c.1
    let mail := x.mail.filter fun m => tagTen (dsTag m.desc) != t
    (d.setCore c.1 { x with mail := mail }).wr COR_SEQ_STAT.mailbox c.1 mail.length) d
  { d with tows := d.tows.filter (fun w => w.ten != t), ras := { d.ras with tastes := d.ras.tastes.filter fun x => x.ten != t },
           sched := { d.sched with loads := d.sched.loads.filter fun sn => !mine.contains sn } }

/-- Channels, route contexts, collectives and remote requests of a tenancy are abandoned; its crossings abort (R281, R284, R347, Table 9-7). -/
def Device.dropMoves (d : Device) (t : Nat) (mine : List Nat) : Device :=
  let mm := { d.mm with waiting := d.mm.waiting.filter (fun x => x.ten != t), crossWait := d.mm.crossWait.filter (fun sn => !mine.contains sn) }
  let d : Device := { d with mm := mm }
  let undo := d.mm.hashing.filter fun h => h.1 == t
  let d := undo.foldl (fun d h =>
    let ps := match d.physPages h.1 (d.landHome h.1 h.2.1) (d.landLen h.1 h.2.1) with
      | .inl ps => ps
      | .inr _ => []
    (d.setPages ps pgPlain).landFree h.1 h.2.1) d
  let d : Device := { d with mm := { d.mm with hashing := d.mm.hashing.filter fun h => h.1 != t } }
  let d := d.mm.chans.foldl (fun d c =>
    if c.2.ten ≠ t then d
    else if c.2.kind = 0 then d.abortCross c.1 c.2 0 0
    else if c.2.kind = 3 then d.abortBatch c.1 c.2
    else d.dropChan c.1) d
  let d := d.engines.foldl (fun d e =>
    if mine.contains e.2.sn then ((d.setRctx (e.1 / 8) (e.1 % 8) {}).setReg .MEM_CHAN_STAT (routeChan (e.1 / 8) (e.1 % 8)) 0).showEngine (e.1 / 8) else d) d
  let d := (d.colls.filter fun c => c.ten == t).foldl (fun d c => d.failColl c 0 0) d
  let reqs := d.fab.reqs.filter fun r => tagTen r.tag != t
  { d with fab := { d.fab with reqs := reqs }, rteIn := { d.rteIn with waiting := d.rteIn.waiting.filter fun x => tagTen x.tag != t } }

/-- The sequences of a tenancy give their pages back to its pool, whose contents become unspecified (R455). -/
def Device.dropBatch (d : Device) (t : Nat) : Device :=
  let b := d.batch t
  let d := d.setBatch t { b with seqs := [], pending := [], leaves := [] }
  let d := (b.seqs.flatMap fun s => s.pages).foldl (fun d p => d.returnPage t p) d
  let n := d.rd SCH_KV_POOL.pages t
  (if n = 0 then d else d.scramble spT1 (d.rd SCH_KV_POOL.base_page t * pageSize) (n * pageSize)).showKv t

/-- The steps of a tenancy reset (R455). -/
def Device.resetTenancy (d : Device) (t : Nat) : Device :=
  let mine := (d.cmds.filter fun c => c.ten == t).map fun c => c.sn
  let d := (d.wr TEN_STAT.state t tnResetting).dropQueues t
  let d := (d.dropLegs t mine).dropMoves t mine
  let d := (d.rollbackTxn t 6).setTxn t { d.txn t with staged := [], visible := 0, commit := none, late := [] }
  let d := (d.verified.filter fun v => v.ten == t).foldl (fun d v => d.unverify v) d
  let d := d.dropBatch t
  let d := if d.on QUE_EVT_BASE.valid t then d.zero spT1 (d.evtAddr t 0) 524288 else d
  let d := (d.wr QUE_EVT_BASE.valid t 0).wr TEN_DLOG_CTL.enable t 0
  let ats := { d.mm.ats with cache := d.mm.ats.cache.filter (fun e => e.fn != t), reqs := d.mm.ats.reqs.filter fun r => r.fn != t }
  { d with evtFill := d.evtFill.filter (fun x => x != t), mm := { d.mm with ats := ats } }

/-- Whether a tenancy exists (R446). -/
def Device.tenExists (d : Device) (t : Nat) : Bool := t == 0 || (d.vfEnable && decide (t ≤ d.numVfs))

/-- A write of reset to TEN_CTL[t], or a Function Level Reset of VF t (R455). -/
def tenancyReset (fn t : Nat) (flr : Bool) (d : Device) : Device :=
  if flr then (if t = 0 then d else d.resetTenancy t)
  else d.tenWrite fn (0x100A00 + 8 * t) fun d => d.resetTenancy t

/-- A tenancy reset ends (R455). -/
def tenancyResetDone (t : Nat) (d : Device) : Device :=
  if d.rd TEN_STAT.state t = tnResetting then d.wr TEN_STAT.state t (if d.tenExists t then tnActive else tnOff) else d

/-! ### Virtual functions and function power states -/

/-- A change of VF Enable or NumVFs (R446). A tenancy that ceases to exist loses its work as in a reset (log 43). -/
def vfEnableChange (enable : Bool) (n : Nat) (d : Device) : Device :=
  let d := { d with vfEnable := enable, numVfs := n }
  (List.range 63).foldl (fun d i =>
    let t := i + 1
    let st := d.rd TEN_STAT.state t
    if d.tenExists t then (if st = tnOff then d.wr TEN_STAT.state t tnActive else d)
    else if st = tnOff || st = tnResetting then d
    else (d.resetTenancy t).wr TEN_STAT.state t tnOff) d

/-- A function enters or leaves D3hot (R441). -/
def functionPowerStateWrite (fn : Nat) (d3 : Bool) (d : Device) : Device :=
  { d with tens := smSet d.tens fn {} { smGet d.tens fn {} with d3hot := d3 } }

/-! ### Interrupts -/

/-- A vector's gap ends: interrupts that coalesced send one message (R452). -/
def irqGapExpiry (fn v : Nat) (d : Device) : Device :=
  let k := fn * 4096 + v
  let e := smGet d.msix k {}
  if !e.gap then d
  else
    let d := { d with msix := smSet d.msix k {} { e with gap := false, again := false } }
    if e.again then d.raise fn v else d

/-- A vector is unmasked: with its pending bit set it sends one message, or waits for the gap (R452). -/
def msixUnmask (fn v : Nat) (d : Device) : Device :=
  let k := fn * 4096 + v
  let e := smGet d.msix k {}
  if !d.fnAwake fn || d.vectors fn ≤ v then d
  else
    let d := { d with msix := smSet d.msix k {} { e with masked := false } }
    if !e.pending || d.mute fn then d
    else if e.gap then { d with msix := smSet d.msix k {} { e with masked := false, pending := false, again := true } }
    else d.sendVec fn v

/-! ### Dirty-page logs -/

/-- The device bitmap A or B of a tenancy: offset, and pages. -/
def Device.devMap (d : Device) (t : Nat) (b : Bool) : Nat := d.rd TEN_DLOG_DBASE.base t * 4096 + (if b then d.devMapBytes t else 0)
def Device.devMapPages (d : Device) (t : Nat) : List Nat :=
  let lo := d.devMap t false
  let hi := lo + 2 * d.devMapBytes t
  (List.range (ceilDiv hi pageSize - lo / pageSize)).map fun i => pageKey 0 (lo / pageSize + i)

/-- A write of TEN_DLOG_CTL[t]: out_of_range by W1C, enable, swap (R457–R459). -/
def Device.dlogWrite (d : Device) (t value : Nat) : Device :=
  let d := if bit value 4 then d.wr TEN_DLOG_CTL.out_of_range t 0 else d
  let was := d.on TEN_DLOG_CTL.enable t
  let d :=
    if bit value 0 && !was then
      let d := (d.zero spT1 (d.devMap t false) (2 * d.devMapBytes t)).setPages (d.devMapPages t) pgSystem
      ((d.wr TEN_DLOG_CTL.b_active t 0).wr TEN_DLOG_CTL.swaps t 0).wr TEN_DLOG_CTL.enable t 1
    else if !bit value 0 && was then d.wr TEN_DLOG_CTL.enable t 0
    else d
  if bit value 1 && d.on TEN_DLOG_CTL.enable t && !d.on TEN_DLOG_CTL.busy t then
    let b := !d.on TEN_DLOG_CTL.b_active t
    ((d.zero spT1 (d.devMap t b) (d.devMapBytes t)).wr TEN_DLOG_CTL.b_active t (b2n b)).wr TEN_DLOG_CTL.busy t 1
  else d

/-- A write of enable (R459), and one of swap: each acts on the whole register. -/
def dlogEnable (fn t value : Nat) (d : Device) : Device := d.tenWrite fn (0x101800 + 8 * t) fun d => d.dlogWrite t value
def dlogSwap (fn t value : Nat) (d : Device) : Device := d.tenWrite fn (0x101800 + 8 * t) fun d => d.dlogWrite t value

/-- A swap ends (R459). Marks are taken with their writes in this model, so that those before the swap stand in memory. -/
def dlogSwapDone (t : Nat) (d : Device) : Device :=
  if d.on TEN_DLOG_CTL.busy t then (d.wr TEN_DLOG_CTL.busy t 0).incWrap TEN_DLOG_CTL.swaps t 1 else d

/-! ### Queue positions -/

/-- A write of TEN_QPOS1 (R462): phase and queue, err by W1C, and with go the start of a Disabled queue at TEN_QPOS0's positions. The tail given is
the head, so that the checks of R128 hold for it. -/
def queuePositionStart (fn value : Nat) (d : Device) : Device :=
  d.tenWrite fn 0x101A08 fun d =>
    let q := bits value 11 0
    let d := (d.wr TEN_QPOS1.phase 0 (bits value 61 61)).wr TEN_QPOS1.queue 0 q
    let d := if bit value 62 then d.wr TEN_QPOS1.err 0 0 else d
    if !bit value 63 then d
    else if d.rd QUE_STAT.state q ≠ qDisabled || !d.enableOk q then d.wr TEN_QPOS1.err 0 1
    else
      let h := d.rd TEN_QPOS0.sq_head 0
      let c := d.rd TEN_QPOS0.cq_tail 0
      let d := d.setQueue q { tail := h, cqHead := c, cqTail := c, phase := bit value 61 }
      ((d.wr QUE_STAT.sq_head q h).wr QUE_STAT.db_err q 0).wr QUE_STAT.state q qRunning

end Sys2Proof.Machine
end

