-- ==== Sys2Proof/Machine/Reset.lean ====
section
/-! DEFINITION. Device reset and what survives it (R368, R483, R486, R511), and the correctable errors that may lead to it (R366, R369). -/

namespace Sys2Proof.Machine

/-! ### What survives -/

/-- Fuses, fields marked Kept, OTP fields and the stored save's own flags: they survive a device reset (Tables 12-14, 16-7, 16-8, 17-10, 17-16). -/
def keptFields : List Fld :=
  [GEN_ID.variant, RAS_RESET_CAUSE.resets, RAS_RESET_CAUSE.unit, RAS_RESET_CAUSE.cause, SEC_BOOT_STAT.dbg_scope, SEC_BOOT_STAT.revoked, SEC_BOOT_STAT.owners,
   SEC_ARB.srf_count, SEC_ARB.cpf_count, SEC_ARB.aof_count, PWR_STATE_STAT.tripped, PWR_SAVE_STAT.unread_lost, PWR_SAVE_STAT.torn,
   PWR_SAVE_STAT.invalid_blocks, PWR_SAVE_STAT.valid]

/-- Fields that the always-on domain keeps through Deep (R493). -/
def deepFields : List Fld :=
  [FAB_DEV_CFG.dev_id, FAB_DEV_CFG.lock, FTP_CFG.isolate_ms, FTP_CFG.mgr_capable, FTP_CFG.enable, FTP_STAT.epoch, FTP_STAT.rank, FTP_STAT.span_members,
   FTP_STAT.sys_deputy, FTP_STAT.sys_manager, FTP_STAT.join_err, FTP_STAT.state, FTP_MGR.valid, FTP_MGR.sys_manager, FTP_MGR.sys_deputy,
   FTP_MGR.span_manager, FTP_MGR.span_deputy, PWR_STATE_STAT.wake_src]

def Device.copyFields (base from_ : Device) (fs : List Fld) : Device := fs.foldl (fun d f => d.wr f 0 (from_.rd f 0)) base

/-- Spaces whose contents a reset of the device does not touch: save store, staging buffer, host memory. -/
def outside (c : Nat) : Bool := decide (spSave * 2 ^ 64 ≤ c)

/-- The last 64 fault records, written or in flight, in order of their indices (R368). -/
def insRec (r : FaultRec) : List FaultRec → List FaultRec
  | [] => [r]
  | x :: xs => if x.index < r.index then x :: insRec r xs else r :: x :: xs
def Device.lastRecords (d : Device) (n : Nat) : List FaultRec :=
  let all := (d.ras.ring.map fun r => r.2) ++ d.ras.inflight
  let s := all.foldr insRec []
  s.drop (s.length - n)

/-- The device as its registers and stores stand after a reset, with what survives it: kept fields, OTP, the field repair array, the save store, host
memory, the always-on domain's records. Device time starts over at the GPS epoch (R178). -/
def Device.cleared (d : Device) : Device :=
  let fresh : Device := {}
  let ras := { fresh.ras with array := d.ras.array, kept := d.ras.kept }
  let p := d.pwr
  let pwr := { fresh.pwr with
    perst := p.perst, pwrfail := p.pwrfail, saveAct := p.saveAct, thermTrip := p.thermTrip, wakeN := p.wakeN, refDown := p.refDown, stagedTorn := p.stagedTorn,
    save := p.save, saveRead := p.saveRead, owners := p.owners, mgtWin := p.mgtWin, i3cWin := p.i3cWin, alerts := p.alerts }
  let mem := d.mem.filter fun c => outside c.1
  let junk := d.junk.filter fun j => outside j.1
  let e : Device := { fresh with cycle := d.cycle, mem := mem, junk := junk, freeCtr := d.freeCtr, sn := d.sn, sent := d.sent, ras := ras, pwr := pwr }
  (e.copyFields d keptFields).wr RAS_REPAIR_STAT.free 0 (0x100 - d.ras.array.length)

/-- A device reset (R368): outputs safe, the last 64 records and the cause kept, everything else at its reset value; start-up follows. The last record
is the reset's own, op 0x11 (Table 12-5). -/
def Device.deviceReset (d : Device) (cause unit : Nat) : Device :=
  let d := d.pulsesLow
  let d := ((d.incSat RAS_RESET_CAUSE.resets 0 1).wr RAS_RESET_CAUSE.unit 0 unit).wr RAS_RESET_CAUSE.cause 0 cause
  let d := d.logCore { unit := unit, sev := 7, op := 0x11, detail := (d.reg .RAS_RESET_CAUSE 0).toNat }
  let last := d.lastRecords 64
  { d with ras := { d.ras with kept := last } }.cleared

/-- DEVICE_RESET (R367, R368): an uncorrectable error in a System page (`page`) or in control-complex SRAM, of a unit and a store kind. A free value stands for
the syndrome. -/
def deviceReset (unit kind : Nat) (page : Bool) (d : Device) : Device :=
  let f := d.fresh (2 ^ 56)
  let d := f.2.log { unit := unit, sev := 7, op := 0x02, detail := f.1 + kind <<< 56 }
  d.deviceReset (if page then 1 else 2) unit

/-! ### Correctable errors -/

/-- An error handled as uncorrectable at a routing engine: its routes and blends in progress end (R258, Table 12-6). -/
def Device.eccEngine (d : Device) (u idx : Nat) : Device :=
  (List.range 64).foldl (fun d k =>
    if d.engineUnit (k / 8) = u then
      match (d.rctx (k / 8) (k % 8)).route with
      | some r => d.failRoute (k / 8) (k % 8) r stEcc (eccDetail idx u 0xFFFF) 8
      | none => d
    else d) d

/-- A correctable error of a unit (R366). Of a pending unit it is handled as uncorrectable where it is found (R369, Tables 12-6 and 12-7): `place` is 0 for a
core's operand read or fetch, 1 for a System page, 2 for control-complex SRAM, 3 elsewhere; a channel halts. An error of a spare during its bring-in
retires the spare. -/
def correctableError (u kind row place : Nat) (d : Device) : Device :=
  let r := d.correctable u kind row
  let d := r.1
  let spare := d.ras.cores.find? fun b => unitOf (b.spare / 52) (b.spare % 52) == coreOfUnit u
  if let some b := spare then d.spareFails b 0xFF
  else if !r.2 then d
  else if place = 1 || place = 2 then deviceReset u kind (place == 1) d
  else
    let idx := d.nextRec
    let leg := if place = 0 then (d.logicalOf (coreOfUnit u)).bind fun n => (d.core n).leg.map fun l => (n, l) else none
    match leg with
    | some (n, l) =>
      let d := (d.escalated u kind l.rec_).closeLeg n l (l.count + 1) csIdle
      let d := if l.internal = 0 then d.failRun l.sn stEcc (eccDetail idx u l.idx) else d
      d.legOver l
    | none =>
      let d := d.escalated u kind { unit := 0, sev := 0, op := 0x02 }
      if isEngineUnit u then d.eccEngine u idx
      else if u / 4096 = 6 && decide (0x100 ≤ u % 4096) && decide (u % 4096 < 0x1C0) then d.haltChan (u % 4096 - 0x100) (eccDetail idx u 0xFFFF) else d

end Sys2Proof.Machine
end

