-- ==== Sys2Proof/Machine/Rsa.lean ====
section
/-! DEFINITION. RSASSA-PSS of PKCS#1 v2.2 as R468 sets it up: SHA-512, MGF1 with SHA-512, salt of 64 bytes, trailer 0xBC, public exponent 65,537. -/

namespace Sys2Proof.Machine

/-- x to the power 65,537 modulo n. -/
def pow65537 (x n : Nat) : Nat := (((List.range 16).foldl (fun y _ => y * y % n) (x % n)) * x) % n

/-- MGF1 with SHA-512. -/
def mgf1 (seed : List Byte) (len : Nat) : List Byte :=
  ((List.range (ceilDiv len 64)).flatMap fun i => sha512 (seed ++ toBE 4 i)).take len

/-- Verification of a signature of 512 bytes over a message under a modulus, both most significant byte first. -/
def rsaPssVerify (modulus msg sig : List Byte) : Bool :=
  let n := beNat modulus
  let s := beNat sig
  if n < 2 || n ≤ s || sig.length ≠ 512 then false
  else
    let emBits := Nat.log2 n
    let emLen := ceilDiv emBits 8
    let m := pow65537 s n
    if emLen < 130 || 2 ^ (8 * emLen) ≤ m then false
    else
      let em := toBE emLen m
      let dbLen := emLen - 65
      let masked := em.take dbLen
      let h := (em.drop dbLen).take 64
      let top := 8 * emLen - emBits
      let clear (b : Byte) : Byte := b &&& BitVec.ofNat 8 (255 >>> top)
      let raw := (masked.zip (mgf1 h dbLen)).map fun p => p.1 ^^^ p.2
      let db := match raw with
        | [] => []
        | b :: bs => clear b :: bs
      let pad := dbLen - 65
      let head := match masked with
        | [] => true
        | b :: _ => clear b == b
      (em.drop (emLen - 1) == [0xBC]) && head && (db.take pad).all (fun b => b == 0) && ((db.drop pad).take 1 == [1]) &&
      (sha512 (List.replicate 8 0 ++ sha512 msg ++ db.drop (pad + 1)) == h)

end Sys2Proof.Machine
end

