-- ==== Sys2Proof/Machine/Security.lean ====
section
/-! DEFINITION. The security root: operations of SEC_OP_CTL, anti-rollback, attestation, JTAG (R466–R487). -/

namespace Sys2Proof.Machine

/-! ### Operations of SEC_OP_CTL -/

/-- Result codes of Table 16-11. -/
def scFormat : Nat := 1
def scSignature : Nat := 2
def scGeneration : Nat := 3
def scState : Nat := 4
def scFull : Nat := 5
def scFetch : Nat := 6

/-- err and ok of SEC_OP_CTL are cleared by writing 1 (R487). -/
def Device.secAck (d : Device) (value : Nat) : Device :=
  let d := if bit value 62 then d.wr SEC_OP_CTL.err 0 0 else d
  if bit value 61 then d.wr SEC_OP_CTL.ok 0 0 else d

/-- An operation runs: its result waits for SEC_OPERATION_DONE. -/
def Device.secPend (d : Device) (o : SecOp) : Device := { d with pwr := { d.pwr with secOp := some o } }.wr SEC_OP_CTL.busy 0 1

/-- A write of SEC_OP_CTL that names an operation (R487): the tenancy is taken, and the body answers the operation's result. One written while another runs is
ignored. -/
def Device.secOp (d : Device) (fn value op : Nat) (body : Device → Nat → Device × Nat × Nat) : Device :=
  if !d.fnAwake fn then d
  else if fn ≠ 0 then d.hostErr 0x1100020 0
  else
    let d := d.secAck value
    if d.on SEC_OP_CTL.busy 0 then d
    else
      let t := bits value 13 8
      let d := d.wr SEC_OP_CTL.tenancy 0 t
      if bits value 3 0 ≠ op then d
      else
        let r := body d t
        r.1.secPend { op := op, ten := t, code := r.2.1, scope := r.2.2 }

/-- The blob at SEC_OP_ADDR in the PF's space (R487); `resp` tells how the host answered the read. -/
def Device.secBlob (d : Device) (resp n : Nat) : Option (List Byte) :=
  if resp = 0 then some (d.peek devKey (spHost 0) (d.rd SEC_OP_ADDR.addr 0 * 64) n) else none

/-- Parts of the signed blobs of Tables 16-2, 16-4 and 16-6. -/
def bmModulus (b : List Byte) : List Byte := (b.drop 64).take 512
def bmSig (b : List Byte) : List Byte := (b.drop 576).take 512
def bmSigned (b : List Byte) : List Byte := b.take 576
def allZero (b : List Byte) (lo n : Nat) : Bool := ((b.drop lo).take n).all fun x => x == 0

/-- The owner record in force (R474). -/
def Device.owner (d : Device) : Option (List Byte × List Byte) := d.pwr.owners.getLast?

/-- Op 0x1: an owner record from the blob of Table 16-4 (R474). -/
def ownerEnrol (fn value resp : Nat) (d : Device) : Device :=
  d.secOp fn value 1 fun d _ =>
    match d.secBlob resp 1088 with
    | none => (d, scFetch, 0)
    | some b =>
      let signed := match d.owner with
        | none => true
        | some o => rsaPssVerify o.1 (bmSigned b) (bmSig b)
      if leAt b 0 4 ≠ 0x09604F57 || !allZero b 4 28 then (d, scFormat, 0)
      else if 4 ≤ d.pwr.owners.length then (d, scFull, 0)
      else if !signed then (d, scSignature, 0)
      else
        let os := d.pwr.owners ++ [(bmModulus b, (b.drop 32).take 32)]
        ({ d with pwr := { d.pwr with owners := os } }.wr SEC_BOOT_STAT.owners 0 os.length, 0, 0)

/-- The fabric keys of a tenancy as SEC_TEN_STAT shows them. -/
def Device.setKeys (d : Device) (t : Nat) (k : FabKeys) : Device :=
  let d := { d with fab := { d.fab with keys := smSet d.fab.keys t {} k } }
  let d := (d.wr SEC_TEN_STAT.cur_valid t (b2n k.cur.isSome)).wr SEC_TEN_STAT.next_valid t (b2n k.next.isSome)
  let d := (d.wr SEC_TEN_STAT.prev_valid t (b2n k.prev.isSome)).wr SEC_TEN_STAT.activate_pending t (b2n k.activate)
  d.wr SEC_TEN_STAT.fkey_gen t ((k.cur.map fun c => c.1).getD 0)

/-- Whether a generation is newer than a key's (R482). -/
def newerGen (g : Nat) : Option (Nat × List Byte) → Bool
  | none => true
  | some c => let k := (g + 2 ^ 32 - c.1) % 2 ^ 32
              decide (1 ≤ k) && decide (k < 2 ^ 31)

/-- Op 0x2: the blob of Table 16-5 becomes the tenancy's next key (R482). -/
def fabricKeyImport (fn value resp : Nat) (d : Device) : Device :=
  d.secOp fn value 2 fun d t =>
    match d.secBlob resp 72, d.owner with
    | none, _ => (d, scFetch, 0)
    | some _, none => (d, scState, 0)
    | some b, some o =>
      let r := gcmUnseal o.2 ((b.drop 12).take 12) (b.take 12) ((b.drop 24).take 32)
      let k := d.fabKeys t
      let g := leAt b 8 4
      if leAt b 0 4 ≠ 0x0960464B || !allZero b 5 3 || leAt b 4 1 ≠ t then (d, scFormat, 0)
      else if r.2 ≠ (b.drop 56).take 16 then (d, scSignature, 0)
      else if !newerGen g k.cur then (d, scGeneration, 0)
      else (d.setKeys t { k with next := some (g, r.1) }, 0, 0)

/-- Op 0x3: next becomes current at the tenancy's next step boundary (R482). -/
def fabricKeyActivate (fn value : Nat) (d : Device) : Device :=
  d.secOp fn value 3 fun d t =>
    let k := d.fabKeys t
    if k.next.isNone then (d, scState, 0) else (d.setKeys t { k with activate := true }, 0, 0)

/-- What op 0x3 asked for, at the boundary. -/
def Device.activateKey (d : Device) (t : Nat) : Device :=
  let k := d.fabKeys t
  if k.activate && k.next.isSome then d.setKeys t { cur := k.next, next := none, prev := k.cur, activate := false } else d

/-- Op 0x4: the previous key is gone (R482). -/
def fabricKeyRetirePrevious (fn value : Nat) (d : Device) : Device :=
  d.secOp fn value 4 fun d t => (d.setKeys t { d.fabKeys t with prev := none }, 0, 0)

/-- Op 0x5: the tenancy's memory key is rolled (R477). -/
def memoryKeyRoll (fn value : Nat) (d : Device) : Device :=
  d.secOp fn value 5 fun d t =>
    let landed := (List.range (d.rd MEM_LAND_CFG.count t)).any fun i => d.landState t i != 0
    if d.rd TEN_STAT.t1_mapped t ≠ 0 || d.rd TEN_STAT.t2_mapped t ≠ 0 || landed || d.rd SCH_KV_POOL.pages t ≠ 0 || d.rd FTP_TEN_CFG.mode t ≠ 0 then
      (d, scState, 0)
    else ({ d with rolls := smSet d.rolls t 0 (smGet d.rolls t 0 + 1) }.incWrap SEC_TEN_STAT.mkey_rolls t 1, 0, 0)

/-- The debug nonce: its four registers, all 0 when none is valid. -/
def Device.nonce (d : Device) : List Byte := (List.range 4).flatMap fun i => toLE 8 (d.rd SEC_DBG_NONCE.nonce i)
def Device.voidNonce (d : Device) : Device := (List.range 4).foldl (fun d i => d.wr SEC_DBG_NONCE.nonce i 0) d

/-- Op 0x6: a fresh nonce (R485); its bits are the security root's random source's. -/
def debugNonce (fn value : Nat) (d : Device) : Device :=
  d.secOp fn value 6 fun d _ =>
    ((List.range 4).foldl (fun d i =>
      let f := d.fresh (2 ^ 64)
      f.2.wr SEC_DBG_NONCE.nonce i f.1) d, 0, 0)

/-- The key a token names: an unrevoked OTP signing key, or the owner in force (R485). -/
def Device.tokenKey (d : Device) (b : List Byte) : Bool :=
  let h := sha512 (bmModulus b)
  if leAt b 5 1 = 0 then (List.range 4).any fun s => !bit (d.rd SEC_BOOT_STAT.revoked 0) s && Config.keyHash s == h
  else if leAt b 5 1 = 1 then (match d.owner with
    | some o => sha512 o.1 == h
    | none => false)
  else false

/-- Op 0x7: the token of Table 16-6 (R485). -/
def debugUnlock (fn value resp : Nat) (d : Device) : Device :=
  d.secOp fn value 7 fun d _ =>
    match d.secBlob resp 1088 with
    | none => (d, scFetch, 0)
    | some b =>
      let good := leAt b 0 4 == 0x09604454 && decide (leAt b 4 1 < 4) && allZero b 6 2 && allZero b 48 16 && leAt b 8 8 == d.rd SEC_SERIAL.serial 0 &&
        (b.drop 16).take 32 == d.nonce && !allZero d.nonce 0 32 && d.tokenKey b && rsaPssVerify (bmModulus b) (bmSigned b) (bmSig b)
      if good then (d.voidNonce, 0, leAt b 4 1) else (d.hostErr 0x1100020 0, scSignature, 0)

/-- Op 0x8: every window closes at once (R486). -/
def debugLock (fn value : Nat) (d : Device) : Device := d.secOp fn value 8 fun d _ => (d.wr SEC_BOOT_STAT.dbg_scope 0 0, 0, 0)

/-- An operation finishes (R487). A passed unlock records its scope and resets the device (R485). -/
def secOperationDone (d : Device) : Device :=
  match d.pwr.secOp with
  | none => d
  | some o =>
    let d : Device := { d with pwr := { d.pwr with secOp := none } }
    let d := (d.wr SEC_OP_CTL.busy 0 0).wr SEC_OP_CTL.code 0 o.code
    if o.code ≠ 0 then d.wr SEC_OP_CTL.err 0 1
    else
      let d := d.wr SEC_OP_CTL.ok 0 1
      if o.op = 7 then (d.wr SEC_BOOT_STAT.dbg_scope 0 o.scope).deviceReset 4 unitNone else d

/-! ### Anti-rollback -/

/-- A write of 1 to SEC_ARB.advance starts the programming (R471). -/
def arbAdvance (fn : Nat) (d : Device) : Device :=
  if !d.fnAwake fn then d
  else if fn ≠ 0 then d.hostErr 0x1100008 0
  else if d.on SEC_ARB.busy 0 then d else d.wr SEC_ARB.busy 0 1

/-- The counts stand at the svn of the running images, never lower than before (R471). -/
def arbProgramDone (d : Device) : Device :=
  if !d.on SEC_ARB.busy 0 then d
  else
    let up (d : Device) (c s : Fld) : Device := d.wr c 0 (max (d.rd c 0) (d.rd s 0))
    (up (up (up d SEC_ARB.srf_count SEC_BOOT_STAT.srf_svn) SEC_ARB.cpf_count SEC_BOOT_STAT.cpf_svn) SEC_ARB.aof_count SEC_BOOT_STAT.aof_svn).wr
      SEC_ARB.busy 0 0

/-! ### Attestation -/

/-- An answer of the DOE mailbox. -/
def Device.answerSpdm (d : Device) (r : Spdm) : Device := { d with sent := .spdm r :: d.sent }

def spdmGetVersion (d : Device) : Device := d.answerSpdm .version
def spdmGetCapabilities (d : Device) : Device := d.answerSpdm (.capabilities 16)
def spdmNegotiateAlgorithms (d : Device) : Device := d.answerSpdm .algorithms
def spdmGetDigests (d : Device) : Device := d.answerSpdm (.digests (sha512 Config.certChain))

/-- GET_CERTIFICATE: a part of the chain (R472, R473). -/
def spdmGetCertificate (off len : Nat) (d : Device) : Device := d.answerSpdm (.certificate off ((Config.certChain.drop off).take len))

/-- Measurements of Table 16-1 by index (R470). -/
def Device.measured (d : Device) (i : Nat) : List (Nat × List Byte) := d.pwr.meas.filter fun m => m.1 == i || i == 0xFF

/-- A signature of the device identity key, with the salt it draws (R472, R473). -/
def Device.sign (d : Device) (msg : List Byte) : List Byte × Device :=
  let s := d.freshBytes 64
  (Config.rsaPssSign (s.1 ++ msg), s.2)

/-- CHALLENGE: signed CHALLENGE_AUTH (R473). -/
def spdmChallenge (nonce : List Byte) (d : Device) : Device :=
  let r := d.freshBytes 32
  let chain := sha512 Config.certChain
  let ms := sha512 (d.pwr.meas.flatMap fun m => m.2)
  let s := r.2.sign (nonce ++ r.1 ++ chain ++ ms)
  s.2.answerSpdm (.challengeAuth r.1 chain ms s.1)

/-- GET_MEASUREMENTS, signed where asked (R473). -/
def spdmGetMeasurements (index : Nat) (signed : Bool) (nonce : List Byte) (d : Device) : Device :=
  let ms := d.measured index
  if !signed then d.answerSpdm (.measurements [] ms [])
  else
    let r := d.freshBytes 32
    let s := r.2.sign (nonce ++ r.1 ++ ms.flatMap fun m => m.2)
    s.2.answerSpdm (.measurements r.1 ms s.1)

/-- Any other request (R473). -/
def spdmUnsupported (d : Device) : Device := d.answerSpdm .unsupported

/-! ### JTAG -/

/-- A JTAG instruction: executed when public or within the open scope, else held (R484). -/
def jtagInstruction (ir : Nat) (isPublic : Bool) (d : Device) : Device :=
  if isPublic || bit (d.rd SEC_BOOT_STAT.dbg_scope 0) 1 then { d with pwr := { d.pwr with tap := some ir } }
  else { d with pwr := { d.pwr with tapHeld := some ir } }

end Sys2Proof.Machine
end

