-- ==== Sys2Proof/Machine/Startup.lean ====
section
/-! DEFINITION. Start-up, verified boot and recovery, built-in test, the fills, power-on, and the return of reference clocks (R360, R467–R470, R493–R495,
R517–R520). -/

namespace Sys2Proof.Machine

/-! ### Alerts -/

/-- An IBI of an alert code, where the target and the mask allow it, at most once per 10 ms (R508). -/
def Device.ibi (d : Device) (code : Nat) : Device :=
  let soon := d.pwr.alerts.any fun a => a.1 == code && decide (d.cycle < a.2 + 18000000)
  if !d.on MGT_CFG.i3c_en 0 || !bit (d.rd MGT_CFG.alert_mask 0) (code - 1) || soon then d
  else
    let as := (code, d.cycle) :: d.pwr.alerts.filter fun a => a.1 != code
    { d with pwr := { d.pwr with alerts := as }, sent := .ibi code :: d.sent }

/-- What follows a change of the service level beside its own effects: LEAVE when the device becomes unserviceable (Table 1-5), alert 0x01. -/
def Device.watchSvc (d old : Device) : Device :=
  let d := if d.unserviceable && !old.unserviceable then d.sendLeave else d
  if old.on GEN_SVC.eval_done 0 && d.rd GEN_SVC.svc_level 0 ≠ old.rd GEN_SVC.svc_level 0 then d.ibi 1 else d

/-! ### Beginning -/

/-- The saved save as PWR_SAVE_STAT shows it (R502). -/
def Device.showSave (d : Device) : Device :=
  let h := d.pwr.save.map fun s => s.1
  let d := (d.wr PWR_SAVE_STAT.valid 0 (b2n h.isSome)).wr PWR_SAVE_STAT.torn 0 (b2n ((h.map fun h => h.torn).getD false))
  d.wr PWR_SAVE_STAT.invalid_blocks 0 (b2n ((h.map fun h => h.validBlocks != 524288).getD false))

/-- The fields of the configuration block of measurement index 5 (R470). -/
def Device.configFields (d : Device) : List Nat :=
  [d.rd SEC_ARB.srf_count 0, d.rd SEC_ARB.cpf_count 0, d.rd SEC_ARB.aof_count 0, d.rd SEC_BOOT_STAT.revoked 0, d.rd SEC_BOOT_STAT.owners 0,
   (d.reg .GEN_ID 0).toNat, d.rd SEC_BOOT_STAT.dbg_scope 0]

/-- Step 1 of Table 17-3: the ROM starts and measures index 1; index 5 is taken with it (R470). -/
def Device.beginStart (d : Device) : Device :=
  let ms := [(1, sha512 Config.romImage), (5, sha512 (Config.configBlock d.configFields))]
  let p := { d.pwr with held := false, startAt := d.cycle, thermTrip := false, wakeN := false, meas := ms }
  (({ d with pwr := p }.wr PWR_STATE_STAT.state 0 4).wr PWR_START_STAT.step 0 1).showSave

/-- The device as it leaves Deep: everything but what the always-on domain kept is at reset; device time goes on, in doubt (R493). -/
def Device.fromDeep (d : Device) : Device :=
  let e := d.cleared.copyFields d deepFields
  let e : Device := { e with fab := { e.fab with members := d.fab.members }, ftp := { e.ftp with capable := d.ftp.capable, left := d.ftp.left } }
  let e := if d.pwr.wakeN then e else e.wr PWR_STATE_STAT.wake_src 0 7
  { e with pwr := { e.pwr with deepExit := true } }.setTime d.time

/-- STARTUP (R494): PERST# has been high for 1 µs (`deassert`; each accepted deassertion starts again at step 1), or a device reset has ended. During a save
PERST# is not acted on (R522). -/
def startup (deassert : Bool) (d : Device) : Device :=
  if d.pwr.saveAct then d
  else if deassert then
    if !d.pwr.perst then d
    else
      let d : Device := { d with pwr := { d.pwr with perst := false } }
      let st := d.rd PWR_STATE_STAT.state 0
      (if st = 2 then d.fromDeep else d.cleared).beginStart
  else if d.pwr.held && !d.pwr.perst then d.beginStart
  else d

/-! ### Verified boot -/

/-- Kind code of the image of the stage after step `n`, and its fields of SEC_BOOT_STAT and SEC_ARB (Table 16-1). -/
def stageKind (n : Nat) : Nat := if n = 1 then 1 else if n = 2 then 3 else if n = 3 then 2 else 0
def stageCount (k : Nat) : Fld := if k = 1 then SEC_ARB.srf_count else if k = 2 then SEC_ARB.cpf_count else SEC_ARB.aof_count
def stageSvn (k : Nat) : Fld := if k = 1 then SEC_BOOT_STAT.srf_svn else if k = 2 then SEC_BOOT_STAT.cpf_svn else SEC_BOOT_STAT.aof_svn
def stageSlot (k : Nat) : Fld := if k = 1 then SEC_BOOT_STAT.srf_slot else if k = 2 then SEC_BOOT_STAT.cpf_slot else SEC_BOOT_STAT.aof_slot

/-- Checks of a copy (R468, R469), as the code of Table 16-11 that its failure carries; 0 when all hold. -/
def Device.imageCode (d : Device) (kind : Nat) (img : List Byte) : Nat :=
  let n := leAt img 12 4
  let slot := leAt img 5 1
  let svn := leAt img 6 1
  if leAt img 0 4 ≠ 0x0960494D || leAt img 4 1 ≠ kind || decide (4 ≤ slot) || decide (64 < svn) || !allZero img 7 1 || !allZero img 16 48 ||
      n % 64 ≠ 0 || decide (8388608 < n) || img.length ≠ 1088 + n then scFormat
  else if sha512 (bmModulus img) ≠ Config.keyHash slot || bit (d.rd SEC_BOOT_STAT.revoked 0) slot then scSignature
  else if svn < d.rd (stageCount kind) 0 then scGeneration
  else if rsaPssVerify (bmModulus img) (bmSigned img ++ img.drop 1088) (bmSig img) then 0
  else scSignature

/-- A unit is out of service from start-up on: a working spare of its kind takes its place where there is one (R360, R371, R372). One that failed its
test (`tested`) has its records: retired, with the cause 0xFF, and brought in, remapped or lost (R26; log 96); a field repair entry has none. -/
def Device.bootRetire (d : Device) (tested : Bool) (u : Nat) : Device :=
  if d.ras.lost.contains u then d
  else
    let l := d.logicalOf u
    let e := (List.range 8).find? fun e => engineUnitOf (d.rd RTE_MAP.phys e) == u
    let note (d : Device) (op fl detail : Nat) : Device := if tested then d.log { unit := u, sev := 5, op := op, flags := fl, detail := detail } else d
    let came (d : Device) (su : Nat) : Device := if tested then d.logBringIn u su else d
    let gone (d : Device) : Device := note d 0x0E 0 0xFF
    let d := note d 0x0D 32 0xFF
    let d : Device := { d with ras := { d.ras with lost := u :: d.ras.lost } }
    if isCoreUnit u then
      let d := match l with
        | none => d
        | some n =>
          match d.spareCore (u / 4096) with
          | some p => came (((d.wr COR_LMAP.phys n p).wr COR_LMAP.remapped n 1).describeCore n) (unitOf (p / 52) (p % 52))
          | none => gone (d.setCoreSt n csLost)
      d.showSpares (u / 4096)
    else if isEngineUnit u then
      let d := match e with
        | none => d
        | some e =>
          if d.engineSpareFree e then came ((d.wr RTE_MAP.phys e (spareEngine e)).wr RTE_MAP.remapped e 1) (engineUnitOf (spareEngine e))
          else gone (d.wr RTE_MAP.state e 5)
      (List.range 8).foldl (fun d e => d.wr RTE_MAP.spare_avail e (b2n (d.engineSpareFree e))) d
    else if isPcUnit u then
      match d.sparePc u with
      | some s => note { d with ras := { d.ras with psMap := smIns d.ras.psMap (d.pcOrigin u) s } } 0x1B 0 (u + s <<< 16)
      | none => gone d
    else if inRange u (unitOf 6 0) 4 then
      let k := u % 4096
      let act := d.rd RAS_CP_STAT.active 0
      let s := d.rd RAS_CP_STAT.spare 0
      let free := !d.on RAS_CP_STAT.no_spare 0
      let d := d.wr RAS_CP_STAT.working 0 (d.rd RAS_CP_STAT.working 0 &&& (15 - 2 ^ k))
      if !free then gone (d.wr RAS_CP_STAT.active 0 (act &&& (15 - 2 ^ k)))
      else
        let d := d.wr RAS_CP_STAT.no_spare 0 1
        if s = k then d else came (d.wr RAS_CP_STAT.active 0 ((act &&& (15 - 2 ^ k)) ||| 2 ^ s)) (unitOf 6 s)
    else if inRange u (unitOf 6 0x30) 4 then d.wr FAB_LANE_SPARE.avail (u % 4096 - 0x30) 0
    else gone d

/-- A field repair entry at start-up (R370, R371). Row and column repairs change no data. -/
def Device.bootRepair (d : Device) (e : Nat) : Device :=
  let u := reUnit e
  if reKind e = 3 then
    match d.logicalOf u with
    | none => d
    | some n =>
      let w := (d.reg .COR_CUBE_REPAIR n).toNat
      let cube := bits e 43 40
      let row := 8 + bits e 39 37
      if cubeField w cube = row then d
      else if 8 ≤ cubeField w cube then d.bootRetire false u
      else ((d.setReg .COR_CUBE_REPAIR n (BitVec.ofNat 64 (repairRow w cube (row - 8)))).wr COR_TIMING.cube_depth n 5).wr COR_TIMING.leg_start n 25
  else if reKind e = 6 then
    let s := u / 4096 * 4096 + 0x100 + (u % 4096 - 0x100) / 128 * 128 + 64 + bits e 43 43
    { d with ras := { d.ras with psMap := smIns d.ras.psMap (d.pcOrigin u) s, lost := u :: d.ras.lost } }
  else if 7 ≤ reKind e && reKind e ≤ 0xA then d.bootRetire false u
  else d

/-- The records that the always-on domain kept stand in entries 0 to 63, and the log goes on at 64 (R368). -/
def Device.bootRecords (d : Device) : Device :=
  if d.ras.kept.isEmpty then d
  else
    let ring := d.ras.kept.zipIdx.map fun (x : FaultRec × Nat) => (x.2, { x.1 with index := x.2, flags := x.1.flags ||| 16 })
    { d with ras := { d.ras with ring := ring, kept := [] } }.wr RAS_LOG_STAT.head 0 64

/-- The next stage runs: measured first, then started (R467, R470, Table 17-3). `slot` 0 copy A, 1 copy B, 2 supplied by the host. -/
def Device.runStage (d : Device) (kind slot : Nat) (img : List Byte) : Device :=
  let idx := if kind = 1 then 2 else if kind = 3 then 4 else 3
  let ms := d.pwr.meas ++ [(idx, sha512 img)]
  let d : Device := { d with pwr := { d.pwr with meas := ms } }
  let d := (d.wr (stageSvn kind) 0 (leAt img 6 1)).wr (stageSlot kind) 0 slot
  let d := d.wr PWR_START_STAT.step 0 (d.rd PWR_START_STAT.step 0 + 1)
  if kind = 3 then
    let d := (d.wr PWR_SAVE_STAT.armed 0 1).wr MGT_STAT.link_up 0 (d.rd MGT_CFG.m0_en 0)
    if d.on PWR_SAVE_STAT.valid 0 then d.ibi 4 else d
  else if kind = 2 then
    let d := d.bootRepairs.foldl (fun d e => d.bootRepair e) d.bootRecords
    let d := ((List.range 16).filter fun p => d.on FAB_PORT_CFG.enable p && !d.pwr.refDown.contains (p / 4)).foldl (fun d p => d.wr FAB_PORT_STAT.state p ptTraining) d
    (List.range 192).foldl (fun d n => if d.coreSt n = csLost then d else d.setCoreSt n csTest) d
  else d

/-- Whether the domains beside always-on and save stand still: held in reset, or gated. -/
def Device.unpowered (d : Device) : Bool := d.pwr.perst || d.pwr.gated

/-- Whether start-up stands before a verified stage. -/
def Device.booting (d : Device) : Bool :=
  !d.pwr.held && !d.pwr.pwrfail && !d.unpowered && d.rd PWR_STATE_STAT.state 0 == 4 && stageKind (d.rd PWR_START_STAT.step 0) != 0

/-- IMAGE_VERIFIED (R469): the next stage's copies A and B as the flash holds them. Copy A is tried first; each rejected copy counts. -/
def imageVerified (a b : List Byte) (d : Device) : Device :=
  if !d.booting || d.on SEC_BOOT_STAT.recovery 0 then d
  else
    let k := stageKind (d.rd PWR_START_STAT.step 0)
    if d.imageCode k a = 0 then d.runStage k 0 a
    else
      let d := d.incSat SEC_BOOT_STAT.boot_failures 0 1
      if d.imageCode k b = 0 then d.runStage k 1 b
      else (d.incSat SEC_BOOT_STAT.boot_failures 0 1).wr SEC_BOOT_STAT.recovery 0 1

/-- Op 0x9: an image supplied by the host in recovery (R469, R487). -/
def recoveryImage (fn value resp : Nat) (d : Device) : Device :=
  d.secOp fn value 9 fun d _ =>
    if !d.on SEC_BOOT_STAT.recovery 0 || !d.booting then (d, scState, 0)
    else
      match d.secBlob resp 1088 with
      | none => (d, scFetch, 0)
      | some h =>
        let n := leAt h 12 4
        let img := h ++ d.peek devKey (spHost 0) (d.rd SEC_OP_ADDR.addr 0 * 64 + 1088) (if n ≤ 8388608 then n else 0)
        let k := stageKind (d.rd PWR_START_STAT.step 0)
        let c := d.imageCode k img
        if c ≠ 0 then (d, c, 0) else ((d.wr SEC_BOOT_STAT.recovery 0 0).runStage k 2 img, 0, 0)

/-! ### Test and fills -/

/-- Largest power of two not above n, for n up to 8. -/
def pow2Below (n : Nat) : Nat := if 8 ≤ n then 8 else if 4 ≤ n then 4 else if 2 ≤ n then 2 else n

/-- Positions of the lowest set stacks (R495). -/
def Device.showMap (d : Device) : Device :=
  let ok := (List.range 8).filter d.stackWorks
  let w := pow2Below ok.length
  (d.wr PWR_START_STAT.t1_w 0 w).wr PWR_START_STAT.t1_stacks 0 (maskOf 8 fun s => (ok.take w).contains s)

/-- BUILT_IN_TEST_DONE (R360): the units that failed are out of service before the fill. -/
def builtInTestDone (failing : List Nat) (d : Device) : Device :=
  if d.rd PWR_STATE_STAT.state 0 ≠ 4 || d.rd PWR_START_STAT.step 0 ≠ 4 || d.pwr.held then d
  else
    let d := failing.foldl (fun d u => if unitExists u then d.bootRetire true u else d) d
    let d := (List.range 192).foldl (fun d n => if d.coreSt n = csLost then d else d.setCoreSt n csFill) d
    let d := (List.range 8).foldl (fun d e => if d.rd RTE_MAP.state e = 5 then d else d.wr RTE_MAP.state e 2) d
    (d.showMap).wr PWR_START_STAT.step 0 5

/-- TIER1_FILL_DONE (R293): steps 6 to 8 of Table 17-3 are complete, cores leave Fill, and the first service evaluation takes place. -/
def tier1FillDone (d : Device) : Device :=
  if d.rd PWR_STATE_STAT.state 0 ≠ 4 || d.rd PWR_START_STAT.step 0 ≠ 5 || d.pwr.held then d
  else
    let d := ((d.wr MEM_FILL_STAT.ts_done 0 1).wr MEM_FILL_STAT.dp_done 0 1).wr MEM_FILL_STAT.t1_done 0 1
    let d := (List.range 192).foldl (fun d n => if d.coreSt n = csFill then d.setCoreSt n csIdle else d) d
    let d := (d.wr PWR_START_STAT.step 0 8).wr PWR_START_STAT.start_ms 0 (min ((d.cycle - d.pwr.startAt) / 1800000) (2 ^ 32 - 1))
    let d := serviceEvaluation (d.wr PWR_STATE_STAT.state 0 0)
    if d.pwr.deepExit then { d with pwr := { d.pwr with deepExit := false } }.ibi 5 else d

/-- Step 9 of Table 17-3, with the end of the tier-2 fill (R293). -/
def fillsDone (d : Device) : Device :=
  if !d.on MEM_FILL_STAT.t1_done 0 then d
  else
    let d := tier2FillDone d
    if d.rd PWR_START_STAT.step 0 = 8 then d.wr PWR_START_STAT.step 0 9 else d

/-! ### Supplies and reference clocks -/

/-- PWRFAIL_N has been high for 100 ms (R494, R503). -/
def pwrfailNRise (d : Device) : Device := { d with pwr := { d.pwr with pwrfail := false } }

/-- The always-on domain starts from nothing: what it kept is lost, debug scope with it (R486, R511, R517). -/
def Device.aonLost (d : Device) : Device :=
  let e := d.cleared
  let e : Device := { e with ras := { e.ras with kept := [] }, pwr := { e.pwr with saveAct := false, thermTrip := false, wakeN := false, mgtWin := (0, 0), i3cWin := (0, 0), alerts := [] } }
  ([RAS_RESET_CAUSE.resets, RAS_RESET_CAUSE.cause, SEC_BOOT_STAT.dbg_scope, PWR_STATE_STAT.tripped, PWR_SAVE_STAT.unread_lost].foldl (fun d f => d.wr f 0 0) e).showSave

/-- POWER_ON: the always-on rails enter tolerance, with PWRFAIL_N and PERST# low (R517, Table 18-5). -/
def powerOn (d : Device) : Device :=
  let e := d.aonLost
  { e with pwr := { e.pwr with perst := true, pwrfail := true } }.wr RAS_RESET_CAUSE.unit 0 unitNone

/-- AON_SUPPLY_LOSS (R518): a save in progress leaves no valid header; the header was invalidated when it began. -/
def aonSupplyLoss (d : Device) : Device :=
  let e := d.aonLost
  { e with pwr := { e.pwr with gated := true } }

/-- FREFg is lost or returns (R520): the ports of its group go down, or may train. -/
def frefLoss (g : Nat) (d : Device) : Device :=
  let d : Device := { d with pwr := { d.pwr with refDown := g :: d.pwr.refDown.filter fun x => x != g } }
  ((List.range 4).map (4 * g + ·)).foldl (fun d p => portDown p d) d
def frefReturn (g : Nat) (d : Device) : Device :=
  let d : Device := { d with pwr := { d.pwr with refDown := d.pwr.refDown.filter fun x => x != g } }
  (((List.range 4).map (4 * g + ·)).filter fun p => d.on FAB_PORT_CFG.enable p && d.rd FAB_PORT_STAT.state p == ptDown).foldl (fun d p => d.wr FAB_PORT_STAT.state p ptTraining) d

/-- EREF is lost or returns (R520): E0–E3 go down; on its return they may come up again. -/
def erefLoss (d : Device) : Device :=
  let d : Device := { d with pwr := { d.pwr with refDown := 4 :: d.pwr.refDown.filter fun x => x != 4 } }
  (List.range 4).foldl (fun d p => fronthaulLinkChange p false d) d
def erefReturn (d : Device) : Device := { d with pwr := { d.pwr with refDown := d.pwr.refDown.filter fun x => x != 4 } }

/-- Training succeeds, and fronthaul links come up, only with their clock. -/
def portTrains (p lanes : Nat) (d : Device) : Device := if d.pwr.refDown.contains (p / 4) || d.unpowered || !d.serves (unitOf 6 (0x20 + p)) then d else portTrained p lanes d
def fronthaulLink (p : Nat) (up : Bool) (d : Device) : Device := if up && d.pwr.refDown.contains 4 then d else fronthaulLinkChange p up d

end Sys2Proof.Machine
end

