-- ==== Sys2Proof/Machine/Power.lean ====
section
/-! DEFINITION. Power states, removal, power limit and temperature, the power-fail save (R464, R488–R493, R496–R505). -/

namespace Sys2Proof.Machine

/-! ### Power states -/

def psD0 : Nat := 0
def psIdle : Nat := 1
def psDeep : Nat := 2
def psSaved : Nat := 3
def Device.ps (d : Device) : Nat := d.rd PWR_STATE_STAT.state 0

/-- The first condition of R489 that fails, as PWR_STATE_STAT.deny codes it; 0 when Idle-hold may be granted. -/
def Device.idleDeny (d : Device) : Nat :=
  if d.timetablesExist then 1
  else if !d.cmds.isEmpty || (d.queues.any fun q => !q.2.toPost.isEmpty) then 2
  else if !d.mm.chans.isEmpty || !d.mm.waiting.isEmpty || (d.engines.any fun e => e.2.sn != 0) || (List.range 256).any (fun k => d.rd MEM_CHAN_STAT.state k != 0) then 3
  else if d.rd COL_INFLIGHT.count 0 ≠ 0 then 4
  else 0

/-- Whether this device is a manager or deputy, of its span or of the system. -/
def Device.hasRole (d : Device) : Bool :=
  d.on FTP_STAT.sys_manager 0 || d.on FTP_STAT.sys_deputy 0 || d.isSpanMgr ||
  (d.on FTP_MGR.valid 0 && decide (2 ≤ (rankOrder d.fab.members d.ftp.capable (spanOf d.devId)).length) && d.rd FTP_MGR.span_deputy 0 == d.devId)

/-- The further conditions of Deep (R489). -/
def Device.deepDeny (d : Device) : Nat :=
  if d.idleDeny ≠ 0 then d.idleDeny
  else if d.hasRole then 5
  else if (List.range 4).any fun i => d.on FTP_SHADOW_HOST.valid i then 6
  else if (List.range 64).any fun t => d.rd FTP_TEN_CFG.mode t != 0 then 7
  else 0

/-- The routing engines in service as the power state has them: gated in Idle-hold and Deep (Tables 8-14, 17-1). -/
def Device.gateEngines (d : Device) : Device := (List.range 8).foldl (fun d e => d.showEngine e) d

/-- Idle-hold is entered (R490, Table 17-1): cores and routing engines Gated, every up port at one lane. -/
def Device.enterIdle (d : Device) : Device :=
  let d := (List.range 192).foldl (fun d n => if d.coreSt n = csIdle then d.setCoreSt n csGated else d) d
  let d := ((List.range 16).filter d.portUp).foldl (fun d p => d.wr FAB_PORT_STAT.width p 2) d
  (d.wr PWR_STATE_STAT.state 0 psIdle).gateEngines

/-- D0 is reached again from Idle-hold. -/
def Device.leaveIdle (d : Device) (src : Nat) : Device :=
  let d := (d.wr PWR_STATE_STAT.state 0 psD0).gateEngines
  let d := (List.range 192).foldl (fun d n => if d.coreSt n = csGated then d.setCoreSt n csIdle else d) d
  let d := ((List.range 16).filter d.portUp).foldl (fun d p => d.wr FAB_PORT_STAT.width p (d.widthNow p)) d
  d.wr PWR_STATE_STAT.wake_src 0 src

/-- A doorbell, a remote request or a request for D0 clears deep_armed, and the device is in D0 (R491). -/
def Device.disarmDeep (d : Device) (src : Nat) : Device :=
  if d.on PWR_STATE_STAT.deep_armed 0 then
    let d := d.wr PWR_STATE_STAT.deep_armed 0 0
    if d.ps = psIdle then d.leaveIdle src else d
  else d

/-- A write of PWR_STATE_CTL (R511): its RW fields, and `act` when req is the one asked for. -/
def Device.powerCtl (d : Device) (fn value req : Nat) (act : Device → Device) : Device :=
  if !d.fnAwake fn then d
  else if fn ≠ 0 then d.hostErr 0x1200000 0
  else
    let d := ((d.wr PWR_STATE_CTL.deep_port 0 (bits value 35 32)).wr PWR_STATE_CTL.idle_ms 0 (bits value 31 16)).wr PWR_STATE_CTL.auto_idle 0 (bits value 8 8)
    if bits value 1 0 = req then act d else d

/-- REQ_D0 (R490, R491). -/
def reqD0 (fn value : Nat) (d : Device) : Device :=
  d.powerCtl fn value 1 fun d =>
    let d := d.disarmDeep 3
    if d.ps = psIdle then d.leaveIdle 3 else d

/-- REQ_IDLE_HOLD (R489). -/
def reqIdleHold (fn value : Nat) (d : Device) : Device :=
  d.powerCtl fn value 2 fun d =>
    if d.ps ≠ psD0 then d
    else
      let k := d.idleDeny
      let d := d.wr PWR_STATE_STAT.deny 0 k
      if k = 0 then d.enterIdle else d

/-- REQ_DEEP (R489, R491). -/
def reqDeep (fn value : Nat) (d : Device) : Device :=
  d.powerCtl fn value 3 fun d =>
    if d.ps ≠ psD0 && d.ps ≠ psIdle then d
    else
      let k := d.deepDeny
      let d := d.wr PWR_STATE_STAT.deny 0 k
      if k = 0 then d.wr PWR_STATE_STAT.deep_armed 0 1 else d

/-- AUTO_IDLE_EXPIRY (R489). -/
def autoIdleExpiry (d : Device) : Device :=
  if d.on PWR_STATE_CTL.auto_idle 0 && d.ps == psD0 && d.idleDeny == 0 then d.enterIdle else d

/-- IDLE_WAKE (R490): 1 a doorbell, 2 a remote request, 3 a BAR0 write. -/
def idleWake (src : Nat) (d : Device) : Device := if d.ps = psIdle then d.leaveIdle src else d

/-- DEEP_WAKE (R493): 4 M0, 5 I3C, 6 the keep-alive lane. WAKE_N stays asserted until PERST# deasserts. -/
def deepWake (src : Nat) (d : Device) : Device :=
  if d.ps ≠ psDeep then d else { d with pwr := { d.pwr with wakeN := true } }.wr PWR_STATE_STAT.wake_src 0 src

/-- PME_TURN_OFF_RX (R491). -/
def pmeTurnOffRx (d : Device) : Device :=
  if d.hostDown then d else { d with pwr := { d.pwr with l23 := true }, sent := .pmeAck :: d.sent }

/-! ### Removal -/

/-- What a removal does within 1 µs (Table 15-5). -/
def Device.removeHost (d : Device) : Device :=
  let d : Device := { d.pulsesLow.isoMute with pwr := { d.pwr with linkDown := true } }
  (List.range 64).foldl (fun d t => d.dropQueues t) d

/-- LINK_DOWN: the link down without PERST#, hot reset, link disable, PF FLR (R464). On the way into Deep it is no removal (R491). -/
def linkDown (d : Device) : Device :=
  if d.hostDown || d.on PWR_STATE_STAT.deep_armed 0 then d
  else
    let d := d.removeHost.sendLeave
    { d with pwr := { d.pwr with removing := true } }

/-- REMOVAL_RESET_TIMEOUT (R464). -/
def removalResetTimeout (d : Device) : Device := if d.pwr.removing then d.deviceReset 3 unitNone else d

/-- An epoch that removes this device ends its removal too (R464). -/
def epochArrives (src : Nat) (m : Muster) (d : Device) : Device :=
  let d' := epochRx src m d
  if d'.pwr.removing && d'.isolated && !d.isolated then d'.deviceReset 3 unitNone else d'

/-- Deep is entered (R491, R492): cores and routing engines Gated (Table 2-9), pulse outputs low, the keep-alive lane alone up. -/
def Device.enterDeep (d : Device) : Device :=
  let d := (List.range 192).foldl (fun d n => if d.coreSt n = csLost then d else d.setCoreSt n csGated) d.pulsesLow
  let kp := d.rd PWR_STATE_CTL.deep_port 0
  let d := (List.range 16).foldl (fun d p => (d.setLink p {}).wr FAB_PORT_STAT.state p (if p = kp then ptKeepAlive else ptOff)) d
  let d : Device := { d with pwr := { d.pwr with perst := true } }
  ((d.wr PWR_STATE_STAT.deep_armed 0 0).wr PWR_STATE_STAT.state 0 psDeep).gateEngines

/-- PERST_ASSERT (R464, R491, R522): low for 1 µs. During a save and in Saved it only holds the next start-up back. -/
def perstAssert (d : Device) : Device :=
  if d.pwr.perst then d
  else if d.pwr.saveAct || d.ps = psSaved || d.pwr.gated then { d with pwr := { d.pwr with perst := true } }
  else if d.on PWR_STATE_STAT.deep_armed 0 then d.enterDeep
  else
    let d := d.removeHost
    let d := if d.on FTP_CFG.enable 0 then d.sendLeave else d
    let d := d.deviceReset 3 unitNone
    { d with pwr := { d.pwr with perst := true } }

/-! ### The power-fail save -/

/-- Registers in the hardware section (R500). -/
def saveRegs : List (Reg × Nat) :=
  [(.RAS_LOG_STAT, 0), (.RAS_ECC_CNT, 0), (.RAS_ECC_CNT, 1), (.RAS_ECC_CNT, 2), (.RAS_ECC_CNT, 3), (.RAS_ECC_CNT, 4), (.RAS_ECC_CNT, 5), (.GEN_ID, 0), (.GEN_SVC, 0),
   (.SEC_SERIAL, 0), (.FAB_DEV_CFG, 0), (.FTP_STAT, 0)]

/-- Telemetry records n with head − k ≤ n < head. -/
def Device.lastTelem (d : Device) (k : Nat) : List (Nat × List Byte) :=
  let h := d.rd MGT_TELEM_STAT.head 0
  d.pwr.telem.filter fun x => decide (x.1 < h) && decide (h ≤ x.1 + k)

/-- The save of Table 17-5 starts (R501): disarmed, outputs safe, legs discarded without output, ports down, domains gated, the previous header invalid, the
hardware section captured. A snapshot in progress leaves the software section torn; a restore is abandoned (R505). -/
def Device.runSave (d : Device) : Device :=
  let hw : HwSave := { records := (d.ras.ring.map fun r => r.2), regs := saveRegs.map fun r => (regKey r.1 r.2, d.reg r.1 r.2), time := d.time, telem := d.lastTelem 60 }
  let lost := d.pwr.save.isSome && !d.pwr.saveRead
  let torn := d.pwr.stagedTorn
  let d := (d.wr PWR_SAVE_STAT.armed 0 0).removeHost
  let d := (d.cores.map fun c => c.1).foldl (fun d n => d.haltCore n) d
  let d := (List.range 16).foldl (fun d p => (d.setLink p {}).wr FAB_PORT_STAT.state p ptDown) d
  let d := if lost then d.incSat PWR_SAVE_STAT.unread_lost 0 1 else d
  let p := { d.pwr with saveAct := true, gated := true, held := true, removing := false, saving := some hw, save := none, saveRead := false, snapOk := none,
                        restoring := none, stagedTorn := torn }
  { d with tows := [], pwr := p }.showSave.wr PWR_SAVE_STAT.busy 0 0

/-- POWER_FAIL: PWRFAIL_N low for 2 µs (R501, R503, R506). While the save is disarmed the fall only holds start-up back. -/
def powerFail (d : Device) : Device :=
  let d : Device := { d with pwr := { d.pwr with pwrfail := true } }
  if d.on PWR_SAVE_STAT.armed 0 then d.runSave else d

/-- SYSCLK_LOSS acts as PWRFAIL_N (R520). -/
def sysclkLoss (d : Device) : Device := if d.on PWR_SAVE_STAT.armed 0 then d.runSave else d

/-- First cell of the software section, and the bytes of it. -/
def swBase : Nat := 0x80000
def swSize : Nat := 0x380000

/-- Bytes of a space, as cells in another (the sparse form of a copy). -/
def Device.copySection (d : Device) (src dst : Nat) : Device :=
  let cells := d.mem.filter fun c => inRange c.1 (cellAt src swBase) swSize
  let junk := (d.junk.filter fun j => inRange j.1 (cellAt src swBase) swSize).map fun j => (j.1 - cellAt src 0 + cellAt dst 0, j.2)
  let d := d.zero dst swBase swSize
  let m := cells.foldl (fun m c => smSet m (c.1 - cellAt src 0 + cellAt dst 0) 0 c.2) d.mem
  { d with mem := m, junk := junk ++ d.junk }

/-- SAVE_COMPLETE (R501, R502): the header is written last; `bad` blocks failed their code. -/
def saveComplete (bad : Nat) (d : Device) : Device :=
  match d.pwr.saving with
  | none => d
  | some hw =>
    let h : SaveHeader := { time := hw.time, snapSeq := d.rd PWR_SAVE_STAT.snap_seq 0, torn := d.pwr.stagedTorn, validBlocks := 524288 - bad }
    let d := d.copySection spStage spSave
    let d := if bad = 0 then d else (d.incSat RAS_ECC_CNT.uncorrectable 5 (bad - 1)).uncorr (unitOf 6 0x016) 5 { unit := 0, sev := 2, op := 0x02 }
    let d : Device := { d with pwr := { d.pwr with saving := none, save := some (h, hw), saveAct := false } }
    d.showSave.wr PWR_STATE_STAT.state 0 psSaved

/-! ### Snapshots and restore -/

/-- A write of PWR_SAVE_CTL (R511). -/
def Device.saveCtl (d : Device) (fn value op : Nat) (act : Device → Device) : Device :=
  if !d.fnAwake fn then d
  else if fn ≠ 0 then d.hostErr 0x1200038 0
  else
    let d := d.wr PWR_SAVE_CTL.dest 0 (bits value 39 21)
    if bits value 1 0 = op then act d else d

/-- The entries of the save list from entry `i` on, copied in order from offset `pos` of the software section (R500). -/
def snapCopy : Nat → Nat → Nat → Device → Device × Bool
  | 0, _, _, d => (d, true)
  | n + 1, i, pos, d =>
    let e := d.peek devKey spT1 (d.rd PWR_SAVE_CFG.list 0 * 4096 + 16 * i) 16
    let ga := leAt e 0 8
    let len := leAt e 8 4
    if len % 64 ≠ 0 || leAt e 12 4 ≠ 0 || decide (2 < gaSp ga) || !d.isLocal ga || decide (swSize < pos + len) then (d, false)
    else
      match d.readGA 0 ga len with
      | .ok bs => snapCopy n (i + 1) (pos + len) (d.store spStage (swBase + pos) bs)
      | _ => (d, false)

/-- A snapshot starts; the section is torn until it is complete. -/
def Device.startSnap (d : Device) : Device :=
  if d.on PWR_SAVE_STAT.busy 0 then d
  else
    let r := snapCopy (d.rd PWR_SAVE_CFG.count 0) 0 0 d
    { r.1 with pwr := { r.1.pwr with stagedTorn := true, snapOk := some r.2 } }.wr PWR_SAVE_STAT.busy 0 1

/-- SAVE_SNAP and AUTO_SNAPSHOT (R500). -/
def saveSnap (fn value : Nat) (d : Device) : Device := d.saveCtl fn value 1 fun d => d.startSnap
def autoSnapshot (d : Device) : Device := if d.rd PWR_SAVE_CFG.auto_ms 0 = 0 || d.unpowered then d else d.startSnap

/-- SNAPSHOT_DONE (R500). -/
def snapshotDone (d : Device) : Device :=
  match d.pwr.snapOk with
  | none => d
  | some ok =>
    let d : Device := { d with pwr := { d.pwr with snapOk := none, stagedTorn := !ok } }
    let d := d.wr PWR_SAVE_STAT.busy 0 0
    if ok then d.incWrap PWR_SAVE_STAT.snap_seq 0 1 else d.wr PWR_SAVE_STAT.snap_err 0 1

/-- SAVE_RESTORE (R505): accepted while a valid save is stored. -/
def saveRestore (fn value : Nat) (d : Device) : Device :=
  d.saveCtl fn value 2 fun d =>
    if d.on PWR_SAVE_STAT.busy 0 || !d.on PWR_SAVE_STAT.valid 0 then d
    else { d with pwr := { d.pwr with restoring := some (d.rd PWR_SAVE_CTL.dest 0 * pageSize) } }.wr PWR_SAVE_STAT.busy 0 1

/-- SAVE_RESTORE_DONE (R505): both sections stand in tier 1. The hardware section has no stated layout: its bytes are free. -/
def saveRestoreDone (d : Device) : Device :=
  match d.pwr.restoring with
  | none => d
  | some dst =>
    if !d.on MEM_FILL_STAT.t1_done 0 then d
    else
      let cells := d.mem.filter fun c => inRange c.1 (cellAt spSave swBase) swSize
      let d := (d.scramble spT1 dst swBase).zero spT1 (dst + swBase) swSize
      let d := cells.foldl (fun d c => d.poke devKey spT1 (dst + (c.1 - cellAt spSave 0)) [c.2]) d
      { d with pwr := { d.pwr with restoring := none, saveRead := true } }.wr PWR_SAVE_STAT.busy 0 0

/-- SAVE_CLEAR (R505). -/
def saveClear (fn value : Nat) (d : Device) : Device :=
  d.saveCtl fn value 3 fun d => { d with pwr := { d.pwr with save := none } }.showSave

/-! ### Power limit -/

/-- Critical action begins on a compute die (Table 17-4). -/
def Device.setCrit (d : Device) (die : Nat) : Device :=
  if d.pwr.crit.any fun c => c.1 == die then d
  else ({ d with pwr := { d.pwr with crit := smIns d.pwr.crit die none } }.wr PWR_STATE_STAT.crit 0 1).ibi 2

/-- Thermal cut of a die in hundredths (R498). -/
def Device.cutOf (d : Device) (die : Nat) : Nat := (smGet d.pwr.cut die (0, 0)).1

/-- The limit Ld of R497 times 400, in mW; P and Pd in mW. -/
def Device.dieLimit (d : Device) (P Pd die : Nat) : Int :=
  let pkg : Int := 1000 * clampN 300 1400 (d.rd PWR_LIMIT_CFG.pkg_limit_w 0)
  let l4 : Int := min (4000 * (d.rd PWR_LIMIT_CFG.die_limit_w 0 : Int)) (4 * (Pd : Int) + pkg - P)
  l4 * ((100 : Int) - d.cutOf die)

/-- One die's duties (R167, R168, R497): each moves by 1 to 16 per update, by how much the manual leaves open. Prompt work is throttled only while Spare work is
withheld wholly, a Spare leg that R69 exempts among it (R19), and freed first. -/
def Device.throttle (d : Device) (P Pd die : Nat) : Device :=
  let L := d.dieLimit P Pd die
  let s := d.rd SCH_THR_STAT.spare_duty die
  let p := d.rd SCH_THR_STAT.prompt_duty die
  let f := d.fresh 16
  let k := 1 + f.1
  if L < 400 * (Pd : Int) then
    if s < 256 then f.2.wr SCH_THR_STAT.spare_duty die (min 256 (s + k))
    else if p < 256 then (if d.spareExempt die then d else f.2.wr SCH_THR_STAT.prompt_duty die (min 256 (p + k)))
    else if d.on PWR_STATE_STAT.radio_over 0 then d
    else
      let d := (d.wr PWR_STATE_STAT.radio_over 0 1).logCore { unit := unitOf die 0xFFE, sev := 0, op := 0x1C, detail := die }
      (d.raise 0 (d.rd RAS_CTL.vector 0)).ibi 3
  else if 40000 * (Pd : Int) < 98 * L then
    if 0 < p then f.2.wr SCH_THR_STAT.prompt_duty die (p - k)
    else if 0 < s then f.2.wr SCH_THR_STAT.spare_duty die (s - k)
    else d
  else d

/-- Whole watts of a measured power, saturated to a field. -/
def wattsIn (f : Fld) (mw : Nat) : Nat := min (mw / 1000) (2 ^ f.width - 1)

/-- The highest duty of a kind over the dies (Table 17-8). -/
def Device.topDuty (d : Device) (f : Fld) : Nat := ((List.range 4).map fun i => d.rd f i).foldl max 0

/-- POWER_CONTROL_UPDATE (R497): the powers shown, and in D0 the duties set (no leg runs in Idle-hold, R490): package power and the four dies' in mW, as measured. -/
def powerControlUpdate (P p0 p1 p2 p3 : Nat) (d : Device) : Device :=
  if d.unpowered then d
  else
    let d := ((d.wr PWR_POWER_STAT.pkg_w 0 (wattsIn PWR_POWER_STAT.pkg_w P)).wr PWR_POWER_STAT.cd0_w 0 (wattsIn PWR_POWER_STAT.cd0_w p0)).wr PWR_POWER_STAT.cd1_w 0
      (wattsIn PWR_POWER_STAT.cd1_w p1)
    let d := (d.wr PWR_POWER_STAT.cd2_w 0 (wattsIn PWR_POWER_STAT.cd2_w p2)).wr PWR_POWER_STAT.cd3_w 0 (wattsIn PWR_POWER_STAT.cd3_w p3)
    if d.ps ≠ psD0 then d
    else
      let d := (((d.throttle P p0 0).throttle P p1 1).throttle P p2 2).throttle P p3 3
      { d with pwr := { d.pwr with spareMax := max d.pwr.spareMax (d.topDuty SCH_THR_STAT.spare_duty), promptMax := max d.pwr.promptMax (d.topDuty SCH_THR_STAT.prompt_duty) } }

/-! ### Temperature -/

/-- Highest last reading of a die, in quarter degrees (R498): of its cores' sensors, or of the die's own. -/
def Device.tj (d : Device) (die : Nat) : Int :=
  if die < 4 then ((d.ras.temps.filter fun t => t.1 / 4096 == die && decide (t.1 % 4096 < 0x34)).map fun t => t.2).foldl max (-1100)
  else smGet d.ras.temps (unitOf die 0xFFE) 0

/-- PKG_EXCESS_TIMEOUT (R497): package power has been above 1,400 W for 9 ms; critical action on the hottest compute die. -/
def pkgExcessTimeout (d : Device) : Device :=
  if d.unpowered then d
  else d.setCrit ((List.range 4).foldl (fun b k => if d.tj b < d.tj k then k else b) 0)

/-- Whole degrees for a register or record byte. -/
def wholeC (t : Int) : Nat := (max 0 (min 255 (t / 4))).toNat

/-- Temperatures as PWR_THERM_STAT shows them (Table 17-13). -/
def Device.hbmMax (d : Device) : Int := ((List.range 8).map fun s => smGet d.ras.temps (stackUnit s) 0).foldl max (-1100)
def Device.showTherm (d : Device) : Device :=
  let d := ((d.wr PWR_THERM_STAT.hbm_c 0 (wholeC d.hbmMax)).wr PWR_THERM_STAT.iod_c 0 (wholeC (d.tj 6))).wr PWR_THERM_STAT.md1_c 0 (wholeC (d.tj 5))
  (d.wr PWR_THERM_STAT.md0_c 0 (wholeC (d.tj 4))).wr PWR_THERM_STAT.cd_c 0 (((List.range 4).map fun k => wholeC (d.tj k) <<< (8 * k)).foldl (· + ·) 0)

/-- The thermal cut of a die moves with every full millisecond since it last did (Table 17-4). -/
def Device.moveCut (d : Device) (die : Nat) : Device :=
  let hot : Int := 4 * clampN 70 105 (d.rd PWR_LIMIT_CFG.t_hot_c 0)
  let t := d.tj die
  let c := smGet d.pwr.cut die (0, d.cycle)
  let n := (d.cycle - c.2) / 1800000
  let at_ := c.2 + n * 1800000
  let c' := if hot ≤ t then (min 100 (c.1 + 2 * n), at_) else if t < hot - 12 then (c.1 - n, at_) else (c.1, d.cycle)
  { d with pwr := { d.pwr with cut := smIns d.pwr.cut die c' } }

/-- Critical action of a compute die begins at 110 °C and ends after 10 ms below 105 °C (Table 17-4). -/
def Device.moveCrit (d : Device) (die : Nat) : Device :=
  let t := d.tj die
  match d.pwr.crit.find? fun c => c.1 == die with
  | none => if 440 ≤ t then d.setCrit die else d
  | some (_, since) =>
    if 420 ≤ t then { d with pwr := { d.pwr with crit := smIns d.pwr.crit die none } }
    else
      match since with
      | none => { d with pwr := { d.pwr with crit := smIns d.pwr.crit die (some d.cycle) } }
      | some s =>
        if s + 18000000 ≤ d.cycle then
          let cs := smDel d.pwr.crit die
          { d with pwr := { d.pwr with crit := cs } }.wr PWR_STATE_STAT.crit 0 (b2n !cs.isEmpty)
        else d

/-- The thermal trip (R499): THERMTRIP_N, tripped, and the save as if PWRFAIL_N had fallen. A save under way goes on (R522). -/
def Device.trip (d : Device) : Device :=
  let d := ({ d with pwr := { d.pwr with thermTrip := true } }.wr PWR_STATE_STAT.tripped 0 1).ibi 2
  if d.on PWR_SAVE_STAT.armed 0 then d.runSave
  else
    let d := d.removeHost
    { d with pwr := { d.pwr with gated := true, held := true } }

/-- THERMAL_SAMPLE (R496, R498): a sensor reading in quarter degrees, and for a compute die its voltage in mV. `unit` is a physical core, an HBM4 stack, or
a memory-side die or the IOD as a whole (0xFFE). -/
def thermalSample (unit : Nat) (t : Int) (mv : Nat) (d : Device) : Device :=
  let die := unit / 4096
  if d.pwr.gated && !d.pwr.saveAct || d.ps = psDeep || d.ps = psSaved then d
  else
    let d : Device := { d with ras := { d.ras with temps := smSet d.ras.temps unit 0 t, volts := if die < 4 then smSet d.ras.volts die 0 mv else d.ras.volts } }
    let stack := (die == 4 || die == 5) && decide (unit % 4096 < 4)
    if stack then
      let s := 4 * (die - 4) + unit % 4096
      let slow := if 380 ≤ t then s :: d.pwr.hbmSlow.filter (fun x => x != s) else if t < 368 then d.pwr.hbmSlow.filter (fun x => x != s) else d.pwr.hbmSlow
      let d := if 380 ≤ t then d.perturbLegs else d
      { d with pwr := { d.pwr with hbmSlow := slow } }.showTherm
    else
      let d := if die < 4 then { d with ras := { d.ras with temps := smSet d.ras.temps (unitOf die 0xFFE) 0 (d.tj die) } } else d
      let d := d.showTherm
      let d := if die < 4 then (d.moveCut die).moveCrit die else d
      if 480 ≤ d.tj die && !d.pwr.thermTrip then d.trip else d

end Sys2Proof.Machine
end

