-- ==== Sys2Proof/Machine/Mgt.lean ====
section
/-! DEFINITION. The management port M0, the I3C target and telemetry (R506–R510). -/

namespace Sys2Proof.Machine

/-- Register and index at a BAR0 offset that is a multiple of 8. -/
def regAt (off : Nat) : Option (Reg × Nat) :=
  allRegs.findSome? fun r =>
    let l := r.layout
    let st := if l.2.1 = 0 then 8 else l.2.1
    if decide (l.1 ≤ off) && (off - l.1) % st == 0 && decide ((off - l.1) / st < max 1 l.2.2) then some (r, (off - l.1) / st) else none

/-- Whether a BAR0 offset lies in the blocks that READ_REG reaches: GEN, TIM, RAS, PWR, MGT (Tables 17-7 and 19-1). -/
def mgtBlock (off : Nat) : Bool :=
  decide (off < 0x80000) || inRange off 0xD00000 0x200000 || inRange off 0x1200000 0x200000

/-- Status codes of R507. -/
def mgOk : Nat := 0
def mgDenied : Nat := 1
def mgBad : Nat := 2
def mgBusy : Nat := 3

/-- Op codes of Table 17-7. -/
def MgtReq.op : MgtReq → Nat
  | .readReg _ _ => 0x01
  | .readLog _ _ => 0x02
  | .readTelem _ _ => 0x03
  | .readSave => 0x04
  | .wake => 0x10
  | .deviceReset => 0x11
  | .setPkgLimit _ => 0x12
  | .other op => op

def MgtReq.control (r : MgtReq) : Bool := decide (0x10 ≤ r.op) && decide (r.op ≤ 0x12)

/-- Whether a control request may act (R507): ctl_en, and for a datagram an ACL entry of its source MAC address. I3C carries none. -/
def Device.mgtAllowed (d : Device) (mac : Option Nat) : Bool :=
  d.on MGT_CFG.ctl_en 0 && (match mac with
    | none => true
    | some m => (List.range 4).any fun i => d.on MGT_ACL.valid i && d.rd MGT_ACL.mac i == m)

/-- Fault records from an index, as entries of the log hold them (R364, R509). -/
def Device.logBytes (d : Device) (idx count : Nat) : List Byte :=
  (List.range count).flatMap fun i =>
    match d.ras.ring.find? fun r => r.1 == (idx + i) % 4096 with
    | some r => r.2.bytes
    | none => List.replicate 64 0

/-- Telemetry records from an index, as the ring holds them (R510). -/
def Device.telemBytes (d : Device) (idx count : Nat) : List Byte :=
  (List.range count).flatMap fun i =>
    match d.pwr.telem.find? fun r => r.1 % 6000 == (idx + i) % 6000 with
    | some r => r.2
    | none => List.replicate 128 0

/-- Whether a register is of the RAD block, which a -X part does not have (R3), or TIM_SYNCE_CTL (R192). -/
def Reg.radio (r : Reg) : Bool :=
  (decide (Reg.RAD_PORT_CFG.code ≤ r.code) && decide (r.code ≤ Reg.RAD_FLOW_STAT.code)) || r == .TIM_SYNCE_CTL

/-- Value of a register for a function (R7): what it stores, in which write-only and reserved bits are 0; nothing of the RAD block, of SyncE or of the reserve count
on a part without it (R3, R162, R192); the nanoseconds that the function latched (R180). Time and the mute
causes of the slot on air are those of the read. -/
def Device.regRead (d : Device) (fn : Nat) (r : Reg) (i : Nat) : Nat :=
  if d.isX && r.radio then 0
  else if r == .TIM_NOW_NS then d.nowNs fn
  else if r == .SCH_RESERVE && d.isX then ((d.wr SCH_RESERVE.count i 0).reg r i).toNat
  else if r == .TIM_NOW_S || r == .TIM_FRAME_NOW || r == .TIM_SLOT_NOW then (d.showTime.reg r i).toNat
  else if r == .RAD_CAR_STAT then ((d.showCarrier i).reg r i).toNat
  else (d.reg r i).toNat

/-- A register's bytes as tenancy 0 reads it. -/
def Device.regBytes (d : Device) (off : Nat) : List Byte :=
  match regAt off with
  | some (r, i) => toLE 8 (d.regRead 0 r i)
  | none => List.replicate 8 0

/-- Whether the device stands where a device reset cannot begin: Deep, Saved, or a save. -/
def Device.asleep (d : Device) : Bool := d.pwr.saveAct || d.ps == psDeep || d.ps == psSaved

/-- A request carried out: the device after it, status, payload. -/
def Device.mgtDo (d : Device) (i3c : Bool) (r : MgtReq) : Device × Nat × List Byte :=
  match r with
  | .readReg off count =>
    if 128 < count || off % 8 ≠ 0 || !((List.range count).all fun i => mgtBlock (off + 8 * i)) then (d, mgBad, [])
    else (d, mgOk, (List.range count).flatMap fun i => d.regBytes (off + 8 * i))
  | .readLog idx count => if 16 < count then (d, mgBad, []) else (d, mgOk, d.logBytes idx count)
  | .readTelem idx count => if 8 < count then (d, mgBad, []) else (d, mgOk, d.telemBytes idx count)
  | .readSave => (d, mgOk, toLE 8 (d.reg .PWR_SAVE_STAT 0).toNat)
  | .wake => (deepWake (if i3c then 5 else 4) d, mgOk, [])
  | .deviceReset => if d.asleep then (d, mgBusy, []) else (d.deviceReset 3 unitNone, mgOk, [])
  | .setPkgLimit w => if w < 300 || 1400 < w then (d, mgBad, []) else (d.wr PWR_LIMIT_CFG.pkg_limit_w 0 w, mgOk, [])
  | .other _ => (d, mgBad, [])

/-- An answer with its payload (R507). -/
def MgtReq.answer (r : MgtReq) (d : Device) (seq status : Nat) (data : List Byte) : MgtAns :=
  { op := r.op, status := status, seq := seq, data := data,
    header := if r.op = 4 && status = 0 then d.pwr.save.map fun s => s.1 else none }

/-- A request counted in its one-second window (R506): the window after it, and whether it lies beyond 1,000. -/
def Device.inWindow (d : Device) (w : Nat × Nat) : (Nat × Nat) × Bool :=
  let s := d.cycle / 1800000000
  if w.1 = s then ((s, w.2 + 1), decide (1000 ≤ w.2)) else ((s, 1), false)

/-- Whether the always-on firmware runs: from step 3 of start-up on (Table 17-3). -/
def Device.aofUp (d : Device) : Bool := d.ps != 4 || decide (3 ≤ d.rd PWR_START_STAT.step 0)

/-- A control request that may not act is denied and counted; another is carried out. -/
def Device.mgtServe (d : Device) (mac : Option Nat) (r : MgtReq) : Device × Nat × List Byte :=
  if r.control && !d.mgtAllowed mac then (d.incSat MGT_STAT.denied 0 1, mgDenied, []) else d.mgtDo mac.isNone r

/-- Whether M0 takes a datagram to an address: the link-local one of IPv6 (none), or MGT_CFG.ipv4_addr while ipv4_en is 1 (R507). -/
def Device.mgtAddressed (d : Device) : Option Nat → Bool
  | none => true
  | some a => d.on MGT_CFG.ipv4_en 0 && d.rd MGT_CFG.ipv4_addr 0 == a

/-- A management datagram with a valid frame (R506, R507): 16-byte header and payload as fields, its source MAC address, and its IPv4 destination, none over
IPv6. -/
def mgtDatagram (seq mac : Nat) (ip : Option Nat) (r : MgtReq) (d : Device) : Device :=
  if !d.on MGT_CFG.m0_en 0 || !d.aofUp || !d.mgtAddressed ip then d
  else
    let w := d.inWindow d.pwr.mgtWin
    let d : Device := { d with pwr := { d.pwr with mgtWin := w.1 } }
    if w.2 then d.incSat MGT_STAT.dropped 0 1
    else
      let x := d.mgtServe (some mac) r
      let d := x.1
      { d with sent := .mgt false (r.answer d seq x.2.1 x.2.2) :: d.sent }

/-- The rows of the management port. -/
def mgtReadReg (seq mac : Nat) (ip : Option Nat) (off count : Nat) (d : Device) : Device := mgtDatagram seq mac ip (.readReg off count) d
def mgtReadLog (seq mac : Nat) (ip : Option Nat) (idx count : Nat) (d : Device) : Device := mgtDatagram seq mac ip (.readLog idx count) d
def mgtReadTelem (seq mac : Nat) (ip : Option Nat) (idx count : Nat) (d : Device) : Device := mgtDatagram seq mac ip (.readTelem idx count) d
def mgtReadSave (seq mac : Nat) (ip : Option Nat) (d : Device) : Device := mgtDatagram seq mac ip .readSave d
def mgtWake (seq mac : Nat) (ip : Option Nat) (d : Device) : Device := mgtDatagram seq mac ip .wake d
def mgtDeviceReset (seq mac : Nat) (ip : Option Nat) (d : Device) : Device := mgtDatagram seq mac ip .deviceReset d
def mgtSetPkgLimit (seq mac : Nat) (ip : Option Nat) (w : Nat) (d : Device) : Device := mgtDatagram seq mac ip (.setPkgLimit w) d
/-- MGT_BAD_REQUEST: an unknown op, or a control request that is not authorised (R507). -/
def mgtBadRequest (seq mac : Nat) (ip : Option Nat) (op : Nat) (d : Device) : Device := mgtDatagram seq mac ip (.other op) d

/-- I3C_PRIVATE_WRITE (R508): the answer waits for the private read. More than 1,000 requests a second are answered busy. -/
def i3cPrivateWrite (seq : Nat) (r : MgtReq) (d : Device) : Device :=
  if !d.on MGT_CFG.i3c_en 0 || d.pwr.i3cDyn.isNone || !d.aofUp then d
  else
    let w := d.inWindow d.pwr.i3cWin
    let d : Device := { d with pwr := { d.pwr with i3cWin := w.1 } }
    let x := if w.2 then (d.incSat MGT_STAT.dropped 0 1, mgBusy, []) else d.mgtServe none r
    let d := x.1
    let a := r.answer d seq x.2.1 x.2.2
    { d with pwr := { d.pwr with i3cAnswer := some a }, sent := .mgt true a :: d.sent }

/-- I3C_ADDRESS_ASSIGN (R508): SETDASA to a static address, or ENTDAA, where the target gives its provisional ID, assigns a dynamic address. -/
def i3cAddressAssign (entdaa : Bool) (static dyn : Nat) (d : Device) : Device :=
  if !d.on MGT_CFG.i3c_en 0 || (!entdaa && static != d.rd MGT_CFG.i3c_addr 0) || (entdaa && d.pwr.i3cDyn.isSome) then d
  else
    let d := if entdaa then { d with sent := .i3cId (d.rd SEC_SERIAL.serial 0 % 2 ^ 32) :: d.sent } else d
    { d with pwr := { d.pwr with i3cDyn := some dyn } }.wr MGT_STAT.i3c_addr_valid 0 1

/-- Bytes 0 to 49 of a telemetry record and its zero tail (Table 17-8); powers of MD0, MD1 and IOD in W as measured. -/
def Device.telemRecord (d : Device) (md0 md1 iod : Nat) : List Byte :=
  let w (x : Nat) : List Byte := toLE 2 (min x 65535)
  let f := PWR_POWER_STAT.cd0_w
  let cds := [f, PWR_POWER_STAT.cd1_w, PWR_POWER_STAT.cd2_w, PWR_POWER_STAT.cd3_w].flatMap fun f => w (d.rd f 0)
  let temps := (List.range 7).map fun k => BitVec.ofNat 8 (wholeC (d.tj k))
  let muted := ((List.range 64).filter fun c => (d.showCarrier c).on RAD_CAR_STAT.muted c).length
  let ports := ((List.range 16).filter d.portUp).length
  toLE 8 d.stamp8 ++ w (d.rd PWR_POWER_STAT.pkg_w 0) ++ cds ++ w md0 ++ w md1 ++ w iod ++ temps ++ toLE 1 (wholeC d.hbmMax) ++ toLE 1 d.ps ++
  toLE 1 (d.rd GEN_SVC.svc_level 0) ++ w d.pwr.spareMax ++ w d.pwr.promptMax ++ toLE 1 muted ++ toLE 1 ports ++ toLE 4 (d.rd RAS_LOG_STAT.head 0) ++
  toLE 4 d.epoch ++ toLE 2 (d.reg .TIM_STAT 0).toNat ++ List.replicate 78 0

/-- TELEMETRY_TICK (R510), from step 3 of start-up on. -/
def telemetryTick (md0 md1 iod : Nat) (d : Device) : Device :=
  if !d.aofUp then d
  else
    let n := d.rd MGT_TELEM_STAT.head 0
    let keep := d.pwr.telem.filter fun r => r.1 % 6000 != n % 6000
    { d with pwr := { d.pwr with telem := (n, d.telemRecord md0 md1 iod) :: keep, spareMax := d.topDuty SCH_THR_STAT.spare_duty, promptMax := d.topDuty SCH_THR_STAT.prompt_duty } }.incWrap MGT_TELEM_STAT.head 0 1

end Sys2Proof.Machine
end

