-- ==== Sys2Proof/Machine/Validate.lean ====
section
/-! DEFINITION. Validation of a configuration transaction, and the moment at which it comes into force (R61, R142–R145, R162, R169, R175, R184, R196, R206,
R207, R229, R276, R325, R400, R401, R432, R439, R449, R480). -/

namespace Sys2Proof.Machine

/-- The values that will stand together after the commit (R144). -/
def Device.withStaged (d : Device) (xs : List Staged) : Device := xs.foldl (fun d s => d.wr s.fld s.idx s.val) d

/-- Ranges that the tables give RWT fields narrower than their bits; those of a carrier are judged with the carrier (R206). -/
def rwtRanges : List (Fld × Nat × Nat) :=
  [(TEN_CFG.share, 1, 255), (TEN_QUOTA.t1_max, 0, 393216), (TEN_QUOTA.t2_max, 0, 507904), (TEN_QUOTA.dp_max, 0, 128), (TEN_QUOTA.queues, 0, 4096),
   (SCH_RESERVE.short_bound, 64, 3600), (SCH_RESERVE.count, 0, 8), (SCH_BATCH_CFG.max_seq, 0, 65536), (MEM_LAND_CFG.count, 0, 262144),
   (FAB_PORT_CFG.max_width, 0, 2), (FAB_TEN_CFG.share, 1, 255), (RAD_PORT_CFG.mtu, 1518, 9600), (RAD_PORT_CFG.speed, 0, 5),
   (TIM_DOM_CFG.loss_ms, 1, 65535), (TIM_DOM_CFG.source, 0, 4), (TIM_SEL_CTL.slew_ppb, 1, 1000), (TIM_AIR_CFG.air_offset_ns, 0, 999999999),
   (FTP_PARTNER.shadow_steps, 1, 64), (FTP_TEN_CFG.mode, 0, 2), (FTP_TEN_CFG.job_devices, 0, 4096), (FTP_TEN_CFG.log_gib, 1, 992),
   (DET_WSET.count, 0, 4096)]

def inTables (s : Staged) : Bool := rwtRanges.all fun r => r.1 != s.fld || (decide (r.2.1 ≤ s.val) && decide (s.val ≤ r.2.2))

/-- Two half-open ranges share a number. -/
def meetRanges (a n b m : Nat) : Bool := decide (a < b + m) && decide (b < a + n) && n != 0 && m != 0

/-- Distinct indices below `n` whose ranges meet. -/
def anyMeet (n : Nat) (live : Nat → Bool) (lo len : Nat → Nat) : Bool :=
  (List.range n).any fun a => live a && (List.range a).any fun b => live b && meetRanges (lo a) (len a) (lo b) (len b)

/-! ### Tenancies, cores, batching, landings, fabric -/

/-- R449. -/
def okQuota (d v : Device) (t : Nat) : Bool :=
  decide (d.rd TEN_STAT.t1_mapped t ≤ v.rd TEN_QUOTA.t1_max t) && decide (d.rd TEN_STAT.t2_mapped t ≤ v.rd TEN_QUOTA.t2_max t) &&
  decide (d.rd TEN_STAT.dp_mapped t ≤ v.rd TEN_QUOTA.dp_max t) && decide (d.queuesOf t ≤ v.rd TEN_QUOTA.queues t)

/-- Cores that a timetable in force, before it, or pending gives a window. -/
def Device.windowCores (d : Device) : List Nat :=
  d.sched.tts.flatMap fun x => (x.2.images ++ (x.2.load.map fun n => n.1).toList).flatMap fun t => t.windows.map fun w => w.core

/-- R162. -/
def okReserve (d v : Device) (die : Nat) : Bool :=
  d.windowCores.all fun n => n / 48 != die || decide (n % 48 < 48 - v.rd SCH_RESERVE.count die)

/-- R169. -/
def okPool (d v : Device) (t : Nat) : Bool :=
  let base (t : Nat) := v.rd SCH_KV_POOL.base_page t
  let n (t : Nat) := v.rd SCH_KV_POOL.pages t
  decide (base t + n t ≤ d.spacePages 0) &&
  ((List.range 64).all fun u => u == t || !meetRanges (base t) (n t) (base u) (n u)) &&
  (n t == 0 || decide (v.rd SCH_KV_POOL.reserve t < n t)) &&
  ((d.batch t).seqs.all fun s => s.pages.all fun p => inRange p (base t) (n t))

/-- R175. -/
def okBatch (d v : Device) (t : Nat) : Bool :=
  decide (((List.range 64).map fun u => v.rd SCH_BATCH_CFG.max_seq u).foldl (· + ·) 0 ≤ 65536) &&
  decide (v.rd SCH_BATCH_CFG.table_page t * pageSize + 64 * (v.rd SCH_BATCH_CFG.max_seq t + 1) ≤ d.spacePages 0 * pageSize)

/-- R61: valid partitions have last not below first, and share no granule. -/
def okPart (v : Device) (n : Nat) : Bool :=
  let part (i : Nat) := bits (v.reg .COR_TSPART n).toNat (16 * i + 15) (16 * i)
  let live (i : Nat) := partValid (part i)
  ((List.range 4).all fun i => !live i || decide (partFirst (part i) ≤ partLast (part i))) &&
  !anyMeet 4 live (fun i => partFirst (part i)) fun i => partLast (part i) + 1 - partFirst (part i)

/-- Base or count of a landing table changes only while every entry is free (Table 9-12). -/
def okLand (d : Device) (t : Nat) : Bool := (List.range (d.rd MEM_LAND_CFG.count t)).all fun i => d.landState t i == 0

/-- R325, and the ranges of Table 10-19. -/
def okRegions (v : Device) : Bool :=
  let live (r : Nat) := v.on FAB_REGION0.valid r
  let place (r : Nat) := (v.rd FAB_REGION0.tenancy r * 4 + v.rd FAB_REGION0.space r) * 2 ^ 24 + v.rd FAB_REGION0.base_page r
  ((List.range 256).all fun r => !live r || (decide (v.rd FAB_REGION0.space r ≤ 2) && decide (1 ≤ v.rd FAB_REGION0.pages r) &&
    decide (v.rd FAB_REGION0.pages r ≤ 507904) && decide (v.rd FAB_REGION1.grant r ≤ 2))) &&
  !anyMeet 256 live place fun r => v.rd FAB_REGION0.pages r

/-! ### Time -/

/-- R184. -/
def okDomains (d v : Device) : Bool :=
  let src (i : Nat) := v.rd TIM_DOM_CFG.source i
  let ports (i : Nat) := v.rd TIM_DOM_CFG.port_mask i
  let masters (i : Nat) := v.rd TIM_DOM_CFG.master_mask i
  let dn (i : Nat) := v.rd TIM_DOM_CFG.ptp_domain i
  let ptp (i : Nat) := decide (1 ≤ src i) && decide (src i ≤ 3)
  ((List.range 2).all fun i =>
    !(ptp i && ports i == 0) && (ports i &&& masters i) == 0 &&
    !(src i == 1 && !inRange (dn i) 24 20) && !((src i == 2 || src i == 3) && !inRange (dn i) 44 20) &&
    !(d.isX && ((ports i ||| masters i) % 16 != 0))) &&
  !(src 0 == 4 && src 1 == 4) &&
  !(ptp 0 && ptp 1 && (src 0 == 1) == (src 1 == 1) && dn 0 == dn 1 && (ports 0 &&& ports 1) != 0)

/-! ### Radio -/

/-- Rate of a fronthaul port in Mb/s (Table 7-3). -/
def portRate (speed : Nat) : Nat := [0, 25000, 50000, 100000, 200000, 400000].getD speed 0

/-- Load of a carrier (R207). -/
def Device.carLoad (v : Device) (c : Nat) : Nat :=
  let f (x : Fld) := v.rd x c
  let a := max 1 (max (ceilDiv (max (f RAD_CAR_CFG.tx_ant) (f RAD_CAR_CFG.rx_ant)) 16)
    (ceilDiv (max (f RAD_CAR_CFG.dl_layers) (f RAD_CAR_CFG.ul_layers)) 4))
  let load := ceilDiv (1024 * f RAD_CAR_CFG.prbs * 2 ^ f RAD_CAR_CFG.mu) 546 * a
  if v.on RAD_CAR_CFG.td_mode c then ceilDiv (load * 5) 4 else load

/-- Ranges of an enabled carrier's fields (Tables 7-1, 7-2, 7-5, 7-6 to 7-9). -/
def Device.carRanges (v : Device) (c : Nat) : Bool :=
  let f (x : Fld) := v.rd x c
  let within (x : Fld) (lo hi : Nat) : Bool := decide (lo ≤ f x) && decide (f x ≤ hi)
  let comp (x : Fld) : Bool := f x == 0 || f x == 1 || f x == 3
  let td := v.on RAD_CAR_CFG.td_mode c
  let b := v.on RAD_CAR_CFG.category c
  let mu := f RAD_CAR_CFG.mu
  within RAD_CAR_CFG.prbs 1 275 && decide (f RAD_CAR_CFG.prbs * 180 * 2 ^ mu ≤ (if mu = 3 then 200000 else 100000)) &&
  within RAD_CAR_CFG.tx_ant 1 64 && within RAD_CAR_CFG.rx_ant 1 64 && within RAD_CAR_CFG.dl_layers 1 16 && within RAD_CAR_CFG.ul_layers 1 16 &&
  within RAD_CAR_CFG.fft 0 3 && !(td && b) && (b || (within RAD_CAR_CFG.tx_ant 1 16 && within RAD_CAR_CFG.rx_ant 1 16)) &&
  (!td || (decide (mu ≤ 1) && within RAD_CAR_CFG.tx_ant 1 8 && within RAD_CAR_CFG.rx_ant 1 8)) &&
  comp RAD_CAR_FH.dl_comp && comp RAD_CAR_FH.ul_comp && within RAD_CAR_FH.ramp_w 0 256 &&
  within RAD_CAR_UL.fo_ref_slots 1 255 && within RAD_CAR_UL.prach_thr 16 255 && within RAD_CAR_UL.prach_max 1 64 &&
  within RAD_CAR_DLRING.depth_log2 2 4 && within RAD_CAR_ULRING.depth_log2 2 4 &&
  within RAD_CAR_DLRING.entry_kib 1 4095 && within RAD_CAR_ULRING.entry_kib 1 4095

/-- The fields of a carrier that may not change while it stays enabled (R206). -/
def frozenFields : List Fld :=
  [RAD_CAR_CFG.port, RAD_CAR_CFG.mu, RAD_CAR_CFG.owner, RAD_CAR_CFG.prbs, RAD_CAR_CFG.tx_ant, RAD_CAR_CFG.rx_ant, RAD_CAR_CFG.dl_layers,
   RAD_CAR_CFG.ul_layers, RAD_CAR_CFG.fft, RAD_CAR_CFG.td_mode, RAD_CAR_CFG.category, RAD_CAR_FH.eaxc_base, RAD_CAR_DLRING.depth_log2, RAD_CAR_DLRING.base,
   RAD_CAR_DLRING.entry_kib, RAD_CAR_ULRING.depth_log2, RAD_CAR_ULRING.base, RAD_CAR_ULRING.entry_kib]

/-- The two eAxC ranges of a carrier: its streams, and PRACH (Table 7-6). -/
def Device.eaxcRanges (v : Device) (c : Nat) : List (Nat × Nat) :=
  let b := v.rd RAD_CAR_FH.eaxc_base c
  [(b, max (v.carStreams c 0) (v.carStreams c 1)), (b + 64, v.rd RAD_CAR_CFG.rx_ant c)]

/-- Whether a tenancy has a timetable pending or in force. -/
def Device.hasTimetable (d : Device) (t : Nat) : Bool :=
  (List.range 8).any fun k => d.rd SCH_TT_STAT.state k != 0 && d.rd SCH_TT_STAT.tenancy k == t

/-- R206. -/
def okCarriers (d v : Device) : Bool :=
  let on (c : Nat) := v.on RAD_CAR_CFG.enable c
  let port (c : Nat) := v.rd RAD_CAR_CFG.port c
  let clash (a b : Nat) := port a == port b &&
    (v.eaxcRanges a).any fun x => (v.eaxcRanges b).any fun y => meetRanges x.1 x.2 y.1 y.2
  ((List.range 64).all fun c =>
    !(on c && d.on RAD_CAR_CFG.enable c && frozenFields.any fun f => d.rd f c != v.rd f c) &&
    decide (v.rd RAD_CAR_DLWIN.min_ns c < v.rd RAD_CAR_DLWIN.max_ns c) && decide (v.rd RAD_CAR_ULWIN.min_ns c < v.rd RAD_CAR_ULWIN.max_ns c) &&
    decide (v.rd RAD_CAR_DLWIN.max_ns c ≤ v.rd RAD_CAR_DLWIN.cp_adv_ns c) &&
    (!on c || (v.carRanges c &&
      !(v.rd RAD_CAR_CFG.owner c == 0 && d.rd RAD_CAR_CFG.owner c != 0 && d.hasTimetable (d.rd RAD_CAR_CFG.owner c)) &&
      (List.range c).all fun b => !on b || !clash c b))) &&
  decide ((((List.range 64).filter on).map v.carLoad).foldl (· + ·) 0 ≤ 65536)

/-- R229. -/
def okFlows (v : Device) : Bool :=
  let live := (List.range 2048).filter fun i => v.on RAD_FLOW_CFG.valid i
  let rate (i : Nat) := v.rd RAD_FLOW_CFG.rate_mbps i
  let port (i : Nat) := v.rd RAD_FLOW_CFG.port i
  let sum (p g : Nat) := ((live.filter fun i => port i == p && v.rd RAD_FLOW_CFG.ingress i == g).map rate).foldl (· + ·) 0
  ((List.range 4).all fun p => (List.range 2).all fun g => decide (sum p g ≤ portRate (v.rd RAD_PORT_CFG.speed p))) &&
  live.all fun i =>
    let p := port i
    let c := v.rd RAD_FLOW_CFG.carrier i
    let mtu := v.rd RAD_PORT_CFG.mtu p
    let ovh := v.rd RAD_PORT_CFG.ovh_bytes p
    let P := v.rd RAD_CAR_CFG.prbs c * prbLen (v.rd RAD_CAR_FH.dl_comp c) (v.rd RAD_CAR_FH.dl_width c)
    let S := P + ceilDiv P (mtu - 64) * (64 + ovh)
    let dl := !v.on RAD_FLOW_CFG.ingress i && !v.on RAD_FLOW_CFG.cplane i && v.on RAD_CAR_CFG.enable c
    decide (1 ≤ rate i) && decide (rate i ≤ 400000) && decide (1 ≤ v.rd RAD_FLOW_CFG.burst_kib i) &&
    decide (mtu + ovh ≤ v.rd RAD_FLOW_CFG.burst_kib i * 1024) &&
    (!dl || decide (S * 1000000 ≤ rate i * 125 * (v.rd RAD_CAR_DLWIN.max_ns c - v.rd RAD_CAR_DLWIN.min_ns c)))

/-! ### Jobs, protection, weight lists -/

/-- Devices that the job bitmap of a tenancy names, as it stands in memory (R400). -/
def Device.jobBitmap (d v : Device) (t : Nat) : List Nat :=
  let bs := d.peek devKey spT1 (v.rd FTP_JOB_CFG.base t * 512) 512
  (List.range 4096).filter fun i => bit (leAt bs (i / 8) 1) (i % 8)

/-- R400; job_devices staged alone is held against the committed bitmap. -/
def okJob (d v : Device) (t : Nat) (job : List Nat) : Bool :=
  !v.on FTP_JOB_CFG.valid t || (job.contains d.devId && job.length == v.rd FTP_TEN_CFG.job_devices t)

/-- R401. -/
def Device.areaTaken (d : Device) (base n : Nat) : Bool :=
  ((List.range n).any fun i => let s := d.pageState (pageKey 1 (base + i)); s == pgLanded || s == pgDeparting || s == pgArriving) ||
  (List.range 64).any fun t => d.on MEM_XT_BASE.enable t && (List.range (d.xtCount t 1)).any fun p =>
    let e := d.xtEntry t 1 p
    bit e 63 && inRange (bits e 18 0) base n
def okProtect (v : Device) (t : Nat) : Bool :=
  !(v.rd FTP_TEN_CFG.mode t == 2 && !v.on DET_TEN_CFG.fixed_order t) &&
  !(v.rd FTP_TEN_CFG.mode t == 1 && decide (512 < v.rd FTP_TEN_CFG.job_devices t))

/-- R439. -/
def okFixed (d v : Device) (t : Nat) : Bool :=
  v.on DET_TEN_CFG.fixed_order t || !(d.rd FTP_TEN_CFG.mode t == 2 || v.rd FTP_TEN_CFG.mode t == 2)

/-- The weight list of a tenancy and its hash, or none where R432 makes validation fail. -/
def Device.weightSet (d v : Device) (t : Nat) : Option (List Nat × List Byte) :=
  let n := v.rd DET_WSET.count t
  let bs := d.peek devKey spT1 (v.rd DET_WSET.base t * 64) (4 * n)
  let is := (List.range n).map fun i => leAt bs (4 * i) 4
  let ok := is.all fun i => decide (i < d.rd MEM_LAND_CFG.count t) && bit (d.landFlags t i) 0
  if !ok || is.eraseDups.length ≠ n then none
  else if n = 0 then some ([], List.replicate 64 0)
  else some (is, sha512 (is.flatMap fun i => d.peek devKey spT1 (d.landAt t i + 64) 64))

/-! ### Validation -/

/-- Rules about one staged field and its index. -/
def Device.okItem (d v : Device) (s : Staged) : Bool :=
  let i := s.idx
  inTables s &&
  match s.fld.reg with
  | .TEN_QUOTA => okQuota d v i
  | .SCH_RESERVE => okReserve d v i
  | .SCH_KV_POOL => okPool d v i
  | .SCH_BATCH_CFG => okBatch d v i
  | .COR_TSPART => okPart v i
  | .MEM_LAND_CFG => s.fld == MEM_LAND_CFG.hash || d.rd s.fld i == s.val || okLand d i
  | .TIM_AIR_CFG => d.rd s.fld i == s.val || !d.timetablesExist
  | .FTP_PARTNER => !(v.on FTP_PARTNER.valid 0 && v.rd FTP_PARTNER.partner 0 == d.devId)
  | .FTP_SHADOW_HOST => !(v.on FTP_SHADOW_HOST.valid i && d.areaTaken (v.rd FTP_SHADOW_HOST.base_page i) (v.rd FTP_SHADOW_HOST.pages i))
  | .FTP_TEN_CFG => okProtect v i
  | .DET_TEN_CFG => okFixed d v i
  | .DET_WSET => (d.weightSet v i).isSome
  | .SEC_TEN_CFG => !(v.on SEC_TEN_CFG.fab_protect i && (d.fabKeys i).cur.isNone && s.fld == SEC_TEN_CFG.fab_protect)
  | _ => true

/-- Indices of a register that a list of staged fields touches. -/
def touched (xs : List Staged) (r : Reg) : List Nat := ((xs.filter fun s => s.fld.reg == r).map fun s => s.idx).eraseDups

/-- Whether a staged list passes validation (R144). -/
def Device.validTxn (d : Device) (xs : List Staged) : Bool :=
  let v := d.withStaged xs
  let has (p : Reg → Bool) := xs.any fun s => p s.fld.reg
  let rad (r : Reg) : Bool := decide (Reg.RAD_PORT_CFG.code ≤ r.code) && decide (r.code ≤ Reg.RAD_FLOW_STAT.code)
  xs.all (d.okItem v) &&
  (!has (fun r => r == .FAB_REGION0 || r == .FAB_REGION1) || okRegions v) &&
  (!has (fun r => r == .TIM_DOM_CFG) || okDomains d v) &&
  (!has rad || (okCarriers d v && okFlows v)) &&
  ((touched xs .FTP_JOB_CFG).all fun t => okJob d v t (d.jobBitmap v t)) &&
  ((xs.filter fun s => s.fld == FTP_TEN_CFG.job_devices && !(touched xs .FTP_JOB_CFG).contains s.idx).all fun s =>
    okJob d v s.idx (smGet d.ftp.jobs s.idx []))

/-- TXN_VALIDATION (R144); it waits while a control processor's takeover runs (R378). The job bitmaps and weight lists are read now. -/
def txnValidation (t : Nat) (d : Device) : Device :=
  let x := d.txn t
  if d.txState t ≠ txCommitting || x.commit.isNone || x.valid || d.ras.cpBusy.isSome then d
  else if !d.validTxn x.staged then d.rollbackTxn t 2
  else
    let v := d.withStaged x.staged
    let ws := (touched x.staged .DET_WSET).filterMap fun u => (d.weightSet v u).map fun w => (u, w.1, w.2)
    let js := (touched x.staged .FTP_JOB_CFG).map fun u => (u, if v.on FTP_JOB_CFG.valid u then d.jobBitmap v u else [])
    d.setTxn t { x with valid := true, validAt := d.cycle, weights := ws, jobs := js }

/-! ### Taking effect -/

/-- The new landing table is zero-filled and its pages System; pages of the old one that it leaves are Plain (R276). -/
def Device.newLandTable (d old : Device) (t : Nat) : Device :=
  let pages (x : Device) := (List.range (ceilDiv (128 * x.rd MEM_LAND_CFG.count t) pageSize)).map fun i => pageKey 0 (x.rd MEM_LAND_CFG.base t + i)
  let d := d.setPages ((pages old).filter fun p => !(pages d).contains p) pgPlain
  let d := d.zero spT1 (d.landAt t 0) (128 * d.rd MEM_LAND_CFG.count t)
  d.setPages (pages d) pgSystem

/-- A new partner is named: every protected tenancy is unprotected until a first full generation completes there (R405). -/
def Device.newPartner (d : Device) : Device :=
  let d := d.wr FTP_PARTNER.state 0 (b2n (d.on FTP_PARTNER.valid 0))
  let ps := (List.range 64).filter d.isProtected
  let held := d.ftp.gens.flatMap fun g => g.2.left.map fun p => p.2
  let d := { d with ftp := { d.ftp with gens := [], full := [] } }
  let d := d.unshadow held
  ps.foldl (fun d t => d.wr FTP_TEN_STAT.unprotected t 1) d

/-- A tenancy's protection mode changes between off and on. -/
def Device.newMode (d : Device) (old t : Nat) : Device :=
  let m := d.rd FTP_TEN_CFG.mode t
  if old = 0 && m != 0 then
    (d.setInLog t {}).wr FTP_TEN_STAT.unprotected t 1
  else if old ≠ 0 && m = 0 then
    let held := (d.ftp.gens.filter fun g => g.1 == t).flatMap fun g => g.2.left.map fun p => p.2
    let tc := smGet d.tens t {}
    let d := { d with ftp := { d.ftp with gens := smDel d.ftp.gens t, full := d.ftp.full.filter fun x => x != t },
                      tens := smSet d.tens t {} { tc with shadow := [] } }
    (((d.unshadow held).setInLog t {}).wr FTP_TEN_STAT.unprotected t 0).commitsAcked t
  else d

/-- What follows, beside the new values themselves, when the fields of a register come into force. `opening` tells that a STEP_COMMIT made the boundary. -/
def Device.afterEffect (d old : Device) (r : Reg) (i : Nat) (opening : Bool) : Device :=
  match r with
  | .SCH_KV_POOL => d.syncPool i
  | .MEM_LAND_CFG =>
    if d.rd MEM_LAND_CFG.base i = old.rd MEM_LAND_CFG.base i && d.rd MEM_LAND_CFG.count i == old.rd MEM_LAND_CFG.count i then d else d.newLandTable old i
  | .FAB_PORT_CFG =>
    if d.on FAB_PORT_CFG.enable i = old.on FAB_PORT_CFG.enable i then d
    else if d.on FAB_PORT_CFG.enable i then d.wr FAB_PORT_STAT.state i ptTraining
    else (portDown i d).wr FAB_PORT_STAT.state i ptOff
  | .RAD_PORT_CFG => if d.rd RAD_PORT_CFG.speed i = 0 then d.wr RAD_PORT_STAT.link_up i 0 else d
  | .TIM_AIR_CFG =>
    let moved : Int := (144 * old.rd TIM_AIR_CFG.air_offset_ns 0 : Nat) - (144 * d.rd TIM_AIR_CFG.air_offset_ns 0 : Nat)
    (List.range 4).foldl (fun d n =>
      let p := smGet d.timing.pulses n {}
      if d.on TIM_PPS_CTL.timebase n then (d.setPulse n { p with next := ((p.next : Int) + moved).toNat }).realignPulse n else d) d.showTime
  | .TIM_DOM_CFG => (if d.rd TIM_DOM_CFG.source i = old.rd TIM_DOM_CFG.source i then d else d.newSource i).timeEval
  | .TIM_SEL_CTL => d.timeEval
  | .TIM_HOLD_CTL => d.timeEval
  | .TIM_SYNCE_CTL => (d.newSynce old).timeEval
  | .FTP_PARTNER =>
    if d.on FTP_PARTNER.valid 0 = old.on FTP_PARTNER.valid 0 && d.rd FTP_PARTNER.partner 0 == old.rd FTP_PARTNER.partner 0 && d.rd FTP_PARTNER.state 0 != 3
    then d else d.newPartner
  | .FTP_SHADOW_HOST =>
    let area (x : Device) := (List.range (x.rd FTP_SHADOW_HOST.pages i)).map fun p => pageKey 1 (x.rd FTP_SHADOW_HOST.base_page i + p)
    let d := if old.on FTP_SHADOW_HOST.valid i then d.setPages (area old) pgPlain else d
    if d.on FTP_SHADOW_HOST.valid i then d.setPages (area d) pgSystem else d
  | .FTP_TEN_CFG => d.newMode (old.rd FTP_TEN_CFG.mode i) i
  | .DET_TEN_CFG =>
    let d := d.wr DET_TEN_STAT.fixed_now i (d.rd DET_TEN_CFG.fixed_order i)
    let c := smGet d.det i {}
    let begun := if opening then d.cmds.any fun x => x.ten == i && (x.run.map fun r => r.started).getD false
      else c.manifests.any fun m => m.1 == d.step i
    if old.on DET_TEN_CFG.fixed_order i != d.on DET_TEN_CFG.fixed_order i && begun then { d with det := smSet d.det i {} { c with mixed := true } } else d
  | .SEC_TEN_CFG => d.wr SEC_TEN_STAT.fab_now i (d.rd SEC_TEN_CFG.fab_protect i)
  | _ => d

/-- Cores whose reserve status a new count changes while a command is bound to them keep the old one for now (R162). -/
def Device.keepReserve (d old : Device) : Device :=
  let late := (List.range 192).filter fun n => old.isReserve n != d.isReserve n && (d.boundTo n).isSome
  { d with sched := { d.sched with reserveNow := d.sched.reserveNow ++ late.map fun n => (n, b2n (old.isReserve n)) } }

/-- Every staged value comes into force (R145). A tile-store partition waits for its core (R62), and the commit with it. -/
def Device.takeEffect (d : Device) (t : Nat) (opening : Bool) : Device :=
  let x := d.txn t
  match x.commit with
  | none => d
  | some sn =>
    let old := d
    let parts := touched x.staged .COR_TSPART
    let v := d.withStaged x.staged
    let d := d.withStaged (x.staged.filter fun s => s.fld.reg != .COR_TSPART)
    let d := parts.foldl (fun d n => d.setCore n { d.core n with newPart := some ((v.reg .COR_TSPART n).toNat, t) }) d
    let d := if (touched x.staged .SCH_RESERVE).isEmpty then d else d.keepReserve old
    let d := x.jobs.foldl (fun d j => { d with ftp := { d.ftp with jobs := smSet d.ftp.jobs j.1 [] j.2 } }) d
    let d := x.weights.foldl (fun d w =>
      let c := smGet d.det w.1 {}
      ({ d with det := smSet d.det w.1 {} { c with wlist := w.2.1, whash := w.2.2 } }).refreshWeights w.1) d
    let touchedRegs := (x.staged.map fun s => (s.fld.reg, s.idx)).eraseDups
    let d := touchedRegs.foldl (fun d r => d.afterEffect old r.1 r.2 opening) d
    let d := d.endTxn t
    if parts.isEmpty then d.commitDone t sn
    else
      let y := d.txn t
      d.setTxn t { y with late := y.late ++ [(sn, parts)] }

/-- Whether a tenancy has a RUN in flight (R145). -/
def Device.runInFlight (d : Device) (t : Nat) : Bool := d.cmds.any fun c => c.ten == t && eOp c.entry == 0x01

/-- Whether a valid transaction of the RAD or TIM block may take effect at a subframe boundary now: validation ended at least 50 µs before (R145). -/
def Device.slotDue (d : Device) (t : Nat) : Bool :=
  (d.txn t).valid && d.txState t == txCommitting && d.on TXN_STAT.slot_aligned t && decide ((d.txn t).validAt + 90000 ≤ d.cycle)

/-- A subframe boundary: every transaction due at it takes effect (R145, R194). -/
def Device.subframeTxns (d : Device) : Device :=
  (List.range 64).foldl (fun d t => if d.slotDue t then d.takeEffect t false else d) d

/-- TXN_TAKE_EFFECT (R145): for a transaction of the RAD or TIM block at a subframe boundary, which device time must stand at; else at a moment without a RUN in flight. -/
def txnTakeEffect (t : Nat) (d : Device) : Device :=
  if d.on TXN_STAT.slot_aligned t then (if d.slotDue t && d.airTime % slotLen 0 == 0 then d.takeEffect t false else d)
  else if (d.txn t).valid && d.txState t == txCommitting && !d.runInFlight t then d.takeEffect t false
  else d

/-! ### Step boundaries -/

/-- A valid transaction that waits for its tenancy's step boundary. -/
def Device.stepTxn (d : Device) (t : Nat) (opening : Bool) : Device :=
  if (d.txn t).valid && d.txState t == txCommitting && !d.on TXN_STAT.slot_aligned t then d.takeEffect t opening else d

/-- The step counter increments; a rollback or double-loss mark clears with the STEP_COMMIT that it ended; provenance of the closed step goes, and recent
commits stay known for the input log and the accounting (R406, R413). -/
def Device.nextStep (d : Device) (t st : Nat) : Device :=
  let tc := smGet d.tens t {}
  let new := (tc.step + 1) % 2 ^ 64
  let tc : TenCtx := { tc with step := new, rollback := if st = stRolled then 0 else tc.rollback }
  let c := smGet d.det t {}
  let c : DetCtx := { c with manifests := c.manifests.filter (fun m => decide (new ≤ m.1)), ingests := c.ingests.filter fun i => decide (new % 2 ^ 40 ≤ i.step % 2 ^ 40) }
  let double := if st = stDouble then smDel d.ftp.double t else d.ftp.double
  let commits := d.ftp.commits.filter fun x => x.1 != t || decide (new ≤ x.2.1 + 64)
  { d with tens := smSet d.tens t {} tc, det := smSet d.det t {} c, ftp := { d.ftp with double := double, commits := commits ++ [(t, new, d.time)] } }

/-- Clears the note that fixed order changed under work of the step. -/
def Device.clearMixed (d : Device) (t : Nat) : Device :=
  let c := smGet d.det t {}
  { d with det := smSet d.det t {} { c with mixed := false } }

/-- What every step boundary does, in the order of R170 (R145, R405, R480); `opening`: at a STEP_COMMIT. -/
def Device.boundaryWork (d : Device) (t st : Nat) (opening : Bool) : Device :=
  let d := ((d.clearMixed t).stepTxn t opening).nextStep t st
  let d := d.batchBoundary t
  let es := ((d.batch t).seqs.foldl (fun a s => insSeq s a) []).flatMap Seq.bytes
  ((d.logRec t 7 d.devId 0 [] es).activateKey t).drainLogs t

/-- STEP_BOUNDARY (R145, R170): with a STEP_COMMIT ready to complete, the boundary it makes: staged values, the step counter, the batch controller, the batch
record of the input log, a fabric key made current, and a shadow point; then it completes. Without one, and with no RUN in flight, it is the other boundary of R145,
with no release and so no shadow point; while a STEP_COMMIT is still at work, the boundary is the one its completion makes (log 56). -/
def stepBoundary (t : Nat) (d : Device) : Device :=
  match d.cmds.find? fun c => c.ten == t && eOp c.entry == 0x0B with
  | some c =>
    if c.note ≠ 3 then d
    else
      let st := (c.fin.getD (stOk, 0)).1
      let d := (d.boundaryWork t st true).shadowPoint t
      d.finish c.sn st (c.fin.getD (stOk, 0)).2 (some (d.step t))
  | none => if d.runInFlight t then d else d.boundaryWork t stOk false

end Sys2Proof.Machine
end

