-- ==== Sys2Proof/Machine/RegWrite.lean ====
section
/-! DEFINITION. Writes of BAR0 registers: access types, halves, who may write, staging, locks, reserved offsets, and the registers whose writes act (R7–R11,
R123, R140, R294, R328, R356, R388, R417, R439, R444, R447, R466, R487, R511, R527, R528). -/

namespace Sys2Proof.Machine

/-! ### MSI-X structures -/

/-- A 4-byte write in a function's MSI-X table (R451, R528): message address, data, and the mask bit. -/
def Device.msixWrite4 (d : Device) (fn off v : Nat) : Device :=
  let n := off / 16
  let k := fn * 4096 + n
  let e := smGet d.msix k {}
  let put (e : Vec) : Device := { d with msix := smSet d.msix k {} e }
  match off % 16 / 4 with
  | 0 => put { e with addr := e.addr / 2 ^ 32 * 2 ^ 32 + v }
  | 1 => put { e with addr := e.addr % 2 ^ 32 + v * 2 ^ 32 }
  | 2 => put { e with data := v }
  | _ => if bit v 0 then put { e with masked := true } else if e.masked then msixUnmask fn n d else d

/-- A write in the MSI-X range: the table of the function, the pending bits (read only), or a reserved offset. -/
def Device.msixWrite (d : Device) (fn off size v : Nat) : Device :=
  let o := off - 0x3800000
  if 0x8000 ≤ o then d
  else if 16 * d.vectors fn ≤ o then d.hostErr off 0
  else
    let d := d.msixWrite4 fn o (v % 2 ^ 32)
    if size = 8 then d.msixWrite4 fn (o + 4) (v / 2 ^ 32 % 2 ^ 32) else d

/-! ### What a write of a register covers -/

/-- A write of a register or of one of its halves: first bit, number of bits, and the bits placed at their position. -/
structure RegAcc where
  lo : Nat
  n : Nat
  v : Nat
  deriving DecidableEq, Repr

def regAcc (off size value : Nat) : RegAcc :=
  if size = 8 then ⟨0, 64, value % 2 ^ 64⟩
  else if off % 8 = 4 then ⟨32, 32, (value % 2 ^ 32) <<< 32⟩
  else ⟨0, 32, value % 2 ^ 32⟩

/-- Whether a write covers part of a field, and whether the field acts on it: one that spans both halves acts on a write of the upper half (R10). -/
def Fld.covered (f : Fld) (a : RegAcc) : Bool := decide (f.lo < a.lo + a.n) && decide (a.lo ≤ f.hi)
def Fld.acts (f : Fld) (a : RegAcc) : Bool := f.covered a && decide (f.hi < a.lo + a.n)

/-- The register's bits as written: an upper half joins the lower half that was held (R10). DESIGN CHOICE (log 135): where none is held, the lower bits of a
spanning field are those of the value in effect; of an RWT field, those of the value in force, not of one staged already. -/
def Device.written (d : Device) (r : Reg) (i : Nat) (a : RegAcc) : Nat :=
  if a.lo = 32 then a.v + (match d.heldLow.find? fun h => h.1 == regKey r i with
    | some h => h.2
    | none => (d.reg r i).toNat % 2 ^ 32)
  else a.v

/-- WO fields that give an operation its operand; the other WO fields are the operations (Tables 9-9, 9-13, 12-14). -/
def Fld.operand (f : Fld) : Bool := [MEM_XT_OP1.write, MEM_XT_OP1.ppn, MEM_CHAN_CTL.channel, RAS_RETIRE.unit].contains f

/-- The value that a write gives a register whose write acts as a whole: fields that do not act keep their value, an operand the one that was last written
(R7); operations and clears that do not act are 0. -/
def Device.effective (d : Device) (r : Reg) (i : Nat) (a : RegAcc) : Nat :=
  let w := d.written r i a
  (r.fields.map fun f =>
    (if f.acts a then bits w f.hi f.lo
     else if f.operand then bits (smGet d.woHeld (regKey r i) 0) f.hi f.lo
     else if f.acc == .W1C || f.acc == .WO then 0
     else d.rd f i) <<< f.lo).foldl (· + ·) 0

/-- The operands among the bits `v` of a register are kept for a later operation (R7). -/
def Device.keepOperands (d : Device) (r : Reg) (i v : Nat) : Device :=
  let w := ((r.fields.filter Fld.operand).map fun f => bits v f.hi f.lo <<< f.lo).foldl (· + ·) 0
  { d with woHeld := smSet d.woHeld (regKey r i) 0 w }

/-! ### Rights and locks -/

/-- Whether a function may write a register at all; registers whose own rule decides field by field answer yes (R123, R294, R439, R444, Table 7-12). -/
def Device.mayWrite (d : Device) (fn : Nat) (r : Reg) (i : Nat) : Bool :=
  fn == 0 ||
  match r with
  | .TXN_STAT => i == fn
  | .QUE_SQ_BASE => d.qTen i == fn
  | .QUE_CQ_BASE => d.qTen i == fn
  | .QUE_STAT => d.qTen i == fn
  | .QUE_CFG => true
  | .QUE_CTL => true
  | .DET_TEN_CFG => i == fn
  | .DET_WSET => i == fn
  | .RAD_MUTE_CTL => true
  | .MEM_CHAN_CTL => true
  | _ => false

/-- Fields that ignore writes for now (R7, R162, R177, R387, R197, Tables 4-6, 9-10, 9-11, 15-11, 15-13). -/
def Device.fieldLocked (d : Device) (f : Fld) (i : Nat) : Bool :=
  (d.isX && (f.reg.radio || f == SCH_RESERVE.count)) ||
  match f.reg with
  | .QUE_SQ_BASE => d.rd QUE_STAT.state i != qDisabled
  | .QUE_CQ_BASE => d.rd QUE_STAT.state i != qDisabled
  | .MEM_XT_BASE => f == MEM_XT_BASE.base && (d.on MEM_XT_BASE.enable i || d.mm.xtFill.contains i)
  | .MEM_XT_CFG => d.on MEM_XT_BASE.enable i || d.mm.xtFill.contains i
  | .TEN_IRQ_CFG => d.vfEnable
  | .SCH_ACCT_CFG => f != SCH_ACCT_CFG.enable && d.on SCH_ACCT_CFG.enable i
  | .RAS_BIN_CFG => f == RAS_BIN_CFG.base && d.on RAS_BIN_CFG.enable 0
  | .FAB_DEV_CFG => d.on FAB_DEV_CFG.lock 0
  | .TIM_PPS_START => d.on TIM_PPS_CTL.enable i
  | .TEN_DLOG_HBASE => d.on TEN_DLOG_CTL.enable i
  | .TEN_DLOG_HRANGE => d.on TEN_DLOG_CTL.enable i
  | .TEN_DLOG_DBASE => d.on TEN_DLOG_CTL.enable i
  | _ => false

/-! ### Writing by access type -/

/-- One field that acts on a write, by its access type (R7); the flag tells that an RWT write was discarded (R8). -/
def Device.writeField (d0 : Device) (fn i w : Nat) (acc : Device × Bool) (f : Fld) : Device × Bool :=
  let d := acc.1
  let v := bits w f.hi f.lo
  if d0.fieldLocked f i then acc
  else
    match f.acc with
    | .RW => (d.wr f i v, acc.2)
    | .RWL => (d.wr f i v, acc.2)
    | .W1C => (d.wr f i (d.rd f i - (d.rd f i &&& v)), acc.2)
    | .RWT => let r := d.stage fn f i v; (r.1, acc.2 || r.2)
    | .WO => acc
    | .RO => acc

/-- Every field that acts; one discard is counted for a write, whatever the number of its RWT fields (Table 4-16). -/
def Device.writeFields (d : Device) (fn : Nat) (r : Reg) (i : Nat) (a : RegAcc) (fs : List Fld) : Device :=
  let w := d.written r i a
  let x := (fs.filter fun f => f.acts a).foldl (d.writeField fn i w) (d, false)
  if x.2 then x.1.incSat TXN_STAT.discarded fn 1 else x.1

/-- A lower-half write of a register with a field that spans both halves is held for that field; a write of the upper half uses it up (R10). -/
def Device.usedUp (d : Device) (r : Reg) (i : Nat) : Device := { d with heldLow := smDel d.heldLow (regKey r i) }
def Device.holdLow (d : Device) (r : Reg) (i : Nat) (a : RegAcc) : Device :=
  let spans := r.fields.any fun f => decide (f.lo < 32) && decide (32 ≤ f.hi)
  if a.lo = 0 && a.n = 32 then (if spans then { d with heldLow := smIns d.heldLow (regKey r i) a.v } else d)
  else d.usedUp r i

/-- The bin table is zero-filled as binning starts (R387). -/
def Device.startBins (d : Device) : Device :=
  d.zero spT1 (d.rd RAS_BIN_CFG.base 0 * pageSize) 393216

/-- Replay starts: the log's records of the present step on (R410). -/
def Device.startReplay (d : Device) (t : Nat) : Device :=
  let l := d.inLog t
  d.setInLog t { l with replay := ((l.kept.map fun r => r.2).filter fun r => decide (d.step t ≤ r.step)) }

/-- What follows a write of fields of some registers: the device ID is locked (R297, R391), the next second is given (R202), a watchdog period waits for
the banks in use (R72), binning or replay starts. -/
def Device.afterWrite (d old : Device) (r : Reg) (i : Nat) (a : RegAcc) : Device :=
  match r with
  | .FAB_DEV_CFG => if d.on FAB_DEV_CFG.lock 0 && !old.on FAB_DEV_CFG.lock 0 then (List.range 16).foldl (fun d p => d.pump p) d.tryJoin else d
  | .TIM_TOD_NEXT => if TIM_TOD_NEXT.seconds.acts a then { d with timing := { d.timing with todFresh := true } } else d
  | .COR_BANK_WDT => d.deferWdt (old.rd COR_BANK_WDT.period_us 0)
  | .RAS_BIN_CFG => if d.on RAS_BIN_CFG.enable 0 && !old.on RAS_BIN_CFG.enable 0 then d.startBins else d
  | .FTP_TEN_CFG => if d.on FTP_TEN_CFG.replay i && !old.on FTP_TEN_CFG.replay i then d.startReplay i else d
  | _ => d

/-! ### Registers whose writes act -/

/-- SEC_OP_CTL by its operation (R487); blobs are read with the host answering. A reserved operation does nothing. -/
def secWrite (fn v : Nat) (d : Device) : Device :=
  match bits v 3 0 with
  | 1 => ownerEnrol fn v 0 d
  | 2 => fabricKeyImport fn v 0 d
  | 3 => fabricKeyActivate fn v d
  | 4 => fabricKeyRetirePrevious fn v d
  | 5 => memoryKeyRoll fn v d
  | 6 => debugNonce fn v d
  | 7 => debugUnlock fn v 0 d
  | 8 => debugLock fn v d
  | 9 => recoveryImage fn v 0 d
  | _ => d.secOp fn v 16 fun d _ => (d, 0, 0)

/-- The effect of a write of a register that acts as a whole, on its effective value; none for a register of plain fields. -/
def regAction (fn : Nat) (r : Reg) (i v : Nat) (a : RegAcc) (d : Device) : Option Device :=
  match r with
  | .TEN_CTL => some (match bits v 1 0 with
    | 1 => tenancyQuiesce fn i d
    | 2 => tenancyResume fn i d
    | 3 => tenancyReset fn i false d
    | _ => d)
  | .TEN_DLOG_CTL => some (d.dlogWrite i v)
  | .TEN_QPOS1 => some (queuePositionStart fn v d)
  | .QUE_CFG => some (queCfgWrite fn i v d)
  | .QUE_CTL => some (match bits v 1 0 with
    | 1 => queueEnable fn i d
    | 2 => queueResume fn i d
    | 3 => queueReset fn i d
    | _ => d)
  | .QUE_EVT_BASE => some (eventArraySetup fn i v d)
  | .MEM_XT_BASE =>
    let d := d.writeFields fn r i a [MEM_XT_BASE.base, MEM_XT_BASE.fault_vector]
    some (if !MEM_XT_BASE.enable.acts a then d else if bit v 0 then xtEnable fn i d else xtDisable fn i d)
  | .MEM_XT_OP1 =>
    let d := d.writeFields fn r i a [MEM_XT_OP1.err]
    some (if bits v 61 60 = 0 then d else xtOperate fn (bits v 61 60) (bit v 59) (bits v 18 0) d)
  | .MEM_CHAN_CTL => some (match bits v 9 8 with
    | 1 => chanResume fn (bits v 7 0) d
    | 2 => chanAbort fn (bits v 7 0) d
    | _ => if d.mayChan fn (bits v 7 0) then d else d.hostErr 0x800618 0)
  | .RAD_MUTE_CTL => some (muteCtlWrite fn v d)
  | .TIM_PPS_CTL => some (ppsEnable fn i v d)
  | .RAS_RETIRE => some (match bits v 17 16 with
    | 1 => Machine.retireUnit fn (bits v 15 0) d
    | 2 => startSteeping fn (bits v 15 0) d
    | 3 => endSteeping fn (bits v 15 0) d
    | _ => d)
  | .RAS_REPAIR_STAT =>
    let d := d.writeFields fn r i a [RAS_REPAIR_STAT.ok, RAS_REPAIR_STAT.fail]
    some (if bit v 17 then repairProgram fn d else d)
  | .FTP_CFG => some (musterEnable fn v d)
  | .FTP_RESTORE => some (restoreStart fn v d)
  | .SEC_ARB => some (if bit v 0 then arbAdvance fn d else d)
  | .SEC_OP_CTL => some (secWrite fn v d)
  | .PWR_STATE_CTL => some (match bits v 1 0 with
    | 1 => reqD0 fn v d
    | 2 => reqIdleHold fn v d
    | 3 => reqDeep fn v d
    | _ => d.powerCtl fn v 0 id)
  | .PWR_SAVE_CTL => some (match bits v 1 0 with
    | 1 => saveSnap fn v d
    | 2 => saveRestore fn v d
    | 3 => saveClear fn v d
    | _ => d.saveCtl fn v 0 id)
  | _ => none

/-- Blocks that take writes while the device is unserviceable (Table 1-5). -/
def Reg.staysUp (r : Reg) : Bool :=
  decide (r.code ≤ Reg.GEN_SVC.code) || (decide (Reg.RAS_LOG_STAT.code ≤ r.code) && decide (r.code ≤ Reg.RAS_TASTE_CNT.code)) ||
  decide (Reg.PWR_STATE_CTL.code ≤ r.code)

/-- A write of a register by a function. -/
def Device.regWrite (d : Device) (fn off : Nat) (r : Reg) (i : Nat) (a : RegAcc) : Device :=
  if d.unserviceable && !r.staysUp then d
  else if d.isX && r.radio then d
  else if !d.mayWrite fn r i then
    let det := r == .DET_TEN_CFG || r == .DET_WSET
    let rwt := r.fields.filter fun f => f.acc == .RWT && f.covered a
    if rwt.isEmpty || det then d.hostErr off 0
    else if rwt.any fun f => f.acts a then d.incSat TXN_STAT.discarded fn 1
    else d
  else
    let v := d.effective r i a
    let new :=
      match regAction fn r i v a d with
      | some d' => d'
      | none => (d.writeFields fn r i a r.fields).afterWrite d r i a
    (new.keepOperands r i v).holdLow r i a

/-- REGISTER_WRITE: a naturally aligned write to BAR0 (R7, R10); one of another size or place is a bad access (R11). -/
def registerWrite (fn off size value : Nat) (d : Device) : Device :=
  if !d.fnAwake fn then d
  else if !(size == 4 || size == 8) || off % size ≠ 0 then d.hostErr off 0
  else if inRange off 0x3800000 0x8100 then (if d.unserviceable then d else d.msixWrite fn off size value)
  else
    match regAt (off / 8 * 8) with
    | some (r, i) => d.regWrite fn off r i (regAcc off size value)
    | none =>
      let window := inRange off 0xE80000 0x40000 || inRange off 0x1310000 0xBB800
      let up := decide (off < 0x80000) || inRange off 0xE00000 0x100000 || inRange off 0x1200000 0x200000
      if d.unserviceable && !up then d
      else if window && fn == 0 then d
      else d.hostErr off 0

/-- BAR0_BAD_ACCESS (R11): a read or write of another size or place. A read returns all ones, a write does nothing; either is a host access error. -/
def bar0BadAccess (fn off size : Nat) (write : Bool) (d : Device) : Device :=
  if !d.fnAwake fn then d
  else (if write then d else { d with sent := .readAnswer fn off size (2 ^ (8 * size) - 1) :: d.sent }).hostErr off 0

end Sys2Proof.Machine
end

