-- ==== Sys2Proof/WellFormed.lean ====
section
/-! DEFINITION. Which commands are well formed: every operand names a unit, queue, tenancy, register place or field value that the part has. Nothing else can
happen; exec leaves the block as it is (log 8). -/

namespace Sys2Proof

open Machine in
/-- A signal-lane instruction names vector registers V0–V31 (Table 2-1). -/
def Machine.LaneOp.wf : LaneOp → Bool
  | .fma32 d a b c => decide (d < 32) && decide (a < 32) && decide (b < 32) && decide (c < 32)
  | .selI8 d a b c e => decide (d < 32) && decide (a < 32) && decide (b < 32) && decide (c < 32) && decide (e < 32)
  | .add32 d a b | .mul32 d a b | .addI16 d a b | .subI16 d a b | .mulQ15 d a b | .addI8 d a b | .minI8 d a b | .maxI8 d a b | .signI8 d a b |
    .gather d a b => decide (d < 32) && decide (a < 32) && decide (b < 32)
  | .fmaBf16 d a b | .fmaFp16 d a b | .cmul d a b _ | .cmulTw d a b _ => decide (d < 32) && decide (a < 32) && decide (b < 32)
  | .shiftI16 d a _ => decide (d < 32) && decide (a < 32)
  | .butterfly d a _ | .shuffle d a _ => decide (d < 32) && decide (a < 32)
  | .recip d a | .rsqrt d a | .exp2 d a | .sum32 d a | .max32 d a | .toI16 d a => decide (d < 32) && decide (a < 32)

open Machine in
/-- A destination of a W store; the compressed forms have 1 to 16 bits (R226). -/
def Machine.WDst.wf : WDst → Bool
  | .bfp w | .mulaw w => decide (1 ≤ w) && decide (w ≤ 16)
  | _ => true

open Machine in
/-- Well-formed commands. -/
def Instr.wf : Instr → Bool
  | .registerWrite fn off size value => decide (fn < 64) && decide (off < 0x4000000) && decide (value < 2 ^ (8 * size)) && decide (size ≤ 8)
  | .bar0BadAccess fn a => decide (fn < 64) && decide (a.off < 0x4000000) && decide (1 ≤ a.size) && decide (a.size ≤ 64) && decide (a.size ∉ [4, 8] ∨ a.off % a.size ≠ 0)
  | .serviceEvaluation => true
  | .legStart n => decide (n < 192)
  | .legEnd n _ _ => decide (n < 192)
  | .legOverrun n => decide (n < 192)
  | .legDiscard n => decide (n < 192)
  | .coreRecoveryDone n => decide (n < 192)
  | .passDescriptorIssue n _ q parts => decide (n < 192) && decide (q < 4) && (parts.all fun p => decide (p.cube / 4 = q))
  | .feederPop w u => decide (w.n < 192) && decide (u < 16)
  | .feederFill n u _ => decide (n < 192) && decide (u < 16)
  | .epiloguePass n u => decide (n < 192) && decide (u < 16)
  | .towedTileArrival n tag _ tok _ _ => decide (n < 192) && decide (tag.length = 16) && (tok.all fun k => decide (k < 64))
  | .tokenSet n tok => decide (n < 192) && decide (tok < 64)
  | .tokenWait w tok _ => decide (w.n < 192) && decide (tok < 64)
  | .startSignalLane n _ => decide (n < 192)
  | .seqMove n _ _ _ _ tok => decide (n < 192) && (tok.all fun k => decide (k < 64))
  | .signalLaneOp n _ op => decide (n < 192) && op.wf
  | .signalLaneLoad n _ bus v _ setup => decide (n < 192) && decide (v < 32) && decide (bus < 3) && setup.all ZGen.wf
  | .wStore n _ srcs ty dst _ _ _ => decide (n < 192) && (srcs.all fun v => decide (v < 32)) && wPair srcs.length ty dst && dst.wf
  | .repeat_ n _ _ len count => decide (n < 192) && decide (1 ≤ len) && decide (len ≤ 256) && decide (1 ≤ count) && decide (count ≤ 65536)
  | .repeatCacheParityError n => decide (n < 192)
  | .shset w _ _ _ => decide (w.n < 192)
  | .expset w sreg value => decide (w.n < 192) && decide (value < 2 ^ 64) && decide (sreg < 32)
  | .beclr w => decide (w.n < 192)
  | .divsetup n _ a b => decide (n < 192) && decide (a < 32) && decide (b < 32)
  | .divsetupF n _ a b => decide (n < 192) && decide (a < 32) && decide (b < 32)
  | .divisionStep n _ => decide (n < 192)
  | .divq15 n _ v => decide (n < 192) && decide (v < 32)
  | .divrnd n _ v => decide (n < 192) && decide (v < 32)
  | .rsload n q _ base count => decide (n < 192) && decide (q < 4) && decide (base < 256) && decide (count ≤ 256)
  | .tileStoreBankGrant n b reqs _ _ _ => decide (n < 192) && decide (b < 32) && (reqs.all fun r => decide (r.1 < 29))
  | .bankWatchdogFire n b => decide (n < 192) && decide (b < 32)
  | .debugAccess off len data => decide (off < 2 ^ 29) && decide (len ≤ 128) && (data.all fun bs => decide (bs.length = len))
  | .tileStoreUncorrectable n _ => decide (n < 192)
  | .tspartAdoption n => decide (n < 192)
  | .dutyFrame die => decide (die < 4)
  | .powerControlUpdate _ _ _ _ _ => true
  | .pkgExcessTimeout => true
  | .sqDoorbell fn q value => decide (fn < 64) && decide (q < 4096) && decide (value < 2 ^ 64)
  | .cqDoorbell fn q value => decide (fn < 64) && decide (q < 4096) && decide (value < 2 ^ 64)
  | .doorbellBadWrite fn off => decide (fn < 64) && decide (off < 0x1000000)
  | .submissionFetch q resp => decide (q < 4096) && decide (resp < 3)
  | .completionPost q => decide (q < 4096)
  | .run q _ _ => decide (q < 4096)
  | .crossDeclare q => decide (q < 4096)
  | .crossCrossing q => decide (q < 4096)
  | .crossRelease q => decide (q < 4096)
  | .collShift q => decide (q < 4096)
  | .collPermute q => decide (q < 4096)
  | .collDispatch q => decide (q < 4096)
  | .collReturn q => decide (q < 4096)
  | .collReduce q => decide (q < 4096)
  | .signal q => decide (q < 4096)
  | .wait q => decide (q < 4096)
  | .fence q => decide (q < 4096)
  | .batchJoin q => decide (q < 4096)
  | .batchLeave q => decide (q < 4096)
  | .cfgTxnBegin q => decide (q < 4096)
  | .cfgTxnCommit q => decide (q < 4096)
  | .cfgTxnRollback q => decide (q < 4096)
  | .txnValidation t => decide (t < 64)
  | .txnTakeEffect t => decide (t < 64)
  | .txnCommitTimeout t => decide (t < 64)
  | .timetableLoad q _ => decide (q < 4096)
  | .timetablePlacementDone k _ => decide (k < 8)
  | .timetableInForce k => decide (k < 8)
  | .stepCommit q => decide (q < 4096)
  | .logMark q => decide (q < 4096)
  | .stepBoundary t => decide (t < 64)
  | .queCfgWrite fn q value => decide (fn < 64) && decide (q < 4096) && decide (value < 2 ^ 64)
  | .queueEnable fn q => decide (fn < 64) && decide (q < 4096)
  | .queueResume fn q => decide (fn < 64) && decide (q < 4096)
  | .queueReset fn q => decide (fn < 64) && decide (q < 4096)
  | .queueDrained q => decide (q < 4096)
  | .eventArraySetup fn t value => decide (fn < 64) && decide (t < 64) && decide (value < 2 ^ 64)
  | .eventArrayFillDone t => decide (t < 64)
  | .commandBind => true
  | .legPlace n _ => decide (n < 192)
  | .preemptWaitExpiry _ => true
  | .radioWindowCheck k _ _ => decide (k < 8)
  | .reserveCountApply n => decide (n < 192)
  | .kvget n tok _ => decide (n < 192) && decide (tok < 64)
  | .evictionCrossingDone t _ _ => decide (t < 64)
  | .timNowSRead fn => decide (fn < 64)
  | .ptpFrameRx port _ => decide (port < 5)
  | .syncTx port _ => decide (port < 5)
  | .domainUpdate k _ cls => decide (k < 2) && decide (cls < 256)
  | .domainLossTimeout k => decide (k < 2)
  | .domainSwitchover => true
  | .holdoverTick => true
  | .requalifyExpiry k => decide (k < 2)
  | .esmcRx port ssm => decide (port < 4) && decide (ssm < 16)
  | .synceQualTimeout => true
  | .slotBoundary mu => decide (mu < 4)
  | .ppsEnable fn k value => decide (fn < 64) && decide (value < 2 ^ 64) && decide (k < 4)
  | .pulseEdge k => decide (k < 4)
  | .captureEdge k _ => decide (k < 4)
  | .capNsRead fn k => decide (fn < 64) && decide (k < 4)
  | .ppsInEdge _ => true
  | .trefLoss => true
  | .fhpost n dir c _ => decide (n < 192) && decide (c < 64) && decide (dir < 2)
  | .slotDeadline c _ => decide (c < 64)
  | .cplaneTx c dir _ _ => decide (c < 64) && decide (dir < 2)
  | .uplaneTx c _ _ l _ => decide (c < 64) && decide (l < 14)
  | .fronthaulFrameRx port _ => decide (port < 4)
  | .ulWindowOpen c _ l => decide (c < 64) && decide (l < 14)
  | .ulWindowClose c _ l => decide (c < 64) && decide (l < 14)
  | .muteCtlWrite fn value => decide (fn < 64) && decide (value < 2 ^ 64)
  | .softMove n ga _ _ tok => decide (n < 192) && decide (ga < 2 ^ 64) && (tok.all fun k => decide (k < 64))
  | .qsampTick => true
  | .rtsubmit n _ _ tok => decide (n < 192) && decide (tok < 64)
  | .logitTileArrival e x src tag _ _ fmt _ => decide (e < 8) && decide (x < 8) && decide (src < 192) && decide (tag.length = 16) && decide (fmt < 8)
  | .routeSort e x => decide (e < 8) && decide (x < 8)
  | .blend e x => decide (e < 8) && decide (x < 8)
  | .engineBringIn e _ => decide (e < 8)
  | .xtEnable fn t => decide (fn < 64) && decide (t < 64)
  | .xtDisable fn t => decide (fn < 64) && decide (t < 64)
  | .xtMap fn _ ppn => decide (fn < 64) && decide (ppn < 2 ^ 19)
  | .xtUnmap fn => decide (fn < 64)
  | .xtReclaim fn => decide (fn < 64)
  | .xtOpDone => true
  | .prgResponseRx fn _ code => decide (fn < 64) && decide (code < 16)
  | .priTimeout fn _ => decide (fn < 64)
  | .atsInvalidationRx fn _ => decide (fn < 64)
  | .declarationDigestDone => true
  | .channelGrant => true
  | .chunkLanded ch _ _ => decide (ch < 256)
  | .crossingFlip ch => decide (ch < 256)
  | .dmago n src dst _ tok => decide (n < 192) && decide (tok < 64) && decide (src < 2 ^ 64) && decide (dst < 2 ^ 64)
  | .chunkFault ch _ => decide (ch < 256)
  | .chanResume fn ch => decide (fn < 64) && decide (ch < 256)
  | .chanAbort fn ch => decide (fn < 64) && decide (ch < 256)
  | .chanServiceTimeout ch => decide (ch < 256)
  | .channelUncorrectable ch w => decide (ch < 256) && decide (w.kind < 6)
  | .memArbiterGrant unit _ _ _ => decide (unit < 65536)
  | .memArbWatchdogFire u => decide (u < 65536)
  | .refresh u _ => decide (u < 65536)
  | .scrubRead sp _ res _ => decide (sp < 5) && decide (res < 3)
  | .correctedWriteBack u => decide (u < 65536)
  | .tier1FillDone => true
  | .tier2FillDone => true
  | .laneFail p lane => decide (p < 16) && decide (lane ≤ 4)
  | .portTrained p lanes => decide (p < 16) && decide (lanes < 32)
  | .portDown p => decide (p < 16)
  | .flitRx p hdr _ crc _ => decide (p < 16) && decide (hdr < 2 ^ 64) && decide (crc < 2 ^ 64)
  | .replayTimeout p => decide (p < 16)
  | .pathReturn p => decide (p < 16)
  | .rload n _ ga _ tok => decide (n < 192) && decide (tok < 64) && decide (ga < 2 ^ 64)
  | .rstore n ga _ _ tok => decide (n < 192) && decide (tok < 64) && decide (ga < 2 ^ 64)
  | .ratom n op ga sv sc sd tok => decide (n < 192) && decide (tok < 64) && decide (op < 256) && decide (ga < 2 ^ 64) && decide (sv < 32) && decide (sc < 32) && decide (sd < 32)
  | .readRx _ => true
  | .writeRx _ => true
  | .atomicRx _ => true
  | .lineSerialiserAccess _ => true
  | .readRspRx _ => true
  | .writeAckRx _ => true
  | .atomicRspRx _ => true
  | .errorRspRx _ => true
  | .receiptRx _ => true
  | .xnakRx _ => true
  | .holdRx _ => true
  | .creditRx _ => true
  | .replyAckRx _ => true
  | .resendTimeout _ => true
  | .remoteRequestTimeout _ => true
  | .receiptTimer _ => true
  | .holdTick => true
  | .replyCacheExpiry _ => true
  | .prepareRx _ => true
  | .prepareAckRx _ => true
  | .openRx _ => true
  | .openAckRx _ => true
  | .peerFlipResend _ => true
  | .prepareTimeout _ => true
  | .collDataRx _ => true
  | .redGrantRx _ => true
  | .redDeclinedRx _ => true
  | .redResultRx _ => true
  | .redDoneRx _ => true
  | .redWaitRx _ => true
  | .redAbortRx _ => true
  | .redOpenTimeout _ => true
  | .redWaitTimeout _ => true
  | .bucketLeakTick => true
  | .correctableError u kind _ place => decide (u < 65536) && decide (kind < 6) && decide (place < 4)
  | .faultRecordLogged _ => true
  | .deviceReset unit kind _ => decide (unit < 65536) && decide (kind < 6)
  | .repairProgram fn => decide (fn < 64)
  | .repairProgramDone _ => true
  | .retireUnit fn u => decide (fn < 64) && decide (u < 65536)
  | .startSteeping fn u => decide (fn < 64) && decide (u < 65536)
  | .endSteeping fn u => decide (fn < 64) && decide (u < 65536)
  | .steepingExpiry u => decide (u < 65536)
  | .coreBringIn n => decide (n < 192)
  | .cubeRowBringIn n => decide (n < 192)
  | .pseudoChannelCopy u => decide (u < 65536)
  | .pseudoChannelCopyDone u => decide (u < 65536)
  | .cpCheckpoint k => decide (k < 4)
  | .cpFailure k => decide (k < 4)
  | .cpSpareRotation => true
  | .tasteLeg n _ => decide (n < 192)
  | .tasteArbitration n verdict => decide (n < 192) && decide (1 ≤ verdict) && decide (verdict ≤ 3)
  | .periodicTestDue n _ => decide (n < 192)
  | .musterEnable fn value => decide (fn < 64) && decide (value < 2 ^ 64)
  | .joinTick => true
  | .heartbeatTick => true
  | .heartbeatRx src => decide (src < 4096)
  | .beaconRx src => decide (src < 4096)
  | .probeRx src => decide (src < 4096)
  | .probeAckRx src => decide (src < 4096)
  | .probeTimeout dev => decide (dev < 4096)
  | .removeRx src dev => decide (src < 4096) && decide (dev < 4096)
  | .joinRx dev _ => decide (dev < 4096)
  | .leaveRx src => decide (src < 4096)
  | .epochIssue _ => true
  | .epochRx src _ => decide (src < 4096)
  | .epochAckRx src => decide (src < 4096)
  | .managerTakeover _ => true
  | .isolateRx src => decide (src < 4096)
  | .isolateTimeout => true
  | .shadowPageRead t => decide (t < 64)
  | .shadowAckRx src t _ _ => decide (src < 4096) && decide (t < 64)
  | .logHoldTimeout t => decide (t < 64)
  | .restoreStart fn value => decide (fn < 64) && decide (value < 2 ^ 64)
  | .restoreDone _ _ => true
  | .tenancyQuiesce fn t => decide (fn < 64) && decide (t < 64)
  | .tenancyQuiesced t => decide (t < 64)
  | .tenancyResume fn t => decide (fn < 64) && decide (t < 64)
  | .tenancyReset fn t _ => decide (fn < 64) && decide (t < 64)
  | .tenancyResetDone t => decide (t < 64)
  | .irqGapExpiry fn v => decide (fn < 64) && decide (v < 2048)
  | .dlogEnable fn t value => decide (fn < 64) && decide (t < 64) && decide (value < 2 ^ 64)
  | .dlogSwap fn t value => decide (fn < 64) && decide (t < 64) && decide (value < 2 ^ 64)
  | .dlogSwapDone t => decide (t < 64)
  | .queuePositionStart fn value => decide (fn < 64) && decide (value < 2 ^ 64)
  | .linkDown => true
  | .perstAssert => true
  | .startup _ => true
  | .imageVerified _ _ => true
  | .builtInTestDone _ => true
  | .arbAdvance fn => decide (fn < 64)
  | .arbProgramDone => true
  | .ownerEnrol fn value resp => decide (fn < 64) && decide (value < 2 ^ 64) && decide (resp < 3)
  | .fabricKeyImport fn value resp => decide (fn < 64) && decide (value < 2 ^ 64) && decide (resp < 3)
  | .fabricKeyActivate fn value => decide (fn < 64) && decide (value < 2 ^ 64)
  | .fabricKeyRetirePrevious fn value => decide (fn < 64) && decide (value < 2 ^ 64)
  | .memoryKeyRoll fn value => decide (fn < 64) && decide (value < 2 ^ 64)
  | .debugNonce fn value => decide (fn < 64) && decide (value < 2 ^ 64)
  | .debugUnlock fn value resp => decide (fn < 64) && decide (value < 2 ^ 64) && decide (resp < 3)
  | .debugLock fn value => decide (fn < 64) && decide (value < 2 ^ 64)
  | .recoveryImage fn value resp => decide (fn < 64) && decide (value < 2 ^ 64) && decide (resp < 3)
  | .spdmGetVersion => true
  | .spdmGetCapabilities => true
  | .spdmNegotiateAlgorithms => true
  | .spdmGetDigests => true
  | .spdmGetCertificate off len => decide (off < 65536) && decide (len < 65536)
  | .spdmChallenge nonce => decide (nonce.length = 32)
  | .spdmGetMeasurements index _ nonce => decide (index < 256) && decide (nonce.length = 32)
  | .spdmUnsupported => true
  | .reqD0 fn value => decide (fn < 64) && decide (value < 2 ^ 64)
  | .reqIdleHold fn value => decide (fn < 64) && decide (value < 2 ^ 64)
  | .reqDeep fn value => decide (fn < 64) && decide (value < 2 ^ 64)
  | .autoIdleExpiry => true
  | .idleWake src => decide (1 ≤ src) && decide (src ≤ 3)
  | .deepWake src => decide (4 ≤ src) && decide (src ≤ 6)
  | .thermalSample unit _ mv => decide (unit < 28672) && decide (mv < 65536)
  | .powerFail => true
  | .saveComplete bad => decide (bad ≤ 524288)
  | .saveSnap fn value => decide (fn < 64) && decide (value < 2 ^ 64)
  | .autoSnapshot => true
  | .saveRestore fn value => decide (fn < 64) && decide (value < 2 ^ 64)
  | .saveClear fn value => decide (fn < 64) && decide (value < 2 ^ 64)
  | .sysclkLoss => true
  | .frefLoss g => decide (g < 4)
  | .erefLoss => true
  | .mgtReadReg seq peer _ _ => decide (seq < 65536) && decide (peer.mac < 2 ^ 48) && (peer.ip.all fun a => decide (a < 2 ^ 32))
  | .mgtReadLog seq peer _ _ => decide (seq < 65536) && decide (peer.mac < 2 ^ 48) && (peer.ip.all fun a => decide (a < 2 ^ 32))
  | .mgtReadTelem seq peer _ _ => decide (seq < 65536) && decide (peer.mac < 2 ^ 48) && (peer.ip.all fun a => decide (a < 2 ^ 32))
  | .mgtReadSave seq peer => decide (seq < 65536) && decide (peer.mac < 2 ^ 48) && (peer.ip.all fun a => decide (a < 2 ^ 32))
  | .mgtWake seq peer => decide (seq < 65536) && decide (peer.mac < 2 ^ 48) && (peer.ip.all fun a => decide (a < 2 ^ 32))
  | .mgtDeviceReset seq peer => decide (seq < 65536) && decide (peer.mac < 2 ^ 48) && (peer.ip.all fun a => decide (a < 2 ^ 32))
  | .mgtSetPkgLimit seq peer w => decide (seq < 65536) && decide (peer.mac < 2 ^ 48) && decide (w < 65536) && (peer.ip.all fun a => decide (a < 2 ^ 32))
  | .mgtBadRequest seq peer op => decide (seq < 65536) && decide (peer.mac < 2 ^ 48) && decide (op < 256) && (peer.ip.all fun a => decide (a < 2 ^ 32))
  | .i3cPrivateWrite seq _ => decide (seq < 65536)
  | .i3cAddressAssign _ static dyn => decide (static < 128) && decide (dyn < 128)
  | .telemetryTick _ _ _ => true
  | .pwrfailNRise => true
  | .powerOn => true
  | .aonSupplyLoss => true
  | .trefReturn => true
  | .frefReturn g => decide (g < 4)
  | .erefReturn => true
  | .fronthaulLinkChange p _ => decide (p < 4)
  | .removalResetTimeout => true
  | .vfEnableChange _ num => decide (num < 64)
  | .functionPowerStateWrite fn _ => decide (fn < 64)
  | .pmeTurnOffRx => true
  | .msixUnmask fn v => decide (fn < 64) && decide (v < 2048)
  | .translationCompletionRx fn _ _ _ _ => decide (fn < 64)
  | .engineInputWatchdogFire e src => decide (e < 8) && decide (src < 192)
  | .snapshotDone => true
  | .saveRestoreDone => true
  | .coreBringInDone n _ => decide (n < 192)
  | .cubeRowBringInDone n => decide (n < 192)
  | .cpTakeoverDone => true
  | .xtEnableDone t => decide (t < 64)
  | .dramRowRepairDone u => decide (u < 65536)
  | .secOperationDone => true
  | .shadowPageRx guest t _ _ => decide (guest < 4096) && decide (t < 64)
  | .logRecordMirrorRx guest t _ => decide (guest < 4096) && decide (t < 64)
  | .logMirrorAckRx t _ => decide (t < 64)
  | .jtagInstruction _ _ => true

end Sys2Proof
end

