-- ==== Sys2Proof/Machine/Rows.lean ====
section
/-! DEFINITION. What the commands of every family share: the guard of a register write that has a row of its own, and what follows an event at once; and the
bodies of the soft move (R225), RTSUBMIT (R235), the slot boundary (R194) and the idle block. -/

namespace Sys2Proof.Machine

/-- A write or read of a register that has a row of its own: nothing from a function in D3hot, nothing outside the blocks that stay up while the device is
unserviceable, nothing of the RAD block on a part without it (R3, R441, Table 1-5). -/
def Device.via (fn : Nat) (r : Reg) (f : Device → Device) (d : Device) : Device :=
  if !d.fnAwake fn || (d.unserviceable && !r.staysUp) || (d.isX && r.radio) then d else f d

/-- A write of the whole of a register that has a row of its own, by a function that may write it, uses up the lower half that was held for it (R10). -/
def Device.whole (may : Bool) (r : Reg) (i : Nat) (f : Device → Device) (d : Device) : Device := if may then (f d).usedUp r i else f d

/-- A host access: nothing from a function in D3hot (R441). -/
def Device.awake (fn : Nat) (f : Device → Device) (d : Device) : Device := if d.fnAwake fn then f d else d

/-- What follows an event at once: routes of retired engines and transfers through lost units end, waits that an error mark meets end their legs, and chunks of remote transfers and of reductions go out. -/
def Device.settled (f : Device → Device) (d : Device) : Device := (f d).sweepEngines.sweepLost.pumpColls.errorWaitsAll.askRemote

/-- An event after which the service level may have changed. -/
def Device.svcWatched (f : Device → Device) (d : Device) : Device := (f d).watchSvc d

/-! ### Soft moves -/

/-- The 64-byte blocks that a range touches: global address and length of each part. -/
def blocks64 : Nat → Nat → Nat → List (Nat × Nat)
  | 0, _, _ => []
  | k + 1, ga, len =>
    if len = 0 then [] else
    let n := min len (64 - ga % 64)
    (ga, n) :: blocks64 k (ga + n) (len - n)

/-- One block of a soft move: its bytes, zero where its read is uncorrectable, which is recorded with the memory's unit (R225, R367). -/
def softBlock (l : Leg) (acc : Device × List Byte × Bool) (p : Nat × Nat) : Device × List Byte × Bool :=
  match acc.1.readGA l.ten p.1 p.2 with
  | .ok bs => (acc.1, acc.2.1 ++ bs, acc.2.2)
  | .poison x =>
    let u := acc.1.placeUnit x.sp x.off
    (acc.1.uncorr u.1 u.2 { l.rec_ with addr := p.1 }, acc.2.1 ++ List.replicate p.2 0, true)
  | _ => acc

/-- A soft move into the tile store: a page fault stops the leg as for another move, an uncorrectable block reads as zero LLRs and marks the result (R225). -/
def softMoveOp (n ga ts len : Nat) (tok : Option Nat) (d : Device) (l : Leg) : Option LegRes :=
  let fault := (parts ga len).find? fun p => (match d.meet l.ten p.1 false with
    | .faults => true
    | _ => false)
  let waits := (parts ga len).any fun p => (match d.meet l.ten p.1 false with
    | .waits _ => true
    | _ => false)
  match fault with
  | some p => some (.stop d l stFault 0x09 p.1)
  | none =>
    if waits then none
    else some <|
      let r := (blocks64 (len / 64 + 2) ga len).foldl (softBlock l) (d, [], false)
      match r.1.tsWrite n { l with lostBuf := l.lostBuf || r.2.2 } ts r.2.1 with
      | .go d l => (match tok with
        | some t => .go d (l.setTok t)
        | none => .go d l)
      | s => s

/-- SOFT_MOVE (R225). -/
def softMove (n ga ts len : Nat) (tok : Option Nat) (d : Device) : Device := d.seqStall n [scSoft, ga, ts, len, tokCode tok] (softMoveOp n ga ts len tok)

/-! ### RTSUBMIT, slot boundaries, idling -/

/-- RTSUBMIT by the leg of a core (R235). -/
def rtsubmitRow (n pos desc tok : Nat) (d : Device) : Device := d.seqStall n [scSubmit, pos, desc, tok] (rtsubmit n pos desc tok)

/-- SLOT_BOUNDARY (R193, R194): device time comes to the next slot of numerology mu; where that is a subframe boundary, valid transactions of the RAD or TIM
block that were validated 50 µs before take effect (R145). -/
def slotBoundary (mu : Nat) (d : Device) : Device :=
  let d := d.toSlot mu
  if d.slotCount mu % 2 ^ mu ≠ 0 then d else d.subframeTxns

/-- The instruction that stalls issue, from its code and operands. -/
def stalled (n : Nat) : List Nat → Device → Leg → Option LegRes
  | [1, pos, desc, tok] => rtsubmit n pos desc tok
  | [2, src, dst, len, tok] => dmagoOp n src dst len tok
  | [3, toPool, ts, pool, len, tok] => moveOp n (toPool == 1) ts pool len (if tok = 0 then none else some (tok - 1))
  | [4, ga, ts, len, tok] => softMoveOp n ga ts len (if tok = 0 then none else some (tok - 1))
  | [5, ts, ga, len, tok] => rloadOp n ts ga len tok
  | [6, ga, ts, len, tok] => rstoreOp n ga ts len tok
  | [7, op, ga, sv, sc, sd, tok] => ratomOp n op ga sv sc sd tok
  | _ => fun d l => some (.go d l)

/-- One ACLK cycle of the leg on a core: the counter advances unless the cycle is withheld, and meets the bound and four times the bound (R66, R68); an
instruction that stalls issue tries again. -/
def Device.legTick (d : Device) (n : Nat) : Device :=
  match (d.core n).leg with
  | none => d
  | some l =>
    if d.withheld n l then d
    else if 4 * l.bound ≤ l.count + 1 then legDiscard n d
    else
      d.legAt n 0 (some (l.count + 1)) fun d l =>
        match l.stall with
        | some q => stallOp q (stalled n q) d l
        | none => .go d l

/-- The block with no command waiting: one ACLK cycle passes, while it has its clock, and with it one cycle of every leg that runs; a subframe boundary that the
cycle crosses puts transactions in force (R145), a TIMETABLE_LOAD that had to wait is looked at again (R157), fronthaul frames
whose time has come go out (R228), and the routing engines take waiting logit tiles (R244). -/
def Device.idle (d : Device) : Device :=
  if d.unpowered then d
  else
    let e := d.tick
    let e := if e.slotCount 0 = d.slotCount 0 then e else e.subframeTxns
    ((e.cores.filter fun c => c.2.leg.isSome).foldl (fun d c => d.legTick c.1) e.drainPorts.intakeAll).retryLoads ⟨0, []⟩

end Sys2Proof.Machine
end

