-- ==== Sys2Proof/Machine/CollCmds.lean ====
section
/-! DEFINITION. The commands of one family: Collectives (chapter 11). Each meaning checks its operands and lets the row's body change the device. -/

namespace Sys2Proof.Machine

/-- COLL_DATA_RX (R336). -/
def execCollDataRx (b : List Byte) (s : State) : Out := s.act (Device.settled (fun d => collDataRx b (d.disarmDeep 2)))

/-- RED_GRANT_RX (R345). -/
def execRedGrantRx (b : List Byte) (s : State) : Out := s.act (Device.settled (redGrantRx b))

/-- RED_DECLINED_RX (R348). -/
def execRedDeclinedRx (b : List Byte) (s : State) : Out := s.act (Device.settled (redDeclinedRx b))

/-- RED_RESULT_RX (R345). -/
def execRedResultRx (b : List Byte) (s : State) : Out := s.act (Device.settled (redResultRx b))

/-- RED_DONE_RX (R346). -/
def execRedDoneRx (b : List Byte) (s : State) : Out := s.act (Device.settled (redDoneRx b))

/-- RED_WAIT_RX (R347). -/
def execRedWaitRx (b : List Byte) (s : State) : Out := s.act (redWaitRx b)

/-- RED_ABORT_RX (R347). -/
def execRedAbortRx (b : List Byte) (s : State) : Out := s.act (Device.settled (redAbortRx b))

/-- RED_OPEN_TIMEOUT (R344). -/
def execRedOpenTimeout (k : Nat) (s : State) : Out := s.act (Device.settled (redOpenTimeout k))

/-- RED_WAIT_TIMEOUT (R347). -/
def execRedWaitTimeout (k : Nat) (s : State) : Out := s.act (Device.settled (redWaitTimeout k))

end Sys2Proof.Machine
end

