-- ==== Sys2Proof/Machine/CoreCmds.lean ====
section
/-! DEFINITION. The commands of one family: The tensor core: legs, passes, sequencer and signal lane, division, tile-store banks (chapters 2 and 3). Each meaning checks its operands and lets the row's body change the device. -/

namespace Sys2Proof.Machine

/-- LEG_START (R63). -/
def execLegStart (n : Nat) (s : State) : Out := s.actIf (decide (n < 192)) (Device.settled (legStart n))

/-- LEG_END (R65). -/
def execLegEnd (n cyc test : Nat) (s : State) : Out := s.actIf (decide (n < 192)) (Device.settled (legEnd n cyc test))

/-- LEG_OVERRUN (R66). -/
def execLegOverrun (n : Nat) (s : State) : Out := s.actIf (decide (n < 192)) (Device.settled (legOverrun n))

/-- LEG_DISCARD (R66). -/
def execLegDiscard (n : Nat) (s : State) : Out := s.actIf (decide (n < 192)) (Device.settled (legDiscard n))

/-- CORE_RECOVERY_DONE (R66). -/
def execCoreRecoveryDone (n : Nat) (s : State) : Out := s.actIf (decide (n < 192)) (Device.settled (coreRecoveryDone n))

/-- PASS_DESCRIPTOR_ISSUE (R33). -/
def execPassDescriptorIssue (n cyc q : Nat) (parts : List PassDesc) (s : State) : Out :=
  s.actIf (decide (n < 192) && decide (q < 4) && (parts.all fun p => decide (p.cube / 4 = q))) (Device.settled (passDescriptorIssue n cyc q parts))

/-- FEEDER_POP (R35). -/
def execFeederPop (w : LegAt) (u : Nat) (s : State) : Out := s.actIf (decide (w.n < 192) && decide (u < 16)) (Device.settled (popRow w.n w.cyc u))

/-- FEEDER_FILL (R36). -/
def execFeederFill (n u : Nat) (isB : Bool) (s : State) : Out := s.actIf (decide (n < 192) && decide (u < 16)) (Device.settled (fillRow n u isB))

/-- EPILOGUE_PASS (R97). -/
def execEpiloguePass (n u : Nat) (s : State) : Out := s.actIf (decide (n < 192) && decide (u < 16)) (Device.settled (epiloguePass n u))

/-- TOWED_TILE_ARRIVAL (R103). -/
def execTowedTileArrival (n : Nat) (tag : List Byte) (addr : Nat) (tok expAddr : Option Nat) (data : List Byte) (s : State) : Out :=
  s.actIf (decide (n < 192) && decide (tag.length = 16) && (tok.all fun k => decide (k < 64))) (Device.settled (towedTileArrival n tag addr tok expAddr data))

/-- TOKEN_SET (R63). -/
def execTokenSet (n tok : Nat) (s : State) : Out := s.actIf (decide (n < 192) && decide (tok < 64)) (Device.settled (tokenSet n tok))

/-- TOKEN_WAIT (R63). -/
def execTokenWait (w : LegAt) (tok : Nat) (lane : Bool) (s : State) : Out :=
  s.actIf (decide (w.n < 192) && decide (tok < 64)) (Device.settled (tokenWait w.n w.cyc tok lane))

/-- START_SIGNAL_LANE (R42). -/
def execStartSignalLane (n addr : Nat) (s : State) : Out := s.actIf (decide (n < 192)) (Device.settled (startSignalLane n addr))

/-- SEQ_MOVE (R287). -/
def execSeqMove (n : Nat) (toPool : Bool) (ts pool len : Nat) (tok : Option Nat) (s : State) : Out :=
  s.actIf (decide (n < 192) && (tok.all fun k => decide (k < 64))) (Device.settled (seqMove n toPool ts pool len tok))

/-- SIGNAL_LANE_OP (R42). -/
def execSignalLaneOp (n cyc : Nat) (op : LaneOp) (s : State) : Out := s.actIf (decide (n < 192) && op.wf) (Device.settled (signalLaneOp n cyc op))

/-- SIGNAL_LANE_LOAD (R44). -/
def execSignalLaneLoad (n cyc bus v addr : Nat) (setup : Option ZGen) (s : State) : Out :=
  s.actIf (decide (n < 192) && decide (v < 32) && decide (bus < 3) && setup.all ZGen.wf) (Device.settled (signalLaneLoad n cyc bus v addr setup))

/-- W_STORE (R91). -/
def execWStore (n cyc : Nat) (srcs : List Nat) (ty : WTy) (dst : WDst) (scaled : Bool) (addr recAddr : Nat) (s : State) : Out :=
  s.actIf (decide (n < 192) && (srcs.all fun v => decide (v < 32)) && wPair srcs.length ty dst && dst.wf) (Device.settled (wStoreRow n cyc srcs ty dst scaled addr recAddr))

/-- REPEAT (R47). -/
def execRepeat (n cyc body len count : Nat) (s : State) : Out :=
  s.actIf (decide (n < 192) && decide (1 ≤ len) && decide (len ≤ 256) && decide (1 ≤ count) && decide (count ≤ 65536)) (Device.settled (repeatOp n cyc body len count))

/-- REPEAT_CACHE_PARITY_ERROR (R49). -/
def execRepeatCacheParityError (n : Nat) (s : State) : Out := s.actIf (decide (n < 192)) (Device.settled (repeatCacheParityError n))

/-- SHSET (R90). -/
def execShset (w : LegAt) (t lo hi : Int) (s : State) : Out := s.actIf (decide (w.n < 192)) (Device.settled (shset w.n w.cyc t lo hi))

/-- EXPSET (R90). -/
def execExpset (w : LegAt) (sreg value : Nat) (s : State) : Out :=
  s.actIf (decide (w.n < 192) && decide (value < 2 ^ 64) && decide (sreg < 32)) (Device.settled (expset w.n w.cyc sreg value))

/-- BECLR (R89). -/
def execBeclr (w : LegAt) (s : State) : Out := s.actIf (decide (w.n < 192)) (Device.settled (beclr w.n w.cyc))

/-- DIVSETUP (R94). -/
def execDivsetup (n cyc a b : Nat) (s : State) : Out := s.actIf (decide (n < 192) && decide (a < 32) && decide (b < 32)) (Device.settled (divsetup n cyc a b))

/-- DIVSETUP_F (R95). -/
def execDivsetupF (n cyc a b : Nat) (s : State) : Out := s.actIf (decide (n < 192) && decide (a < 32) && decide (b < 32)) (Device.settled (divsetupF n cyc a b))

/-- DIVISION_STEP (R93). -/
def execDivisionStep (n cyc : Nat) (s : State) : Out := s.actIf (decide (n < 192)) (Device.settled (divisionStep n cyc))

/-- DIVQ15 (R94). -/
def execDivq15 (n cyc v : Nat) (s : State) : Out := s.actIf (decide (n < 192) && decide (v < 32)) (Device.settled (divq15 n cyc v))

/-- DIVRND (R95). -/
def execDivrnd (n cyc v : Nat) (s : State) : Out := s.actIf (decide (n < 192) && decide (v < 32)) (Device.settled (divrnd n cyc v))

/-- RSLOAD (R106). -/
def execRsload (n q ts base count : Nat) (s : State) : Out :=
  s.actIf (decide (n < 192) && decide (q < 4) && decide (base < 256) && decide (count ≤ 256)) (Device.settled (rsload n q ts base count))

/-- TILE_STORE_BANK_GRANT (R51). -/
def execTileStoreBankGrant (n b : Nat) (reqs : List (Nat × Nat)) (withdrawn keep : Bool) (cyc : Option Nat) (s : State) : Out :=
  s.actIf (decide (n < 192) && decide (b < 32) && (reqs.all fun r => decide (r.1 < 29))) (tileStoreBankGrant n b reqs withdrawn keep cyc)

/-- BANK_WATCHDOG_FIRE (R56). -/
def execBankWatchdogFire (n b : Nat) (s : State) : Out := s.actIf (decide (n < 192) && decide (b < 32)) (Device.settled (bankWatchdogFire n b))

/-- DEBUG_ACCESS (R57). -/
def execDebugAccess (off len : Nat) (data : Option (List Byte)) (s : State) : Out :=
  s.actIf (decide (off < 2 ^ 29) && decide (len ≤ 128) && (data.all fun bs => decide (bs.length = len))) (Device.settled (debugAccess off len data))

/-- TILE_STORE_UNCORRECTABLE (R59). -/
def execTileStoreUncorrectable (n addr : Nat) (s : State) : Out := s.actIf (decide (n < 192)) (Device.settled (tileStoreUncorrectable n addr))

/-- TSPART_ADOPTION (R62). -/
def execTspartAdoption (n : Nat) (s : State) : Out := s.actIf (decide (n < 192)) (Device.settled (tspartAdoption n))

/-- DUTY_FRAME (R167). -/
def execDutyFrame (die : Nat) (s : State) : Out := s.actIf (decide (die < 4)) (dutyFrame die)

end Sys2Proof.Machine
end

