-- ==== Sys2Proof/Machine/FabricCmds.lean ====
section
/-! DEFINITION. The commands of one family: Fabric ports, packets and remote requests (chapter 10). Each meaning checks its operands and lets the row's body change the device. -/

namespace Sys2Proof.Machine

/-- LANE_FAIL (R296). -/
def execLaneFail (p lane : Nat) (s : State) : Out := s.actIf (decide (p < 16) && decide (lane ≤ 4)) (laneFail p lane)

/-- PORT_TRAINED (R297). -/
def execPortTrained (p lanes : Nat) (s : State) : Out := s.actIf (decide (p < 16) && decide (lanes < 32)) (portTrains p lanes)

/-- PORT_DOWN (R302). -/
def execPortDown (p : Nat) (s : State) : Out := s.actIf (decide (p < 16)) (portDown p)

/-- FLIT_RX (R301). -/
def execFlitRx (p hdr : Nat) (payload : List Byte) (crc : Nat) (ctl : Ctl) (s : State) : Out :=
  s.actIf (decide (p < 16) && decide (hdr < 2 ^ 64) && decide (crc < 2 ^ 64)) (flitRx p hdr payload crc ctl)

/-- REPLAY_TIMEOUT (R302). -/
def execReplayTimeout (p : Nat) (s : State) : Out := s.actIf (decide (p < 16)) (replayTimeout p)

/-- PATH_RETURN (R310). -/
def execPathReturn (p : Nat) (s : State) : Out := s.actIf (decide (p < 16)) (pathReturn p)

/-- RLOAD (R311). -/
def execRload (n ts ga len tok : Nat) (s : State) : Out :=
  s.actIf (decide (n < 192) && decide (tok < 64) && decide (ga < 2 ^ 64)) (Device.settled (rload n ts ga len tok))

/-- RSTORE (R311). -/
def execRstore (n ga ts len tok : Nat) (s : State) : Out :=
  s.actIf (decide (n < 192) && decide (tok < 64) && decide (ga < 2 ^ 64)) (Device.settled (rstore n ga ts len tok))

/-- RATOM (R311). -/
def execRatom (n op ga sv sc sd tok : Nat) (s : State) : Out :=
  s.actIf (decide (n < 192) && decide (tok < 64) && decide (op < 256) && decide (ga < 2 ^ 64) && decide (sv < 32) && decide (sc < 32) && decide (sd < 32)) (Device.settled (ratom n op ga sv sc sd tok))

/-- READ_RX (R317). -/
def execReadRx (b : List Byte) (s : State) : Out := s.act (Device.settled (fun d => readRx b (d.disarmDeep 2)))

/-- WRITE_RX (R317). -/
def execWriteRx (b : List Byte) (s : State) : Out := s.act (Device.settled (fun d => writeRx b (d.disarmDeep 2)))

/-- ATOMIC_RX (R322). -/
def execAtomicRx (b : List Byte) (s : State) : Out := s.act (Device.settled (fun d => atomicRx b (d.disarmDeep 2)))

/-- LINE_SERIALISER_ACCESS (R324). -/
def execLineSerialiserAccess (k : Nat) (s : State) : Out := s.act (Device.settled (lineSerialiserAccess k))

/-- READ_RSP_RX (R319). -/
def execReadRspRx (b : List Byte) (s : State) : Out := s.act (Device.settled (readRspRx b))

/-- WRITE_ACK_RX (R319). -/
def execWriteAckRx (b : List Byte) (s : State) : Out := s.act (Device.settled (writeAckRx b))

/-- ATOMIC_RSP_RX (R322). -/
def execAtomicRspRx (b : List Byte) (s : State) : Out := s.act (Device.settled (atomicRspRx b))

/-- ERROR_RSP_RX (R319). -/
def execErrorRspRx (b : List Byte) (s : State) : Out := s.act (Device.settled (errorRspRx b))

/-- RECEIPT_RX (R308). -/
def execReceiptRx (b : List Byte) (s : State) : Out := s.act (receiptRx b)

/-- XNAK_RX (R308). -/
def execXnakRx (b : List Byte) (s : State) : Out := s.act (xnakRx b)

/-- HOLD_RX (R320). -/
def execHoldRx (b : List Byte) (s : State) : Out := s.act (holdRx b)

/-- CREDIT_RX (R306). -/
def execCreditRx (b : List Byte) (s : State) : Out := s.act (creditRx b)

/-- REPLY_ACK_RX (R322). -/
def execReplyAckRx (b : List Byte) (s : State) : Out := s.act (replyAckRx b)

/-- RESEND_TIMEOUT (R308). -/
def execResendTimeout (k : Nat) (s : State) : Out := s.act (resendTimeout k)

/-- REMOTE_REQUEST_TIMEOUT (R320). -/
def execRemoteRequestTimeout (k : Nat) (s : State) : Out := s.act (Device.settled (remoteRequestTimeout k))

/-- RECEIPT_TIMER (R318). -/
def execReceiptTimer (k : Nat) (s : State) : Out := s.act (receiptTimer k)

/-- HOLD_TICK (R318). -/
def execHoldTick (s : State) : Out := s.act holdTick

/-- REPLY_CACHE_EXPIRY (R322). -/
def execReplyCacheExpiry (k : Nat) (s : State) : Out := s.act (replyCacheExpiry k)

/-- PREPARE_RX (R327). -/
def execPrepareRx (b : List Byte) (s : State) : Out := s.act (Device.settled (prepareRx b))

/-- PREPARE_ACK_RX (R327). -/
def execPrepareAckRx (b : List Byte) (s : State) : Out := s.act (Device.settled (prepareAckRx b))

/-- OPEN_RX (R327). -/
def execOpenRx (b : List Byte) (s : State) : Out := s.act (Device.settled (openRx b))

/-- OPEN_ACK_RX (R327). -/
def execOpenAckRx (b : List Byte) (s : State) : Out := s.act (Device.settled (openAckRx b))

/-- PEER_FLIP_RESEND (R327). -/
def execPeerFlipResend (k : Nat) (s : State) : Out := s.act (peerFlipResend k)

/-- PREPARE_TIMEOUT (R327). -/
def execPrepareTimeout (k : Nat) (s : State) : Out := s.act (Device.settled (prepareTimeout k))

end Sys2Proof.Machine
end

