-- ==== Sys2Proof/Machine/HostCmds.lean ====
section
/-! DEFINITION. The commands of one family: Accesses to BAR0 and the service level (chapters 0, 1 and 19). Each meaning checks its operands and lets the row's body change the device. -/

namespace Sys2Proof.Machine

/-- REGISTER_WRITE (R7). -/
def execRegisterWrite (fn off size value : Nat) (s : State) : Out :=
  s.actIf (decide (fn < 64) && decide (off < 0x4000000) && decide (value < 2 ^ (8 * size)) && decide (size ≤ 8)) (Device.awake fn (Device.settled (Device.svcWatched (registerWrite fn off size value))))

/-- BAR0_BAD_ACCESS (R11). -/
def execBar0BadAccess (fn : Nat) (a : BadAccess) (s : State) : Out :=
  s.actIf (decide (fn < 64) && decide (a.off < 0x4000000) && decide (1 ≤ a.size) && decide (a.size ≤ 64) && decide (a.size ∉ [4, 8] ∨ a.off % a.size ≠ 0)) (Device.awake fn (bar0BadAccess fn a.off a.size a.write))

/-- SERVICE_EVALUATION (R25). -/
def execServiceEvaluation (s : State) : Out := s.act (Device.settled (Device.svcWatched (serviceEvaluation)))

end Sys2Proof.Machine
end

