-- ==== Sys2Proof/Machine/MemCmds.lean ====
section
/-! DEFINITION. The commands of one family: Translation, landings, channels and memory arbiters (chapter 9). Each meaning checks its operands and lets the row's body change the device. -/

namespace Sys2Proof.Machine

/-- XT_ENABLE (R271). -/
def execXtEnable (fn t : Nat) (s : State) : Out := s.actIf (decide (fn < 64) && decide (t < 64)) (Device.via fn .MEM_XT_BASE (xtEnable fn t))

/-- XT_DISABLE (R271). -/
def execXtDisable (fn t : Nat) (s : State) : Out := s.actIf (decide (fn < 64) && decide (t < 64)) (Device.via fn .MEM_XT_BASE (xtDisable fn t))

/-- XT_MAP (R272). -/
def execXtMap (fn : Nat) (write : Bool) (ppn : Nat) (s : State) : Out :=
  s.actIf (decide (fn < 64) && decide (ppn < 2 ^ 19)) (Device.via fn .MEM_XT_OP1 (xtMap fn write ppn))

/-- XT_UNMAP (R272). -/
def execXtUnmap (fn : Nat) (s : State) : Out := s.actIf (decide (fn < 64)) (Device.via fn .MEM_XT_OP1 (xtUnmap fn))

/-- XT_RECLAIM (R272). -/
def execXtReclaim (fn : Nat) (s : State) : Out := s.actIf (decide (fn < 64)) (Device.via fn .MEM_XT_OP1 (xtReclaim fn))

/-- XT_OP_DONE (R272). -/
def execXtOpDone (s : State) : Out := s.act (Device.settled (xtOpDone))

/-- PRG_RESPONSE_RX (R273). -/
def execPrgResponseRx (fn page code : Nat) (s : State) : Out := s.actIf (decide (fn < 64) && decide (code < 16)) (Device.settled (prgResponseRx fn page code))

/-- PRI_TIMEOUT (R273). -/
def execPriTimeout (fn page : Nat) (s : State) : Out := s.actIf (decide (fn < 64)) (Device.settled (priTimeout fn page))

/-- ATS_INVALIDATION_RX (R274). -/
def execAtsInvalidationRx (fn page : Nat) (s : State) : Out := s.actIf (decide (fn < 64)) (atsInvalidationRx fn page)

/-- DECLARATION_DIGEST_DONE (R278). -/
def execDeclarationDigestDone (s : State) : Out := s.act (Device.settled (declarationDigestDone))

/-- CHANNEL_GRANT (R285). -/
def execChannelGrant (s : State) : Out := s.act (Device.settled (channelGrant))

/-- CHUNK_LANDED (R279). -/
def execChunkLanded (ch k : Nat) (data : List Byte) (s : State) : Out := s.actIf (decide (ch < 256)) (Device.settled (chunkLanded ch k data))

/-- CROSSING_FLIP (R279). -/
def execCrossingFlip (ch : Nat) (s : State) : Out := s.actIf (decide (ch < 256)) (Device.settled (crossingFlip ch))

/-- DMAGO (R286). -/
def execDmago (n src dst len tok : Nat) (s : State) : Out :=
  s.actIf (decide (n < 192) && decide (tok < 64) && decide (src < 2 ^ 64) && decide (dst < 2 ^ 64)) (Device.settled (dmago n src dst len tok))

/-- CHUNK_FAULT (R288). -/
def execChunkFault (ch : Nat) (hostErr : Bool) (s : State) : Out := s.actIf (decide (ch < 256)) (Device.settled (chunkFault ch hostErr))

/-- CHAN_RESUME (R288). -/
def execChanResume (fn ch : Nat) (s : State) : Out :=
  s.actIf (decide (fn < 64) && decide (ch < 256)) (Device.via fn .MEM_CHAN_CTL (Device.settled (chanResume fn ch)))

/-- CHAN_ABORT (R288). -/
def execChanAbort (fn ch : Nat) (s : State) : Out :=
  s.actIf (decide (fn < 64) && decide (ch < 256)) (Device.via fn .MEM_CHAN_CTL (Device.settled (chanAbort fn ch)))

/-- CHAN_SERVICE_TIMEOUT (R288). -/
def execChanServiceTimeout (ch : Nat) (s : State) : Out := s.actIf (decide (ch < 256)) (Device.settled (chanServiceTimeout ch))

/-- CHANNEL_UNCORRECTABLE (R289). -/
def execChannelUncorrectable (ch : Nat) (w : StoreErr) (s : State) : Out :=
  s.actIf (decide (ch < 256) && decide (w.kind < 6)) (Device.settled (channelUncorrectable ch w.kind w.ga))

/-- MEM_ARBITER_GRANT (R290). -/
def execMemArbiterGrant (unit : Nat) (reqs : List MReq) (withdrawn inService : Bool) (s : State) : Out :=
  s.actIf (decide (unit < 65536)) (memArbiterGrant unit reqs withdrawn inService)

/-- MEM_ARB_WATCHDOG_FIRE (R290). -/
def execMemArbWatchdogFire (u : Nat) (s : State) : Out := s.actIf (decide (u < 65536)) (Device.settled (memArbWatchdogFire u))

/-- REFRESH (R291). -/
def execRefresh (u : Nat) (begins : Bool) (s : State) : Out := s.actIf (decide (u < 65536)) (refresh u begins)

/-- SCRUB_READ (R292). -/
def execScrubRead (sp off res row : Nat) (s : State) : Out := s.actIf (decide (sp < 5) && decide (res < 3)) (Device.settled (scrubRead sp off res row))

/-- CORRECTED_WRITE_BACK (R358). -/
def execCorrectedWriteBack (u : Nat) (s : State) : Out := s.actIf (decide (u < 65536)) (Device.settled (correctedWriteBack u))

/-- TIER1_FILL_DONE (R293). -/
def execTier1FillDone (s : State) : Out := s.act (Device.settled (Device.svcWatched (tier1FillDone)))

/-- TIER2_FILL_DONE (R293). -/
def execTier2FillDone (s : State) : Out := s.act (Device.settled (fillsDone))

/-- TRANSLATION_COMPLETION_RX (R273). -/
def execTranslationCompletionRx (fn page : Nat) (ok write : Bool) (target : Nat) (s : State) : Out :=
  s.actIf (decide (fn < 64)) (Device.settled (translationCompletionRx fn page ok write target))

/-- XT_ENABLE_DONE (R271). -/
def execXtEnableDone (t : Nat) (s : State) : Out := s.actIf (decide (t < 64)) (Device.settled (xtEnableDone t))

end Sys2Proof.Machine
end

