-- ==== Sys2Proof/Machine/MgtCmds.lean ====
section
/-! DEFINITION. The commands of one family: The management port and the I3C target (chapter 17). Each meaning checks its operands and lets the row's body change the device. -/

namespace Sys2Proof.Machine

/-- MGT_READ_REG (R507). -/
def execMgtReadReg (seq : Nat) (peer : MgtPeer) (off count : Nat) (s : State) : Out :=
  s.actIf (decide (seq < 65536) && decide (peer.mac < 2 ^ 48) && (peer.ip.all fun a => decide (a < 2 ^ 32))) (mgtReadReg seq peer.mac peer.ip off count)

/-- MGT_READ_LOG (R507). -/
def execMgtReadLog (seq : Nat) (peer : MgtPeer) (idx count : Nat) (s : State) : Out :=
  s.actIf (decide (seq < 65536) && decide (peer.mac < 2 ^ 48) && (peer.ip.all fun a => decide (a < 2 ^ 32))) (mgtReadLog seq peer.mac peer.ip idx count)

/-- MGT_READ_TELEM (R507). -/
def execMgtReadTelem (seq : Nat) (peer : MgtPeer) (idx count : Nat) (s : State) : Out :=
  s.actIf (decide (seq < 65536) && decide (peer.mac < 2 ^ 48) && (peer.ip.all fun a => decide (a < 2 ^ 32))) (mgtReadTelem seq peer.mac peer.ip idx count)

/-- MGT_READ_SAVE (R507). -/
def execMgtReadSave (seq : Nat) (peer : MgtPeer) (s : State) : Out :=
  s.actIf (decide (seq < 65536) && decide (peer.mac < 2 ^ 48) && (peer.ip.all fun a => decide (a < 2 ^ 32))) (mgtReadSave seq peer.mac peer.ip)

/-- MGT_WAKE (R507). -/
def execMgtWake (seq : Nat) (peer : MgtPeer) (s : State) : Out :=
  s.actIf (decide (seq < 65536) && decide (peer.mac < 2 ^ 48) && (peer.ip.all fun a => decide (a < 2 ^ 32))) (mgtWake seq peer.mac peer.ip)

/-- MGT_DEVICE_RESET (R507). -/
def execMgtDeviceReset (seq : Nat) (peer : MgtPeer) (s : State) : Out :=
  s.actIf (decide (seq < 65536) && decide (peer.mac < 2 ^ 48) && (peer.ip.all fun a => decide (a < 2 ^ 32))) (mgtDeviceReset seq peer.mac peer.ip)

/-- MGT_SET_PKG_LIMIT (R507). -/
def execMgtSetPkgLimit (seq : Nat) (peer : MgtPeer) (w : Nat) (s : State) : Out :=
  s.actIf (decide (seq < 65536) && decide (peer.mac < 2 ^ 48) && decide (w < 65536) && (peer.ip.all fun a => decide (a < 2 ^ 32))) (mgtSetPkgLimit seq peer.mac peer.ip w)

/-- MGT_BAD_REQUEST (R507). -/
def execMgtBadRequest (seq : Nat) (peer : MgtPeer) (op : Nat) (s : State) : Out :=
  s.actIf (decide (seq < 65536) && decide (peer.mac < 2 ^ 48) && decide (op < 256) && (peer.ip.all fun a => decide (a < 2 ^ 32))) (mgtBadRequest seq peer.mac peer.ip op)

/-- I3C_PRIVATE_WRITE (R508). -/
def execI3cPrivateWrite (seq : Nat) (r : MgtReq) (s : State) : Out := s.actIf (decide (seq < 65536)) (i3cPrivateWrite seq r)

/-- I3C_ADDRESS_ASSIGN (R508). -/
def execI3cAddressAssign (entdaa : Bool) (static dyn : Nat) (s : State) : Out :=
  s.actIf (decide (static < 128) && decide (dyn < 128)) (i3cAddressAssign entdaa static dyn)

/-- TELEMETRY_TICK (R510). -/
def execTelemetryTick (md0 md1 iod : Nat) (s : State) : Out := s.act (telemetryTick md0 md1 iod)

end Sys2Proof.Machine
end

