-- ==== Sys2Proof/Machine/MusterCmds.lean ====
section
/-! DEFINITION. The commands of one family: Membership, shadows and recovery (chapter 13). Each meaning checks its operands and lets the row's body change the device. -/

namespace Sys2Proof.Machine

/-- MUSTER_ENABLE (R391). -/
def execMusterEnable (fn value : Nat) (s : State) : Out :=
  s.actIf (decide (fn < 64) && decide (value < 2 ^ 64)) (Device.via fn .FTP_CFG (Device.settled (musterEnable fn value)))

/-- JOIN_TICK (R391). -/
def execJoinTick (s : State) : Out := s.act joinTick

/-- HEARTBEAT_TICK (R393). -/
def execHeartbeatTick (s : State) : Out := s.act heartbeatTick

/-- HEARTBEAT_RX (R393). -/
def execHeartbeatRx (src : Nat) (s : State) : Out := s.actIf (decide (src < 4096)) (heartbeatRx src)

/-- BEACON_RX (R395). -/
def execBeaconRx (src : Nat) (s : State) : Out := s.actIf (decide (src < 4096)) (beaconRx src)

/-- PROBE_RX (R393). -/
def execProbeRx (src : Nat) (s : State) : Out := s.actIf (decide (src < 4096)) (probeRx src)

/-- PROBE_ACK_RX (R393). -/
def execProbeAckRx (src : Nat) (s : State) : Out := s.actIf (decide (src < 4096)) (probeAckRx src)

/-- PROBE_TIMEOUT (R393). -/
def execProbeTimeout (dev : Nat) (s : State) : Out := s.actIf (decide (dev < 4096)) (probeTimeout dev)

/-- REMOVE_RX (R394). -/
def execRemoveRx (src dev : Nat) (s : State) : Out := s.actIf (decide (src < 4096) && decide (dev < 4096)) (removeRx src dev)

/-- JOIN_RX (R391). -/
def execJoinRx (dev : Nat) (capable : Bool) (s : State) : Out := s.actIf (decide (dev < 4096)) (joinRx dev capable)

/-- LEAVE_RX (R394). -/
def execLeaveRx (src : Nat) (s : State) : Out := s.actIf (decide (src < 4096)) (leaveRx src)

/-- EPOCH_ISSUE (R394). -/
def execEpochIssue (lossy : List Nat) (s : State) : Out := s.act (Device.settled (epochIssue lossy))

/-- EPOCH_RX (R397). -/
def execEpochRx (src : Nat) (m : Muster) (s : State) : Out := s.actIf (decide (src < 4096)) (Device.settled (epochArrives src m))

/-- EPOCH_ACK_RX (R397). -/
def execEpochAckRx (src : Nat) (s : State) : Out := s.actIf (decide (src < 4096)) (epochAckRx src)

/-- MANAGER_TAKEOVER (R395). -/
def execManagerTakeover (sys : Bool) (s : State) : Out := s.act (managerTakeover sys)

/-- ISOLATE_RX (R399). -/
def execIsolateRx (src : Nat) (s : State) : Out := s.actIf (decide (src < 4096)) (Device.settled (isolateRx src))

/-- ISOLATE_TIMEOUT (R399). -/
def execIsolateTimeout (s : State) : Out := s.act (Device.settled (isolateTimeout))

/-- SHADOW_PAGE_READ (R403). -/
def execShadowPageRead (t : Nat) (s : State) : Out := s.actIf (decide (t < 64)) (Device.settled (shadowPageRead t))

/-- SHADOW_ACK_RX (R403). -/
def execShadowAckRx (src t step : Nat) (ok : Bool) (s : State) : Out :=
  s.actIf (decide (src < 4096) && decide (t < 64)) (Device.settled (shadowAckRx src t step ok))

/-- LOG_HOLD_TIMEOUT (R407). -/
def execLogHoldTimeout (t : Nat) (s : State) : Out := s.actIf (decide (t < 64)) (Device.settled (logHoldTimeout t))

/-- RESTORE_START (R409). -/
def execRestoreStart (fn value : Nat) (s : State) : Out :=
  s.actIf (decide (fn < 64) && decide (value < 2 ^ 64)) (Device.via fn .FTP_RESTORE (restoreStart fn value))

/-- RESTORE_DONE (R409). -/
def execRestoreDone (ok : Bool) (img : Restored) (s : State) : Out := s.act (restoreDone ok img)

/-- SHADOW_PAGE_RX (R403). -/
def execShadowPageRx (guest t step : Nat) (x : ShadowItem) (s : State) : Out := s.actIf (decide (guest < 4096) && decide (t < 64)) (shadowPageRx guest t step x)

/-- LOG_RECORD_MIRROR_RX (R406). -/
def execLogRecordMirrorRx (guest t : Nat) (r : LogRec) (s : State) : Out := s.actIf (decide (guest < 4096) && decide (t < 64)) (logRecordMirrorRx guest t r)

/-- LOG_MIRROR_ACK_RX (R406). -/
def execLogMirrorAckRx (t num : Nat) (s : State) : Out := s.actIf (decide (t < 64)) (logMirrorAckRx t num)

end Sys2Proof.Machine
end

