-- ==== Sys2Proof/Machine/PowerCmds.lean ====
section
/-! DEFINITION. The commands of one family: Link, start-up, power, thermal and save (chapters 15, 17 and 18). Each meaning checks its operands and lets the row's body change the device. -/

namespace Sys2Proof.Machine

/-- POWER_CONTROL_UPDATE (R497). -/
def execPowerControlUpdate (pkg p0 p1 p2 p3 : Nat) (s : State) : Out := s.act (powerControlUpdate pkg p0 p1 p2 p3)

/-- PKG_EXCESS_TIMEOUT (R497). -/
def execPkgExcessTimeout (s : State) : Out := s.act pkgExcessTimeout

/-- LINK_DOWN (R464). -/
def execLinkDown (s : State) : Out := s.act linkDown

/-- PERST_ASSERT (R464). -/
def execPerstAssert (s : State) : Out := s.act perstAssert

/-- STARTUP (R494). -/
def execStartup (deassert : Bool) (s : State) : Out := s.act (startup deassert)

/-- IMAGE_VERIFIED (R469). -/
def execImageVerified (a b : List Byte) (s : State) : Out := s.act (imageVerified a b)

/-- BUILT_IN_TEST_DONE (R360). -/
def execBuiltInTestDone (failing : List Nat) (s : State) : Out := s.act (builtInTestDone failing)

/-- REQ_D0 (R490). -/
def execReqD0 (fn value : Nat) (s : State) : Out := s.actIf (decide (fn < 64) && decide (value < 2 ^ 64)) (Device.via fn .PWR_STATE_CTL (reqD0 fn value))

/-- REQ_IDLE_HOLD (R489). -/
def execReqIdleHold (fn value : Nat) (s : State) : Out :=
  s.actIf (decide (fn < 64) && decide (value < 2 ^ 64)) (Device.via fn .PWR_STATE_CTL (reqIdleHold fn value))

/-- REQ_DEEP (R491). -/
def execReqDeep (fn value : Nat) (s : State) : Out := s.actIf (decide (fn < 64) && decide (value < 2 ^ 64)) (Device.via fn .PWR_STATE_CTL (reqDeep fn value))

/-- AUTO_IDLE_EXPIRY (R489). -/
def execAutoIdleExpiry (s : State) : Out := s.act autoIdleExpiry

/-- IDLE_WAKE (R490). -/
def execIdleWake (src : Nat) (s : State) : Out := s.actIf (decide (1 ≤ src) && decide (src ≤ 3)) (idleWake src)

/-- DEEP_WAKE (R493). -/
def execDeepWake (src : Nat) (s : State) : Out := s.actIf (decide (4 ≤ src) && decide (src ≤ 6)) (deepWake src)

/-- THERMAL_SAMPLE (R498). -/
def execThermalSample (unit : Nat) (temp : Int) (mv : Nat) (s : State) : Out :=
  s.actIf (decide (unit < 28672) && decide (mv < 65536)) (thermalSample unit temp mv)

/-- POWER_FAIL (R501). -/
def execPowerFail (s : State) : Out := s.act powerFail

/-- SAVE_COMPLETE (R501). -/
def execSaveComplete (bad : Nat) (s : State) : Out := s.actIf (decide (bad ≤ 524288)) (saveComplete bad)

/-- SAVE_SNAP (R500). -/
def execSaveSnap (fn value : Nat) (s : State) : Out :=
  s.actIf (decide (fn < 64) && decide (value < 2 ^ 64)) (Device.via fn .PWR_SAVE_CTL (Device.whole (fn == 0) .PWR_SAVE_CTL 0 (saveSnap fn value)))

/-- AUTO_SNAPSHOT (R500). -/
def execAutoSnapshot (s : State) : Out := s.act autoSnapshot

/-- SAVE_RESTORE (R505). -/
def execSaveRestore (fn value : Nat) (s : State) : Out :=
  s.actIf (decide (fn < 64) && decide (value < 2 ^ 64)) (Device.via fn .PWR_SAVE_CTL (Device.whole (fn == 0) .PWR_SAVE_CTL 0 (saveRestore fn value)))

/-- SAVE_CLEAR (R505). -/
def execSaveClear (fn value : Nat) (s : State) : Out :=
  s.actIf (decide (fn < 64) && decide (value < 2 ^ 64)) (Device.via fn .PWR_SAVE_CTL (Device.whole (fn == 0) .PWR_SAVE_CTL 0 (saveClear fn value)))

/-- SYSCLK_LOSS (R520). -/
def execSysclkLoss (s : State) : Out := s.act sysclkLoss

/-- FREF_LOSS (R520). -/
def execFrefLoss (g : Nat) (s : State) : Out := s.actIf (decide (g < 4)) (frefLoss g)

/-- EREF_LOSS (R520). -/
def execErefLoss (s : State) : Out := s.act erefLoss

/-- PWRFAIL_N_RISE (R494). -/
def execPwrfailNRise (s : State) : Out := s.act pwrfailNRise

/-- POWER_ON (R517). -/
def execPowerOn (s : State) : Out := s.act powerOn

/-- AON_SUPPLY_LOSS (R518). -/
def execAonSupplyLoss (s : State) : Out := s.act aonSupplyLoss

/-- TREF_RETURN (R520). -/
def execTrefReturn (s : State) : Out := s.act trefReturn

/-- FREF_RETURN (R520). -/
def execFrefReturn (g : Nat) (s : State) : Out := s.actIf (decide (g < 4)) (frefReturn g)

/-- EREF_RETURN (R520). -/
def execErefReturn (s : State) : Out := s.act erefReturn

/-- FRONTHAUL_LINK_CHANGE (R205). -/
def execFronthaulLinkChange (p : Nat) (up : Bool) (s : State) : Out := s.actIf (decide (p < 4)) (fronthaulLink p up)

/-- REMOVAL_RESET_TIMEOUT (R464). -/
def execRemovalResetTimeout (s : State) : Out := s.act removalResetTimeout

/-- VF_ENABLE_CHANGE (R446). -/
def execVfEnableChange (enable : Bool) (num : Nat) (s : State) : Out := s.actIf (decide (num < 64)) (vfEnableChange enable num)

/-- FUNCTION_POWER_STATE_WRITE (R441). -/
def execFunctionPowerStateWrite (fn : Nat) (d3 : Bool) (s : State) : Out := s.actIf (decide (fn < 64)) (functionPowerStateWrite fn d3)

/-- PME_TURN_OFF_RX (R491). -/
def execPmeTurnOffRx (s : State) : Out := s.act pmeTurnOffRx

/-- SNAPSHOT_DONE (R500). -/
def execSnapshotDone (s : State) : Out := s.act snapshotDone

/-- SAVE_RESTORE_DONE (R505). -/
def execSaveRestoreDone (s : State) : Out := s.act saveRestoreDone

end Sys2Proof.Machine
end

