-- ==== Sys2Proof/Machine/QueueCmds.lean ====
section
/-! DEFINITION. The commands of one family: Submission queues and their commands (chapter 4). Each meaning checks its operands and lets the row's body change the device. -/

namespace Sys2Proof.Machine

/-- SQ_DOORBELL (R128). -/
def execSqDoorbell (fn q value : Nat) (s : State) : Out :=
  s.actIf (decide (fn < 64) && decide (q < 4096) && decide (value < 2 ^ 64)) (Device.awake fn (fun d => sqDoorbell fn q (value % 2 ^ 32) (d.disarmDeep 1)))

/-- CQ_DOORBELL (R128). -/
def execCqDoorbell (fn q value : Nat) (s : State) : Out :=
  s.actIf (decide (fn < 64) && decide (q < 4096) && decide (value < 2 ^ 64)) (Device.awake fn (cqDoorbell fn q (value % 2 ^ 32)))

/-- DOORBELL_BAD_WRITE (R127). -/
def execDoorbellBadWrite (fn off : Nat) (s : State) : Out := s.actIf (decide (fn < 64) && decide (off < 0x1000000)) (Device.awake fn (doorbellBadWrite fn off))

/-- SUBMISSION_FETCH (R129). -/
def execSubmissionFetch (q resp : Nat) (s : State) : Out := s.actIf (decide (q < 4096) && decide (resp < 3)) (submissionFetch q resp)

/-- COMPLETION_POST (R136). -/
def execCompletionPost (q : Nat) (s : State) : Out := s.actIf (decide (q < 4096)) (completionPost q)

/-- RUN (R116). -/
def execRun (q : Nat) (img hdr : PeerAns) (s : State) : Out := s.actIf (decide (q < 4096)) (Device.settled (run q img hdr))

/-- CROSS_DECLARE (R278). -/
def execCrossDeclare (q : Nat) (s : State) : Out := s.actIf (decide (q < 4096)) (Device.settled (crossDeclare q))

/-- CROSS_CROSSING (R279). -/
def execCrossCrossing (q : Nat) (s : State) : Out := s.actIf (decide (q < 4096)) (Device.settled (crossCrossing q))

/-- CROSS_RELEASE (R278). -/
def execCrossRelease (q : Nat) (s : State) : Out := s.actIf (decide (q < 4096)) (Device.settled (crossRelease q))

/-- COLL_SHIFT (R338). -/
def execCollShift (q : Nat) (s : State) : Out := s.actIf (decide (q < 4096)) (Device.settled (collShift q))

/-- COLL_PERMUTE (R339). -/
def execCollPermute (q : Nat) (s : State) : Out := s.actIf (decide (q < 4096)) (Device.settled (collPermute q))

/-- COLL_DISPATCH (R340). -/
def execCollDispatch (q : Nat) (s : State) : Out := s.actIf (decide (q < 4096)) (Device.settled (collDispatch q))

/-- COLL_RETURN (R341). -/
def execCollReturn (q : Nat) (s : State) : Out := s.actIf (decide (q < 4096)) (Device.settled (collReturn q))

/-- COLL_REDUCE (R344). -/
def execCollReduce (q : Nat) (s : State) : Out := s.actIf (decide (q < 4096)) (Device.settled (collReduce q))

/-- SIGNAL (R131). -/
def execSignal (q : Nat) (s : State) : Out := s.actIf (decide (q < 4096)) (cmdSignal q)

/-- WAIT (R131). -/
def execWait (q : Nat) (s : State) : Out := s.actIf (decide (q < 4096)) (cmdWait q)

/-- FENCE (R131). -/
def execFence (q : Nat) (s : State) : Out := s.actIf (decide (q < 4096)) (cmdFence q)

/-- BATCH_JOIN (R171). -/
def execBatchJoin (q : Nat) (s : State) : Out := s.actIf (decide (q < 4096)) (batchJoin q)

/-- BATCH_LEAVE (R170). -/
def execBatchLeave (q : Nat) (s : State) : Out := s.actIf (decide (q < 4096)) (batchLeave q)

/-- CFG_TXN_BEGIN (R147). -/
def execCfgTxnBegin (q : Nat) (s : State) : Out := s.actIf (decide (q < 4096)) (cfgTxnBegin q)

/-- CFG_TXN_COMMIT (R143). -/
def execCfgTxnCommit (q : Nat) (s : State) : Out := s.actIf (decide (q < 4096)) (cfgTxnCommit q)

/-- CFG_TXN_ROLLBACK (R147). -/
def execCfgTxnRollback (q : Nat) (s : State) : Out := s.actIf (decide (q < 4096)) (cfgTxnRollback q)

end Sys2Proof.Machine
end

