-- ==== Sys2Proof/Machine/RadioCmds.lean ====
section
/-! DEFINITION. The commands of one family: Fronthaul and carriers (chapter 7). Each meaning checks its operands and lets the row's body change the device. -/

namespace Sys2Proof.Machine

/-- FHPOST (R209). -/
def execFhpost (n dir c sl : Nat) (s : State) : Out := s.actIf (decide (n < 192) && decide (c < 64) && decide (dir < 2)) (Device.settled (fhpost n dir c sl))

/-- SLOT_DEADLINE (R210). -/
def execSlotDeadline (c sl : Nat) (s : State) : Out := s.actIf (decide (c < 64)) (slotDeadline c sl)

/-- CPLANE_TX (R213). -/
def execCplaneTx (c dir sl : Nat) (x : TxSect) (s : State) : Out := s.actIf (decide (c < 64) && decide (dir < 2)) (cplaneTx c dir sl x.k x.m)

/-- UPLANE_TX (R228). -/
def execUplaneTx (c sl : Nat) (x : TxSect) (l part : Nat) (s : State) : Out := s.actIf (decide (c < 64) && decide (l < 14)) (uplaneTx c sl x.k l part x.m)

/-- FRONTHAUL_FRAME_RX (R217). -/
def execFronthaulFrameRx (port : Nat) (f : FhFrame) (s : State) : Out := s.actIf (decide (port < 4)) (fronthaulFrameRx port f)

/-- UL_WINDOW_OPEN (R218). -/
def execUlWindowOpen (c sl l : Nat) (s : State) : Out := s.actIf (decide (c < 64) && decide (l < 14)) (ulWindowOpen c sl l)

/-- UL_WINDOW_CLOSE (R219). -/
def execUlWindowClose (c sl l : Nat) (s : State) : Out := s.actIf (decide (c < 64) && decide (l < 14)) (ulWindowClose c sl l)

/-- MUTE_CTL_WRITE (R215). -/
def execMuteCtlWrite (fn value : Nat) (s : State) : Out :=
  s.actIf (decide (fn < 64) && decide (value < 2 ^ 64)) (Device.via fn .RAD_MUTE_CTL (Device.whole true .RAD_MUTE_CTL 0 (muteCtlWrite fn value)))

/-- SOFT_MOVE (R225). -/
def execSoftMove (n ga ts len : Nat) (tok : Option Nat) (s : State) : Out :=
  s.actIf (decide (n < 192) && decide (ga < 2 ^ 64) && (tok.all fun k => decide (k < 64))) (Device.settled (softMove n ga ts len tok))

/-- QSAMP_TICK (R231). -/
def execQsampTick (s : State) : Out := s.act qsampTick

end Sys2Proof.Machine
end

