-- ==== Sys2Proof/Machine/RasCmds.lean ====
section
/-! DEFINITION. The commands of one family: Errors, records, repair, retirement, tasting (chapter 12). Each meaning checks its operands and lets the row's body change the device. -/

namespace Sys2Proof.Machine

/-- BUCKET_LEAK_TICK (R366). -/
def execBucketLeakTick (s : State) : Out := s.act bucketLeakTick

/-- CORRECTABLE_ERROR (R366). -/
def execCorrectableError (u kind row place : Nat) (s : State) : Out :=
  s.actIf (decide (u < 65536) && decide (kind < 6) && decide (place < 4)) (Device.settled (correctableError u kind row place))

/-- FAULT_RECORD_LOGGED (R361). -/
def execFaultRecordLogged (k : Nat) (s : State) : Out := s.act (faultRecordLogged k)

/-- DEVICE_RESET (R368). -/
def execDeviceReset (unit kind : Nat) (page : Bool) (s : State) : Out := s.actIf (decide (unit < 65536) && decide (kind < 6)) (deviceReset unit kind page)

/-- REPAIR_PROGRAM (R371). -/
def execRepairProgram (fn : Nat) (s : State) : Out := s.actIf (decide (fn < 64)) (Device.via fn .RAS_REPAIR_STAT (repairProgram fn))

/-- REPAIR_PROGRAM_DONE (R371). -/
def execRepairProgramDone (good : Bool) (s : State) : Out := s.act (Device.settled (Device.svcWatched (repairProgramDone good)))

/-- RETIRE_UNIT (R372). -/
def execRetireUnit (fn u : Nat) (s : State) : Out :=
  s.actIf (decide (fn < 64) && decide (u < 65536)) (Device.via fn .RAS_RETIRE (Device.settled (Device.svcWatched (Machine.retireUnit fn u))))

/-- START_STEEPING (R384). -/
def execStartSteeping (fn u : Nat) (s : State) : Out := s.actIf (decide (fn < 64) && decide (u < 65536)) (Device.via fn .RAS_RETIRE (startSteeping fn u))

/-- END_STEEPING (R384). -/
def execEndSteeping (fn u : Nat) (s : State) : Out := s.actIf (decide (fn < 64) && decide (u < 65536)) (Device.via fn .RAS_RETIRE (endSteeping fn u))

/-- STEEPING_EXPIRY (R384). -/
def execSteepingExpiry (u : Nat) (s : State) : Out := s.actIf (decide (u < 65536)) (steepingExpiry u)

/-- CORE_BRING_IN (R373). -/
def execCoreBringIn (n : Nat) (s : State) : Out := s.actIf (decide (n < 192)) (Device.settled (coreBringIn n))

/-- CUBE_ROW_BRING_IN (R374). -/
def execCubeRowBringIn (n : Nat) (s : State) : Out := s.actIf (decide (n < 192)) (Device.settled (cubeRowBringIn n))

/-- PSEUDO_CHANNEL_COPY (R376). -/
def execPseudoChannelCopy (u : Nat) (s : State) : Out := s.actIf (decide (u < 65536)) (pseudoChannelCopy u)

/-- PSEUDO_CHANNEL_COPY_DONE (R376). -/
def execPseudoChannelCopyDone (u : Nat) (s : State) : Out := s.actIf (decide (u < 65536)) (pseudoChannelCopyDone u)

/-- CP_CHECKPOINT (R377). -/
def execCpCheckpoint (k : Nat) (s : State) : Out := s.actIf (decide (k < 4)) (cpCheckpoint k)

/-- CP_FAILURE (R378). -/
def execCpFailure (k : Nat) (s : State) : Out := s.actIf (decide (k < 4)) (Device.settled (Device.svcWatched (cpFailure k)))

/-- CP_SPARE_ROTATION (R379). -/
def execCpSpareRotation (s : State) : Out := s.act cpSpareRotation

/-- TASTE_LEG (R381). -/
def execTasteLeg (n : Nat) (equal : Bool) (s : State) : Out := s.actIf (decide (n < 192)) (Device.settled (tasteLeg n equal))

/-- TASTE_ARBITRATION (R382). -/
def execTasteArbitration (n verdict : Nat) (s : State) : Out :=
  s.actIf (decide (n < 192) && decide (1 ≤ verdict) && decide (verdict ≤ 3)) (Device.settled (tasteArbitration n verdict))

/-- PERIODIC_TEST_DUE (R385). -/
def execPeriodicTestDue (n : Nat) (late : Bool) (s : State) : Out := s.actIf (decide (n < 192)) (periodicTestDue n late)

/-- CORE_BRING_IN_DONE (R373). -/
def execCoreBringInDone (n : Nat) (passed : Bool) (s : State) : Out := s.actIf (decide (n < 192)) (Device.settled (coreBringInDone n passed))

/-- CUBE_ROW_BRING_IN_DONE (R374). -/
def execCubeRowBringInDone (n : Nat) (s : State) : Out := s.actIf (decide (n < 192)) (Device.settled (cubeRowBringInDone n))

/-- CP_TAKEOVER_DONE (R378). -/
def execCpTakeoverDone (s : State) : Out := s.act (Device.settled (cpTakeoverDone))

/-- DRAM_ROW_REPAIR_DONE (R371). -/
def execDramRowRepairDone (u : Nat) (s : State) : Out := s.actIf (decide (u < 65536)) (Device.settled (dramRowRepairDone u))

end Sys2Proof.Machine
end

