-- ==== Sys2Proof/Machine/RouteCmds.lean ====
section
/-! DEFINITION. The commands of one family: Routing engines (chapter 8). Each meaning checks its operands and lets the row's body change the device. -/

namespace Sys2Proof.Machine

/-- RTSUBMIT (R235). -/
def execRtsubmit (n pos desc tok : Nat) (s : State) : Out := s.actIf (decide (n < 192) && decide (tok < 64)) (Device.settled (rtsubmitRow n pos desc tok))

/-- LOGIT_TILE_ARRIVAL (R241). -/
def execLogitTileArrival (e x src : Nat) (tag : List Byte) (band col fmt : Nat) (data : List Byte) (s : State) : Out :=
  s.actIf (decide (e < 8) && decide (x < 8) && decide (src < 192) && decide (tag.length = 16) && decide (fmt < 8)) (Device.settled (logitTileArrival e x src tag band col fmt data))

/-- ROUTE_SORT (R251). -/
def execRouteSort (e x : Nat) (s : State) : Out := s.actIf (decide (e < 8) && decide (x < 8)) (Device.settled (routeSort e x))

/-- BLEND (R256). -/
def execBlend (e x : Nat) (s : State) : Out := s.actIf (decide (e < 8) && decide (x < 8)) (Device.settled (blend e x))

/-- ENGINE_BRING_IN (R375). -/
def execEngineBringIn (e : Nat) (passed : Bool) (s : State) : Out := s.actIf (decide (e < 8)) (Device.settled (engineBringIn e passed))

/-- ENGINE_INPUT_WATCHDOG_FIRE (R244). -/
def execEngineInputWatchdogFire (e src : Nat) (s : State) : Out := s.actIf (decide (e < 8) && decide (src < 192)) (engineInputWatchdogFire e src)

end Sys2Proof.Machine
end

