-- ==== Sys2Proof/Machine/SchedCmds.lean ====
section
/-! DEFINITION. The commands of one family: The scheduler: binding, placement, pre-emption, batches (chapter 5). Each meaning checks its operands and lets the row's body change the device. -/

namespace Sys2Proof.Machine

/-- COMMAND_BIND (R149). -/
def execCommandBind (s : State) : Out := s.act (Device.settled (commandBind))

/-- LEG_PLACE (R161). -/
def execLegPlace (n : Nat) (a : PeerAns) (s : State) : Out := s.actIf (decide (n < 192)) (Device.settled (legPlace n a))

/-- PREEMPT_WAIT_EXPIRY (R151). -/
def execPreemptWaitExpiry (sn : Nat) (s : State) : Out := s.act (Device.settled (preemptWaitExpiry sn))

/-- RADIO_WINDOW_CHECK (R163). -/
def execRadioWindowCheck (k sl w : Nat) (s : State) : Out := s.actIf (decide (k < 8)) (Device.settled (radioWindowCheck k sl w))

/-- RESERVE_COUNT_APPLY (R162). -/
def execReserveCountApply (n : Nat) (s : State) : Out := s.actIf (decide (n < 192)) (reserveCountApply n)

/-- KVGET (R172). -/
def execKvget (n tok seq : Nat) (s : State) : Out := s.actIf (decide (n < 192) && decide (tok < 64)) (Device.settled (kvget n tok seq))

/-- EVICTION_CROSSING_DONE (R174). -/
def execEvictionCrossingDone (t seq page : Nat) (s : State) : Out := s.actIf (decide (t < 64)) (Device.settled (evictionCrossingDone t seq page))

end Sys2Proof.Machine
end

