-- ==== Sys2Proof/Machine/SecCmds.lean ====
section
/-! DEFINITION. The commands of one family: The security root (chapter 16). Each meaning checks its operands and lets the row's body change the device. -/

namespace Sys2Proof.Machine

/-- ARB_ADVANCE (R471). -/
def execArbAdvance (fn : Nat) (s : State) : Out := s.actIf (decide (fn < 64)) (Device.via fn .SEC_ARB (arbAdvance fn))

/-- ARB_PROGRAM_DONE (R471). -/
def execArbProgramDone (s : State) : Out := s.act arbProgramDone

/-- OWNER_ENROL (R474). -/
def execOwnerEnrol (fn value resp : Nat) (s : State) : Out :=
  s.actIf (decide (fn < 64) && decide (value < 2 ^ 64) && decide (resp < 3)) (Device.via fn .SEC_OP_CTL (ownerEnrol fn value resp))

/-- FABRIC_KEY_IMPORT (R482). -/
def execFabricKeyImport (fn value resp : Nat) (s : State) : Out :=
  s.actIf (decide (fn < 64) && decide (value < 2 ^ 64) && decide (resp < 3)) (Device.via fn .SEC_OP_CTL (fabricKeyImport fn value resp))

/-- FABRIC_KEY_ACTIVATE (R482). -/
def execFabricKeyActivate (fn value : Nat) (s : State) : Out :=
  s.actIf (decide (fn < 64) && decide (value < 2 ^ 64)) (Device.via fn .SEC_OP_CTL (fabricKeyActivate fn value))

/-- FABRIC_KEY_RETIRE_PREVIOUS (R482). -/
def execFabricKeyRetirePrevious (fn value : Nat) (s : State) : Out :=
  s.actIf (decide (fn < 64) && decide (value < 2 ^ 64)) (Device.via fn .SEC_OP_CTL (fabricKeyRetirePrevious fn value))

/-- MEMORY_KEY_ROLL (R477). -/
def execMemoryKeyRoll (fn value : Nat) (s : State) : Out :=
  s.actIf (decide (fn < 64) && decide (value < 2 ^ 64)) (Device.via fn .SEC_OP_CTL (memoryKeyRoll fn value))

/-- DEBUG_NONCE (R485). -/
def execDebugNonce (fn value : Nat) (s : State) : Out := s.actIf (decide (fn < 64) && decide (value < 2 ^ 64)) (Device.via fn .SEC_OP_CTL (debugNonce fn value))

/-- DEBUG_UNLOCK (R485). -/
def execDebugUnlock (fn value resp : Nat) (s : State) : Out :=
  s.actIf (decide (fn < 64) && decide (value < 2 ^ 64) && decide (resp < 3)) (Device.via fn .SEC_OP_CTL (debugUnlock fn value resp))

/-- DEBUG_LOCK (R486). -/
def execDebugLock (fn value : Nat) (s : State) : Out := s.actIf (decide (fn < 64) && decide (value < 2 ^ 64)) (Device.via fn .SEC_OP_CTL (debugLock fn value))

/-- RECOVERY_IMAGE (R469). -/
def execRecoveryImage (fn value resp : Nat) (s : State) : Out :=
  s.actIf (decide (fn < 64) && decide (value < 2 ^ 64) && decide (resp < 3)) (Device.via fn .SEC_OP_CTL (recoveryImage fn value resp))

/-- SPDM_GET_VERSION (R473). -/
def execSpdmGetVersion (s : State) : Out := s.act spdmGetVersion

/-- SPDM_GET_CAPABILITIES (R473). -/
def execSpdmGetCapabilities (s : State) : Out := s.act spdmGetCapabilities

/-- SPDM_NEGOTIATE_ALGORITHMS (R473). -/
def execSpdmNegotiateAlgorithms (s : State) : Out := s.act spdmNegotiateAlgorithms

/-- SPDM_GET_DIGESTS (R473). -/
def execSpdmGetDigests (s : State) : Out := s.act spdmGetDigests

/-- SPDM_GET_CERTIFICATE (R473). -/
def execSpdmGetCertificate (off len : Nat) (s : State) : Out := s.actIf (decide (off < 65536) && decide (len < 65536)) (spdmGetCertificate off len)

/-- SPDM_CHALLENGE (R473). -/
def execSpdmChallenge (nonce : List Byte) (s : State) : Out := s.actIf (decide (nonce.length = 32)) (spdmChallenge nonce)

/-- SPDM_GET_MEASUREMENTS (R473). -/
def execSpdmGetMeasurements (index : Nat) (signed : Bool) (nonce : List Byte) (s : State) : Out :=
  s.actIf (decide (index < 256) && decide (nonce.length = 32)) (spdmGetMeasurements index signed nonce)

/-- SPDM_UNSUPPORTED (R473). -/
def execSpdmUnsupported (s : State) : Out := s.act spdmUnsupported

/-- SEC_OPERATION_DONE (R487). -/
def execSecOperationDone (s : State) : Out := s.act secOperationDone

/-- JTAG_INSTRUCTION (R484). -/
def execJtagInstruction (ir : Nat) (isPublic : Bool) (s : State) : Out := s.act (jtagInstruction ir isPublic)

end Sys2Proof.Machine
end

