-- ==== Sys2Proof/Machine/TenantCmds.lean ====
section
/-! DEFINITION. The commands of one family: Tenancies, interrupts, dirty logs (chapter 15). Each meaning checks its operands and lets the row's body change the device. -/

namespace Sys2Proof.Machine

/-- TENANCY_QUIESCE (R453). -/
def execTenancyQuiesce (fn t : Nat) (s : State) : Out := s.actIf (decide (fn < 64) && decide (t < 64)) (Device.via fn .TEN_CTL (tenancyQuiesce fn t))

/-- TENANCY_QUIESCED (R453). -/
def execTenancyQuiesced (t : Nat) (s : State) : Out := s.actIf (decide (t < 64)) (tenancyQuiesced t)

/-- TENANCY_RESUME (R454). -/
def execTenancyResume (fn t : Nat) (s : State) : Out := s.actIf (decide (fn < 64) && decide (t < 64)) (Device.via fn .TEN_CTL (tenancyResume fn t))

/-- TENANCY_RESET (R455). -/
def execTenancyReset (fn t : Nat) (flr : Bool) (s : State) : Out :=
  s.actIf (decide (fn < 64) && decide (t < 64)) (Device.settled (fun d => if flr then tenancyReset fn t flr d else d.via fn .TEN_CTL (tenancyReset fn t flr)))

/-- TENANCY_RESET_DONE (R455). -/
def execTenancyResetDone (t : Nat) (s : State) : Out := s.actIf (decide (t < 64)) (tenancyResetDone t)

/-- IRQ_GAP_EXPIRY (R452). -/
def execIrqGapExpiry (fn v : Nat) (s : State) : Out := s.actIf (decide (fn < 64) && decide (v < 2048)) (irqGapExpiry fn v)

/-- DLOG_ENABLE (R459). -/
def execDlogEnable (fn t value : Nat) (s : State) : Out :=
  s.actIf (decide (fn < 64) && decide (t < 64) && decide (value < 2 ^ 64)) (Device.via fn .TEN_DLOG_CTL (dlogEnable fn t value))

/-- DLOG_SWAP (R459). -/
def execDlogSwap (fn t value : Nat) (s : State) : Out :=
  s.actIf (decide (fn < 64) && decide (t < 64) && decide (value < 2 ^ 64)) (Device.via fn .TEN_DLOG_CTL (dlogSwap fn t value))

/-- DLOG_SWAP_DONE (R459). -/
def execDlogSwapDone (t : Nat) (s : State) : Out := s.actIf (decide (t < 64)) (dlogSwapDone t)

/-- QUEUE_POSITION_START (R462). -/
def execQueuePositionStart (fn value : Nat) (s : State) : Out :=
  s.actIf (decide (fn < 64) && decide (value < 2 ^ 64)) (Device.via fn .TEN_QPOS1 (queuePositionStart fn value))

/-- MSIX_UNMASK (R452). -/
def execMsixUnmask (fn v : Nat) (s : State) : Out := s.actIf (decide (fn < 64) && decide (v < 2048)) (Device.via fn .TEN_IRQ_CFG (msixUnmask fn v))

end Sys2Proof.Machine
end

