-- ==== Sys2Proof/Machine/TimeCmds.lean ====
section
/-! DEFINITION. The commands of one family: The timing unit (chapter 6). Each meaning checks its operands and lets the row's body change the device. -/

namespace Sys2Proof.Machine

/-- TIM_NOW_S_READ (R180). -/
def execTimNowSRead (fn : Nat) (s : State) : Out := s.actIf (decide (fn < 64)) (Device.via fn .TIM_NOW_S (nowSRead fn))

/-- PTP_FRAME_RX (R181). -/
def execPtpFrameRx (port : Nat) (frame : List Byte) (s : State) : Out := s.actIf (decide (port < 5)) (ptpFrameRx port frame)

/-- SYNC_TX (R183). -/
def execSyncTx (port : Nat) (frame : List Byte) (s : State) : Out := s.actIf (decide (port < 5)) (syncTx port frame)

/-- DOMAIN_UPDATE (R185). -/
def execDomainUpdate (k : Nat) (off : Int) (cls : Nat) (s : State) : Out := s.actIf (decide (k < 2) && decide (cls < 256)) (domainUpdate k off cls)

/-- DOMAIN_LOSS_TIMEOUT (R185). -/
def execDomainLossTimeout (k : Nat) (s : State) : Out := s.actIf (decide (k < 2)) (domainLossTimeout k)

/-- DOMAIN_SWITCHOVER (R187). -/
def execDomainSwitchover (s : State) : Out := s.act domainSwitchover

/-- HOLDOVER_TICK (R189). -/
def execHoldoverTick (s : State) : Out := s.act holdoverTick

/-- REQUALIFY_EXPIRY (R190). -/
def execRequalifyExpiry (k : Nat) (s : State) : Out := s.actIf (decide (k < 2)) (requalifyExpiry k)

/-- ESMC_RX (R192). -/
def execEsmcRx (port ssm : Nat) (s : State) : Out := s.actIf (decide (port < 4) && decide (ssm < 16)) (esmcRx port ssm)

/-- SYNCE_QUAL_TIMEOUT (R192). -/
def execSynceQualTimeout (s : State) : Out := s.act synceQualTimeout

/-- SLOT_BOUNDARY (R194). -/
def execSlotBoundary (mu : Nat) (s : State) : Out := s.actIf (decide (mu < 4)) (Device.settled (slotBoundary mu))

/-- PPS_ENABLE (R197). -/
def execPpsEnable (fn k value : Nat) (s : State) : Out :=
  s.actIf (decide (fn < 64) && decide (value < 2 ^ 64) && decide (k < 4)) (Device.via fn .TIM_PPS_CTL (ppsEnable fn k value))

/-- PULSE_EDGE (R198). -/
def execPulseEdge (k : Nat) (s : State) : Out := s.actIf (decide (k < 4)) (pulseEdge k)

/-- CAPTURE_EDGE (R199). -/
def execCaptureEdge (k : Nat) (falling : Bool) (s : State) : Out := s.actIf (decide (k < 4)) (captureEdge k falling)

/-- CAP_NS_READ (R200). -/
def execCapNsRead (fn k : Nat) (s : State) : Out := s.actIf (decide (fn < 64) && decide (k < 4)) (Device.via fn .TIM_CAP_NS (capNsRead fn k))

/-- PPS_IN_EDGE (R201). -/
def execPpsInEdge (held : Bool) (s : State) : Out := s.act (ppsInEdge held)

/-- TREF_LOSS (R520). -/
def execTrefLoss (s : State) : Out := s.act trefLoss

end Sys2Proof.Machine
end

