-- ==== Sys2Proof/Machine/TxnCmds.lean ====
section
/-! DEFINITION. The commands of one family: Configuration transactions, timetable loads, steps and queue control (chapters 4 and 5). Each meaning checks its operands and lets the row's body change the device. -/

namespace Sys2Proof.Machine

/-- TXN_VALIDATION (R144). -/
def execTxnValidation (t : Nat) (s : State) : Out := s.actIf (decide (t < 64)) (txnValidation t)

/-- TXN_TAKE_EFFECT (R145). -/
def execTxnTakeEffect (t : Nat) (s : State) : Out := s.actIf (decide (t < 64)) (Device.settled (txnTakeEffect t))

/-- TXN_COMMIT_TIMEOUT (R146). -/
def execTxnCommitTimeout (t : Nat) (s : State) : Out := s.actIf (decide (t < 64)) (txnCommitTimeout t)

/-- TIMETABLE_LOAD (R156). -/
def execTimetableLoad (q : Nat) (a : PeerAns) (s : State) : Out := s.actIf (decide (q < 4096)) (Device.settled (timetableLoad q a))

/-- TIMETABLE_PLACEMENT_DONE (R158). -/
def execTimetablePlacementDone (k : Nat) (a : PeerAns) (s : State) : Out := s.actIf (decide (k < 8)) (Device.settled (timetablePlacementDone k a))

/-- TIMETABLE_IN_FORCE (R158). -/
def execTimetableInForce (k : Nat) (s : State) : Out := s.actIf (decide (k < 8)) (timetableInForce k)

/-- STEP_COMMIT (R435). -/
def execStepCommit (q : Nat) (s : State) : Out := s.actIf (decide (q < 4096)) (Device.settled (stepCommit q))

/-- LOG_MARK (R406). -/
def execLogMark (q : Nat) (s : State) : Out := s.actIf (decide (q < 4096)) (logMark q)

/-- STEP_BOUNDARY (R170). -/
def execStepBoundary (t : Nat) (s : State) : Out := s.actIf (decide (t < 64)) (Device.settled (stepBoundary t))

/-- QUE_CFG_WRITE (R123). -/
def execQueCfgWrite (fn q value : Nat) (s : State) : Out :=
  s.actIf (decide (fn < 64) && decide (q < 4096) && decide (value < 2 ^ 64)) (Device.via fn .QUE_CFG (queCfgWrite fn q value))

/-- QUEUE_ENABLE (R124). -/
def execQueueEnable (fn q : Nat) (s : State) : Out := s.actIf (decide (fn < 64) && decide (q < 4096)) (Device.via fn .QUE_CTL (queueEnable fn q))

/-- QUEUE_RESUME (R126). -/
def execQueueResume (fn q : Nat) (s : State) : Out := s.actIf (decide (fn < 64) && decide (q < 4096)) (Device.via fn .QUE_CTL (queueResume fn q))

/-- QUEUE_RESET (R126). -/
def execQueueReset (fn q : Nat) (s : State) : Out := s.actIf (decide (fn < 64) && decide (q < 4096)) (Device.via fn .QUE_CTL (queueReset fn q))

/-- QUEUE_DRAINED (R126). -/
def execQueueDrained (q : Nat) (s : State) : Out := s.actIf (decide (q < 4096)) (queueDrained q)

/-- EVENT_ARRAY_SETUP (R125). -/
def execEventArraySetup (fn t value : Nat) (s : State) : Out :=
  s.actIf (decide (fn < 64) && decide (t < 64) && decide (value < 2 ^ 64)) (Device.via fn .QUE_EVT_BASE (Device.whole (fn == 0) .QUE_EVT_BASE t (eventArraySetup fn t value)))

/-- EVENT_ARRAY_FILL_DONE (R125). -/
def execEventArrayFillDone (t : Nat) (s : State) : Out := s.actIf (decide (t < 64)) (eventArrayFillDone t)

end Sys2Proof.Machine
end

