-- ==== Sys2Proof/Machine/Dispatch.lean ====
section
/-! DEFINITION. One arm per command. -/

namespace Sys2Proof.Machine

def exec (i : Instr) (s : State) : Host.Outcome State Fault Refusal :=
  match i with
  | .registerWrite fn off size value => Sys2Proof.Machine.execRegisterWrite fn off size value s
  | .bar0BadAccess fn a => Sys2Proof.Machine.execBar0BadAccess fn a s
  | .serviceEvaluation => Sys2Proof.Machine.execServiceEvaluation s
  | .legStart n => Sys2Proof.Machine.execLegStart n s
  | .legEnd n cyc test => Sys2Proof.Machine.execLegEnd n cyc test s
  | .legOverrun n => Sys2Proof.Machine.execLegOverrun n s
  | .legDiscard n => Sys2Proof.Machine.execLegDiscard n s
  | .coreRecoveryDone n => Sys2Proof.Machine.execCoreRecoveryDone n s
  | .passDescriptorIssue n cyc q parts => Sys2Proof.Machine.execPassDescriptorIssue n cyc q parts s
  | .feederPop w u => Sys2Proof.Machine.execFeederPop w u s
  | .feederFill n u isB => Sys2Proof.Machine.execFeederFill n u isB s
  | .epiloguePass n u => Sys2Proof.Machine.execEpiloguePass n u s
  | .towedTileArrival n tag addr tok expAddr data => Sys2Proof.Machine.execTowedTileArrival n tag addr tok expAddr data s
  | .tokenSet n tok => Sys2Proof.Machine.execTokenSet n tok s
  | .tokenWait w tok lane => Sys2Proof.Machine.execTokenWait w tok lane s
  | .startSignalLane n addr => Sys2Proof.Machine.execStartSignalLane n addr s
  | .seqMove n toPool ts pool len tok => Sys2Proof.Machine.execSeqMove n toPool ts pool len tok s
  | .signalLaneOp n cyc op => Sys2Proof.Machine.execSignalLaneOp n cyc op s
  | .signalLaneLoad n cyc bus v addr setup => Sys2Proof.Machine.execSignalLaneLoad n cyc bus v addr setup s
  | .wStore n cyc srcs ty dst scaled addr recAddr => Sys2Proof.Machine.execWStore n cyc srcs ty dst scaled addr recAddr s
  | .repeat_ n cyc body len count => Sys2Proof.Machine.execRepeat n cyc body len count s
  | .repeatCacheParityError n => Sys2Proof.Machine.execRepeatCacheParityError n s
  | .shset w t lo hi => Sys2Proof.Machine.execShset w t lo hi s
  | .expset w sreg value => Sys2Proof.Machine.execExpset w sreg value s
  | .beclr w => Sys2Proof.Machine.execBeclr w s
  | .divsetup n cyc a b => Sys2Proof.Machine.execDivsetup n cyc a b s
  | .divsetupF n cyc a b => Sys2Proof.Machine.execDivsetupF n cyc a b s
  | .divisionStep n cyc => Sys2Proof.Machine.execDivisionStep n cyc s
  | .divq15 n cyc v => Sys2Proof.Machine.execDivq15 n cyc v s
  | .divrnd n cyc v => Sys2Proof.Machine.execDivrnd n cyc v s
  | .rsload n q ts base count => Sys2Proof.Machine.execRsload n q ts base count s
  | .tileStoreBankGrant n b reqs withdrawn keep cyc => Sys2Proof.Machine.execTileStoreBankGrant n b reqs withdrawn keep cyc s
  | .bankWatchdogFire n b => Sys2Proof.Machine.execBankWatchdogFire n b s
  | .debugAccess off len data => Sys2Proof.Machine.execDebugAccess off len data s
  | .tileStoreUncorrectable n addr => Sys2Proof.Machine.execTileStoreUncorrectable n addr s
  | .tspartAdoption n => Sys2Proof.Machine.execTspartAdoption n s
  | .dutyFrame die => Sys2Proof.Machine.execDutyFrame die s
  | .powerControlUpdate pkg p0 p1 p2 p3 => Sys2Proof.Machine.execPowerControlUpdate pkg p0 p1 p2 p3 s
  | .pkgExcessTimeout => Sys2Proof.Machine.execPkgExcessTimeout s
  | .sqDoorbell fn q value => Sys2Proof.Machine.execSqDoorbell fn q value s
  | .cqDoorbell fn q value => Sys2Proof.Machine.execCqDoorbell fn q value s
  | .doorbellBadWrite fn off => Sys2Proof.Machine.execDoorbellBadWrite fn off s
  | .submissionFetch q resp => Sys2Proof.Machine.execSubmissionFetch q resp s
  | .completionPost q => Sys2Proof.Machine.execCompletionPost q s
  | .run q img hdr => Sys2Proof.Machine.execRun q img hdr s
  | .crossDeclare q => Sys2Proof.Machine.execCrossDeclare q s
  | .crossCrossing q => Sys2Proof.Machine.execCrossCrossing q s
  | .crossRelease q => Sys2Proof.Machine.execCrossRelease q s
  | .collShift q => Sys2Proof.Machine.execCollShift q s
  | .collPermute q => Sys2Proof.Machine.execCollPermute q s
  | .collDispatch q => Sys2Proof.Machine.execCollDispatch q s
  | .collReturn q => Sys2Proof.Machine.execCollReturn q s
  | .collReduce q => Sys2Proof.Machine.execCollReduce q s
  | .signal q => Sys2Proof.Machine.execSignal q s
  | .wait q => Sys2Proof.Machine.execWait q s
  | .fence q => Sys2Proof.Machine.execFence q s
  | .batchJoin q => Sys2Proof.Machine.execBatchJoin q s
  | .batchLeave q => Sys2Proof.Machine.execBatchLeave q s
  | .cfgTxnBegin q => Sys2Proof.Machine.execCfgTxnBegin q s
  | .cfgTxnCommit q => Sys2Proof.Machine.execCfgTxnCommit q s
  | .cfgTxnRollback q => Sys2Proof.Machine.execCfgTxnRollback q s
  | .txnValidation t => Sys2Proof.Machine.execTxnValidation t s
  | .txnTakeEffect t => Sys2Proof.Machine.execTxnTakeEffect t s
  | .txnCommitTimeout t => Sys2Proof.Machine.execTxnCommitTimeout t s
  | .timetableLoad q a => Sys2Proof.Machine.execTimetableLoad q a s
  | .timetablePlacementDone k a => Sys2Proof.Machine.execTimetablePlacementDone k a s
  | .timetableInForce k => Sys2Proof.Machine.execTimetableInForce k s
  | .stepCommit q => Sys2Proof.Machine.execStepCommit q s
  | .logMark q => Sys2Proof.Machine.execLogMark q s
  | .stepBoundary t => Sys2Proof.Machine.execStepBoundary t s
  | .queCfgWrite fn q value => Sys2Proof.Machine.execQueCfgWrite fn q value s
  | .queueEnable fn q => Sys2Proof.Machine.execQueueEnable fn q s
  | .queueResume fn q => Sys2Proof.Machine.execQueueResume fn q s
  | .queueReset fn q => Sys2Proof.Machine.execQueueReset fn q s
  | .queueDrained q => Sys2Proof.Machine.execQueueDrained q s
  | .eventArraySetup fn t value => Sys2Proof.Machine.execEventArraySetup fn t value s
  | .eventArrayFillDone t => Sys2Proof.Machine.execEventArrayFillDone t s
  | .commandBind => Sys2Proof.Machine.execCommandBind s
  | .legPlace n a => Sys2Proof.Machine.execLegPlace n a s
  | .preemptWaitExpiry sn => Sys2Proof.Machine.execPreemptWaitExpiry sn s
  | .radioWindowCheck k sl w => Sys2Proof.Machine.execRadioWindowCheck k sl w s
  | .reserveCountApply n => Sys2Proof.Machine.execReserveCountApply n s
  | .kvget n tok seq => Sys2Proof.Machine.execKvget n tok seq s
  | .evictionCrossingDone t seq page => Sys2Proof.Machine.execEvictionCrossingDone t seq page s
  | .timNowSRead fn => Sys2Proof.Machine.execTimNowSRead fn s
  | .ptpFrameRx port frame => Sys2Proof.Machine.execPtpFrameRx port frame s
  | .syncTx port frame => Sys2Proof.Machine.execSyncTx port frame s
  | .domainUpdate k off cls => Sys2Proof.Machine.execDomainUpdate k off cls s
  | .domainLossTimeout k => Sys2Proof.Machine.execDomainLossTimeout k s
  | .domainSwitchover => Sys2Proof.Machine.execDomainSwitchover s
  | .holdoverTick => Sys2Proof.Machine.execHoldoverTick s
  | .requalifyExpiry k => Sys2Proof.Machine.execRequalifyExpiry k s
  | .esmcRx port ssm => Sys2Proof.Machine.execEsmcRx port ssm s
  | .synceQualTimeout => Sys2Proof.Machine.execSynceQualTimeout s
  | .slotBoundary mu => Sys2Proof.Machine.execSlotBoundary mu s
  | .ppsEnable fn k value => Sys2Proof.Machine.execPpsEnable fn k value s
  | .pulseEdge k => Sys2Proof.Machine.execPulseEdge k s
  | .captureEdge k falling => Sys2Proof.Machine.execCaptureEdge k falling s
  | .capNsRead fn k => Sys2Proof.Machine.execCapNsRead fn k s
  | .ppsInEdge held => Sys2Proof.Machine.execPpsInEdge held s
  | .trefLoss => Sys2Proof.Machine.execTrefLoss s
  | .fhpost n dir c sl => Sys2Proof.Machine.execFhpost n dir c sl s
  | .slotDeadline c sl => Sys2Proof.Machine.execSlotDeadline c sl s
  | .cplaneTx c dir sl x => Sys2Proof.Machine.execCplaneTx c dir sl x s
  | .uplaneTx c sl x l part => Sys2Proof.Machine.execUplaneTx c sl x l part s
  | .fronthaulFrameRx port f => Sys2Proof.Machine.execFronthaulFrameRx port f s
  | .ulWindowOpen c sl l => Sys2Proof.Machine.execUlWindowOpen c sl l s
  | .ulWindowClose c sl l => Sys2Proof.Machine.execUlWindowClose c sl l s
  | .muteCtlWrite fn value => Sys2Proof.Machine.execMuteCtlWrite fn value s
  | .softMove n ga ts len tok => Sys2Proof.Machine.execSoftMove n ga ts len tok s
  | .qsampTick => Sys2Proof.Machine.execQsampTick s
  | .rtsubmit n pos desc tok => Sys2Proof.Machine.execRtsubmit n pos desc tok s
  | .logitTileArrival e x src tag band col fmt data => Sys2Proof.Machine.execLogitTileArrival e x src tag band col fmt data s
  | .routeSort e x => Sys2Proof.Machine.execRouteSort e x s
  | .blend e x => Sys2Proof.Machine.execBlend e x s
  | .engineBringIn e passed => Sys2Proof.Machine.execEngineBringIn e passed s
  | .xtEnable fn t => Sys2Proof.Machine.execXtEnable fn t s
  | .xtDisable fn t => Sys2Proof.Machine.execXtDisable fn t s
  | .xtMap fn write ppn => Sys2Proof.Machine.execXtMap fn write ppn s
  | .xtUnmap fn => Sys2Proof.Machine.execXtUnmap fn s
  | .xtReclaim fn => Sys2Proof.Machine.execXtReclaim fn s
  | .xtOpDone => Sys2Proof.Machine.execXtOpDone s
  | .prgResponseRx fn page code => Sys2Proof.Machine.execPrgResponseRx fn page code s
  | .priTimeout fn page => Sys2Proof.Machine.execPriTimeout fn page s
  | .atsInvalidationRx fn page => Sys2Proof.Machine.execAtsInvalidationRx fn page s
  | .declarationDigestDone => Sys2Proof.Machine.execDeclarationDigestDone s
  | .channelGrant => Sys2Proof.Machine.execChannelGrant s
  | .chunkLanded ch k data => Sys2Proof.Machine.execChunkLanded ch k data s
  | .crossingFlip ch => Sys2Proof.Machine.execCrossingFlip ch s
  | .dmago n src dst len tok => Sys2Proof.Machine.execDmago n src dst len tok s
  | .chunkFault ch hostErr => Sys2Proof.Machine.execChunkFault ch hostErr s
  | .chanResume fn ch => Sys2Proof.Machine.execChanResume fn ch s
  | .chanAbort fn ch => Sys2Proof.Machine.execChanAbort fn ch s
  | .chanServiceTimeout ch => Sys2Proof.Machine.execChanServiceTimeout ch s
  | .channelUncorrectable ch w => Sys2Proof.Machine.execChannelUncorrectable ch w s
  | .memArbiterGrant unit reqs withdrawn inService => Sys2Proof.Machine.execMemArbiterGrant unit reqs withdrawn inService s
  | .memArbWatchdogFire u => Sys2Proof.Machine.execMemArbWatchdogFire u s
  | .refresh u begins => Sys2Proof.Machine.execRefresh u begins s
  | .scrubRead sp off res row => Sys2Proof.Machine.execScrubRead sp off res row s
  | .correctedWriteBack u => Sys2Proof.Machine.execCorrectedWriteBack u s
  | .tier1FillDone => Sys2Proof.Machine.execTier1FillDone s
  | .tier2FillDone => Sys2Proof.Machine.execTier2FillDone s
  | .laneFail p lane => Sys2Proof.Machine.execLaneFail p lane s
  | .portTrained p lanes => Sys2Proof.Machine.execPortTrained p lanes s
  | .portDown p => Sys2Proof.Machine.execPortDown p s
  | .flitRx p hdr payload crc ctl => Sys2Proof.Machine.execFlitRx p hdr payload crc ctl s
  | .replayTimeout p => Sys2Proof.Machine.execReplayTimeout p s
  | .pathReturn p => Sys2Proof.Machine.execPathReturn p s
  | .rload n ts ga len tok => Sys2Proof.Machine.execRload n ts ga len tok s
  | .rstore n ga ts len tok => Sys2Proof.Machine.execRstore n ga ts len tok s
  | .ratom n op ga sv sc sd tok => Sys2Proof.Machine.execRatom n op ga sv sc sd tok s
  | .readRx b => Sys2Proof.Machine.execReadRx b s
  | .writeRx b => Sys2Proof.Machine.execWriteRx b s
  | .atomicRx b => Sys2Proof.Machine.execAtomicRx b s
  | .lineSerialiserAccess k => Sys2Proof.Machine.execLineSerialiserAccess k s
  | .readRspRx b => Sys2Proof.Machine.execReadRspRx b s
  | .writeAckRx b => Sys2Proof.Machine.execWriteAckRx b s
  | .atomicRspRx b => Sys2Proof.Machine.execAtomicRspRx b s
  | .errorRspRx b => Sys2Proof.Machine.execErrorRspRx b s
  | .receiptRx b => Sys2Proof.Machine.execReceiptRx b s
  | .xnakRx b => Sys2Proof.Machine.execXnakRx b s
  | .holdRx b => Sys2Proof.Machine.execHoldRx b s
  | .creditRx b => Sys2Proof.Machine.execCreditRx b s
  | .replyAckRx b => Sys2Proof.Machine.execReplyAckRx b s
  | .resendTimeout k => Sys2Proof.Machine.execResendTimeout k s
  | .remoteRequestTimeout k => Sys2Proof.Machine.execRemoteRequestTimeout k s
  | .receiptTimer k => Sys2Proof.Machine.execReceiptTimer k s
  | .holdTick => Sys2Proof.Machine.execHoldTick s
  | .replyCacheExpiry k => Sys2Proof.Machine.execReplyCacheExpiry k s
  | .prepareRx b => Sys2Proof.Machine.execPrepareRx b s
  | .prepareAckRx b => Sys2Proof.Machine.execPrepareAckRx b s
  | .openRx b => Sys2Proof.Machine.execOpenRx b s
  | .openAckRx b => Sys2Proof.Machine.execOpenAckRx b s
  | .peerFlipResend k => Sys2Proof.Machine.execPeerFlipResend k s
  | .prepareTimeout k => Sys2Proof.Machine.execPrepareTimeout k s
  | .collDataRx b => Sys2Proof.Machine.execCollDataRx b s
  | .redGrantRx b => Sys2Proof.Machine.execRedGrantRx b s
  | .redDeclinedRx b => Sys2Proof.Machine.execRedDeclinedRx b s
  | .redResultRx b => Sys2Proof.Machine.execRedResultRx b s
  | .redDoneRx b => Sys2Proof.Machine.execRedDoneRx b s
  | .redWaitRx b => Sys2Proof.Machine.execRedWaitRx b s
  | .redAbortRx b => Sys2Proof.Machine.execRedAbortRx b s
  | .redOpenTimeout k => Sys2Proof.Machine.execRedOpenTimeout k s
  | .redWaitTimeout k => Sys2Proof.Machine.execRedWaitTimeout k s
  | .bucketLeakTick => Sys2Proof.Machine.execBucketLeakTick s
  | .correctableError u kind row place => Sys2Proof.Machine.execCorrectableError u kind row place s
  | .faultRecordLogged k => Sys2Proof.Machine.execFaultRecordLogged k s
  | .deviceReset unit kind page => Sys2Proof.Machine.execDeviceReset unit kind page s
  | .repairProgram fn => Sys2Proof.Machine.execRepairProgram fn s
  | .repairProgramDone good => Sys2Proof.Machine.execRepairProgramDone good s
  | .retireUnit fn u => Sys2Proof.Machine.execRetireUnit fn u s
  | .startSteeping fn u => Sys2Proof.Machine.execStartSteeping fn u s
  | .endSteeping fn u => Sys2Proof.Machine.execEndSteeping fn u s
  | .steepingExpiry u => Sys2Proof.Machine.execSteepingExpiry u s
  | .coreBringIn n => Sys2Proof.Machine.execCoreBringIn n s
  | .cubeRowBringIn n => Sys2Proof.Machine.execCubeRowBringIn n s
  | .pseudoChannelCopy u => Sys2Proof.Machine.execPseudoChannelCopy u s
  | .pseudoChannelCopyDone u => Sys2Proof.Machine.execPseudoChannelCopyDone u s
  | .cpCheckpoint k => Sys2Proof.Machine.execCpCheckpoint k s
  | .cpFailure k => Sys2Proof.Machine.execCpFailure k s
  | .cpSpareRotation => Sys2Proof.Machine.execCpSpareRotation s
  | .tasteLeg n equal => Sys2Proof.Machine.execTasteLeg n equal s
  | .tasteArbitration n verdict => Sys2Proof.Machine.execTasteArbitration n verdict s
  | .periodicTestDue n late => Sys2Proof.Machine.execPeriodicTestDue n late s
  | .musterEnable fn value => Sys2Proof.Machine.execMusterEnable fn value s
  | .joinTick => Sys2Proof.Machine.execJoinTick s
  | .heartbeatTick => Sys2Proof.Machine.execHeartbeatTick s
  | .heartbeatRx src => Sys2Proof.Machine.execHeartbeatRx src s
  | .beaconRx src => Sys2Proof.Machine.execBeaconRx src s
  | .probeRx src => Sys2Proof.Machine.execProbeRx src s
  | .probeAckRx src => Sys2Proof.Machine.execProbeAckRx src s
  | .probeTimeout dev => Sys2Proof.Machine.execProbeTimeout dev s
  | .removeRx src dev => Sys2Proof.Machine.execRemoveRx src dev s
  | .joinRx dev capable => Sys2Proof.Machine.execJoinRx dev capable s
  | .leaveRx src => Sys2Proof.Machine.execLeaveRx src s
  | .epochIssue lossy => Sys2Proof.Machine.execEpochIssue lossy s
  | .epochRx src m => Sys2Proof.Machine.execEpochRx src m s
  | .epochAckRx src => Sys2Proof.Machine.execEpochAckRx src s
  | .managerTakeover sys => Sys2Proof.Machine.execManagerTakeover sys s
  | .isolateRx src => Sys2Proof.Machine.execIsolateRx src s
  | .isolateTimeout => Sys2Proof.Machine.execIsolateTimeout s
  | .shadowPageRead t => Sys2Proof.Machine.execShadowPageRead t s
  | .shadowAckRx src t step ok => Sys2Proof.Machine.execShadowAckRx src t step ok s
  | .logHoldTimeout t => Sys2Proof.Machine.execLogHoldTimeout t s
  | .restoreStart fn value => Sys2Proof.Machine.execRestoreStart fn value s
  | .restoreDone ok img => Sys2Proof.Machine.execRestoreDone ok img s
  | .tenancyQuiesce fn t => Sys2Proof.Machine.execTenancyQuiesce fn t s
  | .tenancyQuiesced t => Sys2Proof.Machine.execTenancyQuiesced t s
  | .tenancyResume fn t => Sys2Proof.Machine.execTenancyResume fn t s
  | .tenancyReset fn t flr => Sys2Proof.Machine.execTenancyReset fn t flr s
  | .tenancyResetDone t => Sys2Proof.Machine.execTenancyResetDone t s
  | .irqGapExpiry fn v => Sys2Proof.Machine.execIrqGapExpiry fn v s
  | .dlogEnable fn t value => Sys2Proof.Machine.execDlogEnable fn t value s
  | .dlogSwap fn t value => Sys2Proof.Machine.execDlogSwap fn t value s
  | .dlogSwapDone t => Sys2Proof.Machine.execDlogSwapDone t s
  | .queuePositionStart fn value => Sys2Proof.Machine.execQueuePositionStart fn value s
  | .linkDown => Sys2Proof.Machine.execLinkDown s
  | .perstAssert => Sys2Proof.Machine.execPerstAssert s
  | .startup deassert => Sys2Proof.Machine.execStartup deassert s
  | .imageVerified a b => Sys2Proof.Machine.execImageVerified a b s
  | .builtInTestDone failing => Sys2Proof.Machine.execBuiltInTestDone failing s
  | .arbAdvance fn => Sys2Proof.Machine.execArbAdvance fn s
  | .arbProgramDone => Sys2Proof.Machine.execArbProgramDone s
  | .ownerEnrol fn value resp => Sys2Proof.Machine.execOwnerEnrol fn value resp s
  | .fabricKeyImport fn value resp => Sys2Proof.Machine.execFabricKeyImport fn value resp s
  | .fabricKeyActivate fn value => Sys2Proof.Machine.execFabricKeyActivate fn value s
  | .fabricKeyRetirePrevious fn value => Sys2Proof.Machine.execFabricKeyRetirePrevious fn value s
  | .memoryKeyRoll fn value => Sys2Proof.Machine.execMemoryKeyRoll fn value s
  | .debugNonce fn value => Sys2Proof.Machine.execDebugNonce fn value s
  | .debugUnlock fn value resp => Sys2Proof.Machine.execDebugUnlock fn value resp s
  | .debugLock fn value => Sys2Proof.Machine.execDebugLock fn value s
  | .recoveryImage fn value resp => Sys2Proof.Machine.execRecoveryImage fn value resp s
  | .spdmGetVersion => Sys2Proof.Machine.execSpdmGetVersion s
  | .spdmGetCapabilities => Sys2Proof.Machine.execSpdmGetCapabilities s
  | .spdmNegotiateAlgorithms => Sys2Proof.Machine.execSpdmNegotiateAlgorithms s
  | .spdmGetDigests => Sys2Proof.Machine.execSpdmGetDigests s
  | .spdmGetCertificate off len => Sys2Proof.Machine.execSpdmGetCertificate off len s
  | .spdmChallenge nonce => Sys2Proof.Machine.execSpdmChallenge nonce s
  | .spdmGetMeasurements index signed nonce => Sys2Proof.Machine.execSpdmGetMeasurements index signed nonce s
  | .spdmUnsupported => Sys2Proof.Machine.execSpdmUnsupported s
  | .reqD0 fn value => Sys2Proof.Machine.execReqD0 fn value s
  | .reqIdleHold fn value => Sys2Proof.Machine.execReqIdleHold fn value s
  | .reqDeep fn value => Sys2Proof.Machine.execReqDeep fn value s
  | .autoIdleExpiry => Sys2Proof.Machine.execAutoIdleExpiry s
  | .idleWake src => Sys2Proof.Machine.execIdleWake src s
  | .deepWake src => Sys2Proof.Machine.execDeepWake src s
  | .thermalSample unit temp mv => Sys2Proof.Machine.execThermalSample unit temp mv s
  | .powerFail => Sys2Proof.Machine.execPowerFail s
  | .saveComplete bad => Sys2Proof.Machine.execSaveComplete bad s
  | .saveSnap fn value => Sys2Proof.Machine.execSaveSnap fn value s
  | .autoSnapshot => Sys2Proof.Machine.execAutoSnapshot s
  | .saveRestore fn value => Sys2Proof.Machine.execSaveRestore fn value s
  | .saveClear fn value => Sys2Proof.Machine.execSaveClear fn value s
  | .sysclkLoss => Sys2Proof.Machine.execSysclkLoss s
  | .frefLoss g => Sys2Proof.Machine.execFrefLoss g s
  | .erefLoss => Sys2Proof.Machine.execErefLoss s
  | .mgtReadReg seq peer off count => Sys2Proof.Machine.execMgtReadReg seq peer off count s
  | .mgtReadLog seq peer idx count => Sys2Proof.Machine.execMgtReadLog seq peer idx count s
  | .mgtReadTelem seq peer idx count => Sys2Proof.Machine.execMgtReadTelem seq peer idx count s
  | .mgtReadSave seq peer => Sys2Proof.Machine.execMgtReadSave seq peer s
  | .mgtWake seq peer => Sys2Proof.Machine.execMgtWake seq peer s
  | .mgtDeviceReset seq peer => Sys2Proof.Machine.execMgtDeviceReset seq peer s
  | .mgtSetPkgLimit seq peer w => Sys2Proof.Machine.execMgtSetPkgLimit seq peer w s
  | .mgtBadRequest seq peer op => Sys2Proof.Machine.execMgtBadRequest seq peer op s
  | .i3cPrivateWrite seq r => Sys2Proof.Machine.execI3cPrivateWrite seq r s
  | .i3cAddressAssign entdaa static dyn => Sys2Proof.Machine.execI3cAddressAssign entdaa static dyn s
  | .telemetryTick md0 md1 iod => Sys2Proof.Machine.execTelemetryTick md0 md1 iod s
  | .pwrfailNRise => Sys2Proof.Machine.execPwrfailNRise s
  | .powerOn => Sys2Proof.Machine.execPowerOn s
  | .aonSupplyLoss => Sys2Proof.Machine.execAonSupplyLoss s
  | .trefReturn => Sys2Proof.Machine.execTrefReturn s
  | .frefReturn g => Sys2Proof.Machine.execFrefReturn g s
  | .erefReturn => Sys2Proof.Machine.execErefReturn s
  | .fronthaulLinkChange p up => Sys2Proof.Machine.execFronthaulLinkChange p up s
  | .removalResetTimeout => Sys2Proof.Machine.execRemovalResetTimeout s
  | .vfEnableChange enable num => Sys2Proof.Machine.execVfEnableChange enable num s
  | .functionPowerStateWrite fn d3 => Sys2Proof.Machine.execFunctionPowerStateWrite fn d3 s
  | .pmeTurnOffRx => Sys2Proof.Machine.execPmeTurnOffRx s
  | .msixUnmask fn v => Sys2Proof.Machine.execMsixUnmask fn v s
  | .translationCompletionRx fn page ok write target => Sys2Proof.Machine.execTranslationCompletionRx fn page ok write target s
  | .engineInputWatchdogFire e src => Sys2Proof.Machine.execEngineInputWatchdogFire e src s
  | .snapshotDone => Sys2Proof.Machine.execSnapshotDone s
  | .saveRestoreDone => Sys2Proof.Machine.execSaveRestoreDone s
  | .coreBringInDone n passed => Sys2Proof.Machine.execCoreBringInDone n passed s
  | .cubeRowBringInDone n => Sys2Proof.Machine.execCubeRowBringInDone n s
  | .cpTakeoverDone => Sys2Proof.Machine.execCpTakeoverDone s
  | .xtEnableDone t => Sys2Proof.Machine.execXtEnableDone t s
  | .dramRowRepairDone u => Sys2Proof.Machine.execDramRowRepairDone u s
  | .secOperationDone => Sys2Proof.Machine.execSecOperationDone s
  | .shadowPageRx guest t step x => Sys2Proof.Machine.execShadowPageRx guest t step x s
  | .logRecordMirrorRx guest t r => Sys2Proof.Machine.execLogRecordMirrorRx guest t r s
  | .logMirrorAckRx t num => Sys2Proof.Machine.execLogMirrorAckRx t num s
  | .jtagInstruction ir isPublic => Sys2Proof.Machine.execJtagInstruction ir isPublic s

end Sys2Proof.Machine
end

