-- ==== Sys2Proof/Safety.lean ====
section
/-! DEFINITION. What counts as a sound state and a safe run, in the terms that statements use: every waiting command is one that can reach the hardware, and memory
is in its canonical form; and the vocabulary of the statements about single commands. -/

namespace Sys2Proof.Machine

/-- Every command that waits is well formed. -/
def State.fed (s : State) : Prop := ∀ c ∈ s.pending, c.wf = true

/-- A step that neither faults nor refuses. -/
def State.safe (s : State) : Prop := ∃ t, step s = .next t

/-- The canonical form of memory: addresses strictly rising, and no listed byte is 0, which an unlisted one reads as. -/
def Memory.wf (m : List Host.Cell) : Bool := smWf (fun _ => (0 : Byte)) m

/-- The canonical form of the register file: keys strictly rising, and no listed register holds its reset value. -/
def Regs.wf (m : List (Nat × Word)) : Bool := smSorted m

/-- The state with the device `d` in place of its own; the queue of waiting commands stays. -/
def State.leads (s : State) (d : Device) : State := { s with dev := d }

/-- The same, with what follows an event at once: routes of retired engines and transfers through lost units end, waits that an error mark meets end their legs,
and chunks of remote transfers and of reductions go out (log 121). -/
def State.settles (s : State) (d : Device) : State := { s with dev := d.sweepEngines.sweepLost.pumpColls.errorWaitsAll.askRemote }

/-- Whether a write of register r by a function reaches it: the function is not in D3hot, the block is up, and the part has it (R3, R441, Table 1-5). -/
def Device.reaches (d : Device) (fn : Nat) (r : Reg) : Bool :=
  d.fnAwake fn && !(d.unserviceable && !r.staysUp) && !(d.isX && r.radio)

/-- Whether the entry x at the front of queue q has opcode op, starts now, and passes checks 1 to 3 of Table 4-4 on a serviceable device
whose tenancy stands in no double loss, or is the STEP_COMMIT that ends one. -/
def Device.starts (d : Device) (q op : Nat) (x : Nat × List Byte) : Bool :=
  d.frontReady q == some x && eOp x.2 == op && !(d.startFront q x).1.unserviceable && (d.startFront q x).1.precheck q x.2 == none &&
  (smGet (d.startFront q x).1.ftp.double (d.startFront q x).2.ten 0 == 0 || op == 0x0B)

/-- Core n runs the leg l, which comes to its cycle c, neither passed nor withheld nor beyond four times its bound: then the device is e and the leg m. -/
abbrev Device.acts (d : Device) (n first c : Nat) (l : Leg) (e : Device) (m : Leg) : Prop :=
  (d.core n).leg = some l ∧ first ≤ c ∧ l.count ≤ c ∧ c < 4 * l.bound ∧ d.withheld n l = false ∧ d.atCycle n c l = .go e m

/-- In cycle c the sequencer of the leg l on core n issues: it waits on no token, nothing stalls it, its end instruction has not issued, and the fetch port is not
fenced. -/
abbrev Device.issues (d : Device) (n c : Nat) (l : Leg) (e : Device) (m : Leg) : Prop :=
  d.acts n (d.rd COR_TIMING.leg_start n) c l e m ∧ m.seqWait = none ∧ m.endIssued = false ∧ e.isFenced n 6 = false ∧ m.stall = none

/-- In cycle c the signal lane of the leg l on core n issues: it runs, waits on no token, has issued nothing in that cycle, and can fetch. -/
abbrev Device.laneIssues (d : Device) (n c : Nat) (l : Leg) (e : Device) (m : Leg) : Prop :=
  d.acts n (d.rd COR_TIMING.leg_start n) c l e m ∧ m.laneWait = none ∧ m.lane.running = true ∧ m.lane.next ≤ c ∧
    (e.isFenced n 6 && !m.lane.cache.contains m.lane.pc) = false

/-- The leg once its signal lane has issued the instruction of cycle c. -/
def Leg.laneOn (l : Leg) (c : Nat) : Leg := { l with lane := l.lane.issued c }

/-- The device with the leg l running on core n. -/
def Device.putLeg (d : Device) (n : Nat) (l : Leg) : Device := d.setCore n { d.core n with leg := some l }

/-- Accesses to one register of BAR0 by a function that have a row of their own, with the register. -/
inductive Accesses (fn : Nat) : Reg → Instr → Prop where
  | xtEnable (t) : Accesses fn .MEM_XT_BASE (.xtEnable fn t)
  | xtDisable (t) : Accesses fn .MEM_XT_BASE (.xtDisable fn t)
  | xtMap (w p) : Accesses fn .MEM_XT_OP1 (.xtMap fn w p)
  | xtUnmap : Accesses fn .MEM_XT_OP1 (.xtUnmap fn)
  | xtReclaim : Accesses fn .MEM_XT_OP1 (.xtReclaim fn)
  | chanResume (ch) : Accesses fn .MEM_CHAN_CTL (.chanResume fn ch)
  | chanAbort (ch) : Accesses fn .MEM_CHAN_CTL (.chanAbort fn ch)
  | musterEnable (v) : Accesses fn .FTP_CFG (.musterEnable fn v)
  | restoreStart (v) : Accesses fn .FTP_RESTORE (.restoreStart fn v)
  | reqD0 (v) : Accesses fn .PWR_STATE_CTL (.reqD0 fn v)
  | reqIdleHold (v) : Accesses fn .PWR_STATE_CTL (.reqIdleHold fn v)
  | reqDeep (v) : Accesses fn .PWR_STATE_CTL (.reqDeep fn v)
  | saveSnap (v) : Accesses fn .PWR_SAVE_CTL (.saveSnap fn v)
  | saveRestore (v) : Accesses fn .PWR_SAVE_CTL (.saveRestore fn v)
  | saveClear (v) : Accesses fn .PWR_SAVE_CTL (.saveClear fn v)
  | muteCtlWrite (v) : Accesses fn .RAD_MUTE_CTL (.muteCtlWrite fn v)
  | repairProgram : Accesses fn .RAS_REPAIR_STAT (.repairProgram fn)
  | retireUnit (u) : Accesses fn .RAS_RETIRE (.retireUnit fn u)
  | startSteeping (u) : Accesses fn .RAS_RETIRE (.startSteeping fn u)
  | endSteeping (u) : Accesses fn .RAS_RETIRE (.endSteeping fn u)
  | arbAdvance : Accesses fn .SEC_ARB (.arbAdvance fn)
  | ownerEnrol (v r) : Accesses fn .SEC_OP_CTL (.ownerEnrol fn v r)
  | fabricKeyImport (v r) : Accesses fn .SEC_OP_CTL (.fabricKeyImport fn v r)
  | fabricKeyActivate (v) : Accesses fn .SEC_OP_CTL (.fabricKeyActivate fn v)
  | fabricKeyRetirePrevious (v) : Accesses fn .SEC_OP_CTL (.fabricKeyRetirePrevious fn v)
  | memoryKeyRoll (v) : Accesses fn .SEC_OP_CTL (.memoryKeyRoll fn v)
  | debugNonce (v) : Accesses fn .SEC_OP_CTL (.debugNonce fn v)
  | debugUnlock (v r) : Accesses fn .SEC_OP_CTL (.debugUnlock fn v r)
  | debugLock (v) : Accesses fn .SEC_OP_CTL (.debugLock fn v)
  | recoveryImage (v r) : Accesses fn .SEC_OP_CTL (.recoveryImage fn v r)
  | tenancyQuiesce (t) : Accesses fn .TEN_CTL (.tenancyQuiesce fn t)
  | tenancyResume (t) : Accesses fn .TEN_CTL (.tenancyResume fn t)
  | dlogEnable (t v) : Accesses fn .TEN_DLOG_CTL (.dlogEnable fn t v)
  | dlogSwap (t v) : Accesses fn .TEN_DLOG_CTL (.dlogSwap fn t v)
  | queuePositionStart (v) : Accesses fn .TEN_QPOS1 (.queuePositionStart fn v)
  | msixUnmask (v) : Accesses fn .TEN_IRQ_CFG (.msixUnmask fn v)
  | timNowSRead : Accesses fn .TIM_NOW_S (.timNowSRead fn)
  | ppsEnable (k v) : Accesses fn .TIM_PPS_CTL (.ppsEnable fn k v)
  | timCapNsRead (k) : Accesses fn .TIM_CAP_NS (.capNsRead fn k)
  | queCfgWrite (q v) : Accesses fn .QUE_CFG (.queCfgWrite fn q v)
  | queueEnable (q) : Accesses fn .QUE_CTL (.queueEnable fn q)
  | queueResume (q) : Accesses fn .QUE_CTL (.queueResume fn q)
  | queueReset (q) : Accesses fn .QUE_CTL (.queueReset fn q)
  | eventArraySetup (t v) : Accesses fn .QUE_EVT_BASE (.eventArraySetup fn t v)

/-- Every access of a function to the device's memory space: those of `Accesses`, the other writes of BAR0, and the doorbells of BAR2. -/
inductive FromHost (fn : Nat) : Instr → Prop where
  | register (r c) (h : Accesses fn r c) : FromHost fn c
  | registerWrite (o n v) : FromHost fn (.registerWrite fn o n v)
  | bar0BadAccess (a) : FromHost fn (.bar0BadAccess fn a)
  | sqDoorbell (q v) : FromHost fn (.sqDoorbell fn q v)
  | cqDoorbell (q v) : FromHost fn (.cqDoorbell fn q v)
  | doorbellBadWrite (o) : FromHost fn (.doorbellBadWrite fn o)

/-- Accesses that only tenancy 0 may make, with the register and its BAR0 offset (R417, R466, R487, R511). -/
inductive OnlyTenancy0 (fn : Nat) : Reg → Nat → Instr → Prop where
  | restoreStart (v) : OnlyTenancy0 fn .FTP_RESTORE 0xF00500 (.restoreStart fn v)
  | reqD0 (v) : OnlyTenancy0 fn .PWR_STATE_CTL 0x1200000 (.reqD0 fn v)
  | reqIdleHold (v) : OnlyTenancy0 fn .PWR_STATE_CTL 0x1200000 (.reqIdleHold fn v)
  | reqDeep (v) : OnlyTenancy0 fn .PWR_STATE_CTL 0x1200000 (.reqDeep fn v)
  | saveSnap (v) : OnlyTenancy0 fn .PWR_SAVE_CTL 0x1200038 (.saveSnap fn v)
  | saveRestore (v) : OnlyTenancy0 fn .PWR_SAVE_CTL 0x1200038 (.saveRestore fn v)
  | saveClear (v) : OnlyTenancy0 fn .PWR_SAVE_CTL 0x1200038 (.saveClear fn v)
  | startSteeping (u) : OnlyTenancy0 fn .RAS_RETIRE 0xE00030 (.startSteeping fn u)
  | endSteeping (u) : OnlyTenancy0 fn .RAS_RETIRE 0xE00030 (.endSteeping fn u)
  | arbAdvance : OnlyTenancy0 fn .SEC_ARB 0x1100008 (.arbAdvance fn)
  | ownerEnrol (v r) : OnlyTenancy0 fn .SEC_OP_CTL 0x1100020 (.ownerEnrol fn v r)
  | fabricKeyImport (v r) : OnlyTenancy0 fn .SEC_OP_CTL 0x1100020 (.fabricKeyImport fn v r)
  | fabricKeyActivate (v) : OnlyTenancy0 fn .SEC_OP_CTL 0x1100020 (.fabricKeyActivate fn v)
  | fabricKeyRetirePrevious (v) : OnlyTenancy0 fn .SEC_OP_CTL 0x1100020 (.fabricKeyRetirePrevious fn v)
  | memoryKeyRoll (v) : OnlyTenancy0 fn .SEC_OP_CTL 0x1100020 (.memoryKeyRoll fn v)
  | debugNonce (v) : OnlyTenancy0 fn .SEC_OP_CTL 0x1100020 (.debugNonce fn v)
  | debugUnlock (v r) : OnlyTenancy0 fn .SEC_OP_CTL 0x1100020 (.debugUnlock fn v r)
  | debugLock (v) : OnlyTenancy0 fn .SEC_OP_CTL 0x1100020 (.debugLock fn v)
  | recoveryImage (v r) : OnlyTenancy0 fn .SEC_OP_CTL 0x1100020 (.recoveryImage fn v r)

end Sys2Proof.Machine
end

