-- ==== Sys2Proof/Certificates/Slice0/Obligations.lean ====
section
/-! DEFINITION. The statements for the provers. In the completion statements, `leads` and `settles` (Safety.lean) name the state after a command in terms of the
machine's shared operations; everything those operations do not name is unchanged, which is the frame of the command. -/

open Sys2Proof Sys2Proof.Machine

/-- A step runs the command at the front -/
def Obligations.StepRunsFront : Prop :=
  ∀ (c : Instr) (s : State), step { s with pending := c :: s.pending } = exec c s

/-- A step with nothing waiting -/
def Obligations.StepIdles : Prop :=
  (∀ s : State, s.pending = [] → s.dev.unpowered = true → step s = .next s) ∧
  (∀ s : State, s.pending = [] → s.dev.unpowered = false → s.dev.tick.slotCount 0 = s.dev.slotCount 0 → (∀ c ∈ s.dev.tick.cores, c.2.leg = none) →
    step s = .next (s.leads (s.dev.tick.drainPorts.intakeAll.retryLoads ⟨0, []⟩)))

/-- What reset leaves -/
def Obligations.ResetLeaves : Prop :=
  State.reset.pending = [] ∧ State.reset.dev.mem = [] ∧
  State.reset.dev.secs = 315964819 ∧ State.reset.dev.nanos = 0 ∧ State.reset.dev.frac = 0 ∧
  State.reset.dev.rd TIM_STAT.doubt 0 = 1 ∧ State.reset.dev.rd PWR_STATE_STAT.state 0 = 4 ∧
  (∀ (r : Reg) (f : Fld) (i : Nat), f ∈ r.fields → r.resetIdx i = 0 → State.reset.dev.rd f i = f.rst) ∧
  (∀ n, n < 192 → State.reset.dev.rd COR_LMAP.phys n = n + 4 * (n / 48))

/-- Every command answers -/
def Obligations.ExecAnswers : Prop :=
  (∀ (c : Instr) (s : State), ∃ d, exec c s = .next (s.leads d)) ∧
  (∀ (c : Instr) (s : State), c.wf = false → exec c s = .next s) ∧
  (∀ (c : Instr) (s : State), ∃ d, ∀ p : List Instr, exec c { s with pending := p } = .next { dev := d, pending := p })

/-- Every step goes on, and fed states stay fed -/
def Obligations.FedStatesStepOn : Prop :=
  ∀ s : State, ∃ t, step s = .next t ∧ t.pending = s.pending.drop 1 ∧ (s.fed → t.fed)

/-- Runs of k steps -/
def Obligations.RunsDrainTheQueue : Prop :=
  ∀ (k m : Nat) (s : State), ∃ t, Host.Core.run Sys2Proof.core k s = .next t ∧ t.pending = s.pending.drop k ∧
    Host.Core.run Sys2Proof.core (k + m) s = Host.Core.run Sys2Proof.core m t

/-- The state after reset is fed -/
def Obligations.ResetIsFed : Prop :=
  State.reset.fed ∧ Memory.wf State.reset.dev.mem = true ∧ Regs.wf State.reset.dev.regs = true

/-- D3hot, an unserviceable device, and a part without radio block accesses -/
def Obligations.D3hotBlocks : Prop :=
  (∀ (c : Instr) (fn : Nat) (s : State), FromHost fn c → c.wf = true → s.dev.fnAwake fn = false → exec c s = .next s) ∧
  (∀ (c : Instr) (fn : Nat) (r : Reg) (s : State), Accesses fn r c → c.wf = true → s.dev.reaches fn r = false → exec c s = .next s)

/-- Operations that only tenancy 0 starts -/
def Obligations.OnlyTenancyZeroOperates : Prop :=
  ∀ (c : Instr) (fn off : Nat) (r : Reg) (s : State), OnlyTenancy0 fn r off c → c.wf = true → fn ≠ 0 → s.dev.reaches fn r = true →
    exec c s = .next (s.leads (s.dev.hostErr off 0))

/-- Memory reads what was written under the same key -/
def Obligations.MemoryReadsBack : Prop :=
  ∀ (d : Device) (key sp off : Nat) (bs : List Byte), off + bs.length ≤ 2 ^ 64 →
    (d.poke key sp off bs).peek key sp off bs.length = bs ∧
    (∀ o, o < 2 ^ 64 → (o < off ∨ off + bs.length ≤ o) → (d.poke key sp off bs).readB key sp o = d.readB key sp o)

/-- Event signals -/
def Obligations.EventSignals : Prop :=
  ∀ (d : Device) (t e v : Nat) (add : Bool), v < 2 ^ 64 → e < 65536 →
    (d.signal t e v add).event t e = (if add then min (d.event t e + v) (2 ^ 64 - 1) else max (d.event t e) v) ∧
    (∀ t' e', e' < 65536 → d.evtAddr t' e' ≠ d.evtAddr t e → (d.signal t e v add).event t' e' = d.event t' e') ∧
    (d.signal t e v add).regs = d.regs ∧ (d.signal t e v add).cmds = d.cmds

/-- Division steps and DIVQ15 -/
def Obligations.DivisionGivesQ15 : Prop :=
  (∀ x : DivLane, divStep x = { x with
    r := 2 * (if x.dd ≤ x.r then x.r - x.dd else x.r) % 2 ^ 32
    q := (if x.dd ≤ x.r then 2 * x.q + 1 else 2 * x.q) % 2 ^ 32 }) ∧
  (∀ n d : Int, -32768 ≤ n → n < 32768 → -32768 ≤ d → d < 32768 → ∀ x y : DivLane, x = divSetup n d → y = (List.range 16).foldl (fun z _ => divStep z) x →
    (x.r = n.natAbs ∧ x.dd = d.natAbs ∧ x.q = 0 ∧ x.neg = (decide (n < 0) != decide (d < 0)) ∧ x.big = decide (d.natAbs ≤ n.natAbs)) ∧
    (x.big = false → y.q = n.natAbs * 2 ^ 15 / d.natAbs ∧ divQ15 y = ⟨(n * 2 ^ 15).tdiv d, 0⟩) ∧
    (d ≠ 0 → x.big = true → divQ15 y = if x.neg then ⟨-32768, if n.natAbs = d.natAbs then 0 else flDivSat⟩ else ⟨32767, flDivSat⟩) ∧
    (d = 0 → divQ15 y = ⟨if n = 0 then 0 else if n < 0 then -32768 else 32767, flDivSat⟩))

/-- A K-step of INT8 -/
def Obligations.Int8StepSaturates : Prop :=
  ∀ (acc : Accu) (a b : Feed) (t : Int), t = ((List.range 16).map fun i => toSigned 8 (leAt a.data i 1) * toSigned 8 (leAt b.data i 1)).sum →
    stepInt8 false acc a b = ⟨{ acc with re := max (-(2 ^ 31)) (min (2 ^ 31 - 1) (acc.re + t)) }, if -(2 ^ 31) ≤ acc.re + t ∧ acc.re + t ≤ 2 ^ 31 - 1 then 0 else flIntSat⟩ ∧
    stepInt8 true acc a b = ⟨{ acc with re := t }, 0⟩

/-- Every aligned block uses each channel once -/
def Obligations.InterleaveCovers : Prop :=
  (∀ k p : Nat, p < 512 → ∃ i, i < 512 ∧ pcOf (131072 * k + 256 * i) = p ∧ ∀ j, j < 512 → pcOf (131072 * k + 256 * j) = p → j = i) ∧
  (∀ k p : Nat, p < 32 → ∃ i, i < 32 ∧ t2Chan (8192 * k + 256 * i) = p ∧ ∀ j, j < 32 → t2Chan (8192 * k + 256 * j) = p → j = i)

/-- Enable, resume, reset and drain of a queue -/
def Obligations.QueueControl : Prop :=
  (∀ (s : State) (fn q : Nat),
    (fn < 64) →
    (q < 4096) →
    (s.dev.reaches fn .QUE_CTL = true) →
    (s.dev.mayQueue fn q = true) →
    (s.dev.rd QUE_STAT.state q = 0) →
    (s.dev.qTen q ∉ s.dev.evtFill) →
    (s.dev.enableOk q = true) →
    exec (.queueEnable fn q) s = .next (s.leads (((((s.dev.setQueue q {}).wr QUE_STAT.sq_head q 0).wr QUE_STAT.db_err q 0).wr QUE_STAT.cq_full q 0).wr QUE_STAT.state q 1))) ∧
  (∀ (s : State) (fn q : Nat),
    (fn < 64) →
    (q < 4096) →
    (s.dev.reaches fn .QUE_CTL = true) →
    (s.dev.mayQueue fn q = true) →
    (s.dev.rd QUE_STAT.state q = 2) →
    exec (.queueResume fn q) s = .next (s.leads ((s.dev.wr QUE_STAT.state q 1).settle q))) ∧
  (∀ (s : State) (fn q : Nat) (a : Device),
    (fn < 64) →
    (q < 4096) →
    (s.dev.reaches fn .QUE_CTL = true) →
    (s.dev.mayQueue fn q = true) →
    (a = s.dev.discardFetched q) →
    exec (.queueReset fn q) s = .next (s.leads ((a.setQueue q { a.queue q with enableWaits := false }).wr QUE_STAT.state q 4))) ∧
  (∀ (s : State) (q : Nat),
    (q < 4096) →
    (s.dev.rd QUE_STAT.state q = 4) →
    (s.dev.rd QUE_STAT.in_flight q = 0) →
    ((s.dev.queue q).toPost = []) →
    exec (.queueDrained q) s = .next (s.leads (s.dev.wr QUE_STAT.state q 0))) ∧
  (∀ (s : State) (t : Nat),
    (t < 64) →
    (s.dev.evtFill = [t]) →
    exec (.eventArrayFillDone t) s = .next (s.leads
      ((s.dev.queues.filter fun q => q.2.enableWaits && s.dev.qTen q.1 == t && s.dev.rd QUE_STAT.state q.1 == 0).foldl (fun d q => d.enableNow q.1) { s.dev with evtFill := [] }))) ∧
  (∀ (s : State) (t value : Nat),
    (t < 64) →
    (value < 2 ^ 64) →
    (s.dev.reaches 0 .QUE_EVT_BASE = true) →
    (∀ q, q < 4096 → s.dev.qTen q = t → s.dev.rd QUE_STAT.state q = 0) →
    (value % 2 = 1) →
    (t ∉ s.dev.evtFill) →
    exec (.eventArraySetup 0 t value) s = .next (s.leads
      (({ ((((s.dev.wr QUE_EVT_BASE.base t (bits value 39 19)).zero spT1 (bits value 39 19 * 524288) 524288).wr QUE_EVT_BASE.valid t 1).setPage
          (pageKey 0 (bits value 39 19 * 524288 / pageSize)) pgSystem) with evtFill := t :: s.dev.evtFill } : Device).usedUp .QUE_EVT_BASE t))) ∧
  (∀ (s : State) (q value : Nat),
    (q < 4096) →
    (value < 2 ^ 64) →
    (s.dev.reaches 0 .QUE_CFG = true) →
    (s.dev.rd QUE_STAT.state q = 0) →
    (value / 2 ^ 58 = s.dev.qTen q) →
    exec (.queCfgWrite 0 q value) s = .next (s.leads (s.dev.setReg .QUE_CFG q (BitVec.ofNat 64 value &&& BitVec.ofNat 64 0xFDFFFFFF00000003))))

/-- Doorbell writes -/
def Obligations.Doorbells : Prop :=
  (∀ (s : State) (d : Device) (fn q value T : Nat) (from_ : Nat),
    (fn < 64) →
    (q < 4096) →
    (value < 2 ^ 64) →
    (T = value % 2 ^ 32) →
    (s.dev.fnAwake fn = true) →
    (d = s.dev.disarmDeep 1) →
    (d.fnAwake fn = true) →
    (d.qTen q = fn) →
    (d.rd QUE_STAT.state q = 1 ∨ d.rd QUE_STAT.state q = 2) →
    ((T + 2 ^ 32 - d.rd QUE_STAT.sq_head q) % 2 ^ 32 ≤ 2 ^ d.rd QUE_CFG.sq_log2 q) →
    (from_ = if (T + 2 ^ 32 - (d.queue q).tail) % 2 ^ 32 ≤ 2 ^ d.rd QUE_CFG.sq_log2 q then (d.queue q).tail else T) →
    exec (.sqDoorbell fn q value) s = .next (s.leads ((d.setTxn fn { d.txn fn with visible := (d.txn fn).visible + d.newCommits q from_ T }).setQueue q
      { d.queue q with tail := T, commits := (d.queue q).commits + d.newCommits q from_ T }))) ∧
  (∀ (s : State) (d : Device) (fn q value T : Nat),
    (fn < 64) →
    (q < 4096) →
    (value < 2 ^ 64) →
    (T = value % 2 ^ 32) →
    (s.dev.fnAwake fn = true) →
    (d = s.dev.disarmDeep 1) →
    (d.fnAwake fn = true) →
    (d.qTen q = fn) →
    (d.rd QUE_STAT.state q = 1 ∨ d.rd QUE_STAT.state q = 2) →
    (2 ^ d.rd QUE_CFG.sq_log2 q < (T + 2 ^ 32 - d.rd QUE_STAT.sq_head q) % 2 ^ 32) →
    exec (.sqDoorbell fn q value) s = .next (s.leads (d.dbError q 1))) ∧
  (∀ (s : State) (d : Device) (fn q value T : Nat),
    (fn < 64) →
    (q < 4096) →
    (value < 2 ^ 64) →
    (T = value % 2 ^ 32) →
    (s.dev.fnAwake fn = true) →
    (d = s.dev.disarmDeep 1) →
    (d.fnAwake fn = true) →
    (d.qTen q = fn) →
    (d.rd QUE_STAT.state q = 0) →
    exec (.sqDoorbell fn q value) s = .next (s.leads (d.wr QUE_STAT.db_err q 3))) ∧
  (∀ (s : State) (d : Device) (fn q value T : Nat),
    (fn < 64) →
    (q < 4096) →
    (value < 2 ^ 64) →
    (T = value % 2 ^ 32) →
    (s.dev.fnAwake fn = true) →
    (d = s.dev.disarmDeep 1) →
    (d.fnAwake fn = true) →
    (d.qTen q ≠ fn) →
    exec (.sqDoorbell fn q value) s = .next (s.leads (d.hostErr (0x1000 * q) 2))) ∧
  (∀ (s : State) (fn q value C : Nat),
    (fn < 64) →
    (q < 4096) →
    (value < 2 ^ 64) →
    (C = value % 2 ^ 32) →
    (s.dev.fnAwake fn = true) →
    (s.dev.qTen q = fn) →
    (s.dev.rd QUE_STAT.state q = 1 ∨ s.dev.rd QUE_STAT.state q = 2) →
    (((s.dev.queue q).cqTail + 2 ^ 32 - C) % 2 ^ 32 < 2 ^ s.dev.rd QUE_CFG.cq_log2 q) →
    exec (.cqDoorbell fn q value) s = .next (s.leads ((s.dev.setQueue q { s.dev.queue q with cqHead := C }).wr QUE_STAT.cq_full q 0))) ∧
  (∀ (s : State) (fn q value C : Nat),
    (fn < 64) →
    (q < 4096) →
    (value < 2 ^ 64) →
    (C = value % 2 ^ 32) →
    (s.dev.fnAwake fn = true) →
    (s.dev.qTen q = fn) →
    (s.dev.rd QUE_STAT.state q = 1 ∨ s.dev.rd QUE_STAT.state q = 2) →
    (((s.dev.queue q).cqTail + 2 ^ 32 - C) % 2 ^ 32 = 2 ^ s.dev.rd QUE_CFG.cq_log2 q) →
    exec (.cqDoorbell fn q value) s = .next (s.leads (s.dev.setQueue q { s.dev.queue q with cqHead := C }))) ∧
  (∀ (s : State) (fn q value C : Nat),
    (fn < 64) →
    (q < 4096) →
    (value < 2 ^ 64) →
    (C = value % 2 ^ 32) →
    (s.dev.fnAwake fn = true) →
    (s.dev.qTen q = fn) →
    (s.dev.rd QUE_STAT.state q = 1 ∨ s.dev.rd QUE_STAT.state q = 2) →
    (2 ^ s.dev.rd QUE_CFG.cq_log2 q < ((s.dev.queue q).cqTail + 2 ^ 32 - C) % 2 ^ 32) →
    exec (.cqDoorbell fn q value) s = .next (s.leads (s.dev.dbError q 2))) ∧
  (∀ (s : State) (fn q value C : Nat),
    (fn < 64) →
    (q < 4096) →
    (value < 2 ^ 64) →
    (C = value % 2 ^ 32) →
    (s.dev.fnAwake fn = true) →
    (s.dev.qTen q = fn) →
    (s.dev.rd QUE_STAT.state q = 0) →
    exec (.cqDoorbell fn q value) s = .next (s.leads (s.dev.wr QUE_STAT.db_err q 3))) ∧
  (∀ (s : State) (fn q value C : Nat),
    (fn < 64) →
    (q < 4096) →
    (value < 2 ^ 64) →
    (C = value % 2 ^ 32) →
    (s.dev.fnAwake fn = true) →
    (s.dev.qTen q ≠ fn) →
    exec (.cqDoorbell fn q value) s = .next (s.leads (s.dev.hostErr (0x1000 * q + 8) 2))) ∧
  (∀ (s : State) (fn off : Nat),
    (fn < 64) →
    (off < 0x1000000) →
    (s.dev.fnAwake fn = true) →
    exec (.doorbellBadWrite fn off) s = .next (s.leads (s.dev.hostErr off 2)))

/-- Submission fetches and completion entries -/
def Obligations.RingsServed : Prop :=
  (∀ (s : State) (q : Nat) (new : List (Nat × List Byte)),
    (q < 4096) →
    (s.dev.rd QUE_STAT.state q = 1) →
    (s.dev.rd TEN_STAT.state (s.dev.qTen q) = 1) →
    (s.dev.on QUE_STAT.cq_full q = false) →
    ((s.dev.queue q).tail ≠ s.dev.rd QUE_STAT.sq_head q) →
    (new = (List.range (((s.dev.queue q).tail + 2 ^ 32 - s.dev.rd QUE_STAT.sq_head q) % 2 ^ 32)).map fun i => (s.dev.time, s.dev.sqEntry q ((s.dev.rd QUE_STAT.sq_head q + i) % 2 ^ 32))) →
    exec (.submissionFetch q 0) s = .next (s.leads (((s.dev.setQueue q { s.dev.queue q with fetched := (s.dev.queue q).fetched ++ new }).wr
      QUE_STAT.sq_head q (s.dev.queue q).tail).settle q))) ∧
  (∀ (s : State) (q : Nat),
    (q < 4096) →
    (s.dev.rd QUE_STAT.state q = 1) →
    (s.dev.rd TEN_STAT.state (s.dev.qTen q) = 1) →
    (s.dev.on QUE_STAT.cq_full q = false) →
    ((s.dev.queue q).tail ≠ s.dev.rd QUE_STAT.sq_head q) →
    exec (.submissionFetch q 1) s = .next (s.leads (s.dev.logOp unitPcie 0x02 0))) ∧
  (∀ (s : State) (q : Nat) (c : Completion) (rest : List Completion) (a : Device),
    (q < 4096) →
    ((s.dev.queue q).toPost = c :: rest) →
    (c.quiet = false) →
    (s.dev.rd TEN_STAT.state (s.dev.qTen q) ≠ 4) →
    (((s.dev.queue q).cqTail + 2 ^ 32 - (s.dev.queue q).cqHead) % 2 ^ 32 < 2 ^ s.dev.rd QUE_CFG.cq_log2 q) →
    (a = ((s.dev.writeHost (s.dev.qTen q) (s.dev.cqAddr q (s.dev.queue q).cqTail) (s.dev.compBytes q c (s.dev.queue q).phase)).setQueue q { s.dev.queue q with toPost := rest, cqTail := ((s.dev.queue q).cqTail + 1) % 2 ^ 32, phase := if ((s.dev.queue q).cqTail + 1) % 2 ^ 32 % 2 ^ s.dev.rd QUE_CFG.cq_log2 q = 0 then !(s.dev.queue q).phase else (s.dev.queue q).phase }).wr QUE_STAT.cq_full q 0) →
    exec (.completionPost q) s = .next (s.leads (if c.irq then a.raise (s.dev.qTen q) (a.rd QUE_CFG.irq_vector q) else a))) ∧
  (∀ (s : State) (q : Nat) (c : Completion) (rest : List Completion),
    (q < 4096) →
    ((s.dev.queue q).toPost = c :: rest) →
    (c.quiet = false) →
    (s.dev.rd TEN_STAT.state (s.dev.qTen q) ≠ 4) →
    (s.dev.rd QUE_STAT.state q ≠ 4) →
    (2 ^ s.dev.rd QUE_CFG.cq_log2 q ≤ ((s.dev.queue q).cqTail + 2 ^ 32 - (s.dev.queue q).cqHead) % 2 ^ 32) →
    exec (.completionPost q) s = .next (s.leads (s.dev.wr QUE_STAT.cq_full q 1))) ∧
  (∀ (s : State) (q : Nat) (c : Completion) (rest : List Completion),
    (q < 4096) →
    ((s.dev.queue q).toPost = c :: rest) →
    (c.quiet = true) →
    (rest ≠ []) →
    exec (.completionPost q) s = .next (s.leads (s.dev.setQueue q { s.dev.queue q with toPost := rest })))

/-- SIGNAL, WAIT, FENCE and CFG_TXN -/
def Obligations.EventCommands : Prop :=
  (∀ (s : State) (q : Nat) (x : Nat × List Byte),
    (q < 4096) →
    (s.dev.starts q 0x04 x = true) →
    exec (.signal q) s = .next (s.leads (((s.dev.startFront q x).1.finish s.dev.sn 0 0 none).settle q))) ∧
  (∀ (s : State) (q : Nat) (x : Nat × List Byte),
    (q < 4096) →
    (s.dev.starts q 0x05 x = true) →
    exec (.wait q) s = .next (s.leads (((s.dev.startFront q x).1.finish s.dev.sn 0 0 none).settle q))) ∧
  (∀ (s : State) (q : Nat) (x : Nat × List Byte),
    (q < 4096) →
    (s.dev.starts q 0x06 x = true) →
    ((leAt x.2 28 1 = 0 ∧ ∀ c ∈ s.dev.cmds, c.queue ≠ q) ∨ (leAt x.2 28 1 = 1 ∧ ∀ c ∈ s.dev.cmds, c.ten ≠ s.dev.qTen q)) →
    exec (.fence q) s = .next (s.leads (((s.dev.startFront q x).1.finish s.dev.sn 0 0 none).settle q))) ∧
  (∀ (s : State) (q : Nat) (x : Nat × List Byte),
    (q < 4096) →
    (s.dev.starts q 0x09 x = true) →
    (leAt x.2 28 1 = 0) →
    ((s.dev.startFront q x).1.txState (s.dev.qTen q) = 0) →
    exec (.cfgTxnBegin q) s = .next (s.leads ((((((s.dev.startFront q x).1.endTxn (s.dev.qTen q)).wr TXN_STAT.overflow (s.dev.qTen q) 0).wr
      TXN_STAT.state (s.dev.qTen q) 1).finish s.dev.sn 0 0 none).settle q))) ∧
  (∀ (s : State) (q : Nat) (x : Nat × List Byte),
    (q < 4096) →
    (s.dev.starts q 0x09 x = true) →
    (leAt x.2 28 1 = 1) →
    ((s.dev.startFront q x).1.txState (s.dev.qTen q) = 1) →
    ((s.dev.startFront q x).1.on TXN_STAT.overflow (s.dev.qTen q) = false) →
    exec (.cfgTxnCommit q) s = .next (s.leads ((((s.dev.startFront q x).1.setTxn (s.dev.qTen q) { (s.dev.startFront q x).1.txn (s.dev.qTen q) with
      commit := some s.dev.sn, valid := false }).wr TXN_STAT.state (s.dev.qTen q) 2).settle q))) ∧
  (∀ (s : State) (q : Nat) (x : Nat × List Byte),
    (q < 4096) →
    (s.dev.starts q 0x09 x = true) →
    (leAt x.2 28 1 = 2) →
    ((s.dev.startFront q x).1.txState (s.dev.qTen q) ≠ 0) →
    exec (.cfgTxnRollback q) s = .next (s.leads ((((s.dev.startFront q x).1.rollbackTxn (s.dev.qTen q) 1).finish s.dev.sn 0 0 none).settle q))) ∧
  (∀ (s : State) (t : Nat),
    (t < 64) →
    (s.dev.txState t = 2) →
    ((s.dev.txn t).commit = none) →
    exec (.txnCommitTimeout t) s = .next (s.leads ((s.dev.endTxn t).wr TXN_STAT.cause t 4)))

/-- CROSS: declaration, crossing, release -/
def Obligations.CrossCommands : Prop :=
  (∀ (s : State) (q : Nat) (x : Nat × List Byte) (d : Device) (c : Cmd) (ps : List Nat),
    (q < 4096) →
    (s.dev.starts q 0x02 x = true) →
    ((d, c) = s.dev.startFront q x) →
    (crossKind s.dev q x.2 = 0) →
    (s.dev.crossTier2 (s.dev.qTen q) x.2 = false) →
    (xIdx x.2 < d.rd MEM_LAND_CFG.count c.ten) →
    (d.landState c.ten (xIdx x.2) = 0) →
    (xDest x.2 ≠ 0) →
    (1 ≤ xLen x.2) →
    (landAligned (xDest x.2) = true) →
    (d.isLocal (xDest x.2) = true) →
    (gaSp (xDest x.2) ≤ 2 ∨ gaSp (xDest x.2) = 8) →
    (gaSp (xDest x.2) = 8 → d.hostCrossing c.ten (gaOff (xDest x.2)) (xLen x.2) 0 = none) →
    (d.physPages c.ten (xDest x.2) (xLen x.2) = .inl ps) →
    (∀ p ∈ ps, d.sealed p = false ∧ (d.pageState p = 0 ∨ d.pageState p = 4)) →
    ((d.setPages ps pgLanded).on MEM_LAND_CFG.hash c.ten = false) →
    exec (.crossDeclare q) s = .next (s.settles ((((d.setPages ps pgLanded).landWrite c.ten (xIdx x.2) 1 ((d.setPages ps pgLanded).homeFlags (xDest x.2)) 0xFFFF
      (xDest x.2) (xLen x.2) 0 ((d.setPages ps pgLanded).step c.ten)).finish c.sn stOk 0 none).settle q))) ∧
  (∀ (s : State) (q : Nat) (x : Nat × List Byte) (d : Device) (c : Cmd) (ps : List Nat),
    (q < 4096) →
    (s.dev.starts q 0x02 x = true) →
    ((d, c) = s.dev.startFront q x) →
    (crossKind s.dev q x.2 = 1) →
    (s.dev.crossTier2 (s.dev.qTen q) x.2 = false) →
    (xIdx x.2 < d.rd MEM_LAND_CFG.count c.ten) →
    (d.landState c.ten (xIdx x.2) = 1) →
    (xDest x.2 ≠ 0) →
    (xLen x.2 = d.landLen c.ten (xIdx x.2)) →
    (landAligned (xDest x.2) = true) →
    (gaSp (xDest x.2) = 8) →
    (d.physPages c.ten (d.landHome c.ten (xIdx x.2)) (xLen x.2) = .inl ps) →
    (∀ p ∈ ps, d.sealed p = false) →
    exec (.crossCrossing q) s = .next (s.settles (((d.landWrite c.ten (xIdx x.2) 2 (d.landFlags c.ten (xIdx x.2)) 0xFFFF (d.landHome c.ten (xIdx x.2)) (xLen x.2) (xDest x.2)
        (d.peekN spT1 (d.landAt c.ten (xIdx x.2) + 32) 8)).queueXfer
      { kind := 0, sn := c.sn, queue := c.queue, ten := c.ten, cls := eClass x.2, client := eClient x.2, step :=
          (d.landWrite c.ten (xIdx x.2) 2 (d.landFlags c.ten (xIdx x.2)) 0xFFFF (d.landHome c.ten (xIdx x.2)) (xLen x.2) (xDest x.2)
            (d.peekN spT1 (d.landAt c.ten (xIdx x.2) + 32) 8)).cmdStep c.ten (eClass x.2)
        mid := 0, src := d.landHome c.ten (xIdx x.2), dst := xDest x.2, len := xLen x.2, chunk := chunkSize (d.landHome c.ten (xIdx x.2)) (xDest x.2), entry := xIdx x.2 }).settle q))) ∧
  (∀ (s : State) (q : Nat) (x : Nat × List Byte) (d : Device) (c : Cmd) (ps : List Nat),
    (q < 4096) →
    (s.dev.starts q 0x02 x = true) →
    ((d, c) = s.dev.startFront q x) →
    (xDest x.2 = 0) →
    (s.dev.crossTier2 (s.dev.qTen q) x.2 = false) →
    (xIdx x.2 < d.rd MEM_LAND_CFG.count c.ten) →
    (d.landState c.ten (xIdx x.2) = 1) →
    (xLen x.2 = 0) →
    ((smGet d.det c.ten {}).wlist.contains (xIdx x.2) = false) →
    (d.physPages c.ten (d.landHome c.ten (xIdx x.2)) (d.landLen c.ten (xIdx x.2)) = .inl ps) →
    (∀ p ∈ ps, d.sealed p = false) →
    exec (.crossRelease q) s = .next (s.settles ((((d.setPages ps pgPlain).landFree c.ten (xIdx x.2)).finish c.sn stOk 0 none).settle q)))

/-- COLL: the five collectives start -/
def Obligations.CollectiveCommands : Prop :=
  (∀ (s : State) (q : Nat) (x : Nat × List Byte) (d : Device) (c : Cmd) (z : Coll) (xs : List Send),
    (q < 4096) →
    (s.dev.starts q 0x03 x = true) →
    ((d, c) = s.dev.startFront q x) →
    (leAt x.2 28 1 = 1) →
    (s.dev.collReady (s.dev.qTen q) x.2 = true) →
    (d.markEnd c.ten = none) →
    (d.collPrep c.ten x.2 c.sn = .ok (z, xs)) →
    exec (.collShift q) s = .next (s.settles ((d.runColl z xs).settle q))) ∧
  (∀ (s : State) (q : Nat) (x : Nat × List Byte) (d : Device) (c : Cmd) (z : Coll) (xs : List Send),
    (q < 4096) →
    (s.dev.starts q 0x03 x = true) →
    ((d, c) = s.dev.startFront q x) →
    (leAt x.2 28 1 = 2) →
    (s.dev.collReady (s.dev.qTen q) x.2 = true) →
    (d.markEnd c.ten = none) →
    (d.collPrep c.ten x.2 c.sn = .ok (z, xs)) →
    exec (.collPermute q) s = .next (s.settles ((d.runColl z xs).settle q))) ∧
  (∀ (s : State) (q : Nat) (x : Nat × List Byte) (d : Device) (c : Cmd) (z : Coll) (xs : List Send),
    (q < 4096) →
    (s.dev.starts q 0x03 x = true) →
    ((d, c) = s.dev.startFront q x) →
    (leAt x.2 28 1 = 3) →
    (s.dev.collReady (s.dev.qTen q) x.2 = true) →
    (d.markEnd c.ten = none) →
    (d.collPrep c.ten x.2 c.sn = .ok (z, xs)) →
    exec (.collDispatch q) s = .next (s.settles ((d.runColl z xs).settle q))) ∧
  (∀ (s : State) (q : Nat) (x : Nat × List Byte) (d : Device) (c : Cmd) (z : Coll) (xs : List Send),
    (q < 4096) →
    (s.dev.starts q 0x03 x = true) →
    ((d, c) = s.dev.startFront q x) →
    (leAt x.2 28 1 = 4) →
    (s.dev.collReady (s.dev.qTen q) x.2 = true) →
    (d.markEnd c.ten = none) →
    (d.collPrep c.ten x.2 c.sn = .ok (z, xs)) →
    exec (.collReturn q) s = .next (s.settles ((d.runColl z xs).settle q))) ∧
  (∀ (s : State) (q : Nat) (x : Nat × List Byte) (d : Device) (c : Cmd) (z : Coll) (xs : List Send),
    (q < 4096) →
    (s.dev.starts q 0x03 x = true) →
    ((d, c) = s.dev.startFront q x) →
    (leAt x.2 28 1 = 5) →
    (s.dev.collReady (s.dev.qTen q) x.2 = true) →
    (d.markEnd c.ten = none) →
    (d.collPrep c.ten x.2 c.sn = .ok (z, xs)) →
    exec (.collReduce q) s = .next (s.settles ((d.runColl z xs).settle q)))

/-- RUN, TIMETABLE_LOAD, STEP_COMMIT, LOG_MARK, BATCH_JOIN, BATCH_LEAVE -/
def Obligations.StepCommands : Prop :=
  (∀ (s : State) (q : Nat) (x : Nat × List Byte) (d : Device) (c : Cmd) (im : ManImg) (r : RunCtx),
    (q < 4096) →
    (s.dev.starts q 0x01 x = true) →
    ((d, c) = s.dev.startFront q x) →
    (s.dev.runReady q ⟨0, []⟩ ⟨0, []⟩ x.2 = true) →
    (eClass x.2 ≠ 0) →
    (d.markEnd c.ten = none) →
    (d.loadImage c.ten (rnImage x.2) (rnMid x.2) (eClass x.2) ⟨0, []⟩ = .ok im) →
    (d.check13 im.res (eClass x.2) = true) →
    (r = ({ mid := rnMid x.2, image := rnImage x.2, args := rnArgs x.2, diePref := rnPref x.2, legs := im.legs, forms := im.forms, code := rnImage x.2 + mhCode im.hdr, res := im.res, flags := mhFlags im.hdr, legSt := im.legs.map (fun _ => .waiting), readyAt := x.1, hash := im.hash } : RunCtx)) →
    exec (.run q ⟨0, []⟩ ⟨0, []⟩) s = .next (s.settles ((((d.useVerified c.ten (rnMid x.2) (rnImage x.2) c.sn im).setCmd { c with run := some r }).argIngest c.ten (rnMid x.2)
      (eCmdId x.2) (rnArgs x.2)).settle q))) ∧
  (∀ (s : State) (q : Nat) (x : Nat × List Byte) (d : Device) (c : Cmd),
    (q < 4096) →
    (s.dev.starts q 0x0A x = true) →
    ((d, c) = s.dev.startFront q x) →
    (eClass x.2 = 0) →
    (d.isX = false) →
    (d.radioDown = false) →
    (d.sched.loads = []) →
    exec (.timetableLoad q ⟨0, []⟩) s = .next (s.settles ((Device.runLoads 4096 ⟨0, []⟩ { d with sched := { d.sched with loads := [c.sn] } }).settle q))) ∧
  (∀ (s : State) (q : Nat) (x : Nat × List Byte) (d : Device) (c : Cmd),
    (q < 4096) →
    (s.dev.starts q 0x0C x = true) →
    ((d, c) = s.dev.startFront q x) →
    exec (.logMark q) s = .next (s.leads (((d.logRec c.ten 8 d.devId 0 (mkTag c.ten (eClass x.2) (eClient x.2) 0 (d.step c.ten) 0) ((x.2.drop 32).take 8)).finish
      c.sn stOk 0 none).settle q))) ∧
  (∀ (s : State) (q : Nat) (x : Nat × List Byte) (d : Device) (c : Cmd) (e : Device),
    (q < 4096) →
    (s.dev.starts q 0x0B x = true) →
    ((d, c) = s.dev.startFront q x) →
    (e = d.settle q) →
    (s.dev.cmds = []) →
    (e.cmds = [c]) →
    exec (.stepCommit q) s = .next (s.settles (e.commitTry c))) ∧
  (∀ (s : State) (q : Nat) (x : Nat × List Byte) (d : Device) (c : Cmd) (y : Seq),
    (q < 4096) →
    (s.dev.starts q 0x07 x = true) →
    ((d, c) = s.dev.startFront q x) →
    (eClass x.2 ≠ 0) →
    (d.rd SCH_BATCH_CFG.max_seq c.ten ≠ 0) →
    ((d.batch c.ten).seqs.any (fun y => y.id == leAt x.2 28 4) = false) →
    ((d.batch c.ten).pending.any (fun p => p.2.id == leAt x.2 28 4) = false) →
    (y = ({ id := leAt x.2 28 4, batch := leAt x.2 32 2, prio := leAt x.2 34 1, cls := eClass x.2, client := eClient x.2, area := leAt x.2 40 8, need := leAt x.2 36 4, arrival := (d.batch c.ten).arrivals } : Seq)) →
    exec (.batchJoin q) s = .next (s.leads (((d.setBatch c.ten { d.batch c.ten with pending := (d.batch c.ten).pending ++ [(c.sn, y)], arrivals := (d.batch c.ten).arrivals + 1 }).showKv c.ten).settle q))) ∧
  (∀ (s : State) (q : Nat) (x : Nat × List Byte) (d : Device) (c : Cmd),
    (q < 4096) →
    (s.dev.starts q 0x08 x = true) →
    ((d, c) = s.dev.startFront q x) →
    exec (.batchLeave q) s = .next (s.leads ((d.setBatch c.ten { d.batch c.ten with
      leaves := (d.batch c.ten).leaves ++ [(c.sn, leAt x.2 28 4, leAt x.2 32 2)] }).settle q)))

/-- Validation, taking effect, timetables in force, step boundaries -/
def Obligations.TransactionsAndBoundaries : Prop :=
  (∀ (s : State) (t sn : Nat) (ws : List (Nat × List Nat × List Byte)) (js : List (Nat × List Nat)),
    (t < 64) →
    (s.dev.txState t = 2) →
    ((s.dev.txn t).commit = some sn) →
    ((s.dev.txn t).valid = false) →
    (s.dev.ras.cpBusy = none) →
    (s.dev.validTxn (s.dev.txn t).staged = true) →
    (ws = (touched (s.dev.txn t).staged .DET_WSET).filterMap fun u => (s.dev.weightSet (s.dev.withStaged (s.dev.txn t).staged) u).map fun w => (u, w.1, w.2)) →
    (js = (touched (s.dev.txn t).staged .FTP_JOB_CFG).map fun u => (u, if (s.dev.withStaged (s.dev.txn t).staged).on FTP_JOB_CFG.valid u then s.dev.jobBitmap (s.dev.withStaged (s.dev.txn t).staged) u else [])) →
    exec (.txnValidation t) s = .next (s.leads (s.dev.setTxn t { s.dev.txn t with valid := true, validAt := s.dev.cycle, weights := ws, jobs := js }))) ∧
  (∀ (s : State) (t sn : Nat),
    (t < 64) →
    (s.dev.txState t = 2) →
    ((s.dev.txn t).commit = some sn) →
    ((s.dev.txn t).valid = true) →
    ((s.dev.txn t).staged = []) →
    ((s.dev.txn t).jobs = []) →
    ((s.dev.txn t).weights = []) →
    (s.dev.on TXN_STAT.slot_aligned t = false) →
    (∀ c ∈ s.dev.cmds, c.ten = t → eOp c.entry ≠ 1) →
    exec (.txnTakeEffect t) s = .next (s.settles ((s.dev.endTxn t).commitDone t sn))) ∧
  (∀ (s : State) (k sn S : Nat) (x : TtSlot) (t : Timetable) (c : Cmd) (a : Device),
    (k < 8) →
    (x = smGet s.dev.sched.tts k {}) →
    (x.load = some (t, sn)) →
    (s.dev.sched.loads = [sn]) →
    (s.dev.cmd? sn = some c) →
    (leAt c.entry 48 8 = 0) →
    (S = s.dev.firstSlot t) →
    (a = ({ s.dev with sched := { s.dev.sched with tts := smSet s.dev.sched.tts k {} { x with next := (x.next.filter fun (o : Timetable) => decide (o.from_ < S)) ++ [{ t with from_ := S }], load := none }, loads := [] } }.showTt k).finish sn stOk 0 (some S)) →
    exec (.timetablePlacementDone k ⟨0, []⟩) s = .next (s.settles (Device.runLoads 4096 ⟨0, []⟩ (a.svcUnmute (a.slotStart t.mu S))))) ∧
  (∀ (s : State) (k : Nat) (x : TtSlot) (t : Timetable) (rest : List Timetable),
    (k < 8) →
    (x = smGet s.dev.sched.tts k {}) →
    (x.next = t :: rest) →
    (t.from_ ≤ s.dev.slotCount t.mu) →
    exec (.timetableInForce k) s = .next (s.leads ({ s.dev with sched := { s.dev.sched with
      tts := smSet s.dev.sched.tts k {} { x with cur := some t, prev := x.cur, next := rest } } }.showTt k).timeEval)) ∧
  (∀ (s : State) (t st detail : Nat) (c : Cmd) (e : Device),
    (t < 64) →
    ((s.dev.cmds.find? fun c => c.ten == t && eOp c.entry == 0x0B) = some c) →
    (c.note = 3) →
    (c.fin = some (st, detail)) →
    (e = (s.dev.boundaryWork t st true).shadowPoint t) →
    exec (.stepBoundary t) s = .next (s.settles (e.finish c.sn st detail (some (e.step t))))) ∧
  (∀ (s : State) (t : Nat),
    (t < 64) →
    (∀ c ∈ s.dev.cmds, c.ten = t → eOp c.entry ≠ 0x0B ∧ eOp c.entry ≠ 0x01) →
    exec (.stepBoundary t) s = .next (s.settles (s.dev.boundaryWork t 0 false)))

/-- Binding, placement, pre-emption, windows, reserve counts, batch pages -/
def Obligations.SchedulerCommands : Prop :=
  (∀ (s : State) (x : Cmd × RunCtx) (cores : List Nat) (es : List (Nat × Nat)) (e : Device),
    (s.dev.firstWaitingCmd 1 s.dev.sched.rrPrompt (fun _ => true) = some x) →
    (s.dev.canBind x = true) →
    (s.dev.pickCores x.1 x.2 [] = some cores) →
    (s.dev.pickEngines (leAt x.2.res 3 1) [] = some es) →
    (eClass x.1.entry = 1) →
    (e = (es.zipIdx.foldl (fun d p => (d.setRctx p.1.1 p.1.2 { sn := x.1.sn, pos := p.2 }).showEngine p.1.1) s.dev).setCmd { x.1 with run := some { x.2 with cores := cores, engines := es } }) →
    exec .commandBind s = .next (s.settles { e with sched := { e.sched with rrPrompt := rrNext e.sched.rrPrompt x.1.ten } })) ∧
  (∀ (s : State) (n i : Nat) (c : Cmd) (r : RunCtx) (e : Device),
    (n < 192) →
    ((s.dev.core n).mail = []) →
    (s.dev.coreSt n = 3) →
    (s.dev.boundTo n = some c) →
    (c.run = some r) →
    (r.fail = none) →
    (r.preempted = false) →
    (s.dev.placeable n r = some i) →
    (s.dev.internalLeg n = none) →
    (lgResident (r.legs.getD i []) = true) →
    (e = s.dev.putMail n { sn := c.sn, idx := i, desc := legDesc c r i (s.dev.step c.ten) }) →
    exec (.legPlace n ⟨0, []⟩) s = .next (s.settles ((e.setCore n { e.core n with legsSince := (e.core n).legsSince + 1 }).setLegSt c.sn i .placed))) ∧
  (∀ (s : State) (sn : Nat) (x : Cmd × RunCtx) (sps : List Nat),
    ((s.dev.waitingCmds 1).find? (fun x => x.1.sn == sn) = some x) →
    (sps = ((s.dev.cmds.filter fun c => eClass c.entry == 2 && (match c.run with | some r => !r.cores.isEmpty | none => false)).map fun c => c.sn).reverse) →
    exec (.preemptWaitExpiry sn) s = .next (s.settles ((s.dev.victims x sps []).foldl (fun d v => d.preempt v) s.dev))) ∧
  (∀ (s : State) (k sl w : Nat) (t : Timetable) (j : TtJob) (win : Window) (c : Cmd) (r : RunCtx),
    (k < 8) →
    ((smGet s.dev.sched.tts k {}).at sl = some t) →
    (t.windows[w]? = some win) →
    (t.jobs[win.job]? = some j) →
    (j.covers t.period sl = true) →
    (s.dev.notIdle win.core = false) →
    (s.dev.radioRun k win.job sl = some (c, r)) →
    exec (.radioWindowCheck k sl w) s = .next (s.settles ((s.dev.setLegSt c.sn win.leg .placed).putMail win.core
      { sn := c.sn, idx := win.leg, desc := legDesc c r win.leg sl, start := some (s.dev.windowCycle t sl win).toNat, moved := false, fromCore := win.core }))) ∧
  (∀ (s : State) (n : Nat),
    (n < 192) →
    (s.dev.boundTo n = none) →
    exec (.reserveCountApply n) s = .next (s.leads { s.dev with sched := { s.dev.sched with reserveNow := s.dev.sched.reserveNow.filter fun r => r.1 != n } })) ∧
  (∀ (s : State) (n tok cy p : Nat) (l m : Leg) (e : Device) (b : BatchCtx) (y : Seq),
    (n < 192) →
    (tok < 64) →
    (max l.count (s.dev.rd COR_TIMING.leg_start n) = cy) →
    (s.dev.issues n cy l e m) →
    (b = e.batch m.ten) →
    ((b.seqs.find? fun x => x.id == y.id) = some y) →
    (leastPage b.reserve = some p) →
    (y.pages.length < 1024) →
    exec (.kvget n tok y.id) s = .next (s.settles (((e.setBatch m.ten { b with
        seqs := b.seqs.map fun x => if x.id = y.id then { y with pages := y.pages ++ [p] } else x
        reserve := b.reserve.filter fun x => x != p }).showKv m.ten).putLeg n
      { m with tokens := smIns m.tokens tok { err := false }, kv := smIns m.kv tok p, laneWait := if m.laneWait = some tok then none else m.laneWait }))) ∧
  (∀ (s : State) (t seq page ch : Nat) (x : Xfer) (a : Device),
    (t < 64) →
    ((s.dev.mm.chans.find? fun c => c.2.kind == 3 && c.2.ten == t && c.2.seq == seq && c.2.entry == page && s.dev.rd MEM_CHAN_STAT.state c.1 == chFlipping) = some (ch, x)) →
    (x.src = s.dev.devId <<< 52 + page * pageSize) →
    (x.arriving = []) →
    (a = ((s.dev.setPages x.departing pgVacated).releaseHeld ch fun ga => if inRange ga x.src x.len then x.dst + (ga - x.src) else ga).dropChan ch) →
    exec (.evictionCrossingDone t seq page) s = .next (s.settles (((a.setBatch t { a.batch t with
      seqs := (a.batch t).seqs.map fun y => if y.id = seq then { y with moving := y.moving.filter (fun p => p != page), pages := y.pages.filter (fun p => p != page) }
        else y }).returnPage t page).showKv t)))

/-- Legs: start, end, overrun, discard, recovery, partition adoption, uncorrectable reads -/
def Obligations.LegCommands : Prop :=
  (∀ (s : State) (n : Nat) (m : Mail) (ms : List Mail) (l : Leg) (a b e : Device),
    (n < 192) →
    ((s.dev.core n).mail = m :: ms) →
    (s.dev.coreSt n = 3) →
    ((s.dev.core n).leg = none) →
    ((s.dev.core n).newPart = none) →
    (m.start = none) →
    (m.internal = 0) →
    (m.withheld = false) →
    (m.hold ≤ (s.dev.cycle : Int)) →
    (∀ p ∈ s.dev.pwr.crit, p.1 ≠ coreDie n) →
    (s.dev.gapOk n s.dev.cycle (lgBound m.desc) = true) →
    (s.dev.dutyHolds n (tagCls (dsTag m.desc)) = false) →
    (l = freshLeg ((s.dev.core n).serials + 1) m) →
    (a = (((((((s.dev.popMail n).wr COR_SEQ_STAT.manifest_id n l.mid).wr COR_SEQ_STAT.tenancy n l.ten).wr COR_SEQ_STAT.class_ n (tagCls (dsTag m.desc))).wr COR_SEQ_STAT.leg_index n l.idx).wr COR_SEQ_STAT.overrun n 0).wr COR_SEQ_STAT.running n 1)) →
    (b = a.firstStart m l.ten l.client (tagCls (dsTag m.desc))) →
    (e = ((b.setCore n { b.core n with leg := some l, serials := (s.dev.core n).serials + 1, banks := (b.core n).banks.map fun k => (k.1, { k.2 with rot := 0 }) }).setCoreSt n 4).showReserve) →
    (l.bound ≤ 262144) →
    (e.rd COR_TIMING.leg_start n < l.bound) →
    (e.ownsMask n l.ten l.granules = true) →
    exec (.legStart n) s = .next (s.settles e)) ∧
  (∀ (s : State) (n cyc last : Nat) (l m : Leg) (e : Device),
    (n < 192) →
    ((s.dev.core n).leg = some l) →
    (l.seqWait = none) →
    (l.stall = none) →
    (s.dev.rd COR_TIMING.leg_start n ≤ cyc) →
    (l.count ≤ cyc) →
    (s.dev.withheld n l = false) →
    (s.dev.isFenced n 6 = false) →
    (l.quiet = true) →
    (last = (l.lane.stores.map WPend.due).foldl max cyc) →
    (last < l.bound) →
    (landStores n last s.dev l = .go e m) →
    (m.posts = []) →
    (m.internal = 0) →
    (m.bound = l.bound) →
    exec (.legEnd n cyc 0) s = .next (s.settles (((e.closeLeg n m (last + 1) 3).timeCheck n m (last + 1)).legOver m))) ∧
  (∀ (s : State) (n : Nat) (l : Leg),
    (n < 192) →
    ((s.dev.core n).leg = some l) →
    (l.overrun = false) →
    (l.internal = 0) →
    exec (.legOverrun n) s = .next (s.settles (((s.dev.putLeg n { l with count := max l.count l.bound, overrun := true }).wr COR_SEQ_STAT.overrun n 1).modRun l.sn
      fun r => { r with late := r.late ++ [l.idx] }))) ∧
  (∀ (s : State) (n : Nat) (l m : Leg) (a : Device),
    (n < 192) →
    ((s.dev.core n).leg = some l) →
    (l.overrun = true) →
    (l.internal = 0) →
    (l.cls ≠ 0) →
    (m = { l with count := 4 * l.bound }) →
    (a = s.dev.dropLeg n m) →
    exec (.legDiscard n) s = .next (s.settles ((({ a with tens := smSet a.tens l.ten {} { smGet a.tens l.ten {} with
      rollback := max (smGet a.tens l.ten {}).rollback 7 } } : Device).failRun l.sn stRolled 7).legOver m))) ∧
  (∀ (s : State) (n : Nat),
    (n < 192) →
    (s.dev.coreSt n = 5) →
    ((s.dev.core n).bringIn = false) →
    exec (.coreRecoveryDone n) s = .next (s.settles ((s.dev.setCore n { s.dev.core n with fenced := [], banks := [] }).setCoreSt n 3))) ∧
  (∀ (s : State) (n v t old : Nat) (a : Device),
    (n < 192) →
    ((s.dev.core n).newPart = some (v, t)) →
    ((s.dev.core n).leg = none) →
    (old = (s.dev.reg .COR_TSPART n).toNat) →
    (a = (List.range 16).foldl (fun d g => if ownerIn old g = ownerIn v g then d else d.zero spTS (tsOff n (131072 * g)) 131072) s.dev) →
    exec (.tspartAdoption n) s = .next (s.settles (((a.setCore n { s.dev.core n with newPart := none }).setReg .COR_TSPART n (BitVec.ofNat 64 v)).adopted t n))) ∧
  (∀ (s : State) (n addr : Nat) (l : Leg),
    (n < 192) →
    ((s.dev.core n).leg = some l) →
    exec (.tileStoreUncorrectable n addr) s = .next (s.settles ((s.dev.poisonAt spTS (tsOff n addr)).stopLeg n l stEcc 2 addr)))

/-- Sequencer: tokens, the signal lane's start, moves, row scales -/
def Obligations.SequencerCommands : Prop :=
  (∀ (s : State) (n tok : Nat) (cy : Nat) (l m : Leg) (e : Device),
    (n < 192) →
    (tok < 64) →
    (max l.count (s.dev.rd COR_TIMING.leg_start n) = cy) →
    (s.dev.issues n cy l e m) →
    exec (.tokenSet n tok) s = .next (s.settles (e.putLeg n { m with tokens := smIns m.tokens tok { err := false }, laneWait := if m.laneWait = some tok then none else m.laneWait }))) ∧
  (∀ (s : State) (n cyc tok : Nat) (l m : Leg) (e : Device),
    (n < 192) →
    (tok < 64) →
    (s.dev.issues n cyc l e m) →
    (m.tokens.find? (fun t => t.1 == tok) = some (tok, { err := false })) →
    exec (.tokenWait ⟨n, cyc⟩ tok false) s = .next (s.settles (e.putLeg n m))) ∧
  (∀ (s : State) (n cyc tok : Nat) (l m : Leg) (e : Device),
    (n < 192) →
    (tok < 64) →
    (s.dev.issues n cyc l e m) →
    (m.tokens.find? (fun t => t.1 == tok) = none) →
    exec (.tokenWait ⟨n, cyc⟩ tok false) s = .next (s.settles (e.putLeg n { m with seqWait := some tok }))) ∧
  (∀ (s : State) (n cyc tok : Nat) (l m : Leg) (e : Device) (x : Tok),
    (n < 192) →
    (tok < 64) →
    (s.dev.issues n cyc l e m) →
    (m.tokens.find? (fun t => t.1 == tok) = some (tok, x)) →
    (x.err = true) →
    exec (.tokenWait ⟨n, cyc⟩ tok false) s = .next (s.settles (e.stopLeg n m x.stopSt x.stopOp 0))) ∧
  (∀ (s : State) (n cyc tok : Nat) (l m : Leg) (e : Device),
    (n < 192) →
    (tok < 64) →
    (s.dev.laneIssues n cyc l e m) →
    (m.tokens.find? (fun t => t.1 == tok) = none) →
    exec (.tokenWait ⟨n, cyc⟩ tok true) s = .next (s.settles (e.putLeg n (({ m with laneWait := some tok } : Leg).laneOn cyc)))) ∧
  (∀ (s : State) (n addr : Nat) (cy : Nat) (l m : Leg) (e : Device),
    (n < 192) →
    (max l.count (s.dev.rd COR_TIMING.leg_start n) = cy) →
    (s.dev.issues n cy l e m) →
    exec (.startSignalLane n addr) s = .next (s.settles (e.putLeg n { m with lane := { m.lane with running := true, pc := addr, reps := [], cache := [] } }))) ∧
  (∀ (s : State) (n ts pool len tok : Nat) (cy : Nat) (l m : Leg) (e : Device) (bs : List Byte) (a : Device),
    (n < 192) →
    (tok < 64) →
    (max l.count (s.dev.rd COR_TIMING.leg_start n) = cy) →
    (s.dev.issues n cy l e m) →
    (e.isFenced n 28 = false) →
    (∀ p ∈ parts (e.devId <<< 52 + 2 <<< 48 + pool) len, (∀ x, e.meet m.ten p.1 false ≠ .waits x) ∧ (∀ k i, e.locate m.ten p.1 false = some (k, i) → e.routeLost (coreDie n) k p.2 = false)) →
    (e.readGA m.ten (e.devId <<< 52 + 2 <<< 48 + pool) len = .ok bs) →
    (e.ownsRange n m.ten ts bs.length = true) →
    (e.poisonWrite spTS (tsOff n ts) bs.length = some a) →
    exec (.seqMove n false ts pool len (some tok)) s = .next (s.settles ((a.store spTS (tsOff n ts) bs).putLeg n (m.setTok tok)))) ∧
  (∀ (s : State) (n ts pool len : Nat) (cy : Nat) (l m : Leg) (e : Device) (a : Device),
    (n < 192) →
    (max l.count (s.dev.rd COR_TIMING.leg_start n) = cy) →
    (s.dev.issues n cy l e m) →
    (e.isFenced n 28 = false) →
    (∀ p ∈ parts (e.devId <<< 52 + 2 <<< 48 + pool) len, (∀ x, e.meet m.ten p.1 true ≠ .waits x) ∧ (∀ k i, e.locate m.ten p.1 true = some (k, i) → e.routeLost (coreDie n) k p.2 = false)) →
    (e.ownsRange n m.ten ts len = true) →
    (e.poisonIn spTS (tsOff n ts) len = none) →
    (e.ownWrite m.ten (e.devId <<< 52 + 2 <<< 48 + pool) (e.peek devKey spTS (tsOff n ts) len) .none = (a, .ok)) →
    exec (.seqMove n true ts pool len none) s = .next (s.settles (a.putLeg n m))) ∧
  (∀ (s : State) (n q ts base count : Nat) (cy : Nat) (l m : Leg) (e : Device) (bs : List Byte),
    (n < 192) →
    (q < 4) →
    (base < 256) →
    (count ≤ 256) →
    (max l.count (s.dev.rd COR_TIMING.leg_start n) = cy) →
    (s.dev.issues n cy l e m) →
    (e.ownsRange n m.ten ts (4 * count) = true) →
    (e.poisonIn spTS (tsOff n ts) (4 * count) = none) →
    (bs = e.peek devKey spTS (tsOff n ts) (4 * count)) →
    exec (.rsload n q ts base count) s = .next (s.settles (e.putLeg n (m.setQuad q { m.quad q with
      rowScale := (List.range count).foldl (fun x i => smSet x ((base + i) % 256) 0 (leAt bs (4 * i) 4)) (m.quad q).rowScale }))))

/-- The signal lane: arithmetic, loads, W stores, REPEAT, block exponents -/
def Obligations.LaneCommands : Prop :=
  (∀ (s : State) (n cyc : Nat) (op : LaneOp) (l m : Leg) (e : Device) (r : Nat × Nat × Res (List Byte)),
    (n < 192) →
    (op.wf = true) →
    (s.dev.laneIssues n cyc l e m) →
    (r = laneOp m.lane cyc op) →
    exec (.signalLaneOp n cyc op) s = .next (s.settles ((e.raiseFl n r.2.2.fl).putLeg n ((({ m with lane := m.lane.write cyc r.2.1 r.1 r.2.2.val } : Leg).addFl r.2.2.fl).laneOn cyc)))) ∧
  (∀ (s : State) (n cyc bus v addr : Nat) (l m : Leg) (e : Device),
    (n < 192) →
    (v < 32) →
    (bus < 2) →
    (s.dev.laneIssues n cyc l e m) →
    (e.isFenced n (8 + bus) = false) →
    (e.ownsRange n m.ten addr 128 = true) →
    (e.poisonIn spTS (tsOff n addr) 128 = none) →
    exec (.signalLaneLoad n cyc bus v addr none) s = .next (s.settles (e.putLeg n (({ m with lane := m.lane.write cyc 3 v (e.peek devKey spTS (tsOff n addr) 128) } : Leg).laneOn cyc)))) ∧
  (∀ (s : State) (n cyc v addr : Nat) (g : ZGen) (l m : Leg) (e : Device) (z : Lane),
    (n < 192) →
    (v < 32) →
    (g.wf = true) →
    (s.dev.laneIssues n cyc l e m) →
    (e.isFenced n 10 = false) →
    (e.ownsRange n m.ten (g.base + g.pos) 128 = true) →
    (e.poisonIn spTS (tsOff n (g.base + g.pos)) 128 = none) →
    (z = { m.lane with z := { g with pos := (g.pos + g.stride) % 2 ^ g.lenLog } }) →
    exec (.signalLaneLoad n cyc 2 v addr (some g)) s = .next (s.settles (e.putLeg n (({ m with lane := z.write cyc 3 v (e.peek devKey spTS (tsOff n (g.base + g.pos)) 128) } : Leg).laneOn cyc)))) ∧
  (∀ (s : State) (n cyc : Nat) (srcs : List Nat) (ty : WTy) (dst : WDst) (scaled : Bool) (addr recAddr : Nat) (l m : Leg) (e : Device) (r : Res WOut),
    (n < 192) →
    (∀ v ∈ srcs, v < 32) →
    (wPair srcs.length ty dst = true) →
    (dst.wf = true) →
    (s.dev.laneIssues n cyc l e m) →
    (r = wStore ty dst (if scaled then m.lane.sh else 0) m.lane.exp (srcs.flatMap (m.lane.read cyc))) →
    (e.ownsRange n m.ten addr r.val.data.length = true) →
    (∀ x, r.val.rec_ = some x → e.ownsRange n m.ten recAddr 1 = true) →
    (e.isFenced n 7 = false) →
    exec (.wStore n cyc srcs ty dst scaled addr recAddr) s = .next (s.settles ((e.raiseFl n r.fl).putLeg n ((({ m with lane := { m.lane with be := r.val.be, bem := max m.lane.bem r.val.be, stores := m.lane.stores ++ ⟨cyc + 2, addr, r.val.data⟩ :: r.val.rec_.toList.map (fun x => ⟨cyc + 2, recAddr, [BitVec.ofNat 8 x]⟩) } } : Leg).addFl r.fl).laneOn cyc)))) ∧
  (∀ (s : State) (n cyc body len count : Nat) (l m : Leg) (e : Device),
    (n < 192) →
    (1 ≤ len) →
    (len ≤ 256) →
    (1 ≤ count) →
    (count ≤ 65536) →
    (s.dev.laneIssues n cyc l e m) →
    (m.lane.reps = []) →
    exec (.repeat_ n cyc body len count) s = .next (s.settles (e.putLeg n { m with lane := { m.lane with
      reps := [⟨body, len, count, if body = m.lane.pc + 8 then body + 8 * len else m.lane.pc + 8⟩], pc := body, cache := [], next := cyc + 1 } }))) ∧
  (∀ (s : State) (n next : Nat) (l : Leg) (r : Rep) (a : Device),
    (n < 192) →
    ((s.dev.core n).leg = some l) →
    (l.lane.reps.getLast? = some r) →
    (l.lane.cache.contains l.lane.pc = true) →
    (next = max l.count l.lane.next + 2 + ((r.body + 8 * r.len + 127) / 128 - r.body / 128)) →
    (a = (s.dev.putLeg n { l with perturbed := true, lane := { l.lane with next := next } }).wr COR_TIMING.perturbed n 1) →
    ((a.correctable (a.coreUnit n) 4 0).2 = false) →
    exec (.repeatCacheParityError n) s = .next (s.settles (a.correctable (a.coreUnit n) 4 0).1)) ∧
  (∀ (s : State) (n cyc : Nat) (t lo hi : Int) (l m : Leg) (e : Device),
    (n < 192) →
    (s.dev.laneIssues n cyc l e m) →
    exec (.shset ⟨n, cyc⟩ t lo hi) s = .next (s.settles (e.putLeg n (({ m with lane := { m.lane with sh := max (-15) (min 15 (min (max ((m.lane.bem : Int) - t) lo) hi)) } } : Leg).laneOn cyc)))) ∧
  (∀ (s : State) (n cyc sreg value : Nat) (l m : Leg) (e : Device),
    (n < 192) →
    (sreg < 32) →
    (value < 2 ^ 64) →
    (s.dev.laneIssues n cyc l e m) →
    exec (.expset ⟨n, cyc⟩ sreg value) s = .next (s.settles (e.putLeg n (({ m with s := smSet m.s sreg 0 value, lane := { m.lane with exp := (value : Int) } } : Leg).laneOn cyc)))) ∧
  (∀ (s : State) (n cyc : Nat) (l m : Leg) (e : Device),
    (n < 192) →
    (s.dev.laneIssues n cyc l e m) →
    exec (.beclr ⟨n, cyc⟩) s = .next (s.settles (e.putLeg n (({ m with lane := { m.lane with bem := 0 } } : Leg).laneOn cyc))))

/-- Division in the signal lane -/
def Obligations.DivisionCommands : Prop :=
  (∀ (s : State) (n cyc a b : Nat) (l m : Leg) (e : Device),
    (n < 192) →
    (a < 32) →
    (b < 32) →
    (s.dev.laneIssues n cyc l e m) →
    exec (.divsetup n cyc a b) s = .next (s.settles (e.putLeg n (({ m with lane := { m.lane with div := List.zipWith (fun p q => divSetup (toSigned 32 p) (toSigned 32 q)) (lanes32 (m.lane.read cyc a)) (lanes32 (m.lane.read cyc b)) } } : Leg).laneOn cyc)))) ∧
  (∀ (s : State) (n cyc a b : Nat) (l m : Leg) (e : Device),
    (n < 192) →
    (a < 32) →
    (b < 32) →
    (s.dev.laneIssues n cyc l e m) →
    exec (.divsetupF n cyc a b) s = .next (s.settles (e.putLeg n (({ m with lane := { m.lane with div := List.zipWith divSetupF (lanes32 (m.lane.read cyc a)) (lanes32 (m.lane.read cyc b)) } } : Leg).laneOn cyc)))) ∧
  (∀ (s : State) (n cyc : Nat) (l m : Leg) (e : Device),
    (n < 192) →
    (s.dev.laneIssues n cyc l e m) →
    exec (.divisionStep n cyc) s = .next (s.settles (e.putLeg n (({ m with lane := { m.lane with div := m.lane.div.map divStep } } : Leg).laneOn cyc)))) ∧
  (∀ (s : State) (n cyc v : Nat) (l m : Leg) (e : Device) (r : Res (List Int)),
    (n < 192) →
    (v < 32) →
    (s.dev.laneIssues n cyc l e m) →
    (r = Res.gather (m.lane.div.map divQ15)) →
    exec (.divq15 n cyc v) s = .next (s.settles ((e.raiseFl n r.fl).putLeg n ((({ m with lane := m.lane.write cyc 1 v ((r.val.flatMap fun q => toLE 4 (ofSigned 32 q)) ++ List.replicate (128 - 4 * r.val.length) 0) } : Leg).addFl r.fl).laneOn cyc)))) ∧
  (∀ (s : State) (n cyc v : Nat) (l m : Leg) (e : Device) (r : Res (List Nat)),
    (n < 192) →
    (v < 32) →
    (s.dev.laneIssues n cyc l e m) →
    (r = Res.gather (m.lane.div.map divRnd)) →
    exec (.divrnd n cyc v) s = .next (s.settles ((e.raiseFl n r.fl).putLeg n ((({ m with lane := m.lane.write cyc 1 v (vec32 r.val ++ List.replicate (128 - 4 * r.val.length) 0) } : Leg).addFl r.fl).laneOn cyc))))

/-- Passes, feeders, cubes, the epilogue and towed tiles -/
def Obligations.PassCommands : Prop :=
  (∀ (s : State) (n cyc q : Nat) (parts : List PassDesc) (ps : List PassDesc) (l m : Leg) (e : Device),
    (n < 192) →
    (q < 4) →
    (∀ p ∈ parts, p.cube / 4 = q) →
    (s.dev.issues n cyc l e m) →
    (m.cmdqLen q < 32) →
    (∀ p ∈ parts, formTrap parts p (e.formOf m p.form) = false) →
    (ps = (List.range 4).filterMap fun i => parts.find? fun p => p.cube == 4 * q + i) →
    exec (.passDescriptorIssue n cyc q parts) s = .next (s.settles (e.putLeg n { ps.zipIdx.foldl (fun (k : Leg) p =>
      k.setCube p.1.cube { k.cube p.1.cube with queue := (k.cube p.1.cube).queue ++ [{ desc := p.1, num := m.passes + p.2, cube := p.1.cube }] }) m with passes := m.passes + ps.length }))) ∧
  (∀ (s : State) (n cyc q : Nat) (parts : List PassDesc) (p : PassDesc) (l m : Leg) (e : Device),
    (n < 192) →
    (q < 4) →
    (∀ p ∈ parts, p.cube / 4 = q) →
    (s.dev.issues n cyc l e m) →
    (m.cmdqLen q < 32) →
    (p ∈ parts) →
    (formTrap parts p (e.formOf m p.form) = true) →
    exec (.passDescriptorIssue n cyc q parts) s = .next (s.settles (e.stopLeg n m stDenied 0x1A 0x09))) ∧
  (∀ (s : State) (n cyc u k : Nat) (l m : Leg) (e : Device) (c : Cube) (p p2 : Pass) (ps : List Pass) (a b : List Feed) (as bs : List (List Feed)) (r : Res (List Accu)),
    (n < 192) →
    (u < 16) →
    (s.dev.acts n 24 cyc l e m) →
    (c = m.cube u) →
    (c.free ≤ cyc) →
    (c.queue = p :: ps) →
    (c.aq = a :: as) →
    (c.bq = b :: bs) →
    (k = if p.done = 0 then c.nextBank else p.bank) →
    (p.done ≠ 0 ∨ (if k = 0 then c.full0 else c.full1) = none) →
    (r = kStepTile p.desc.fmt (p.done = 0) (if k = 0 then c.bank0 else c.bank1) a b) →
    (p2 = { p with done := p.done + 1, bank := k, pops := p.pops ++ [(a, b)] }) →
    (p.done + 1 < p.desc.n) →
    exec (.feederPop ⟨n, cyc⟩ u) s = .next (s.settles ((e.raiseFl n r.fl).putLeg n ((m.setCube u { c with
      aq := as, bq := bs, queue := p2 :: ps, bank0 := if k = 0 then r.val else c.bank0, bank1 := if k = 0 then c.bank1 else r.val,
      nextBank := if p.done = 0 then 1 - k else c.nextBank, free := cyc + 1 }).addFl r.fl)))) ∧
  (∀ (s : State) (n cyc u k : Nat) (l m : Leg) (e : Device) (c : Cube) (p p2 : Pass) (ps : List Pass) (a b : List Feed) (as bs : List (List Feed)) (r : Res (List Accu)),
    (n < 192) →
    (u < 16) →
    (s.dev.acts n 24 cyc l e m) →
    (c = m.cube u) →
    (c.free ≤ cyc) →
    (c.queue = p :: ps) →
    (c.aq = a :: as) →
    (c.bq = b :: bs) →
    (k = if p.done = 0 then c.nextBank else p.bank) →
    (p.done ≠ 0 ∨ (if k = 0 then c.full0 else c.full1) = none) →
    (r = kStepTile p.desc.fmt (p.done = 0) (if k = 0 then c.bank0 else c.bank1) a b) →
    (p2 = { p with done := p.done + 1, bank := k, pops := p.pops ++ [(a, b)] }) →
    (p.desc.n ≤ p.done + 1) →
    exec (.feederPop ⟨n, cyc⟩ u) s = .next (s.settles ((e.raiseFl n r.fl).putLeg n ((m.setCube u { c with
      aq := as, bq := bs, queue := ps, bank0 := if k = 0 then r.val else c.bank0, bank1 := if k = 0 then c.bank1 else r.val,
      full0 := if k = 0 then some p2 else c.full0, full1 := if k = 0 then c.full1 else some p2,
      nextBank := if p.done = 0 then 1 - k else c.nextBank, free := cyc + 1 + (4 - p.desc.n) }).addFl r.fl)))) ∧
  (∀ (s : State) (n u k : Nat) (isB : Bool) (l m : Leg) (e : Device) (c : Cube) (p : Pass) (line : List Byte),
    (n < 192) →
    (u < 16) →
    (s.dev.acts n 12 (max l.count 12) l e m) →
    (e.isFenced n (11 + u) = false) →
    (c = m.cube u) →
    (c.wants isB = some (p, k)) →
    (e.ownsRange n m.ten ((if isB then p.desc.b else p.desc.a) + 128 * k) 128 = true) →
    (e.poisonIn spTS (tsOff n ((if isB then p.desc.b else p.desc.a) + 128 * k)) 128 = none) →
    (line = e.peek devKey spTS (tsOff n ((if isB then p.desc.b else p.desc.a) + 128 * k)) 128) →
    (p.desc.fmt.scaleBytes = 0) →
    exec (.feederFill n u isB) s = .next (s.settles (e.putLeg n
      (let w := { m.setCube u (c.push isB (feedRow p.desc.fmt line [])) with lostFills := m.lostFills.filter fun x => x != u }
       let v := sharePartner isB u
       if (if isB then p.desc.shareB else p.desc.shareA) && (m.cube v).shares isB p k then w.setCube v ((w.cube v).push isB (feedRow p.desc.fmt line [])) else w)))) ∧
  (∀ (s : State) (n u k : Nat) (isB : Bool) (l m : Leg) (e : Device) (c : Cube) (p : Pass) (line scales : List Byte) (x : Nat),
    (n < 192) →
    (u < 16) →
    (s.dev.acts n 12 (max l.count 12) l e m) →
    (e.isFenced n (11 + u) = false) →
    (c = m.cube u) →
    (c.wants isB = some (p, k)) →
    (e.ownsRange n m.ten ((if isB then p.desc.b else p.desc.a) + 128 * k) 128 = true) →
    (e.poisonIn spTS (tsOff n ((if isB then p.desc.b else p.desc.a) + 128 * k)) 128 = none) →
    (line = e.peek devKey spTS (tsOff n ((if isB then p.desc.b else p.desc.a) + 128 * k)) 128) →
    (x = (if isB then p.desc.bScale else p.desc.aScale) + p.desc.fmt.scaleBytes * k) →
    (p.desc.fmt.scaleBytes ≠ 0) →
    (e.ownsRange n m.ten x p.desc.fmt.scaleBytes = true) →
    (e.poisonIn spTS (tsOff n x) p.desc.fmt.scaleBytes = none) →
    (scales = e.peek devKey spTS (tsOff n x) p.desc.fmt.scaleBytes) →
    exec (.feederFill n u isB) s = .next (s.settles (e.putLeg n
      (let w := { m.setCube u (c.push isB (feedRow p.desc.fmt line scales)) with lostFills := m.lostFills.filter fun x => x != u }
       let v := sharePartner isB u
       if (if isB then p.desc.shareB else p.desc.shareA) && (m.cube v).shares isB p k then w.setCube v ((w.cube v).push isB (feedRow p.desc.fmt line scales)) else w)))) ∧
  (∀ (s : State) (n u : Nat) (l k m : Leg) (p : Pass) (bank : List Accu) (form : List Byte) (r : Res (List Nat × List Accu) × Option (List Accu)) (x : Res EpiOut) (d e : Device),
    (n < 192) →
    (u < 16) →
    (s.dev.acts n 24 (max l.count 24) l d k) →
    (d.isFenced n (2 + u / 4) = false) →
    ((k.cube u).ready = some (p, bank)) →
    (d.formOf k p.desc.form = some form) →
    (formGate form = 0) →
    (formColscale form = false) →
    (formBias form = false) →
    (formTow form = false) →
    (formRowstat form = 0) →
    (r = epi15 form p bank (k.cube u).partialT (fun j => smGet (k.quad (u / 4)).rowScale ((p.desc.rowBase + j) % 256) 0) [] []) →
    (m = k.setCube u ((k.cube u).drain p r.2)) →
    (x = epi69 p.desc.fmt form r.1.val none) →
    (x.val.exp = none) →
    (d.ownsRange n m.ten p.desc.dest x.val.data.length = true) →
    (d.poisonWrite spTS (tsOff n p.desc.dest) x.val.data.length = some e) →
    ((e.store spTS (tsOff n p.desc.dest) x.val.data).tasted n m p.num = false) →
    (p.desc.token = none) →
    exec (.epiloguePass n u) s = .next (s.settles (((e.store spTS (tsOff n p.desc.dest) x.val.data).raiseFl n (r.1.fl ||| x.fl)).putLeg n (m.addFl (r.1.fl ||| x.fl))))) ∧
  (∀ (s : State) (n addr : Nat) (tag data : List Byte) (e a : Device),
    (n < 192) →
    (tag.length = 16) →
    (tagOk tag = true) →
    (s.dev.isFenced n 1 = false) →
    (s.dev.ownsRange n (tagTen tag) addr data.length = true) →
    (s.dev.poisonWrite spTS (tsOff n addr) data.length = some e) →
    (a = (e.store spTS (tsOff n addr) data).landTok n (some 63) false) →
    (a.tows = s.dev.tows) →
    (s.dev.tows.findIdx? (fun w => w.dst == n && w.addr == addr && w.data == data) = none) →
    exec (.towedTileArrival n tag addr (some 63) none data) s = .next (s.settles a)) ∧
  (∀ (s : State) (n addr : Nat) (tag data : List Byte) (tok : Option Nat),
    (n < 192) →
    (tag.length = 16) →
    (tok.all (fun k => decide (k < 64)) = true) →
    (tagOk tag = true) →
    (s.dev.isFenced n 1 = false) →
    (s.dev.ownsRange n (tagTen tag) addr data.length = false) →
    (s.dev.tows.findIdx? (fun w => w.dst == n && w.addr == addr && w.data == data) = none) →
    exec (.towedTileArrival n tag addr tok none data) s = .next (s.settles (s.dev.log { unit := s.dev.coreUnit n, sev := 2, op := 0x09, detail := addr, ten := tagTen tag, cls := tagCls tag, mid := tagMid tag, client := tagClient tag, addr := addr, step := tagStep tag })))

/-- Bank arbitration, its watchdog, the debug window, duty frames -/
def Obligations.BankCommands : Prop :=
  (∀ (s : State) (n b : Nat) (reqs : List (Nat × Nat)) (keep : Bool) (c w rot : Nat) (k : Bank) (l : Leg) (asked lost : List Nat),
    (n < 192) →
    (b < 32) →
    (∀ r ∈ reqs, r.1 < 29 ∧ r.1 ≠ 0 ∧ tsBank r.2 = b) →
    (s.dev.coreSt n = 3 ∨ s.dev.coreSt n = 4) →
    ((s.dev.core n).leg = some l) →
    (s.dev.withheld n l = false) →
    (k = smGet (s.dev.core n).banks b {}) →
    (k.locked = false) →
    (asked = (reqs.map fun r => r.1).filter fun r => !(s.dev.core n).fenced.contains r) →
    (bankWinner asked true (some (c % 8 == b % 8)) k.rot = some w) →
    (w ≠ 0) →
    (rot = if 11 ≤ w ∧ w ≤ 26 then (w - 11 + 1) % 16 else k.rot) →
    (lost = (asked.filter fun r => decide (11 ≤ r) && decide (r ≤ 26) && r != w).map fun r => r - 11) →
    exec (.tileStoreBankGrant n b reqs false keep (some c)) s = .next (s.leads (s.dev.setCore n { s.dev.core n with
      banks := smSet (s.dev.core n).banks b {} { holder := some w, locked := keep, grant := some w, rot := rot, period := if k.holder = some w then k.period else none },
      leg := some { l with lostFills := lost ++ l.lostFills.filter fun u => !lost.contains u } }))) ∧
  (∀ (s : State) (n b r : Nat) (k : Bank) (a c : Device),
    (n < 192) →
    (b < 32) →
    (k = smGet (s.dev.core n).banks b {}) →
    (k.holder = some r) →
    (r ≠ 1) →
    (a = ((s.dev.log { unit := s.dev.reqUnit n r, sev := 4, op := 0x08, detail := s.dev.reqUnit n r }).incSat COR_BANKSTAT.wdt_fires n 1).wr COR_BANKSTAT.last_wdt_bank n b) →
    (c = (a.setCore n { a.core n with banks := smSet (a.core n).banks b {} { k with holder := none, locked := false, grant := none, period := none }, fenced := r :: (a.core n).fenced.filter fun f => f != r }).perturb n) →
    (r = 0 ∨ (c.core n).leg = none) →
    exec (.bankWatchdogFire n b) s = .next (s.settles c)) ∧
  (∀ (s : State) (n b r : Nat) (k : Bank) (a c : Device) (l : Leg),
    (n < 192) →
    (b < 32) →
    (k = smGet (s.dev.core n).banks b {}) →
    (k.holder = some r) →
    (2 ≤ r) →
    (a = ((s.dev.log { unit := s.dev.reqUnit n r, sev := 4, op := 0x08, detail := s.dev.reqUnit n r }).incSat COR_BANKSTAT.wdt_fires n 1).wr COR_BANKSTAT.last_wdt_bank n b) →
    (c = (a.setCore n { a.core n with banks := smSet (a.core n).banks b {} { k with holder := none, locked := false, grant := none, period := none }, fenced := r :: (a.core n).fenced.filter fun f => f != r }).perturb n) →
    ((c.core n).leg = some l) →
    (l.internal = 0) →
    exec (.bankWatchdogFire n b) s = .next (s.settles (((c.closeLeg n l (l.count + 1) 3).failRun l.sn stEcc (eccDetail s.dev.nextRec (s.dev.reqUnit n r) l.idx)).legOver l))) ∧
  (∀ (s : State) (n b r : Nat) (k : Bank) (a c : Device),
    (n < 192) →
    (b < 32) →
    (k = smGet (s.dev.core n).banks b {}) →
    (k.holder = some r) →
    (r = 1) →
    (a = ((s.dev.log { unit := s.dev.reqUnit n r, sev := 4, op := 0x08, detail := s.dev.reqUnit n r }).incSat COR_BANKSTAT.wdt_fires n 1).wr COR_BANKSTAT.last_wdt_bank n b) →
    (c = (a.setCore n { a.core n with banks := smSet (a.core n).banks b {} { k with holder := none, locked := false, grant := none, period := none }, fenced := r :: (a.core n).fenced.filter fun f => f != r }).perturb n) →
    exec (.bankWatchdogFire n b) s = .next (s.settles ((c.mm.chans.filter fun x => x.2.touches c.devId n).foldl (fun d x => d.haltChan x.1 (eccDetail s.dev.nextRec (s.dev.reqUnit n r) 0xFFFF)) c))) ∧
  (∀ (s : State) (off : Nat) (bs : List Byte) (a e : Device),
    (bs.length ≤ 128) →
    (s.dev.fnAwake 0 = true) →
    (s.dev.debugOpen = true) →
    (off < 0x18000000) →
    (a = s.dev.perturb (off / 2097152)) →
    (a.poisonWrite spTS off bs.length = some e) →
    exec (.debugAccess off bs.length (some bs)) s = .next (s.settles (e.store spTS off bs))) ∧
  (∀ (s : State) (off len : Nat) (a : Device),
    (len ≤ 128) →
    (s.dev.fnAwake 0 = true) →
    (s.dev.debugOpen = true) →
    (off < 0x18000000) →
    (a = s.dev.perturb (off / 2097152)) →
    (a.poisonIn spTS off len = none) →
    exec (.debugAccess off len none) s = .next (s.settles (a.debugAnswers off (a.peek devKey spTS off len)))) ∧
  (∀ (s : State) (off len : Nat),
    (len ≤ 128) →
    (s.dev.fnAwake 0 = true) →
    (s.dev.debugOpen = false) →
    (off < 2 ^ 29) →
    exec (.debugAccess off len none) s = .next (s.settles (s.dev.debugAnswers off (List.replicate len 0xFF)))) ∧
  (∀ (s : State) (die n k : Nat) (l : Leg) (a : Device),
    (die < 4) →
    (n < 192) →
    (n / 48 = die) →
    (∀ j, j / 48 = die → j ≠ n → (s.dev.core j).leg = none ∧ (s.dev.core j).mail = []) →
    ((s.dev.core n).leg = some l) →
    (l.internal = 0) →
    (k = s.dev.withholdable n l (if l.cls = 1 ∧ s.dev.spareExempt die = true then 0 else s.dev.duty die l.cls)) →
    (k ≠ 0) →
    (a = s.dev.putLeg n { l with withheld := l.withheld + k }) →
    exec (.dutyFrame die) s = .next (s.leads (a.acctWithheld l.ten l.client k))) ∧
  (∀ (s : State) (die n : Nat) (m : Mail) (ms : List Mail),
    (die < 4) →
    (n < 192) →
    (n / 48 = die) →
    (∀ j, j / 48 = die → j ≠ n → (s.dev.core j).leg = none ∧ (s.dev.core j).mail = []) →
    ((s.dev.core n).leg = none) →
    ((s.dev.core n).mail = m :: ms) →
    (s.dev.coreSt n = 3) →
    ((s.dev.core n).newPart = none) →
    (m.start = none) →
    (m.hold ≤ (s.dev.cycle : Int)) →
    (tagCls (dsTag m.desc) ≠ 1 ∨ s.dev.spareExempt die = false) →
    (s.dev.duty die (tagCls (dsTag m.desc)) ≠ 0) →
    (s.dev.gapOk n s.dev.cycle (lgBound m.desc) = true) →
    exec (.dutyFrame die) s = .next (s.leads (s.dev.setCore n { s.dev.core n with mail := { m with withheld := true } :: ms })))

/-- Writes of BAR0, bad accesses, the service level -/
def Obligations.HostAccess : Prop :=
  (∀ (s : State) (fn off size value i : Nat) (r : Reg) (a : RegAcc) (e : Device),
    (fn < 64) →
    (off < 0x3800000) →
    (size = 4 ∨ size = 8) →
    (off % size = 0) →
    (value < 2 ^ (8 * size)) →
    (regAt (off / 8 * 8) = some (r, i)) →
    (s.dev.reaches fn r = true) →
    (s.dev.mayWrite fn r i = true) →
    (a = regAcc off size value) →
    (regAction fn r i (s.dev.effective r i a) a s.dev = none) →
    (e = (((s.dev.writeFields fn r i a r.fields).afterWrite s.dev r i a).keepOperands r i (s.dev.effective r i a)).holdLow r i a) →
    exec (.registerWrite fn off size value) s = .next (s.settles (e.watchSvc s.dev))) ∧
  (∀ (s : State) (fn off size value i : Nat) (r : Reg) (a : RegAcc) (e : Device),
    (fn < 64) →
    (off < 0x3800000) →
    (size = 4 ∨ size = 8) →
    (off % size = 0) →
    (value < 2 ^ (8 * size)) →
    (regAt (off / 8 * 8) = some (r, i)) →
    (s.dev.reaches fn r = true) →
    (a = regAcc off size value) →
    (s.dev.mayWrite fn r i = true) →
    (regAction fn r i (s.dev.effective r i a) a s.dev = some e) →
    exec (.registerWrite fn off size value) s = .next (s.settles (((e.keepOperands r i (s.dev.effective r i a)).holdLow r i a).watchSvc s.dev))) ∧
  (∀ (s : State) (fn off size value i : Nat) (r : Reg) (a : RegAcc),
    (fn < 64) →
    (off < 0x3800000) →
    (size = 4 ∨ size = 8) →
    (off % size = 0) →
    (value < 2 ^ (8 * size)) →
    (regAt (off / 8 * 8) = some (r, i)) →
    (s.dev.reaches fn r = true) →
    (a = regAcc off size value) →
    (s.dev.mayWrite fn r i = false) →
    ((r.fields.filter fun f => f.acc == .RWT && f.covered a) = []) →
    exec (.registerWrite fn off size value) s = .next (s.settles ((s.dev.hostErr off 0).watchSvc s.dev))) ∧
  (∀ (s : State) (fn off size : Nat),
    (fn < 64) →
    (off < 0x4000000) →
    (1 ≤ size) →
    (size ≤ 64) →
    (size ∉ [4, 8] ∨ off % size ≠ 0) →
    (s.dev.fnAwake fn = true) →
    exec (.bar0BadAccess fn ⟨off, size, true⟩) s = .next (s.leads (s.dev.hostErr off 0))) ∧
  (∀ (s : State) (fn off size : Nat),
    (fn < 64) →
    (off < 0x4000000) →
    (1 ≤ size) →
    (size ≤ 64) →
    (size ∉ [4, 8] ∨ off % size ≠ 0) →
    (s.dev.fnAwake fn = true) →
    exec (.bar0BadAccess fn ⟨off, size, false⟩) s = .next (s.leads (Device.hostErr { s.dev with sent := .readAnswer fn off size (2 ^ (8 * size) - 1) :: s.dev.sent } off 0))) ∧
  (∀ (s : State),
    (s.dev.unserviceable = false) →
    (s.dev.on GEN_SVC.eval_done 0 = false) →
    (s.dev.svcLevel.1 ≠ 0) →
    exec .serviceEvaluation s = .next (s.settles ((((s.dev.showSvc.wr GEN_SVC.svc_level 0 s.dev.svcLevel.1).wr GEN_SVC.eval_done 0 1).denyUnfit).watchSvc s.dev))) ∧
  (∀ (s : State) (old new : Nat),
    (s.dev.unserviceable = false) →
    (s.dev.on GEN_SVC.eval_done 0 = true) →
    (old = s.dev.rd GEN_SVC.svc_level 0) →
    (new = s.dev.svcLevel.1) →
    (old ≠ new) →
    exec .serviceEvaluation s = .next (s.settles ((((s.dev.showSvc.changeSvc old new (s.dev.svcLevel.2.getD unitNone)).denyUnfit).watchSvc s.dev)))) ∧
  (∀ (s : State),
    (s.dev.unserviceable = true) →
    exec .serviceEvaluation s = .next (s.settles (s.dev.showSvc.watchSvc s.dev)))

/-- Quiesce, resume and reset of a tenancy; interrupts; queue positions -/
def Obligations.TenancyCommands : Prop :=
  (∀ (s : State) (t : Nat),
    (t < 64) →
    (s.dev.reaches 0 .TEN_CTL = true) →
    (s.dev.rd TEN_STAT.state t = 1) →
    exec (.tenancyQuiesce 0 t) s = .next (s.leads (((s.dev.wr TEN_STAT.state t 2).queues.filter fun q => (s.dev.wr TEN_STAT.state t 2).qTen q.1 == t).foldl (fun d q => d.unfetch q.1)
      (s.dev.wr TEN_STAT.state t 2)))) ∧
  (∀ (s : State) (t : Nat),
    (t < 64) →
    (s.dev.rd TEN_STAT.state t = 2) →
    (s.dev.tenIdle t = true) →
    exec (.tenancyQuiesced t) s = .next (s.leads (s.dev.wr TEN_STAT.state t 3))) ∧
  (∀ (s : State) (t : Nat),
    (t < 64) →
    (s.dev.reaches 0 .TEN_CTL = true) →
    (s.dev.rd TEN_STAT.state t = 2 ∨ s.dev.rd TEN_STAT.state t = 3) →
    exec (.tenancyResume 0 t) s = .next (s.leads (s.dev.wr TEN_STAT.state t 1))) ∧
  (∀ (s : State) (t : Nat),
    (t < 64) →
    (s.dev.reaches 0 .TEN_CTL = true) →
    exec (.tenancyReset 0 t false) s = .next (s.settles (s.dev.resetTenancy t))) ∧
  (∀ (s : State) (t : Nat),
    (t < 64) →
    (t ≠ 0) →
    exec (.tenancyReset 0 t true) s = .next (s.settles (s.dev.resetTenancy t))) ∧
  (∀ (s : State) (t : Nat),
    (t < 64) →
    (s.dev.rd TEN_STAT.state t = 4) →
    exec (.tenancyResetDone t) s = .next (s.leads (s.dev.wr TEN_STAT.state t (if s.dev.tenExists t then 1 else 0)))) ∧
  (∀ (s : State) (fn v : Nat) (e : Vec),
    (fn < 64) →
    (v < 2048) →
    (e = smGet s.dev.msix (fn * 4096 + v) {}) →
    (e.gap = true) →
    (e.again = true) →
    exec (.irqGapExpiry fn v) s = .next (s.leads (Device.raise { s.dev with msix := smSet s.dev.msix (fn * 4096 + v) {} { e with gap := false, again := false } } fn v))) ∧
  (∀ (s : State) (fn v : Nat) (e : Vec),
    (fn < 64) →
    (v < 2048) →
    (s.dev.reaches fn .TEN_IRQ_CFG = true) →
    (v < s.dev.vectors fn) →
    (e = smGet s.dev.msix (fn * 4096 + v) {}) →
    (e.pending = true) →
    (e.gap = false) →
    (s.dev.mute fn = false) →
    exec (.msixUnmask fn v) s = .next (s.leads (Device.sendVec { s.dev with msix := smSet s.dev.msix (fn * 4096 + v) {} { e with masked := false } } fn v))) ∧
  (∀ (s : State) (value : Nat) (a : Device),
    (value < 2 ^ 64) →
    (s.dev.reaches 0 .TEN_QPOS1 = true) →
    (bit value 62 = false) →
    (bit value 63 = true) →
    (a = (s.dev.wr TEN_QPOS1.phase 0 (bits value 61 61)).wr TEN_QPOS1.queue 0 (bits value 11 0)) →
    (a.rd QUE_STAT.state (bits value 11 0) = qDisabled) →
    (a.enableOk (bits value 11 0) = true) →
    exec (.queuePositionStart 0 value) s = .next (s.leads ((((a.setQueue (bits value 11 0) { tail := a.rd TEN_QPOS0.sq_head 0, cqHead := a.rd TEN_QPOS0.cq_tail 0, cqTail := a.rd TEN_QPOS0.cq_tail 0, phase := bit value 61 }).wr QUE_STAT.sq_head (bits value 11 0) (a.rd TEN_QPOS0.sq_head 0)).wr QUE_STAT.db_err (bits value 11 0) 0).wr QUE_STAT.state (bits value 11 0) 1)))

/-- Dirty-page logs, virtual functions, function power states -/
def Obligations.LogAndFunctionCommands : Prop :=
  (∀ (s : State) (t value : Nat),
    (t < 64) →
    (value < 2 ^ 64) →
    (s.dev.reaches 0 .TEN_DLOG_CTL = true) →
    (bit value 4 = false) →
    (bit value 0 = true) →
    (bit value 1 = false) →
    (s.dev.on TEN_DLOG_CTL.enable t = false) →
    exec (.dlogEnable 0 t value) s = .next (s.leads ((((((s.dev.zero spT1 (s.dev.devMap t false) (2 * s.dev.devMapBytes t)).setPages
      ((s.dev.zero spT1 (s.dev.devMap t false) (2 * s.dev.devMapBytes t)).devMapPages t) pgSystem).wr TEN_DLOG_CTL.b_active t 0).wr TEN_DLOG_CTL.swaps t 0).wr TEN_DLOG_CTL.enable t 1)))) ∧
  (∀ (s : State) (t value : Nat) (b : Bool),
    (t < 64) →
    (value < 2 ^ 64) →
    (s.dev.reaches 0 .TEN_DLOG_CTL = true) →
    (bit value 4 = false) →
    (bit value 0 = true) →
    (bit value 1 = true) →
    (s.dev.on TEN_DLOG_CTL.enable t = true) →
    (s.dev.on TEN_DLOG_CTL.busy t = false) →
    (b = !s.dev.on TEN_DLOG_CTL.b_active t) →
    exec (.dlogSwap 0 t value) s = .next (s.leads (((s.dev.zero spT1 (s.dev.devMap t b) (s.dev.devMapBytes t)).wr TEN_DLOG_CTL.b_active t (b2n b)).wr TEN_DLOG_CTL.busy t 1))) ∧
  (∀ (s : State) (t : Nat),
    (t < 64) →
    (s.dev.on TEN_DLOG_CTL.busy t = true) →
    exec (.dlogSwapDone t) s = .next (s.leads ((s.dev.wr TEN_DLOG_CTL.busy t 0).incWrap TEN_DLOG_CTL.swaps t 1))) ∧
  (∀ (s : State) (e : Bool) (n : Nat) (a : Device),
    (n < 64) →
    (a = { s.dev with vfEnable := e, numVfs := n }) →
    exec (.vfEnableChange e n) s = .next (s.leads ((List.range 63).foldl (fun d i =>
      if d.tenExists (i + 1) then (if d.rd TEN_STAT.state (i + 1) = tnOff then d.wr TEN_STAT.state (i + 1) tnActive else d)
      else if d.rd TEN_STAT.state (i + 1) = tnOff ∨ d.rd TEN_STAT.state (i + 1) = tnResetting then d
      else (d.resetTenancy (i + 1)).wr TEN_STAT.state (i + 1) tnOff) a))) ∧
  (∀ (s : State) (fn : Nat) (d3 : Bool),
    (fn < 64) →
    exec (.functionPowerStateWrite fn d3) s = .next (s.leads { s.dev with tens := smSet s.dev.tens fn {} { smGet s.dev.tens fn {} with d3hot := d3 } }))

/-- Power states: requests, idle, wake, Deep -/
def Obligations.PowerStates : Prop :=
  (∀ (s : State) (value : Nat) (b : Device),
    (value < 2 ^ 64) →
    (s.dev.reaches 0 .PWR_STATE_CTL = true) →
    (bits value 1 0 = 1) →
    (b = ((s.dev.wr PWR_STATE_CTL.deep_port 0 (bits value 35 32)).wr PWR_STATE_CTL.idle_ms 0 (bits value 31 16)).wr PWR_STATE_CTL.auto_idle 0 (bits value 8 8)) →
    (b.on PWR_STATE_STAT.deep_armed 0 = false) →
    (b.ps = psIdle) →
    exec (.reqD0 0 value) s = .next (s.leads (b.leaveIdle 3))) ∧
  (∀ (s : State) (value : Nat) (b : Device),
    (value < 2 ^ 64) →
    (s.dev.reaches 0 .PWR_STATE_CTL = true) →
    (bits value 1 0 = 2) →
    (b = ((s.dev.wr PWR_STATE_CTL.deep_port 0 (bits value 35 32)).wr PWR_STATE_CTL.idle_ms 0 (bits value 31 16)).wr PWR_STATE_CTL.auto_idle 0 (bits value 8 8)) →
    (b.ps = psD0) →
    (b.idleDeny = 0) →
    exec (.reqIdleHold 0 value) s = .next (s.leads ((b.wr PWR_STATE_STAT.deny 0 0).enterIdle))) ∧
  (∀ (s : State) (value : Nat) (b : Device),
    (value < 2 ^ 64) →
    (s.dev.reaches 0 .PWR_STATE_CTL = true) →
    (bits value 1 0 = 2) →
    (b = ((s.dev.wr PWR_STATE_CTL.deep_port 0 (bits value 35 32)).wr PWR_STATE_CTL.idle_ms 0 (bits value 31 16)).wr PWR_STATE_CTL.auto_idle 0 (bits value 8 8)) →
    (b.ps = psD0) →
    (b.idleDeny ≠ 0) →
    exec (.reqIdleHold 0 value) s = .next (s.leads (b.wr PWR_STATE_STAT.deny 0 b.idleDeny))) ∧
  (∀ (s : State) (value : Nat) (b : Device),
    (value < 2 ^ 64) →
    (s.dev.reaches 0 .PWR_STATE_CTL = true) →
    (bits value 1 0 = 3) →
    (b = ((s.dev.wr PWR_STATE_CTL.deep_port 0 (bits value 35 32)).wr PWR_STATE_CTL.idle_ms 0 (bits value 31 16)).wr PWR_STATE_CTL.auto_idle 0 (bits value 8 8)) →
    (b.ps = psD0 ∨ b.ps = psIdle) →
    (b.deepDeny = 0) →
    exec (.reqDeep 0 value) s = .next (s.leads ((b.wr PWR_STATE_STAT.deny 0 0).wr PWR_STATE_STAT.deep_armed 0 1))) ∧
  (∀ (s : State) (value : Nat) (b : Device),
    (value < 2 ^ 64) →
    (s.dev.reaches 0 .PWR_STATE_CTL = true) →
    (bits value 1 0 = 3) →
    (b = ((s.dev.wr PWR_STATE_CTL.deep_port 0 (bits value 35 32)).wr PWR_STATE_CTL.idle_ms 0 (bits value 31 16)).wr PWR_STATE_CTL.auto_idle 0 (bits value 8 8)) →
    (b.ps = psD0 ∨ b.ps = psIdle) →
    (b.deepDeny ≠ 0) →
    exec (.reqDeep 0 value) s = .next (s.leads (b.wr PWR_STATE_STAT.deny 0 b.deepDeny))) ∧
  (∀ (s : State),
    (s.dev.on PWR_STATE_CTL.auto_idle 0 = true) →
    (s.dev.ps = psD0) →
    (s.dev.idleDeny = 0) →
    exec .autoIdleExpiry s = .next (s.leads s.dev.enterIdle)) ∧
  (∀ (s : State) (src : Nat),
    (1 ≤ src) →
    (src ≤ 3) →
    (s.dev.ps = psIdle) →
    exec (.idleWake src) s = .next (s.leads (s.dev.leaveIdle src))) ∧
  (∀ (s : State) (src : Nat),
    (4 ≤ src) →
    (src ≤ 6) →
    (s.dev.ps = psDeep) →
    exec (.deepWake src) s = .next (s.leads ({ s.dev with pwr := { s.dev.pwr with wakeN := true } }.wr PWR_STATE_STAT.wake_src 0 src))) ∧
  (∀ (s : State),
    (s.dev.hostDown = false) →
    exec .pmeTurnOffRx s = .next (s.leads { s.dev with pwr := { s.dev.pwr with l23 := true }, sent := .pmeAck :: s.dev.sent }))

/-- Removal and the power-fail save -/
def Obligations.RemovalAndSave : Prop :=
  (∀ (s : State),
    (s.dev.hostDown = false) →
    (s.dev.on PWR_STATE_STAT.deep_armed 0 = false) →
    exec .linkDown s = .next (s.leads { s.dev.removeHost.sendLeave with pwr := { s.dev.removeHost.sendLeave.pwr with removing := true } })) ∧
  (∀ (s : State),
    (s.dev.on PWR_STATE_STAT.deep_armed 0 = true) →
    exec .linkDown s = .next (s.leads s.dev)) ∧
  (∀ (s : State),
    (s.dev.pwr.removing = true) →
    exec .removalResetTimeout s = .next (s.leads (s.dev.deviceReset 3 unitNone))) ∧
  (∀ (s : State) (a b : Device),
    (s.dev.pwr.perst = false) →
    (s.dev.pwr.saveAct = false) →
    (s.dev.ps ≠ psSaved) →
    (s.dev.pwr.gated = false) →
    (s.dev.on PWR_STATE_STAT.deep_armed 0 = false) →
    (a = s.dev.removeHost) →
    (b = (if a.on FTP_CFG.enable 0 then a.sendLeave else a).deviceReset 3 unitNone) →
    exec .perstAssert s = .next (s.leads { b with pwr := { b.pwr with perst := true } })) ∧
  (∀ (s : State),
    (s.dev.pwr.perst = false) →
    (s.dev.pwr.saveAct = false) →
    (s.dev.ps ≠ psSaved) →
    (s.dev.pwr.gated = false) →
    (s.dev.on PWR_STATE_STAT.deep_armed 0 = true) →
    exec .perstAssert s = .next (s.leads s.dev.enterDeep)) ∧
  (∀ (s : State),
    (s.dev.pwr.perst = false) →
    (s.dev.pwr.saveAct = true ∨ s.dev.ps = psSaved ∨ s.dev.pwr.gated = true) →
    exec .perstAssert s = .next (s.leads { s.dev with pwr := { s.dev.pwr with perst := true } })) ∧
  (∀ (s : State),
    (s.dev.on PWR_SAVE_STAT.armed 0 = false) →
    exec .powerFail s = .next (s.leads { s.dev with pwr := { s.dev.pwr with pwrfail := true } })) ∧
  (∀ (s : State) (a : Device),
    (a = { s.dev with pwr := { s.dev.pwr with pwrfail := true } }) →
    (a.on PWR_SAVE_STAT.armed 0 = true) →
    exec .powerFail s = .next (s.leads a.runSave)) ∧
  (∀ (s : State),
    (s.dev.on PWR_SAVE_STAT.armed 0 = true) →
    exec .sysclkLoss s = .next (s.leads s.dev.runSave)) ∧
  (∀ (s : State) (bad : Nat) (hw : HwSave) (a : Device),
    (bad ≤ 524288) →
    (s.dev.pwr.saving = some hw) →
    (a = if bad = 0 then s.dev.copySection spStage spSave else ((s.dev.copySection spStage spSave).incSat RAS_ECC_CNT.uncorrectable 5 (bad - 1)).uncorr (unitOf 6 0x016) 5 { unit := 0, sev := 2, op := 0x02 }) →
    exec (.saveComplete bad) s = .next (s.leads (({ a with pwr := { a.pwr with saving := none, saveAct := false, save := some ({ time := hw.time, snapSeq := s.dev.rd PWR_SAVE_STAT.snap_seq 0, torn := s.dev.pwr.stagedTorn, validBlocks := 524288 - bad }, hw) } }.showSave).wr PWR_STATE_STAT.state 0 3))) ∧
  (∀ (s : State) (value : Nat) (b : Device) (r : Device × Bool),
    (value < 2 ^ 64) →
    (s.dev.reaches 0 .PWR_SAVE_CTL = true) →
    (bits value 1 0 = 1) →
    (b = s.dev.wr PWR_SAVE_CTL.dest 0 (bits value 39 21)) →
    (b.on PWR_SAVE_STAT.busy 0 = false) →
    (r = snapCopy (b.rd PWR_SAVE_CFG.count 0) 0 0 b) →
    exec (.saveSnap 0 value) s = .next (s.leads ({ r.1 with pwr := { r.1.pwr with stagedTorn := true, snapOk := some r.2 } }.wr PWR_SAVE_STAT.busy 0 1 |>.usedUp .PWR_SAVE_CTL 0))) ∧
  (∀ (s : State) (r : Device × Bool),
    (s.dev.rd PWR_SAVE_CFG.auto_ms 0 ≠ 0) →
    (s.dev.unpowered = false) →
    (s.dev.on PWR_SAVE_STAT.busy 0 = false) →
    (r = snapCopy (s.dev.rd PWR_SAVE_CFG.count 0) 0 0 s.dev) →
    exec .autoSnapshot s = .next (s.leads ({ r.1 with pwr := { r.1.pwr with stagedTorn := true, snapOk := some r.2 } }.wr PWR_SAVE_STAT.busy 0 1))) ∧
  (∀ (s : State),
    (s.dev.pwr.snapOk = some true) →
    exec .snapshotDone s = .next (s.leads (({ s.dev with pwr := { s.dev.pwr with snapOk := none, stagedTorn := false } }.wr PWR_SAVE_STAT.busy 0 0).incWrap PWR_SAVE_STAT.snap_seq 0 1))) ∧
  (∀ (s : State),
    (s.dev.pwr.snapOk = some false) →
    exec .snapshotDone s = .next (s.leads (({ s.dev with pwr := { s.dev.pwr with snapOk := none, stagedTorn := true } }.wr PWR_SAVE_STAT.busy 0 0).wr PWR_SAVE_STAT.snap_err 0 1))) ∧
  (∀ (s : State) (value : Nat) (b : Device),
    (value < 2 ^ 64) →
    (s.dev.reaches 0 .PWR_SAVE_CTL = true) →
    (bits value 1 0 = 2) →
    (b = s.dev.wr PWR_SAVE_CTL.dest 0 (bits value 39 21)) →
    (b.on PWR_SAVE_STAT.busy 0 = false) →
    (b.on PWR_SAVE_STAT.valid 0 = true) →
    exec (.saveRestore 0 value) s = .next (s.leads ({ b with pwr := { b.pwr with restoring := some (b.rd PWR_SAVE_CTL.dest 0 * pageSize) } }.wr PWR_SAVE_STAT.busy 0 1 |>.usedUp .PWR_SAVE_CTL 0))) ∧
  (∀ (s : State) (dst : Nat) (a : Device),
    (s.dev.pwr.restoring = some dst) →
    (s.dev.on MEM_FILL_STAT.t1_done 0 = true) →
    (a = (s.dev.mem.filter fun c => inRange c.1 (cellAt spSave swBase) swSize).foldl (fun d c => d.poke devKey spT1 (dst + (c.1 - cellAt spSave 0)) [c.2]) ((s.dev.scramble spT1 dst swBase).zero spT1 (dst + swBase) swSize)) →
    exec .saveRestoreDone s = .next (s.leads ({ a with pwr := { a.pwr with restoring := none, saveRead := true } }.wr PWR_SAVE_STAT.busy 0 0))) ∧
  (∀ (s : State) (value : Nat) (b : Device),
    (value < 2 ^ 64) →
    (s.dev.reaches 0 .PWR_SAVE_CTL = true) →
    (bits value 1 0 = 3) →
    (b = s.dev.wr PWR_SAVE_CTL.dest 0 (bits value 39 21)) →
    exec (.saveClear 0 value) s = .next (s.leads ({ b with pwr := { b.pwr with save := none } }.showSave.usedUp .PWR_SAVE_CTL 0)))

/-- Supplies, clocks, fronthaul links, start-up, verified boot, built-in test -/
def Obligations.SupplyAndStart : Prop :=
  (∀ (s : State),
    exec .pwrfailNRise s = .next (s.leads { s.dev with pwr := { s.dev.pwr with pwrfail := false } })) ∧
  (∀ (s : State),
    exec .powerOn s = .next (s.leads ({ s.dev.aonLost with pwr := { s.dev.aonLost.pwr with perst := true, pwrfail := true } }.wr RAS_RESET_CAUSE.unit 0 unitNone))) ∧
  (∀ (s : State),
    exec .aonSupplyLoss s = .next (s.leads { s.dev.aonLost with pwr := { s.dev.aonLost.pwr with gated := true } })) ∧
  (∀ (s : State) (a : Device),
    (s.dev.timing.trefBad = true) →
    (a = { s.dev with timing := { s.dev.timing with trefBad := false, trefQual := true } }) →
    exec .trefReturn s = .next (s.leads ((a.setDom 0 { a.dom 0 with qual := false }).setDom 1 { (a.setDom 0 { a.dom 0 with qual := false }).dom 1 with qual := false }))) ∧
  (∀ (s : State) (g : Nat),
    (g < 4) →
    exec (.frefLoss g) s = .next (s.leads (portDown (4 * g + 3) (portDown (4 * g + 2) (portDown (4 * g + 1) (portDown (4 * g) { s.dev with pwr := { s.dev.pwr with refDown := g :: s.dev.pwr.refDown.filter fun x => x != g } })))))) ∧
  (∀ (s : State) (g : Nat) (a : Device),
    (g < 4) →
    (a = { s.dev with pwr := { s.dev.pwr with refDown := s.dev.pwr.refDown.filter fun x => x != g } }) →
    exec (.frefReturn g) s = .next (s.leads (([4 * g, 4 * g + 1, 4 * g + 2, 4 * g + 3].filter fun p => a.on FAB_PORT_CFG.enable p && a.rd FAB_PORT_STAT.state p == ptDown).foldl (fun d p => d.wr FAB_PORT_STAT.state p ptTraining) a))) ∧
  (∀ (s : State),
    (s.dev.timing.trefBad = false) →
    exec .trefReturn s = .next (s.leads s.dev)) ∧
  (∀ (s : State) (a : Device),
    (a = { s.dev with pwr := { s.dev.pwr with refDown := 4 :: s.dev.pwr.refDown.filter fun x => x != 4 } }) →
    exec .erefLoss s = .next (s.leads (fronthaulLinkChange 3 false (fronthaulLinkChange 2 false (fronthaulLinkChange 1 false (fronthaulLinkChange 0 false a)))))) ∧
  (∀ (s : State),
    exec .erefReturn s = .next (s.leads { s.dev with pwr := { s.dev.pwr with refDown := s.dev.pwr.refDown.filter fun x => x != 4 } })) ∧
  (∀ (s : State) (p : Nat) (a b : Device),
    (p < 4) →
    (s.dev.isX = false) →
    (4 ∉ s.dev.pwr.refDown) →
    (a = drainPort p s.dev) →
    (b = { a with radio := { a.radio with busy := smSet a.radio.busy p 0 (max (smGet a.radio.busy p 0) a.time) } }) →
    exec (.fronthaulLinkChange p true) s = .next (s.leads (b.wr RAD_PORT_STAT.link_up p (b2n (b.rd RAD_PORT_CFG.speed p != 0))))) ∧
  (∀ (s : State) (p : Nat),
    (p < 4) →
    (s.dev.isX = false) →
    exec (.fronthaulLinkChange p false) s = .next (s.leads ((drainPort p s.dev).wr RAD_PORT_STAT.link_up p 0))) ∧
  (∀ (s : State) (p : Nat),
    (p < 4) →
    (s.dev.pwr.refDown.contains 4 = true ∨ s.dev.isX = true) →
    exec (.fronthaulLinkChange p true) s = .next (s.leads s.dev)) ∧
  (∀ (s : State) (d : Device),
    (s.dev.pwr.saveAct = false) →
    (s.dev.pwr.perst = true) →
    (d = { s.dev with pwr := { s.dev.pwr with perst := false } }) →
    exec (.startup true) s = .next (s.leads (if s.dev.rd PWR_STATE_STAT.state 0 = 2 then d.fromDeep.beginStart else d.cleared.beginStart))) ∧
  (∀ (s : State),
    (s.dev.pwr.saveAct = false) →
    (s.dev.pwr.held = true) →
    (s.dev.pwr.perst = false) →
    exec (.startup false) s = .next (s.leads s.dev.beginStart)) ∧
  (∀ (s : State) (x : Bool),
    (s.dev.pwr.saveAct = true) →
    exec (.startup x) s = .next (s.leads s.dev)) ∧
  (∀ (s : State) (a b : List Byte) (k : Nat) (d : Device),
    (s.dev.booting = true) →
    (s.dev.on SEC_BOOT_STAT.recovery 0 = false) →
    (k = stageKind (s.dev.rd PWR_START_STAT.step 0)) →
    (d = s.dev.incSat SEC_BOOT_STAT.boot_failures 0 1) →
    exec (.imageVerified a b) s = .next (s.leads (if s.dev.imageCode k a = 0 then s.dev.runStage k 0 a
      else if d.imageCode k b = 0 then d.runStage k 1 b else (d.incSat SEC_BOOT_STAT.boot_failures 0 1).wr SEC_BOOT_STAT.recovery 0 1))) ∧
  (∀ (s : State) (us : List Nat) (f a b : Device),
    (s.dev.rd PWR_STATE_STAT.state 0 = 4) →
    (s.dev.rd PWR_START_STAT.step 0 = 4) →
    (s.dev.pwr.held = false) →
    (f = us.foldl (fun d u => if unitExists u then d.bootRetire true u else d) s.dev) →
    (a = (List.range 192).foldl (fun d n => if d.coreSt n = csLost then d else d.setCoreSt n csFill) f) →
    (b = (List.range 8).foldl (fun d e => if d.rd RTE_MAP.state e = 5 then d else d.wr RTE_MAP.state e 2) a) →
    exec (.builtInTestDone us) s = .next (s.leads (b.showMap.wr PWR_START_STAT.step 0 5)))

/-- The power control and temperature readings -/
def Obligations.PowerAndTemperature : Prop :=
  (∀ (s : State) (w p0 p1 p2 p3 : Nat) (a b : Device),
    (s.dev.unpowered = false) →
    (a = (((((s.dev.wr PWR_POWER_STAT.pkg_w 0 (wattsIn PWR_POWER_STAT.pkg_w w)).wr PWR_POWER_STAT.cd0_w 0 (wattsIn PWR_POWER_STAT.cd0_w p0)).wr PWR_POWER_STAT.cd1_w 0 (wattsIn PWR_POWER_STAT.cd1_w p1)).wr PWR_POWER_STAT.cd2_w 0 (wattsIn PWR_POWER_STAT.cd2_w p2)).wr PWR_POWER_STAT.cd3_w 0 (wattsIn PWR_POWER_STAT.cd3_w p3))) →
    (a.ps = psD0) →
    (b = (((a.throttle w p0 0).throttle w p1 1).throttle w p2 2).throttle w p3 3) →
    exec (.powerControlUpdate w p0 p1 p2 p3) s = .next (s.leads { b with pwr := { b.pwr with spareMax := max b.pwr.spareMax (b.topDuty SCH_THR_STAT.spare_duty), promptMax := max b.pwr.promptMax (b.topDuty SCH_THR_STAT.prompt_duty) } })) ∧
  (∀ (s : State) (w p0 p1 p2 p3 : Nat) (a : Device),
    (s.dev.unpowered = false) →
    (a = (((((s.dev.wr PWR_POWER_STAT.pkg_w 0 (wattsIn PWR_POWER_STAT.pkg_w w)).wr PWR_POWER_STAT.cd0_w 0 (wattsIn PWR_POWER_STAT.cd0_w p0)).wr PWR_POWER_STAT.cd1_w 0 (wattsIn PWR_POWER_STAT.cd1_w p1)).wr PWR_POWER_STAT.cd2_w 0 (wattsIn PWR_POWER_STAT.cd2_w p2)).wr PWR_POWER_STAT.cd3_w 0 (wattsIn PWR_POWER_STAT.cd3_w p3))) →
    (a.ps ≠ psD0) →
    exec (.powerControlUpdate w p0 p1 p2 p3) s = .next (s.leads a)) ∧
  (∀ (s : State) (w p0 p1 p2 p3 : Nat),
    (s.dev.unpowered = true) →
    exec (.powerControlUpdate w p0 p1 p2 p3) s = .next (s.leads s.dev)) ∧
  (∀ (s : State) (k : Nat) (a : Device),
    (s.dev.unpowered = false) →
    (k = (List.range 4).foldl (fun b k => if s.dev.tj b < s.dev.tj k then k else b) 0) →
    (s.dev.pwr.crit.any (fun c => c.1 == k) = false) →
    (a = { s.dev with pwr := { s.dev.pwr with crit := smIns s.dev.pwr.crit k none } }) →
    exec .pkgExcessTimeout s = .next (s.leads ((a.wr PWR_STATE_STAT.crit 0 1).ibi 2))) ∧
  (∀ (s : State),
    (s.dev.unpowered = true) →
    exec .pkgExcessTimeout s = .next (s.leads s.dev)) ∧
  (∀ (s : State) (k mv : Nat) (t : Int) (a : Device),
    (k < 8) →
    (mv < 65536) →
    (s.dev.pwr.gated = false) →
    (s.dev.ps ≠ psDeep) →
    (s.dev.ps ≠ psSaved) →
    (t < 380) →
    (a = { s.dev with ras := { s.dev.ras with temps := smSet s.dev.ras.temps (stackUnit k) 0 t } }) →
    exec (.thermalSample (stackUnit k) t mv) s = .next (s.leads (Device.showTherm { a with pwr := { a.pwr with hbmSlow := if t < 368 then a.pwr.hbmSlow.filter (fun x => x != k) else a.pwr.hbmSlow } }))) ∧
  (∀ (s : State) (k mv : Nat) (t : Int) (a b : Device),
    (k < 8) →
    (mv < 65536) →
    (s.dev.pwr.gated = false) →
    (s.dev.ps ≠ psDeep) →
    (s.dev.ps ≠ psSaved) →
    (380 ≤ t) →
    (a = { s.dev with ras := { s.dev.ras with temps := smSet s.dev.ras.temps (stackUnit k) 0 t } }) →
    (b = a.perturbLegs) →
    exec (.thermalSample (stackUnit k) t mv) s = .next (s.leads (Device.showTherm { b with pwr := { b.pwr with hbmSlow := k :: a.pwr.hbmSlow.filter (fun x => x != k) } }))) ∧
  (∀ (s : State) (u mv : Nat) (t : Int) (a b c : Device),
    (u / 4096 < 4) →
    (mv < 65536) →
    (s.dev.pwr.gated = false) →
    (s.dev.ps ≠ psDeep) →
    (s.dev.ps ≠ psSaved) →
    (a = { s.dev with ras := { s.dev.ras with temps := smSet s.dev.ras.temps u 0 t, volts := smSet s.dev.ras.volts (u / 4096) 0 mv } }) →
    (b = { a with ras := { a.ras with temps := smSet a.ras.temps (unitOf (u / 4096) 0xFFE) 0 (a.tj (u / 4096)) } }) →
    (c = (b.showTherm.moveCut (u / 4096)).moveCrit (u / 4096)) →
    exec (.thermalSample u t mv) s = .next (s.leads (if 480 ≤ c.tj (u / 4096) ∧ c.pwr.thermTrip = false then c.trip else c))) ∧
  (∀ (s : State) (die mv : Nat) (t : Int) (a c : Device),
    (4 ≤ die) →
    (die < 7) →
    (mv < 65536) →
    (s.dev.pwr.gated = false) →
    (s.dev.ps ≠ psDeep) →
    (s.dev.ps ≠ psSaved) →
    (a = { s.dev with ras := { s.dev.ras with temps := smSet s.dev.ras.temps (unitOf die 0xFFE) 0 t } }) →
    (c = a.showTherm) →
    exec (.thermalSample (unitOf die 0xFFE) t mv) s = .next (s.leads (if 480 ≤ c.tj die ∧ c.pwr.thermTrip = false then c.trip else c)))

/-- Translation tables, their operations, and the host's translation services -/
def Obligations.Translation : Prop :=
  (∀ (s : State) (t : Nat),
    (t < 64) →
    (s.dev.reaches 0 .MEM_XT_BASE = true) →
    (s.dev.on MEM_XT_BASE.enable t = false) →
    (t ∉ s.dev.mm.xtFill) →
    exec (.xtEnable 0 t) s = .next (s.leads { (s.dev.zero spT1 (s.dev.xtBase t) (s.dev.xtBytes t)).setPages ((s.dev.zero spT1 (s.dev.xtBase t) (s.dev.xtBytes t)).xtPages t) pgSystem with
      mm := { s.dev.mm with xtFill := t :: s.dev.mm.xtFill } })) ∧
  (∀ (s : State) (t : Nat) (a : Device),
    (t < 64) →
    (t ∈ s.dev.mm.xtFill) →
    (a = { s.dev with mm := { s.dev.mm with xtFill := s.dev.mm.xtFill.filter fun x => x != t } }) →
    exec (.xtEnableDone t) s = .next (s.settles ((((a.wr TEN_STAT.t1_mapped t 0).wr TEN_STAT.t2_mapped t 0).wr TEN_STAT.dp_mapped t 0).wr MEM_XT_BASE.enable t 1))) ∧
  (∀ (s : State) (t : Nat),
    (t < 64) →
    (s.dev.reaches 0 .MEM_XT_BASE = true) →
    (s.dev.on MEM_XT_BASE.enable t = true) →
    (s.dev.tenBusy t = false) →
    exec (.xtDisable 0 t) s = .next (s.leads (((((s.dev.setPages (s.dev.xtPages t) pgPlain).wr TEN_STAT.t1_mapped t 0).wr TEN_STAT.t2_mapped t 0).wr TEN_STAT.dp_mapped t 0).wr MEM_XT_BASE.enable t 0))) ∧
  (∀ (s : State) (write : Bool) (ppn : Nat) (t sp n v k : Nat) (olds : List Nat) (ps : List Nat) (a b : Device),
    (ppn < 2 ^ 19) →
    (s.dev.reaches 0 .MEM_XT_OP1 = true) →
    (t = s.dev.rd MEM_XT_OP0.tenancy 0) →
    (sp = s.dev.rd MEM_XT_OP0.space 0) →
    (n = s.dev.rd MEM_XT_OP0.count 0) →
    (v = s.dev.rd MEM_XT_OP0.page 0) →
    (s.dev.on MEM_XT_OP1.busy 0 = false) →
    (sp ≠ 3) →
    (n ≠ 0) →
    (s.dev.on MEM_XT_BASE.enable t = true) →
    (v + n ≤ s.dev.xtCount t sp) →
    (olds = (List.range n).map fun i => s.dev.xtEntry t sp (v + i)) →
    (k = s.dev.rd (mappedFld sp) t - (olds.filter fun e => bit e 63).length + n) →
    (k ≤ s.dev.rd (quotaFld sp) t) →
    (ps = (olds.filter fun e => bit e 63).map fun e => pageKey sp (bits e 18 0)) →
    (a = (List.range n).foldl (fun d i => d.pokeN spT1 (d.xtBase t + 8 * d.xtIndex t sp (v + i)) 8 (2 ^ 63 + b2n write <<< 62 + (ppn + i) % 2 ^ 19)) s.dev) →
    (b = (a.wr (mappedFld sp) t k).wr MEM_XT_OP1.busy 0 1) →
    exec (.xtMap 0 write ppn) s = .next (s.leads { b with mm := { b.mm with xtOp := some ⟨t, ps.filter fun p => s.dev.pageState p == pgDeparting || s.dev.pageState p == pgArriving⟩ } })) ∧
  (∀ (s : State) (t sp n v k : Nat) (olds : List Nat) (ps : List Nat) (a b : Device),
    (s.dev.reaches 0 .MEM_XT_OP1 = true) →
    (t = s.dev.rd MEM_XT_OP0.tenancy 0) →
    (sp = s.dev.rd MEM_XT_OP0.space 0) →
    (n = s.dev.rd MEM_XT_OP0.count 0) →
    (v = s.dev.rd MEM_XT_OP0.page 0) →
    (s.dev.on MEM_XT_OP1.busy 0 = false) →
    (sp ≠ 3) →
    (n ≠ 0) →
    (s.dev.on MEM_XT_BASE.enable t = true) →
    (v + n ≤ s.dev.xtCount t sp) →
    (olds = (List.range n).map fun i => s.dev.xtEntry t sp (v + i)) →
    (k = s.dev.rd (mappedFld sp) t - (olds.filter fun e => bit e 63).length) →
    (ps = (olds.filter fun e => bit e 63).map fun e => pageKey sp (bits e 18 0)) →
    (a = (List.range n).foldl (fun d i => d.pokeN spT1 (d.xtBase t + 8 * d.xtIndex t sp (v + i)) 8 (0)) s.dev) →
    (b = (a.wr (mappedFld sp) t k).wr MEM_XT_OP1.busy 0 1) →
    exec (.xtUnmap 0) s = .next (s.leads { b with mm := { b.mm with xtOp := some ⟨t, ps.filter fun p => s.dev.pageState p == pgDeparting || s.dev.pageState p == pgArriving⟩ } })) ∧
  (∀ (s : State) (t sp n v k : Nat) (olds : List Nat) (ps : List Nat) (a b : Device),
    (s.dev.reaches 0 .MEM_XT_OP1 = true) →
    (t = s.dev.rd MEM_XT_OP0.tenancy 0) →
    (sp = s.dev.rd MEM_XT_OP0.space 0) →
    (n = s.dev.rd MEM_XT_OP0.count 0) →
    (v = s.dev.rd MEM_XT_OP0.page 0) →
    (s.dev.on MEM_XT_OP1.busy 0 = false) →
    (sp ≠ 3) →
    (n ≠ 0) →
    (s.dev.on MEM_XT_BASE.enable t = true) →
    (v + n ≤ s.dev.xtCount t sp) →
    (olds = (List.range n).map fun i => s.dev.xtEntry t sp (v + i)) →
    (k = s.dev.rd (mappedFld sp) t - (olds.filter fun e => bit e 63).length) →
    (ps = (olds.filter fun e => bit e 63).map fun e => pageKey sp (bits e 18 0)) →
    (a = (List.range n).foldl (fun d i => d.pokeN spT1 (d.xtBase t + 8 * d.xtIndex t sp (v + i)) 8 (0)) s.dev) →
    (b = ((ps.foldl (fun d p => if d.pageState p = pgVacated then d.setPage p pgPlain else d) a).wr (mappedFld sp) t k).wr MEM_XT_OP1.busy 0 1) →
    exec (.xtReclaim 0) s = .next (s.leads { b with mm := { b.mm with xtOp := some ⟨t, ps.filter fun p => s.dev.pageState p == pgDeparting || s.dev.pageState p == pgArriving⟩ } })) ∧
  (∀ (s : State) (o : XtOp),
    (s.dev.mm.xtOp = some o) →
    (∀ p ∈ o.waits, s.dev.pageState p ≠ pgDeparting ∧ s.dev.pageState p ≠ pgArriving) →
    exec .xtOpDone s = .next (s.settles { s.dev.wr MEM_XT_OP1.busy 0 0 with mm := { s.dev.mm with xtOp := none } })) ∧
  (∀ (s : State) (fn page target : Nat) (r : AtsReq) (a : Device),
    (fn < 64) →
    ((s.dev.mm.ats.reqs.find? fun r => r.fn == fn && r.page == page && !r.pri) = some r) →
    (a = { s.dev with mm := { s.dev.mm with ats := { s.dev.mm.ats with reqs := s.dev.mm.ats.reqs.filter fun q => q != r } } }) →
    exec (.translationCompletionRx fn page true true target) s = .next (s.settles (issueMore 16 r.ch (a.addAtc { fn := fn, page := page, write := true, target := target })))) ∧
  (∀ (s : State) (fn page : Nat) (r : AtsReq) (a : Device),
    (fn < 64) →
    ((s.dev.mm.ats.reqs.find? fun r => r.fn == fn && r.page == page && r.pri) = some r) →
    (a = { s.dev with mm := { s.dev.mm with ats := { s.dev.mm.ats with reqs := s.dev.mm.ats.reqs.filter fun q => q != r } } }) →
    (s.dev.rd MEM_CHAN_STAT.state r.ch = chPri) →
    exec (.prgResponseRx fn page 0) s = .next (s.settles ((a.resumeChan r.ch).askHost r.ch fn page r.write))) ∧
  (∀ (s : State) (fn page : Nat) (r : AtsReq) (a : Device),
    (fn < 64) →
    ((s.dev.mm.ats.reqs.find? fun r => r.fn == fn && r.page == page && r.pri) = some r) →
    (a = { s.dev with mm := { s.dev.mm with ats := { s.dev.mm.ats with reqs := s.dev.mm.ats.reqs.filter fun q => q != r } } }) →
    (s.dev.rd MEM_CHAN_STAT.state r.ch = chPri) →
    exec (.priTimeout fn page) s = .next (s.settles (a.failChan r.ch))) ∧
  (∀ (s : State) (fn page : Nat),
    (fn < 64) →
    exec (.atsInvalidationRx fn page) s = .next (s.leads { s.dev with mm := { s.dev.mm with ats := { s.dev.mm.ats with cache := s.dev.mm.ats.cache.filter fun x => !(x.fn == fn && x.page == page) } }, sent := .atsInvalidated fn page :: s.dev.sent }))

/-- Transfer channels: grant, chunks, flips, DMAGO, faults, digests -/
def Obligations.TransferChannels : Prop :=
  (∀ (s : State) (x : Xfer) (rest : List Xfer) (ch : Nat) (a : Device),
    (s.dev.mm.waiting = x :: rest) →
    (leastBelow 192 (fun ch => !(s.dev.mm.chans.any fun c => c.1 == ch) && !(s.dev.mm.fenced.contains (unitOf 6 (0x100 + ch)))) = some ch) →
    (x.kind = 1) →
    (a = Device.setChan { s.dev with mm := { s.dev.mm with waiting := rest } } ch { x with departing := [] }) →
    exec .channelGrant s = .next (s.settles (issueMore 16 ch ((((a.wr MEM_CHAN_STAT.tenancy ch x.ten).wr MEM_CHAN_STAT.kind ch 1).wr MEM_CHAN_STAT.queue ch x.queue).wr MEM_CHAN_STAT.state ch chActive)))) ∧
  (∀ (s : State) (ch k src dst len done : Nat) (data bs : List Byte) (x : Xfer) (a e : Device),
    (ch < 256) →
    (s.dev.chan? ch = some x) →
    (x.kind = 1) →
    (s.dev.rd MEM_CHAN_STAT.done ch ≤ k) →
    (k < x.issued) →
    (k ∉ x.landed) →
    (s.dev.rd MEM_CHAN_STAT.state ch ≠ chHalted) →
    (chunkOf x.chunk x.pieces k = some (src, dst, len)) →
    (s.dev.isLocal src = true) →
    (s.dev.hostSrc x src = false) →
    (s.dev.readGA x.ten src len = .ok bs) →
    (a = s.dev.touchTS src len) →
    (a.isLocal dst = true) →
    (a.writeWaits x.ten dst bs.length = false) →
    (a.ownWrite x.ten dst bs .none = (e, .ok)) →
    (e.isLocal dst = true) →
    (done = advanceDone (k :: x.landed) 4096 (s.dev.rd MEM_CHAN_STAT.done ch)) →
    (done ≠ x.chunks) →
    exec (.chunkLanded ch k data) s = .next (s.settles (issueMore 16 ch ((e.setChan ch { x with landed := (k :: x.landed).filter fun j => decide (done ≤ j) }).wr MEM_CHAN_STAT.done ch done)))) ∧
  (∀ (s : State) (ch : Nat) (x : Xfer),
    (ch < 256) →
    (s.dev.chan? ch = some x) →
    (x.kind = 0) →
    (s.dev.rd MEM_CHAN_STAT.state ch = chFlipping) →
    (s.dev.isLocal x.dst = true) →
    (∀ f ∈ (s.dev.flip ch x).fab.flips, f.ch ≠ ch) →
    exec (.crossingFlip ch) s = .next (s.settles (s.dev.flip ch x))) ∧
  (∀ (s : State) (n src dst len tok q cy : Nat) (l m : Leg) (e : Device) (x : Xfer),
    (n < 192) →
    (tok < 64) →
    (src < 2 ^ 64) →
    (dst < 2 ^ 64) →
    (max l.count (s.dev.rd COR_TIMING.leg_start n) = cy) →
    (s.dev.issues n cy l e m) →
    (e.mm.waiting = []) →
    ((leastBelow 192 fun ch => !(e.mm.chans.any fun c => c.1 == ch) && !e.mm.fenced.contains (chanUnit ch)).isSome = true) →
    (e.isLocal src = true) →
    (e.isLocal dst = true) →
    (src + len ≤ dst ∨ dst + len ≤ src) →
    (q = ((e.cmd? m.sn).map fun c => c.queue).getD 0) →
    (x = { kind := 1, sn := m.sn, queue := q, ten := m.ten, cls := m.cls, client := m.client, step := m.step, mid := m.mid, src := src, dst := dst, len := len, chunk := chunkSize src dst, notify := .token n m.serial tok, leg := m.idx, ord := m.dmas }) →
    exec (.dmago n src dst len tok) s = .next (s.settles ((Machine.channelGrant ((e.modRun m.sn fun r => { r with movers := r.movers + 1 }).queueXfer x)).putLeg n { m with dmas := m.dmas + 1 }))) ∧
  (∀ (s : State) (n src dst len tok cy : Nat) (l m : Leg) (e : Device),
    (n < 192) →
    (tok < 64) →
    (src < 2 ^ 64) →
    (dst < 2 ^ 64) →
    (max l.count (s.dev.rd COR_TIMING.leg_start n) = cy) →
    (s.dev.issues n cy l e m) →
    (e.mm.waiting ≠ [] ∨ (leastBelow 192 fun ch => !(e.mm.chans.any fun c => c.1 == ch) && !e.mm.fenced.contains (chanUnit ch)) = none) →
    exec (.dmago n src dst len tok) s = .next (s.settles (e.putLeg n { m with stall := some [scDma, src, dst, len, tok] }))) ∧
  (∀ (s : State) (ch ga : Nat) (x : Xfer) (a : Device),
    (ch < 256) →
    (s.dev.chan? ch = some x) →
    (s.dev.rd MEM_CHAN_STAT.state ch = chActive) →
    (s.dev.faultOf ch x = some (false, ga)) →
    (s.dev.beyondService ga = false) →
    (s.dev.regionRefuses x.ten ga = false) →
    (s.dev.rd MEM_CHAN_ADDR.fault_addr ch / pageSize ≠ ga / pageSize) →
    (a = (((s.dev.wr MEM_CHAN_STAT.fault_repeat ch 1).wr MEM_CHAN_ADDR.fault_addr ch ga).log { unit := chanUnit ch, sev := 0, op := 0x09, detail := ga, ten := x.ten, addr := ga }).wr MEM_CHAN_STAT.state ch 2) →
    exec (.chunkFault ch false) s = .next (s.settles (a.raise x.ten ((((s.dev.wr MEM_CHAN_STAT.fault_repeat ch 1).wr MEM_CHAN_ADDR.fault_addr ch ga).log
      { unit := chanUnit ch, sev := 0, op := 0x09, detail := ga, ten := x.ten, addr := ga }).rd MEM_XT_BASE.fault_vector x.ten)))) ∧
  (∀ (s : State) (fn ch : Nat),
    (fn < 64) →
    (ch < 256) →
    (s.dev.reaches fn .MEM_CHAN_CTL = true) →
    (s.dev.rd MEM_CHAN_STAT.tenancy ch = fn) →
    (s.dev.rd MEM_CHAN_STAT.state ch = chDevice) →
    exec (.chanResume fn ch) s = .next (s.settles (s.dev.resumeChan ch))) ∧
  (∀ (s : State) (fn ch : Nat),
    (fn < 64) →
    (ch < 256) →
    (s.dev.reaches fn .MEM_CHAN_CTL = true) →
    (s.dev.rd MEM_CHAN_STAT.tenancy ch = fn) →
    (s.dev.rd MEM_CHAN_STAT.state ch = chDevice) →
    exec (.chanAbort fn ch) s = .next (s.settles (s.dev.failChan ch))) ∧
  (∀ (s : State) (ch : Nat),
    (ch < 256) →
    (s.dev.rd MEM_CHAN_STAT.state ch = chDevice) →
    exec (.chanServiceTimeout ch) s = .next (s.settles (s.dev.failChan ch))) ∧
  (∀ (s : State) (ch kind ga : Nat) (x : Xfer) (a : Device),
    (ch < 192) →
    (kind < 6) →
    (s.dev.chan? ch = some x) →
    (a = s.dev.poisonGA x.ten ga) →
    exec (.channelUncorrectable ch ⟨kind, ga⟩) s = .next (s.settles ((a.uncorr (chanUnit ch) kind { unit := 0, sev := 2, op := 0x02, ten := x.ten, cls := x.cls, client := x.client, mid := x.mid, step := x.step, addr := ga }).haltChan ch (eccDetail s.dev.nextRec (chanUnit ch) 0xFFFF)))) ∧
  (∀ (s : State) (e x kind ga : Nat) (r : Route),
    (e < 8) →
    (x < 8) →
    (kind < 6) →
    ((s.dev.rctx e x).route = some r) →
    exec (.channelUncorrectable (192 + 8 * e + x) ⟨kind, ga⟩) s = .next (s.settles (((s.dev.poisonGA r.ten ga).eccRoute e x r).errorWaitsAll))) ∧
  (∀ (s : State) (t i sn : Nat) (rest : List (Nat × Nat × Nat)) (bs : List Byte) (a b : Device),
    (s.dev.mm.hashing = (t, i, sn) :: rest) →
    (s.dev.readGA t (s.dev.landHome t i) (s.dev.landLen t i) = .ok bs) →
    (a = { s.dev with mm := { s.dev.mm with hashing := rest } }) →
    (b = (a.poke devKey spT1 (a.landAt t i + 64) (sha512 bs))) →
    exec .declarationDigestDone s = .next (s.settles ((((b.pokeN spT1 (b.landAt t i + 1) 1 (b.landFlags t i ||| 1)).pokeN spT1 ((b.pokeN spT1 (b.landAt t i + 1) 1 (b.landFlags t i ||| 1)).landAt t i) 1 1).finish sn stOk 0 none).crossAgain)))

/-- Arbiters, refresh, scrub, fills -/
def Obligations.MemoryServices : Prop :=
  (∀ (s : State) (u : Nat) (reqs : List MReq) (w : Nat),
    (u < 65536) →
    (u ∉ s.dev.mm.refreshing) →
    (memWinner (isPoolBank u) (smGet s.dev.mm.arbs u {}).holder (reqs.filter fun r => !s.dev.mm.fenced.contains r.unit && (!r.debug || s.dev.debugOpen)) = some w) →
    exec (.memArbiterGrant u reqs false true) s = .next (s.leads { s.dev with mm := { s.dev.mm with arbs := smSet s.dev.mm.arbs u {} { holder := some w, grant := some w } } })) ∧
  (∀ (s : State) (u : Nat) (a : Device),
    (u < 65536) →
    (¬(u / 4096 = 6 ∧ 0x100 ≤ u % 4096 ∧ u % 4096 < 0x200)) →
    (a = ((s.dev.log { unit := u, sev := 4, op := 0x08, detail := u }).incSat MEM_ARB_STAT.wdt_fires 0 1).wr MEM_ARB_STAT.last_unit 0 u) →
    (Device.logicalOf { a with mm := { a.mm with fenced := u :: a.mm.fenced.filter fun f => f != u } } (coreOfUnit u) = none) →
    exec (.memArbWatchdogFire u) s = .next (s.settles { a with mm := { a.mm with fenced := u :: a.mm.fenced.filter fun f => f != u } })) ∧
  (∀ (s : State) (u : Nat) (b : Bool),
    (u < 65536) →
    exec (.refresh u b) s = .next (s.leads { s.dev with mm := { s.dev.mm with refreshing := if b then u :: s.dev.mm.refreshing.filter (fun x => x != u) else s.dev.mm.refreshing.filter fun x => x != u } })) ∧
  (∀ (s : State) (sp off row : Nat) (u : Nat × Nat),
    (sp < 5) →
    (s.dev.on MEM_SCRUB_CFG.enable 0 = true) →
    (u = s.dev.placeUnit sp off) →
    ((s.dev.correctable u.1 u.2 row).2 = false) →
    exec (.scrubRead sp off 1 row) s = .next (s.settles (s.dev.correctable u.1 u.2 row).1)) ∧
  (∀ (s : State) (u : Nat),
    (u < 65536) →
    exec (.correctedWriteBack u) s = .next (s.settles { s.dev with ras := { s.dev.ras with corr := s.dev.ras.corr.filter fun x => x != u } })) ∧
  (∀ (s : State) (a b c : Device),
    (s.dev.rd PWR_STATE_STAT.state 0 = 4) →
    (s.dev.rd PWR_START_STAT.step 0 = 5) →
    (s.dev.pwr.held = false) →
    (a = ((s.dev.wr MEM_FILL_STAT.ts_done 0 1).wr MEM_FILL_STAT.dp_done 0 1).wr MEM_FILL_STAT.t1_done 0 1) →
    (b = (List.range 192).foldl (fun d n => if d.coreSt n = csFill then d.setCoreSt n csIdle else d) a) →
    (c = Machine.serviceEvaluation (((b.wr PWR_START_STAT.step 0 8).wr PWR_START_STAT.start_ms 0 (min ((b.cycle - b.pwr.startAt) / 1800000) (2 ^ 32 - 1))).wr PWR_STATE_STAT.state 0 0)) →
    exec .tier1FillDone s = .next (s.settles ((if c.pwr.deepExit then ({ c with pwr := { c.pwr with deepExit := false } } : Device).ibi 5 else c).watchSvc s.dev))) ∧
  (∀ (s : State) (a b : Device),
    (s.dev.on MEM_FILL_STAT.t1_done 0 = true) →
    (s.dev.on MEM_FILL_STAT.t2_done 0 = false) →
    (a = (s.dev.wr MEM_FILL_STAT.t2_done 0 1).releaseHeld chNone id) →
    (b = (a.mm.chans.map fun c => c.1).foldl (fun d ch => issueMore 16 ch d) a) →
    exec .tier2FillDone s = .next (s.settles (if b.rd PWR_START_STAT.step 0 = 8 then b.wr PWR_START_STAT.step 0 9 else b)))

/-- Errors, the fault log, field repair, steeping -/
def Obligations.ErrorsAndRepair : Prop :=
  (∀ (s : State),
    exec .bucketLeakTick s = .next (s.leads (s.dev.ras.buckets.foldl (fun d b => if b.2.1 = 0 then d else d.setBucket b.1 (b.2.1 - 1) b.2.2) s.dev))) ∧
  (∀ (s : State) (u kind row place : Nat) (r : Device × Bool),
    (u < 65536) →
    (kind < 6) →
    (place < 4) →
    (r = s.dev.correctable u kind row) →
    (∀ b ∈ r.1.ras.cores, unitOf (b.spare / 52) (b.spare % 52) ≠ coreOfUnit u) →
    (r.2 = false) →
    exec (.correctableError u kind row place) s = .next (s.settles r.1)) ∧
  (∀ (s : State) (u kind row place : Nat) (r : Device × Bool),
    (u < 65536) →
    (kind < 6) →
    (place < 4) →
    (r = s.dev.correctable u kind row) →
    (∀ b ∈ r.1.ras.cores, unitOf (b.spare / 52) (b.spare % 52) ≠ coreOfUnit u) →
    (r.2 = true) →
    (place = 1 ∨ place = 2) →
    exec (.correctableError u kind row place) s = .next (s.settles (Machine.deviceReset u kind (place == 1) r.1))) ∧
  (∀ (s : State) (u kind row place n : Nat) (l : Leg) (r : Device × Bool),
    (u < 65536) →
    (kind < 6) →
    (place < 4) →
    (r = s.dev.correctable u kind row) →
    (∀ b ∈ r.1.ras.cores, unitOf (b.spare / 52) (b.spare % 52) ≠ coreOfUnit u) →
    (r.2 = true) →
    (place = 0) →
    (r.1.logicalOf (coreOfUnit u) = some n) →
    ((r.1.core n).leg = some l) →
    (l.internal = 0) →
    exec (.correctableError u kind row place) s = .next (s.settles (((((r.1.escalated u kind l.rec_).closeLeg n l (l.count + 1) csIdle).failRun l.sn stEcc (eccDetail r.1.nextRec u l.idx)).legOver l)))) ∧
  (∀ (s : State) (u kind row place : Nat) (b : BringIn) (r : Device × Bool),
    (u < 65536) →
    (kind < 6) →
    (place < 4) →
    (r = s.dev.correctable u kind row) →
    ((r.1.ras.cores.find? fun b => unitOf (b.spare / 52) (b.spare % 52) == coreOfUnit u) = some b) →
    exec (.correctableError u kind row place) s = .next (s.settles (r.1.spareFails b 0xFF))) ∧
  (∀ (s : State) (k : Nat) (r : FaultRec) (a : Device),
    (s.dev.ras.cpBusy = none) →
    (s.dev.ras.inflight[k]? = some r) →
    ((r.index + 2 ^ 32 - s.dev.rd RAS_LOG_STAT.consumed 0) % 2 ^ 32 < 4096) →
    (a = { s.dev with ras := { s.dev.ras with inflight := s.dev.ras.inflight.eraseIdx k, ring := smIns s.dev.ras.ring (r.index % 4096) r } }) →
    exec (.faultRecordLogged k) s = .next (s.leads (a.wr RAS_LOG_CNT.inflight 0 (s.dev.ras.inflight.eraseIdx k).length))) ∧
  (∀ (s : State) (unit kind : Nat) (page : Bool) (f : Nat × Device),
    (unit < 65536) →
    (kind < 6) →
    (f = s.dev.fresh (2 ^ 56)) →
    exec (.deviceReset unit kind page) s = .next (s.leads ((f.2.log { unit := unit, sev := 7, op := 0x02, detail := f.1 + kind <<< 56 }).deviceReset (if page then 1 else 2) unit))) ∧
  (∀ (s : State),
    (s.dev.reaches 0 .RAS_REPAIR_STAT = true) →
    (s.dev.on RAS_REPAIR_STAT.busy 0 = false) →
    (s.dev.rd RAS_REPAIR_STAT.free 0 ≠ 0) →
    exec (.repairProgram 0) s = .next (s.leads (s.dev.startRepair (s.dev.rd RAS_REPAIR_OP.entry 0)))) ∧
  (∀ (s : State) (e : Nat) (a b c : Device),
    (s.dev.ras.repairing = some e) →
    (s.dev.rd RAS_REPAIR_STAT.free 0 ≠ 0) →
    (s.dev.ras.pendingRepair = []) →
    (a = { s.dev with ras := { s.dev.ras with repairing := none, array := s.dev.ras.array ++ [e] } }) →
    (b = (a.wr RAS_REPAIR_STAT.busy 0 0).wr RAS_REPAIR_STAT.free 0 (a.rd RAS_REPAIR_STAT.free 0 - 1)) →
    (c = (b.wr RAS_REPAIR_STAT.ok 0 1).log { unit := reUnit e, sev := 0, op := 0x0F, detail := e }) →
    ((if crc12 e = e % 4096 then c.applyRepair e else c).ras.pendingRepair = []) →
    exec (.repairProgramDone true) s = .next (s.settles ((if crc12 e = e % 4096 then c.applyRepair e else c).watchSvc s.dev))) ∧
  (∀ (s : State) (e : Nat) (a b : Device),
    (s.dev.ras.repairing = some e) →
    (s.dev.rd RAS_REPAIR_STAT.free 0 ≠ 0) →
    (s.dev.ras.pendingRepair = []) →
    (a = { s.dev with ras := { s.dev.ras with repairing := none, array := s.dev.ras.array ++ [0] } }) →
    (b = (a.wr RAS_REPAIR_STAT.busy 0 0).wr RAS_REPAIR_STAT.free 0 (a.rd RAS_REPAIR_STAT.free 0 - 1)) →
    exec (.repairProgramDone false) s = .next (s.settles ((b.wr RAS_REPAIR_STAT.fail 0 1).watchSvc s.dev))) ∧
  (∀ (s : State) (u : Nat),
    (u < 65536) →
    (u ∈ s.dev.ras.rowMove) →
    exec (.dramRowRepairDone u) s = .next (s.settles { s.dev with ras := { s.dev.ras with rowMove := s.dev.ras.rowMove.filter (fun x => x != u), memEvents := s.dev.ras.memEvents.filter (fun x => x != u) } })) ∧
  (∀ (s : State) (u : Nat),
    (u < 65536) →
    (s.dev.reaches 0 .RAS_RETIRE = true) →
    exec (.retireUnit 0 u) s = .next (s.settles ((s.dev.retireUnit u 0).watchSvc s.dev))) ∧
  (∀ (s : State) (u : Nat),
    (u < 65536) →
    (s.dev.reaches 0 .RAS_RETIRE = true) →
    exec (.startSteeping 0 u) s = .next (s.leads (s.dev.steep u))) ∧
  (∀ (s : State) (u : Nat),
    (u < 65536) →
    (s.dev.reaches 0 .RAS_RETIRE = true) →
    exec (.endSteeping 0 u) s = .next (s.leads (s.dev.unsteep u))) ∧
  (∀ (s : State) (u : Nat) (e : Nat × Nat),
    (u < 65536) →
    ((s.dev.ras.steeping.find? fun e => e.1 == u) = some e) →
    (e.2 + s.dev.rd RAS_POLICY.steep_hours 0 * 3600 * secCycles ≤ s.dev.cycle) →
    exec (.steepingExpiry u) s = .next (s.leads (s.dev.unsteep u)))

/-- Spares, bring-ins, control processors, tasting, tests -/
def Obligations.SparesAndTasting : Prop :=
  (∀ (s : State) (n : Nat) (r : Nat × Nat),
    (n < 192) →
    ((s.dev.ras.retiring.find? fun r => r.1 == s.dev.coreUnit n) = some r) →
    (∀ b ∈ s.dev.ras.cores, b.logical ≠ n) →
    exec (.coreBringIn n) s = .next (s.settles ((s.dev.failCore n r.2 (s.dev.coreUnit n)).nextSpare n (s.dev.coreUnit n)))) ∧
  (∀ (s : State) (n : Nat) (b : BringIn),
    (n < 192) →
    ((s.dev.ras.cores.find? fun b => b.logical == n) = some b) →
    exec (.coreBringInDone n false) s = .next (s.settles (s.dev.spareFails b 0xFF))) ∧
  (∀ (s : State) (n : Nat) (b : BringIn) (a e f g : Device),
    (n < 192) →
    ((s.dev.ras.cores.find? fun b => b.logical == n) = some b) →
    (a = s.dev.setCore n { s.dev.core n with bringIn := false, fenced := [], banks := [] }) →
    (e = Device.zero { a with ras := { a.ras with cores := a.ras.cores.filter (fun c => c.logical != n), retiring := a.ras.retiring.filter (fun r => r.1 != b.unit), lost := b.unit :: a.ras.lost } } spTS (tsOff n 0) 2097152) →
    (f = ((e.wr COR_LMAP.phys n b.spare).wr COR_LMAP.remapped n 1).describeCore n) →
    (g = (f.incWrap COR_TIMING.generation n 1).showSpares (n / 48)) →
    exec (.coreBringInDone n true) s = .next (s.settles ((((g.setCoreSt n csIdle).placeWindows n).logBringIn b.unit (unitOf (b.spare / 52) (b.spare % 52))).showReserve))) ∧
  (∀ (s : State) (n c r : Nat),
    (n < 192) →
    ((s.dev.ras.rows.find? fun r => r.1 == s.dev.coreUnit n) = some (s.dev.coreUnit n, c, r)) →
    ((s.dev.core n).leg = none) →
    (s.dev.coreSt n = csIdle) →
    (∀ w, s.dev.nextWindow n s.dev.cycle = some w → (s.dev.cycle : Int) + 198000 ≤ w) →
    (cubeField (s.dev.reg .COR_CUBE_REPAIR n).toNat c < 8) →
    exec (.cubeRowBringIn n) s = .next (s.settles ((s.dev.setCore n { s.dev.core n with bringIn := true }).setCoreSt n csRecovery))) ∧
  (∀ (s : State) (n c r : Nat),
    (n < 192) →
    ((s.dev.ras.rows.find? fun r => r.1 == s.dev.coreUnit n) = some (s.dev.coreUnit n, c, r)) →
    ((s.dev.core n).leg = none) →
    (s.dev.coreSt n = csIdle) →
    (∀ w, s.dev.nextWindow n s.dev.cycle = some w → (s.dev.cycle : Int) + 198000 ≤ w) →
    (8 ≤ cubeField (s.dev.reg .COR_CUBE_REPAIR n).toNat c) →
    exec (.cubeRowBringIn n) s = .next (s.settles (Device.retire { s.dev with ras := { s.dev.ras with rows := s.dev.ras.rows.filter fun r => r.1 != s.dev.coreUnit n } } (s.dev.coreUnit n) 0x0F))) ∧
  (∀ (s : State) (n c r : Nat) (a b : Device),
    (n < 192) →
    ((s.dev.ras.rows.find? fun r => r.1 == s.dev.coreUnit n) = some (s.dev.coreUnit n, c, r)) →
    ((s.dev.core n).bringIn = true) →
    (s.dev.coreSt n = csRecovery) →
    (∀ b ∈ s.dev.ras.cores, b.logical ≠ n) →
    (a = (s.dev.setCore n { s.dev.core n with bringIn := false, fenced := [], banks := [] }).setReg .COR_CUBE_REPAIR n (BitVec.ofNat 64 (repairRow (s.dev.reg .COR_CUBE_REPAIR n).toNat c r))) →
    (b = (((a.wr COR_TIMING.cube_depth n 5).wr COR_TIMING.leg_start n 25).incWrap COR_TIMING.generation n 1).setCoreSt n csIdle) →
    exec (.cubeRowBringInDone n) s = .next (s.settles (({ b with ras := { b.ras with rows := b.ras.rows.filter fun r => !(r.1 == s.dev.coreUnit n && r.2.1 == c) } } : Device).logBringIn (s.dev.coreUnit n) (s.dev.coreUnit n)))) ∧
  (∀ (s : State) (u p : Nat),
    (u < 65536) →
    (s.dev.isRetiring u = true) →
    (isPcUnit u = true) →
    (∀ c ∈ s.dev.ras.psCopies, c.1 ≠ u) →
    (s.dev.sparePc u = some p) →
    exec (.pseudoChannelCopy u) s = .next (s.leads (Device.perturbLegs { s.dev with ras := { s.dev.ras with psCopies := s.dev.ras.psCopies ++ [(u, p)], memEvents := u :: s.dev.ras.memEvents } }))) ∧
  (∀ (s : State) (u : Nat),
    (u < 65536) →
    (s.dev.isRetiring u = true) →
    (isPcUnit u = true) →
    (∀ c ∈ s.dev.ras.psCopies, c.1 ≠ u) →
    (s.dev.sparePc u = none) →
    exec (.pseudoChannelCopy u) s = .next (s.leads { s.dev with ras := { s.dev.ras with retiring := s.dev.ras.retiring.filter fun r => r.1 != u } })) ∧
  (∀ (s : State) (u p : Nat),
    (u < 65536) →
    ((s.dev.ras.psCopies.find? fun c => c.1 == u) = some (u, p)) →
    exec (.pseudoChannelCopyDone u) s = .next (s.leads (({ s.dev with ras := { s.dev.ras with psCopies := s.dev.ras.psCopies.filter (fun c => c.1 != u), memEvents := s.dev.ras.memEvents.filter (fun x => x != u), psMap := smIns s.dev.ras.psMap (s.dev.pcOrigin u) p, retiring := s.dev.ras.retiring.filter (fun r => r.1 != u), lost := u :: s.dev.ras.lost } } : Device).log { unit := u, sev := 5, op := 0x1B, detail := u + p <<< 16 }))) ∧
  (∀ (s : State) (e u p : Nat) (a b : Device),
    (e < 8) →
    (u = s.dev.engineUnit e) →
    (s.dev.isRetiring u = true) →
    (a = s.dev.sweepEngines) →
    (p = spareEngine e) →
    (a.engineSpareFree e = true) →
    (b = (a.wr RTE_MAP.phys e p).wr RTE_MAP.remapped e 1) →
    exec (.engineBringIn e true) s = .next (s.settles ((List.range 4).foldl (fun (c : Device) i =>
      c.wr RTE_MAP.spare_avail (e / 4 * 4 + i) (b2n (c.engineSpareFree e))) ((((Device.wr { b with ras := { b.ras with retiring := b.ras.retiring.filter (fun r => r.1 != u), lost := u :: b.ras.lost } } RTE_MAP.state e 2).showEngine e).logBringIn u (engineUnitOf p)))))) ∧
  (∀ (s : State) (e src u : Nat),
    (e < 8) →
    (src < 192) →
    (u = s.dev.reqUnit src 27) →
    ((e, u) ∉ s.dev.rteFenced) →
    exec (.engineInputWatchdogFire e src) s = .next (s.leads ((({ s.dev with rteFenced := (e, u) :: s.dev.rteFenced } : Device).incSat RTE_STALL.fenced e 1).log { unit := u, sev := 4, op := 0x08, detail := u }))) ∧
  (∀ (s : State) (k : Nat),
    (k < 4) →
    (bit (s.dev.rd RAS_CP_STAT.active 0) k = true) →
    exec (.cpCheckpoint k) s = .next (s.leads { s.dev with ras := { s.dev.ras with cpTasks := smSet s.dev.ras.cpTasks k {} { seq := (smGet s.dev.ras.cpTasks k {}).seq + 1, journal := 0 } } })) ∧
  (∀ (s : State) (k : Nat) (a : Device),
    (k < 4) →
    (bit (s.dev.rd RAS_CP_STAT.working 0) k = true) →
    (s.dev.rd RAS_CP_STAT.working 0 &&& (15 - 2 ^ k) ≠ 0) →
    (a = (s.dev.wr RAS_CP_STAT.working 0 (s.dev.rd RAS_CP_STAT.working 0 &&& (15 - 2 ^ k))).wr RAS_CP_STAT.active 0 (s.dev.rd RAS_CP_STAT.active 0 &&& (15 - 2 ^ k))) →
    (a.ras.cpBusy = none) →
    (s.dev.on RAS_CP_STAT.no_spare 0 = false) →
    (s.dev.rd RAS_CP_STAT.spare 0 ≠ k) →
    exec (.cpFailure k) s = .next (s.settles (({ a with ras := { a.ras with cpBusy := some (k, 2 ^ s.dev.rd RAS_CP_STAT.spare 0) } } : Device).watchSvc s.dev))) ∧
  (∀ (s : State) (k : Nat) (a : Device),
    (k < 4) →
    (bit (s.dev.rd RAS_CP_STAT.working 0) k = true) →
    (s.dev.rd RAS_CP_STAT.working 0 &&& (15 - 2 ^ k) ≠ 0) →
    (a = (s.dev.wr RAS_CP_STAT.working 0 (s.dev.rd RAS_CP_STAT.working 0 &&& (15 - 2 ^ k))).wr RAS_CP_STAT.active 0 (s.dev.rd RAS_CP_STAT.active 0 &&& (15 - 2 ^ k))) →
    (a.ras.cpBusy = none) →
    (s.dev.on RAS_CP_STAT.no_spare 0 = false) →
    (s.dev.rd RAS_CP_STAT.spare 0 = k) →
    exec (.cpFailure k) s = .next (s.settles ((a.wr RAS_CP_STAT.no_spare 0 1).watchSvc s.dev))) ∧
  (∀ (s : State) (k : Nat) (a : Device),
    (k < 4) →
    (bit (s.dev.rd RAS_CP_STAT.working 0) k = true) →
    (s.dev.rd RAS_CP_STAT.working 0 &&& (15 - 2 ^ k) ≠ 0) →
    (a = (s.dev.wr RAS_CP_STAT.working 0 (s.dev.rd RAS_CP_STAT.working 0 &&& (15 - 2 ^ k))).wr RAS_CP_STAT.active 0 (s.dev.rd RAS_CP_STAT.active 0 &&& (15 - 2 ^ k))) →
    (a.ras.cpBusy = none) →
    (s.dev.on RAS_CP_STAT.no_spare 0 = true) →
    exec (.cpFailure k) s = .next (s.settles (({ a with ras := { a.ras with cpBusy := some (k, s.dev.rd RAS_CP_STAT.active 0 &&& (15 - 2 ^ k)) } } : Device).watchSvc s.dev))) ∧
  (∀ (s : State) (k w act : Nat) (a : Device),
    (s.dev.ras.cpBusy = some (k, w)) →
    (act = s.dev.rd RAS_CP_STAT.active 0 ||| w) →
    (a = (Device.incSat { s.dev with ras := { s.dev.ras with cpBusy := s.dev.ras.cpNext.head?.map fun j => (j, act), cpNext := s.dev.ras.cpNext.drop 1 } } RAS_CP_STAT.takeovers 0 1).wr RAS_CP_STAT.no_spare 0 1) →
    exec .cpTakeoverDone s = .next (s.settles ((a.wr RAS_CP_STAT.active 0 act).log { unit := unitOf 6 k, sev := 5, op := 0x14, detail := k + w <<< 8 }))) ∧
  (∀ (s : State) (p k : Nat),
    (s.dev.on RAS_CP_STAT.no_spare 0 = false) →
    (s.dev.ras.cpBusy = none) →
    (p = s.dev.rd RAS_CP_STAT.spare 0) →
    ((([1, 2, 3].map fun i => (p + i) % 4).find? fun k => bit (s.dev.rd RAS_CP_STAT.active 0) k) = some k) →
    exec .cpSpareRotation s = .next (s.leads ((s.dev.wr RAS_CP_STAT.active 0 ((s.dev.rd RAS_CP_STAT.active 0 &&& (15 - 2 ^ k)) ||| 2 ^ p)).wr RAS_CP_STAT.spare 0 k))) ∧
  (∀ (s : State) (n : Nat) (t : Taste),
    (n < 192) →
    (s.dev.tasteOn n = some t) →
    (t.placed = true) →
    (t.phase = 0) →
    exec (.tasteLeg n true) s = .next (s.settles (((s.dev.incWrap RAS_TASTE_CNT.tasted t.core 1).binAdd t.core (tbinOf (toSigned 16 t.temp)) (vbinOf t.volt) t.fmt.binRow 1).tasteOver t))) ∧
  (∀ (s : State) (n : Nat) (t : Taste) (a : Device),
    (n < 192) →
    (s.dev.tasteOn n = some t) →
    (t.placed = true) →
    (t.phase = 0) →
    (a = (s.dev.incWrap RAS_TASTE_CNT.tasted t.core 1).binAdd t.core (tbinOf (toSigned 16 t.temp)) (vbinOf t.volt) t.fmt.binRow 1) →
    exec (.tasteLeg n false) s = .next (s.settles { a with ras := { a.ras with tastes := a.ras.tastes.map fun x => if x.id = t.id then { t with phase := 1, other := n, placed := false, die := a.thirdDie t n } else x } })) ∧
  (∀ (s : State) (n : Nat) (t : Taste) (a : Device),
    (n < 192) →
    (s.dev.tasteOn n = some t) →
    (t.placed = true) →
    (t.phase = 1) →
    (n ≠ t.other) →
    (a = s.dev.log { unit := s.dev.coreUnit t.core, sev := 2, op := 0x0A, flags := 4, temp := t.temp, volt := t.volt, ten := t.ten, mid := t.mid, leg := t.leg, detail := t.cube + (t.cube / 4) <<< 4 + 2 <<< 8 + s.dev.coreUnit t.other <<< 32 }) →
    exec (.tasteArbitration n 2) s = .next (s.settles (((a.incSat RAS_CORE_HEALTH.as_taster t.other 1).steep (s.dev.coreUnit t.other)).tasteOver t))) ∧
  (∀ (s : State) (n v : Nat) (t : Taste) (a b : Device),
    (n < 192) →
    (s.dev.tasteOn n = some t) →
    (t.placed = true) →
    (t.phase = 1) →
    (n ≠ t.other) →
    (v = 1 ∨ v = 3) →
    (a = (((s.dev.log { unit := s.dev.coreUnit t.core, sev := 2, op := 0x0A, flags := 4, temp := t.temp, volt := t.volt, ten := t.ten, mid := t.mid, leg := t.leg, detail := t.cube + (t.cube / 4) <<< 4 + v <<< 8 + s.dev.coreUnit t.other <<< 32 }).incSat RAS_CORE_HEALTH.as_original t.core 1).steep (s.dev.coreUnit t.core))) →
    (b = if v = 1 then (a.binAdd t.core (tbinOf (toSigned 16 t.temp)) (vbinOf t.volt) t.fmt.binRow 0).addEvent (s.dev.coreUnit t.core) evVerdict 0 0x0A 0 else (a.incSat RAS_CORE_HEALTH.as_taster t.other 1).steep (s.dev.coreUnit t.other)) →
    exec (.tasteArbitration n v) s = .next (s.settles ((b.failRun t.sn stTaste (s.dev.nextRec % 65536 + s.dev.coreUnit t.core <<< 16)).tasteOver t))) ∧
  (∀ (s : State) (n : Nat),
    (n < 192) →
    exec (.periodicTestDue n false) s = .next (s.leads (s.dev.setCore n { s.dev.core n with testDue := true }))) ∧
  (∀ (s : State) (n : Nat),
    (n < 192) →
    exec (.periodicTestDue n true) s = .next (s.leads (if (s.dev.core n).testDue then s.dev.incSat RAS_CORE_HEALTH.tests_late n 1 else s.dev)))

/-- The timing unit: latches, PTP stamps, domains, holdover, SyncE -/
def Obligations.TimingUnit : Prop :=
  (∀ (s : State) (fn : Nat),
    (fn < 64) →
    (s.dev.reaches fn .TIM_NOW_S = true) →
    exec (.timNowSRead fn) s = .next (s.leads { s.dev with timing := { s.dev.timing with latch := smIns s.dev.timing.latch fn (s.dev.nanos, s.dev.frac) }, sent := .readAnswer fn 0xD00000 8 s.dev.secs :: s.dev.sent })) ∧
  (∀ (s : State) (port : Nat) (data : List Byte),
    (port < 5) →
    (s.dev.isX = false ∨ port = 4) →
    ((ptpAt data).isSome = true) →
    exec (.ptpFrameRx port data) s = .next (s.leads { s.dev with timing := { s.dev.timing with frames := s.dev.timing.frames ++ [⟨port, (s.dev.time : Int) - toSigned 16 (s.dev.rd TIM_PORT_LAT.rx_adj_ps port) * 144 / 1000, data⟩] } })) ∧
  (∀ (s : State) (port tr o ty : Nat) (f out : List Byte),
    (port < 5) →
    (ptpAt f = some (tr, o)) →
    (ty = beAt f o 1 % 16) →
    (ty ≤ 3) →
    (port = 4 ∨ (s.dev.isX = false ∧ s.dev.outputsSafe = false)) →
    (ty = 0) →
    (bit (beAt f (o + 6) 1) 1 = false) →
    (o + 44 ≤ f.length) →
    (out = fixUdp f (insertStamp f o ((s.dev.time : Int) + toSigned 16 (s.dev.rd TIM_PORT_LAT.tx_adj_ps port) * 144 / 1000).toNat) tr o) →
    exec (.syncTx port f) s = .next (s.leads { s.dev with sent := .sync port (out ++ toLE 4 (crc32 out)) :: s.dev.sent })) ∧
  (∀ (s : State) (port tr o ty : Nat) (f : List Byte),
    (port < 5) →
    (ptpAt f = some (tr, o)) →
    (ty = beAt f o 1 % 16) →
    (ty ≤ 3) →
    (port = 4 ∨ (s.dev.isX = false ∧ s.dev.outputsSafe = false)) →
    (ty ≠ 0 ∨ bit (beAt f (o + 6) 1) 1 = true ∨ f.length < o + 44) →
    exec (.syncTx port f) s = .next (s.leads { s.dev with timing := { s.dev.timing with txStamps := s.dev.timing.txStamps ++ [⟨port, (s.dev.time : Int) + toSigned 16 (s.dev.rd TIM_PORT_LAT.tx_adj_ps port) * 144 / 1000, f⟩] }, sent := .sync port (f ++ toLE 4 (crc32 f)) :: s.dev.sent })) ∧
  (∀ (s : State) (k cls : Nat) (off : Int) (a : Device) (b c : Device) (j : Bool),
    (k < 2) →
    (cls < 256) →
    (1 ≤ s.dev.rd TIM_DOM_CFG.source k) →
    (s.dev.rd TIM_DOM_CFG.source k ≤ 4) →
    (s.dev.ras.cpBusy = none) →
    (a = s.dev.wr TIM_DOM_STAT.gm_class k (if s.dev.rd TIM_DOM_CFG.source k = 4 then 0 else cls)) →
    (s.dev.rd TIM_DOM_CFG.source k = 4 ∨ cls ≤ a.rd TIM_DOM_CFG.max_class k) →
    (b = { a.setOff k off with timing := if (a.setOff k off).selected == some k then { (a.setOff k off).timing with slewFrac := 0 } else (a.setOff k off).timing }) →
    (b.domState k = 2) →
    (c = b.setDom k { b.dom k with hist := (off :: (b.dom k).hist).take 16, last := off.natAbs }) →
    (j = (c.selected == some k && c.domLocked k && !c.on TIM_STAT.doubt 0 && decide (c.rd TIM_SEL_CTL.max_delta_ns 0 < off.natAbs))) →
    exec (.domainUpdate k off cls) s = .next (s.leads (if j then c.loseDom k else c).timeEval)) ∧
  (∀ (s : State) (k cls : Nat) (off : Int) (a : Device) (b c e : Device) (h : List Int) (j : Bool),
    (k < 2) →
    (cls < 256) →
    (1 ≤ s.dev.rd TIM_DOM_CFG.source k) →
    (s.dev.rd TIM_DOM_CFG.source k ≤ 4) →
    (s.dev.ras.cpBusy = none) →
    (a = s.dev.wr TIM_DOM_STAT.gm_class k (if s.dev.rd TIM_DOM_CFG.source k = 4 then 0 else cls)) →
    (s.dev.rd TIM_DOM_CFG.source k = 4 ∨ cls ≤ a.rd TIM_DOM_CFG.max_class k) →
    (b = { a.setOff k off with timing := if (a.setOff k off).selected == some k then { (a.setOff k off).timing with slewFrac := 0 } else (a.setOff k off).timing }) →
    (b.domState k = 1) →
    (h = (off :: (b.dom k).hist).take 16) →
    (c = b.setDom k { b.dom k with hist := h, last := off.natAbs }) →
    (e = if h.length = 16 ∧ h.foldl max off - h.foldl min off < 50 then c.wr TIM_DOM_STAT.state k 2 else c) →
    (j = (e.selected == some k && e.domLocked k && !e.on TIM_STAT.doubt 0 && decide (e.rd TIM_SEL_CTL.max_delta_ns 0 < off.natAbs))) →
    exec (.domainUpdate k off cls) s = .next (s.leads (if j then e.loseDom k else e).timeEval)) ∧
  (∀ (s : State) (k cls : Nat) (off : Int) (a : Device) (b e : Device) (j : Bool),
    (k < 2) →
    (cls < 256) →
    (1 ≤ s.dev.rd TIM_DOM_CFG.source k) →
    (s.dev.rd TIM_DOM_CFG.source k ≤ 4) →
    (s.dev.ras.cpBusy = none) →
    (a = s.dev.wr TIM_DOM_STAT.gm_class k (if s.dev.rd TIM_DOM_CFG.source k = 4 then 0 else cls)) →
    (s.dev.rd TIM_DOM_CFG.source k = 4 ∨ cls ≤ a.rd TIM_DOM_CFG.max_class k) →
    (b = { a.setOff k off with timing := if (a.setOff k off).selected == some k then { (a.setOff k off).timing with slewFrac := 0 } else (a.setOff k off).timing }) →
    (b.domState k ≠ 1) →
    (b.domState k ≠ 2) →
    (e = (b.wr TIM_DOM_STAT.state k 1).setDom k { (b.wr TIM_DOM_STAT.state k 1).dom k with hist := [off], last := off.natAbs }) →
    (j = (e.selected == some k && e.domLocked k && !e.on TIM_STAT.doubt 0 && decide (e.rd TIM_SEL_CTL.max_delta_ns 0 < off.natAbs))) →
    exec (.domainUpdate k off cls) s = .next (s.leads (if j then e.loseDom k else e).timeEval)) ∧
  (∀ (s : State) (k cls : Nat) (off : Int) (a : Device),
    (k < 2) →
    (cls < 256) →
    (1 ≤ s.dev.rd TIM_DOM_CFG.source k) →
    (s.dev.rd TIM_DOM_CFG.source k ≤ 4) →
    (s.dev.ras.cpBusy = none) →
    (a = s.dev.wr TIM_DOM_STAT.gm_class k (if s.dev.rd TIM_DOM_CFG.source k = 4 then 0 else cls)) →
    (s.dev.rd TIM_DOM_CFG.source k ≠ 4) →
    (a.rd TIM_DOM_CFG.max_class k < cls) →
    exec (.domainUpdate k off cls) s = .next (s.leads (a.loseDom k).timeEval)) ∧
  (∀ (s : State) (k : Nat),
    (k < 2) →
    exec (.domainLossTimeout k) s = .next (s.leads (s.dev.loseDom k).timeEval)) ∧
  (∀ (s : State) (k : Nat),
    (s.dev.selected = some k) →
    (s.dev.domLocked k = false) →
    (s.dev.domLocked (1 - k) = true) →
    (s.dev.domAbs (1 - k) ≤ s.dev.rd TIM_SEL_CTL.max_delta_ns 0) →
    exec .domainSwitchover s = .next (s.leads (s.dev.select (1 - k)).timeEval)) ∧
  (∀ (s : State) (k : Nat),
    (s.dev.selected = some k) →
    (s.dev.domLocked k = false) →
    (s.dev.domLocked (1 - k) = false ∨ s.dev.rd TIM_SEL_CTL.max_delta_ns 0 < s.dev.domAbs (1 - k)) →
    exec .domainSwitchover s = .next (s.leads (s.dev.enterHoldover k).timeEval)) ∧
  (∀ (s : State) (k j : Nat),
    (s.dev.selected = some k) →
    (s.dev.revertTo = some j) →
    (s.dev.domLocked (1 - k) = true) →
    (s.dev.domAbs (1 - k) ≤ s.dev.rd TIM_SEL_CTL.max_delta_ns 0) →
    exec .domainSwitchover s = .next (s.leads (s.dev.select (1 - k)).timeEval)) ∧
  (∀ (s : State) (k e : Nat) (a : Device),
    (s.dev.rd TIM_STAT.state 0 = 3) →
    (k = s.dev.timing.holdMs + 1) →
    (e = if s.dev.on TIM_STAT.synce_locked 0 then s.dev.timing.holdE0 * 7200000000000 + s.dev.rd TIM_HOLD_CTL.synce_unc_ppt 0 * 7200000 * k else s.dev.timing.holdErr + s.dev.rd TIM_HOLD_CTL.freq_unc_ppt 0 * 7200000 + s.dev.rd TIM_HOLD_CTL.ageing_ppt_h 0 * (2 * k - 1)) →
    (a = { s.dev with timing := { s.dev.timing with holdMs := k, holdErr := e } }) →
    exec .holdoverTick s = .next (s.leads (a.wr TIM_STAT.hold_err_ns 0 (min (e / 7200000000000) (2 ^ 32 - 1))).timeEval)) ∧
  (∀ (s : State) (k : Nat),
    (k < 2) →
    (s.dev.domLocked k = true) →
    exec (.requalifyExpiry k) s = .next (s.leads (s.dev.setDom k { s.dev.dom k with qual := true }).timeEval)) ∧
  (∀ (s : State) (p ssm : Nat),
    (p < 4) →
    (ssm < 15) →
    (s.dev.isX = false) →
    (s.dev.on TIM_SYNCE_CTL.enable 0 = true) →
    (s.dev.rd TIM_SYNCE_CTL.ref_port 0 = p) →
    exec (.esmcRx p ssm) s = .next (s.leads (((s.dev.wr TIM_SYNCE_CTL.ssm 0 ssm).wr TIM_SYNCE_CTL.state 0 2).wr TIM_STAT.synce_locked 0 1))) ∧
  (∀ (s : State),
    (s.dev.rd TIM_SYNCE_CTL.state 0 = 2) →
    exec .synceQualTimeout s = .next (s.leads ((s.dev.wr TIM_SYNCE_CTL.state 0 3).wr TIM_STAT.synce_locked 0 0))) ∧
  (∀ (s : State),
    exec .trefLoss s = .next (s.leads ({ s.dev with timing := { s.dev.timing with trefBad := true, trefQual := false } } : Device).setDoubt.announce))

/-- Slot boundaries, pulse outputs, capture inputs, PPS_IN -/
def Obligations.SlotsPulsesCaptures : Prop :=
  (∀ (s : State) (mu : Nat) (a : Device),
    (mu < 4) →
    (a = s.dev.toSlot mu) →
    (a.slotCount mu % 2 ^ mu = 0) →
    exec (.slotBoundary mu) s = .next (s.settles ((List.range 64).foldl (fun d t => if (d.txn t).valid && d.txState t == txCommitting && d.on TXN_STAT.slot_aligned t && decide ((d.txn t).validAt + 90000 ≤ d.cycle) then d.takeEffect t false else d) a))) ∧
  (∀ (s : State) (mu : Nat),
    (mu < 4) →
    ((s.dev.toSlot mu).slotCount mu % 2 ^ mu ≠ 0) →
    exec (.slotBoundary mu) s = .next (s.settles (s.dev.toSlot mu))) ∧
  (∀ (s : State) (k value : Nat) (p : Pulse),
    (k < 4) →
    (value < 2 ^ 64) →
    (s.dev.reaches 0 .TIM_PPS_CTL = true) →
    (bit value 0 = false) →
    (s.dev.on TIM_PPS_CTL.enable k = true) →
    (p = smGet s.dev.timing.pulses k {}) →
    exec (.ppsEnable 0 k value) s = .next (s.leads ((s.dev.wr TIM_PPS_CTL.enable k 0).setPulse k { p with armed := false, high := false, level := false }))) ∧
  (∀ (s : State) (k value : Nat) (a : Device),
    (k < 4) →
    (value < 2 ^ 64) →
    (s.dev.reaches 0 .TIM_PPS_CTL = true) →
    (bit value 0 = true) →
    (s.dev.on TIM_PPS_CTL.enable k = false) →
    (a = s.dev.setReg .TIM_PPS_CTL k (BitVec.ofNat 64 (value - value % 256 - (bits value 11 8) <<< 8 + (b2n (s.dev.on TIM_PPS_CTL.missed k && !bit value 7)) <<< 7 + (bits value 6 5) <<< 5 + (bits value 1 1) <<< 1))) →
    (a.rd TIM_PPS_CTL.width_ns k ≠ 0) →
    (a.on TIM_PPS_CTL.periodic k = false) →
    (((a.wr TIM_PPS_CTL.enable k 1).time : Int) + usT ≤ (a.wr TIM_PPS_CTL.enable k 1).pulseStart k) →
    exec (.ppsEnable 0 k value) s = .next (s.leads ((a.wr TIM_PPS_CTL.enable k 1).setPulse k { armed := true, next := ((a.wr TIM_PPS_CTL.enable k 1).pulseStart k).toNat }))) ∧
  (∀ (s : State) (k value : Nat) (a : Device),
    (k < 4) →
    (value < 2 ^ 64) →
    (s.dev.reaches 0 .TIM_PPS_CTL = true) →
    (bit value 0 = true) →
    (s.dev.on TIM_PPS_CTL.enable k = false) →
    (a = s.dev.setReg .TIM_PPS_CTL k (BitVec.ofNat 64 (value - value % 256 - (bits value 11 8) <<< 8 + (b2n (s.dev.on TIM_PPS_CTL.missed k && !bit value 7)) <<< 7 + (bits value 6 5) <<< 5 + (bits value 1 1) <<< 1))) →
    (a.rd TIM_PPS_CTL.width_ns k ≠ 0) →
    (a.on TIM_PPS_CTL.periodic k = true) →
    (a.rd TIM_PPS_CTL.width_ns k < a.rd TIM_PPS_CTL.period_ns k) →
    exec (.ppsEnable 0 k value) s = .next (s.leads ((a.wr TIM_PPS_CTL.enable k 1).setPulse k { armed := true, next := (a.wr TIM_PPS_CTL.enable k 1).gridEdge k (((a.wr TIM_PPS_CTL.enable k 1).time : Int) + usT) }))) ∧
  (∀ (s : State) (k : Nat) (p : Pulse),
    (k < 4) →
    (p = smGet s.dev.timing.pulses k {}) →
    (p.high = false) →
    (p.armed = true) →
    (p.next ≤ s.dev.time) →
    (s.dev.pulseHeld k = false) →
    exec (.pulseEdge k) s = .next (s.leads (({ s.dev with sent := .pulse k true p.next :: s.dev.sent } : Device).setPulse k { armed := s.dev.on TIM_PPS_CTL.periodic k, next := if s.dev.on TIM_PPS_CTL.periodic k then p.next + 144 * s.dev.rd TIM_PPS_CTL.period_ns k else p.next, high := true, fall := p.next + 144 * s.dev.rd TIM_PPS_CTL.width_ns k, level := true }))) ∧
  (∀ (s : State) (k : Nat) (p : Pulse),
    (k < 4) →
    (p = smGet s.dev.timing.pulses k {}) →
    (p.high = false) →
    (p.armed = true) →
    (p.next ≤ s.dev.time) →
    (s.dev.pulseHeld k = true) →
    exec (.pulseEdge k) s = .next (s.leads (s.dev.setPulse k { armed := s.dev.on TIM_PPS_CTL.periodic k, next := if s.dev.on TIM_PPS_CTL.periodic k then p.next + 144 * s.dev.rd TIM_PPS_CTL.period_ns k else p.next, high := true, fall := p.next + 144 * s.dev.rd TIM_PPS_CTL.width_ns k, level := false }))) ∧
  (∀ (s : State) (k : Nat) (p : Pulse),
    (k < 4) →
    (p = smGet s.dev.timing.pulses k {}) →
    (p.high = true) →
    (p.fall ≤ s.dev.time) →
    (p.level = true) →
    exec (.pulseEdge k) s = .next (s.leads (({ s.dev with sent := .pulse k false p.fall :: s.dev.sent } : Device).setPulse k { p with high := false, level := false }))) ∧
  (∀ (s : State) (k : Nat) (fall : Bool) (a : Device),
    (k < 4) →
    ((if fall then bit (s.dev.rd TIM_CAP_CTL.edges k) 1 else bit (s.dev.rd TIM_CAP_CTL.edges k) 0) = true) →
    (∀ x, (s.dev.timing.capLast.find? fun x => x.1 == k) = some x → x.2 + 180 ≤ s.dev.cycle) →
    ((smGet s.dev.timing.fifos k []).length < 16) →
    (a = { s.dev with timing := { s.dev.timing with capLast := smIns s.dev.timing.capLast k s.dev.cycle } }) →
    exec (.captureEdge k fall) s = .next (s.leads (({ a with timing := { a.timing with fifos := smSet a.timing.fifos k [] (smGet s.dev.timing.fifos k [] ++ [⟨fall, a.rd TIM_STAT.steps 0 % 64, a.time⟩]) } } : Device).showCap k))) ∧
  (∀ (s : State) (k : Nat) (fall : Bool) (a : Device),
    (k < 4) →
    ((if fall then bit (s.dev.rd TIM_CAP_CTL.edges k) 1 else bit (s.dev.rd TIM_CAP_CTL.edges k) 0) = true) →
    (∀ x, (s.dev.timing.capLast.find? fun x => x.1 == k) = some x → x.2 + 180 ≤ s.dev.cycle) →
    (16 ≤ (smGet s.dev.timing.fifos k []).length) →
    (a = { s.dev with timing := { s.dev.timing with capLast := smIns s.dev.timing.capLast k s.dev.cycle } }) →
    exec (.captureEdge k fall) s = .next (s.leads (a.incSat TIM_CAP_CTL.overflows k 1))) ∧
  (∀ (s : State) (k : Nat) (fall : Bool) (x : Nat × Nat),
    (k < 4) →
    ((if fall then bit (s.dev.rd TIM_CAP_CTL.edges k) 1 else bit (s.dev.rd TIM_CAP_CTL.edges k) 0) = true) →
    ((s.dev.timing.capLast.find? fun x => x.1 == k) = some x) →
    (s.dev.cycle < x.2 + 180) →
    exec (.captureEdge k fall) s = .next (s.leads (s.dev.incSat TIM_CAP_CTL.rejected k 1))) ∧
  (∀ (s : State) (k : Nat) (fall : Bool),
    (k < 4) →
    ((if fall then bit (s.dev.rd TIM_CAP_CTL.edges k) 1 else bit (s.dev.rd TIM_CAP_CTL.edges k) 0) = false) →
    exec (.captureEdge k fall) s = .next (s.leads s.dev)) ∧
  (∀ (s : State) (fn k : Nat),
    (fn < 64) →
    (k < 4) →
    (s.dev.reaches fn .TIM_CAP_NS = true) →
    exec (.capNsRead fn k) s = .next (s.leads (({ s.dev with timing := { s.dev.timing with fifos := smSet s.dev.timing.fifos k [] (smGet s.dev.timing.fifos k []).tail }, sent := .readAnswer fn (0xD00710 + 0x20 * k) 8 (s.dev.reg .TIM_CAP_NS k).toNat :: s.dev.sent } : Device).showCap k))) ∧
  (∀ (s : State),
    exec (.ppsInEdge false) s = .next (s.leads (s.dev.incSat TIM_PPSIN_STAT.glitches 0 1))) ∧
  (∀ (s : State) (t : Nat),
    (s.dev.timing.ppsLast = some t) →
    (s.dev.cycle < t + 900000000) →
    exec (.ppsInEdge true) s = .next (s.leads (s.dev.incSat TIM_PPSIN_STAT.rejected 0 1))) ∧
  (∀ (s : State),
    (∀ t, s.dev.timing.ppsLast = some t → t + 900000000 ≤ s.dev.cycle) →
    (s.dev.rd TIM_DOM_CFG.source 0 ≠ 4) →
    (s.dev.rd TIM_DOM_CFG.source 1 ≠ 4) →
    exec (.ppsInEdge true) s = .next (s.leads { s.dev with timing := { s.dev.timing with ppsLast := some s.dev.cycle } })) ∧
  (∀ (s : State) (sec : Nat) (a b : Device),
    (∀ t, s.dev.timing.ppsLast = some t → t + 900000000 ≤ s.dev.cycle) →
    (s.dev.rd TIM_DOM_CFG.source 0 = 4 ∨ s.dev.rd TIM_DOM_CFG.source 1 = 4) →
    (a = { s.dev with timing := { s.dev.timing with ppsLast := some s.dev.cycle } }) →
    (sec = if s.dev.timing.todFresh then s.dev.rd TIM_TOD_NEXT.seconds 0 else s.dev.timing.todPrev + 1) →
    (b = if s.dev.timing.todFresh then a else a.incSat TIM_PPSIN_STAT.tod_assumed 0 1) →
    exec (.ppsInEdge true) s = .next (s.leads ([0, 1].foldl (fun d i => if d.rd TIM_DOM_CFG.source i = 4 then Machine.domainUpdate i ((((sec * secT : Nat) : Int) - ((b.time : Int) - (144 * b.rd TIM_TOD_NEXT.delay_ns 0 : Nat))) / 144) 0 d else d) { b with timing := { b.timing with todFresh := false, todPrev := sec } })))

/-- Fronthaul: posts, the slot deadline, C-plane and U-plane, mute -/
def Obligations.FronthaulOut : Prop :=
  (∀ (s : State) (n dir c sl : Nat) (l : Leg),
    (n < 192) →
    (c < 64) →
    (dir < 2) →
    ((s.dev.core n).leg = some l) →
    (s.dev.isX = false) →
    (s.dev.rd RAD_CAR_CFG.owner c = l.ten) →
    exec (.fhpost n dir c sl) s = .next (s.settles (s.dev.putLeg n { l with posts := l.posts ++ [(dir, c, sl)] }))) ∧
  (∀ (s : State) (c sl : Nat) (a b : Device),
    (c < 64) →
    (s.dev.carrierOn c = true) →
    (s.dev.slotDec c sl = none) →
    (s.dev.slotDeadline c sl ≤ (s.dev.time : Int)) →
    (((s.dev.radio.posts.any fun p => p.car == c && p.dir == 0 && p.slot == sl) && s.dev.peekN spDP (s.dev.slotBuf c 0 sl) 8 == sl) = true) →
    (((s.dev.radio.posts.any fun p => p.car == c && p.dir == 1 && p.slot == sl) && s.dev.peekN spDP (s.dev.slotBuf c 1 sl) 8 == sl) = true) →
    (bit (s.dev.rd RAD_MUTE_CTL.host_mute 0) c = false) →
    (a = { s.dev with radio := { s.dev.radio with posts := s.dev.radio.posts.filter fun p => !(p.car == c && decide (p.slot ≤ sl)) } }) →
    (b = a.setDec ⟨c, sl, true, true, false, false⟩) →
    (b.byDoubt b.time (b.slotStart (b.carMu c) sl) = false) →
    (b.bySvc b.time (b.slotStart (b.carMu c) sl) = false) →
    exec (.slotDeadline c sl) s = .next (s.leads b)) ∧
  (∀ (s : State) (c sl : Nat) (host : Bool) (a : Device),
    (c < 64) →
    (s.dev.carrierOn c = true) →
    (s.dev.slotDec c sl = none) →
    (s.dev.slotDeadline c sl ≤ (s.dev.time : Int)) →
    (s.dev.radio.posts = []) →
    (host = bit (s.dev.rd RAD_MUTE_CTL.host_mute 0) c) →
    (a = { s.dev with radio := { s.dev.radio with posts := s.dev.radio.posts.filter fun p => !(p.car == c && decide (p.slot ≤ sl)) } }) →
    exec (.slotDeadline c sl) s = .next (s.leads ((a.setDec ⟨c, sl, false, false, host, false⟩).countMute ⟨c, sl, false, false, host, false⟩))) ∧
  (∀ (s : State) (c dir sl k b l : Nat) (x : SlotDec) (r ext : List Byte),
    (c < 64) →
    (s.dev.carrierOn c = true) →
    (s.dev.slotDec c sl = some x) →
    ((if dir = 0 then x.dl else x.ul) = true) →
    (b = s.dev.slotBuf c dir sl) →
    (k < s.dev.bufSections b) →
    (r = s.dev.bufRec b k) →
    (l = rcStart r) →
    (s.dev.cpTime c dir sl l ≤ (s.dev.time : Int)) →
    (s.dev.symMuted x dir l (s.dev.cpTime c dir sl l) = false) →
    (ext = (if rcExt r = 0 then [] else s.dev.peek devKey spDP (b + rcExt r) (rcExtLen r))) →
    (dir < 2) →
    exec (.cplaneTx c dir sl ⟨k, false⟩) s = .next (s.leads (s.dev.offerFrame (s.dev.rd RAD_CAR_CFG.port c)
      { len := frameLen (s.dev.on RAD_CAR_FH.tagged c) (cpHdr (s.dev.sectType c r) + ext.length), cost := 0, mt := 2, vid := s.dev.carVid c, eaxc := s.dev.rd RAD_CAR_FH.eaxc_base c + (if rcPrach r then 64 else 0) + rcStream r, dir := dir, sect := s.dev.sectType c r, car := c, slot := sl, stream := rcStream r, sym := l, startPrb := rcPrb r, numPrb := rcPrbs r, reMask := rcMask r, beam := rcBeam r, section_ := rcSection r, numSym := rcNum r, data := ext }))) ∧
  (∀ (s : State) (c sl k l : Nat) (x : SlotDec) (ls : List Nat),
    (c < 64) →
    (s.dev.carrierOn c = true) →
    (s.dev.slotDec c sl = some x) →
    (x.car = c) →
    (x.slot = sl) →
    (s.dev.mutedSyms x = l :: ls) →
    (k < s.dev.carStreams c 0) →
    (s.dev.cpTime c 0 sl l ≤ (s.dev.time : Int)) →
    exec (.cplaneTx c 0 sl ⟨k, true⟩) s = .next (s.leads ((s.dev.countMute x).offerFrame (s.dev.rd RAD_CAR_CFG.port c)
      { len := frameLen (s.dev.on RAD_CAR_FH.tagged c) (cpHdr 1), cost := 0, mt := 2, vid := s.dev.carVid c, eaxc := s.dev.rd RAD_CAR_FH.eaxc_base c + k, sect := 1, car := c, slot := sl, stream := k, sym := l, numSym := ls.length + 1 }))) ∧
  (∀ (s : State) (c sl k l part b : Nat) (x : SlotDec) (r bs piece : List Byte),
    (c < 64) →
    (l < 14) →
    (s.dev.carrierOn c = true) →
    (s.dev.slotDec c sl = some x) →
    (s.dev.dlOpen c sl l ≤ (s.dev.time : Int)) →
    (s.dev.symMuted x 0 l (s.dev.dlOpen c sl l) = false) →
    (b = s.dev.slotBuf c 0 sl) →
    (k < s.dev.bufSections b) →
    (r = s.dev.bufRec b k) →
    (rcCovers r l = true) →
    (rcNoU r = false) →
    (s.dev.on RAD_CAR_CFG.td_mode c = false) →
    (bs = s.dev.peek devKey spDP (s.dev.bufIq b + rcIq r + (l - rcStart r) * rcStride r) (s.dev.payloadLen c 0 sl l (rcPrbs r))) →
    (piece = ((bs).drop ((s.dev.rd RAD_PORT_CFG.mtu (s.dev.rd RAD_CAR_CFG.port c) - 64) * part)).take (s.dev.rd RAD_PORT_CFG.mtu (s.dev.rd RAD_CAR_CFG.port c) - 64)) →
    (piece.isEmpty = false) →
    exec (.uplaneTx c sl ⟨k, false⟩ l part) s = .next (s.leads (s.dev.offerFrame (s.dev.rd RAD_CAR_CFG.port c)
      { len := frameLen (s.dev.on RAD_CAR_FH.tagged c) (10 + piece.length), cost := 0, close := some (s.dev.dlClose c sl l), mt := 0, vid := s.dev.carVid c, eaxc := s.dev.rd RAD_CAR_FH.eaxc_base c + rcStream r, car := c, slot := sl, stream := rcStream r, sym := l, startPrb := rcPrb r, numPrb := rcPrbs r, section_ := rcSection r, data := piece }))) ∧
  (∀ (s : State) (c sl k l part : Nat) (x : SlotDec) (a : Device) (piece : List Byte),
    (c < 64) →
    (l < 14) →
    (s.dev.carrierOn c = true) →
    (s.dev.slotDec c sl = some x) →
    (x.dl = false) →
    (k < s.dev.carStreams c 0) →
    (s.dev.dlOpen c sl l ≤ (s.dev.time : Int)) →
    (piece = ((List.replicate (s.dev.payloadLen c 0 sl l (s.dev.rd RAD_CAR_CFG.prbs c)) (0 : Byte)).drop ((s.dev.rd RAD_PORT_CFG.mtu (s.dev.rd RAD_CAR_CFG.port c) - 64) * part)).take (s.dev.rd RAD_PORT_CFG.mtu (s.dev.rd RAD_CAR_CFG.port c) - 64)) →
    (piece.isEmpty = false) →
    (a = s.dev.countMute x) →
    exec (.uplaneTx c sl ⟨k, true⟩ l part) s = .next (s.leads (a.offerFrame (s.dev.rd RAD_CAR_CFG.port c)
      { len := frameLen (a.on RAD_CAR_FH.tagged c) (10 + piece.length), cost := 0, close := some (a.dlClose c sl l), mt := 0, vid := a.carVid c, eaxc := a.rd RAD_CAR_FH.eaxc_base c + k, car := c, slot := sl, stream := k, sym := l, startPrb := 0, numPrb := s.dev.rd RAD_CAR_CFG.prbs c, section_ := 0, data := piece }))) ∧
  (∀ (s : State) (value : Nat),
    (value < 2 ^ 64) →
    (s.dev.reaches 0 .RAD_MUTE_CTL = true) →
    (s.dev.isX = false) →
    exec (.muteCtlWrite 0 value) s = .next (s.leads ((s.dev.wr RAD_MUTE_CTL.host_mute 0 value).usedUp .RAD_MUTE_CTL 0))) ∧
  (∀ (s : State) (a : Device),
    (s.dev.isX = false) →
    (s.dev.on RAD_QSAMP_CFG.enable 0 = true) →
    (a = s.dev.drainPorts) →
    exec .qsampTick s = .next (s.leads ((List.range 36).foldl (fun d i =>
      (((d.wr RAD_QSTAT.last_depth_kib i (min ((d.queueDepth i).1 / 1024) 4095)).wr RAD_QSTAT.last_delay_ns i (((d.queueDepth i).2.map fun t => min ((d.time - t) / 144) 1048575).getD 0)).wr RAD_QSTAT.max_depth_kib i (max (min ((d.queueDepth i).1 / 1024) 4095) (((d.wr RAD_QSTAT.last_depth_kib i (min ((d.queueDepth i).1 / 1024) 4095)).wr RAD_QSTAT.last_delay_ns i (((d.queueDepth i).2.map fun t => min ((d.time - t) / 144) 1048575).getD 0)).rd RAD_QSTAT.max_depth_kib i))).wr RAD_QSTAT.max_delay_ns i (max (((d.queueDepth i).2.map fun t => min ((d.time - t) / 144) 1048575).getD 0) (((d.wr RAD_QSTAT.last_depth_kib i (min ((d.queueDepth i).1 / 1024) 4095)).wr RAD_QSTAT.last_delay_ns i (((d.queueDepth i).2.map fun t => min ((d.time - t) / 144) 1048575).getD 0)).rd RAD_QSTAT.max_delay_ns i))) a)))

/-- Fronthaul ingress and soft moves -/
def Obligations.FronthaulIn : Prop :=
  (∀ (s : State) (p k c cost : Nat) (f : FhFrame) (x : SlotDec) (a b e : Device) (stream : Nat),
    (p < 4) →
    (s.dev.isX = false) →
    (s.dev.rd RAD_PORT_CFG.speed p ≠ 0) →
    (s.dev.on RAD_PORT_STAT.link_up p = true) →
    (f.isPtp = false) →
    (f.etherType = 0xAEFE) →
    (f.mt = 0) →
    (s.dev.findFlow true p false f.eaxc = some k) →
    (c = s.dev.rd RAD_FLOW_CFG.carrier k) →
    (f.vid = s.dev.carVid c) →
    ((s.dev.radio.seqs.find? fun x => x.1 == k) = none) →
    (a = { s.dev with radio := { s.dev.radio with seqs := smIns s.dev.radio.seqs k f.seq } }) →
    (cost = f.len + a.rd RAD_PORT_CFG.ovh_bytes p) →
    (cost * 1024 ≤ a.tokensAt k a.time) →
    (b = (a.setTokens k (a.tokensAt k a.time - cost * 1024) a.time).incWrap RAD_FLOW_STAT.passed k 1) →
    (b.carrierOn c = true) →
    (b.slotDec c f.slot = some x) →
    (b.symMuted x 1 f.sym (b.ulOpen c f.slot f.sym) = false) →
    (b.ulOpen c f.slot f.sym ≤ (b.time : Int)) →
    ((b.time : Int) ≤ b.ulClose c f.slot f.sym) →
    (f.eaxc - b.rd RAD_CAR_FH.eaxc_base c < 64) →
    (stream = f.eaxc - b.rd RAD_CAR_FH.eaxc_base c) →
    ((smGet b.radio.ingress p []).length = 0) →
    (e = { b with radio := { b.radio with ingress := smSet b.radio.ingress p [] [⟨f.len, b.time, ⟨c, f.slot, f.sym, stream, false, f.startPrb, f.numPrb, mkTag (b.rd RAD_CAR_CFG.owner c) 0 0 6 f.slot 0⟩, f.payload⟩] } }) →
    exec (.fronthaulFrameRx p f) s = .next (s.leads (e.landNext p))) ∧
  (∀ (s : State) (p k : Nat) (f : FhFrame) (a : Device),
    (p < 4) →
    (s.dev.isX = false) →
    (s.dev.rd RAD_PORT_CFG.speed p ≠ 0) →
    (s.dev.on RAD_PORT_STAT.link_up p = true) →
    (f.isPtp = false) →
    (f.etherType = 0xAEFE) →
    (f.mt = 2) →
    (s.dev.findFlow true p true f.eaxc = some k) →
    (f.vid = s.dev.carVid (s.dev.rd RAD_FLOW_CFG.carrier k)) →
    ((s.dev.radio.seqs.find? fun x => x.1 == k) = none) →
    (a = { s.dev with radio := { s.dev.radio with seqs := smIns s.dev.radio.seqs k f.seq } }) →
    ((f.len + a.rd RAD_PORT_CFG.ovh_bytes p) * 1024 ≤ a.tokensAt k a.time) →
    exec (.fronthaulFrameRx p f) s = .next (s.leads ((a.setTokens k (a.tokensAt k a.time - (f.len + a.rd RAD_PORT_CFG.ovh_bytes p) * 1024) a.time).incWrap RAD_FLOW_STAT.passed k 1))) ∧
  (∀ (s : State) (p : Nat) (f : FhFrame),
    (p < 4) →
    (s.dev.isX = false) →
    (s.dev.rd RAD_PORT_CFG.speed p ≠ 0) →
    (s.dev.on RAD_PORT_STAT.link_up p = true) →
    (f.isPtp = false) →
    (f.etherType = 0xAEFE) →
    (f.mt = 5) →
    exec (.fronthaulFrameRx p f) s = .next (s.leads (s.dev.oneWayDelay p f))) ∧
  (∀ (s : State) (p : Nat) (f : FhFrame),
    (p < 4) →
    (s.dev.isX = false) →
    (s.dev.rd RAD_PORT_CFG.speed p ≠ 0) →
    (s.dev.on RAD_PORT_STAT.link_up p = true) →
    (f.isPtp = true) →
    exec (.fronthaulFrameRx p f) s = .next (s.leads (s.dev.divertPtp p f.payload))) ∧
  (∀ (s : State) (p : Nat) (f : FhFrame),
    (p < 4) →
    (s.dev.isX = false) →
    (s.dev.rd RAD_PORT_CFG.speed p ≠ 0) →
    (s.dev.on RAD_PORT_STAT.link_up p = true) →
    (f.isPtp = false) →
    (f.etherType ≠ 0xAEFE) →
    exec (.fronthaulFrameRx p f) s = .next (s.leads (s.dev.incSat RAD_PORT_STAT.unknown p 1))) ∧
  (∀ (s : State) (c sl l b : Nat),
    (c < 64) →
    (l < 14) →
    (s.dev.carrierOn c = true) →
    (b = s.dev.slotBuf c 1 sl) →
    (s.dev.ulPosted c sl = true) →
    exec (.ulWindowOpen c sl l) s = .next (s.leads ((List.range (s.dev.bufSections b)).foldl (fun d k =>
      if rcCovers (d.bufRec b k) l then d.zero spDP (d.bufIq b + rcIq (d.bufRec b k) + (l - rcStart (d.bufRec b k)) * rcStride (d.bufRec b k)) (d.payloadLen c 1 sl l (rcPrbs (d.bufRec b k))) else d) s.dev))) ∧
  (∀ (s : State) (c sl l b : Nat) (e : Nat × Nat × Nat × Nat × Nat) (a : Device),
    (c < 64) →
    (l < 14) →
    (s.dev.carrierOn c = true) →
    (b = s.dev.slotBuf c 1 sl) →
    ((s.dev.slotDec c sl).isNone = false) →
    (e = (s.dev.radio.frames.find? fun f => f.1 == c && f.2.1 == sl && f.2.2.1 == l).getD (c, sl, l, 0, 0)) →
    (a = s.dev.store spDP (b + 64 + 32 * s.dev.bufSections b + 16 * l) (toLE 8 (((List.range 64).map fun i => b2n (s.dev.streamWhole c sl l i) <<< i).foldl (· + ·) 0) ++ toLE 4 e.2.2.2.1 ++ toLE 4 e.2.2.2.2)) →
    exec (.ulWindowClose c sl l) s = .next (s.leads { a with radio := { a.radio with landed := a.radio.landed.filter fun x => !(x.car == c && x.slot == sl && x.sym == l), frames := a.radio.frames.filter fun f => !(f.1 == c && f.2.1 == sl && f.2.2.1 == l) } })) ∧
  (∀ (s : State) (n c ga ts len : Nat) (l l2 : Leg) (d e : Device) (loc : Loc) (idx : Option Nat) (r : Device × List Byte × Bool),
    (n < 192) →
    (ga < 2 ^ 64) →
    (s.dev.issues n c l d l2) →
    (max l.count (s.dev.rd COR_TIMING.leg_start n) = c) →
    (parts ga len = [(ga, len)]) →
    (d.meet l2.ten ga false = .proceeds loc idx) →
    (r = (blocks64 (len / 64 + 2) ga len).foldl (softBlock l2) (d, [], false)) →
    (r.1.ownsRange n l2.ten ts r.2.1.length = true) →
    (r.1.poisonWrite spTS (tsOff n ts) r.2.1.length = some e) →
    exec (.softMove n ga ts len none) s = .next (s.settles ((e.store spTS (tsOff n ts) r.2.1).putLeg n { l2 with lostBuf := l2.lostBuf || r.2.2 })))

/-- Routing engines: submission, intake, sort, blend -/
def Obligations.RoutingEngines : Prop :=
  (∀ (s : State) (n pos desc tok eg x qn cy : Nat) (l m : Leg) (d a f : Device) (engs : List (Nat × Nat)) (b : List Byte) (r : Route),
    (n < 192) →
    (tok < 64) →
    (max l.count (s.dev.rd COR_TIMING.leg_start n) = cy) →
    (s.dev.issues n cy l d m) →
    (((d.cmd? m.sn).bind fun c => c.run.map fun q => q.engines) = some engs) →
    (engs[pos]? = some (eg, x)) →
    ((d.rctx eg x).route = none) →
    (d.rd RTE_MAP.state eg ≠ 4) →
    (desc % 128 = 0) →
    (d.ownsRange n m.ten desc 128 = true) →
    (d.poisonIn spTS (tsOff n desc) 128 = none) →
    (b = d.peek devKey spTS (tsOff n desc) 128) →
    ((rdOp b = 1 ∧ d.routeOk b = true) ∨ (rdOp b = 2 ∧ d.blendOk b = true)) →
    (r = { desc := b, core := n, serial := m.serial, tok := tok, leg := m.idx, ten := m.ten, mid := m.mid, sn := m.sn, fixed := d.fixedOrder m.ten, started := d.cycle }) →
    (qn = ((d.cmd? m.sn).map fun c => c.queue).getD 0) →
    (a = ((((((d.setRctx eg x { d.rctx eg x with route := some r }).wr MEM_CHAN_STAT.tenancy (routeChan eg x) m.ten).wr MEM_CHAN_STAT.kind (routeChan eg x) 4).wr MEM_CHAN_STAT.queue (routeChan eg x) qn).wr MEM_CHAN_STAT.state (routeChan eg x) chActive).modRun m.sn fun q => { q with movers := q.movers + 1 }).putLeg n m) →
    (a.rd RTE_MAP.state eg ≠ 5) →
    (f = (a.showEngine eg).loadBias eg x) →
    exec (.rtsubmit n pos desc tok) s = .next (s.settles (f.putLeg n ((f.core n).leg.getD m)))) ∧
  (∀ (s : State) (e x src band col fmt : Nat) (tag data : List Byte),
    (e < 8) →
    (x < 8) →
    (src < 192) →
    (tag.length = 16) →
    (fmt < 8) →
    ((e, s.dev.reqUnit src 27) ∉ s.dev.rteFenced) →
    exec (.logitTileArrival e x src tag band col fmt data) s = .next (s.settles (Device.intake { s.dev with rteIn := { s.dev.rteIn with waiting := s.dev.rteIn.waiting ++ [{ e := e, x := x, src := src, tag := tag, band := band, col := col, fmt := fmt, data := data }] } } e))) ∧
  (∀ (d : Device) (t : RIn) (r : Route),
    (tagOk t.tag = true) →
    ((d.rctx t.e t.x).route = some r) →
    (tagTen t.tag = r.ten) →
    (tagMid t.tag = r.mid) →
    (r.bad t = false) →
    d.takeTile t = ({ d with rteSeq := d.rteSeq + 1 } : Device).setRctx t.e t.x { d.rctx t.e t.x with route := some { r with tiles := r.tiles ++ [⟨t.band, t.col, d.rteSeq, (List.range 64).map fun i => if t.fmt = 1 then leAt t.data (2 * i) 2 * 65536 else leAt t.data (4 * i) 4⟩] } }) ∧
  (∀ (s : State) (e x first nDrop nKept : Nat) (r : Route) (home : List Byte) (ds : List Dest) (sels : List (List Pair × Bool)) (all pairs nans : List Pair) (outs : List DestOut) (rows : List (DestOut × Nat)) (drops : List Pair) (fr : Nat × Device) (combine : List Byte) (w : Device × Wr) (scr : Device × Option Nat) (a b : Device),
    (e < 8) →
    (x < 8) →
    ((s.dev.rctx e x).route = some r) →
    (s.dev.rd MEM_CHAN_STAT.state (routeChan e x) = chActive) →
    (rdOp r.desc = 1) →
    (r.full = true) →
    (∀ y < 8, y ≠ x → ((s.dev.rctx e y).route.map fun o => rdOp o.desc == 1 && o.full && decide ((o.tiles.map fun t => t.order).foldl max 0 < (r.tiles.map fun t => t.order).foldl max 0) && s.dev.rd MEM_CHAN_STAT.state (routeChan e y) == chActive).getD false = false) →
    (r.dup = 0) →
    (first = rdFirst r.desc) →
    (s.dev.readGA r.ten (rdHome r.desc) (64 * ceilDiv (rdE r.desc) 8 + 8 * rdD r.desc) = .ok home) →
    (ds = (List.range (rdD r.desc)).map fun i => ⟨i, bits (leAt home (64 * ceilDiv (rdE r.desc) 8 + 8 * i) 8) 11 0, bits (leAt home (64 * ceilDiv (rdE r.desc) 8 + 8 * i) 8) 27 12, bits (leAt home (64 * ceilDiv (rdE r.desc) 8 + 8 * i) 8) 43 28⟩) →
    (homeOk (rdE r.desc) (rdD r.desc) home ds = true) →
    (sels = (List.range (rdT r.desc)).map r.select) →
    (all = sels.flatMap fun q => q.1) →
    (pairs = (all.filter fun p => !p.nan).map fun p => { p with dest := destOf home first p.t p.e }) →
    (nans = all.filter fun p => p.nan) →
    (outs = (sortBy (fun (a b : Dest) => decide (a.dev * 65536 + a.slot < b.dev * 65536 + b.slot)) ds).map (destOut (rdOrder r.desc) pairs)) →
    (rows = firstRows outs 0) →
    (drops = nans ++ outs.flatMap fun o => o.dropped) →
    (nDrop = (outs.map fun o => o.dropped.length).foldl (· + ·) 0) →
    (nKept = (outs.map fun o => o.kept.length).foldl (· + ·) 0) →
    (fr = s.dev.fresh (2 ^ 32)) →
    (combine = all.flatMap fun p => if p.nan then toLE 4 0xFFFFFFFF ++ toLE 4 fr.1 else toLE 4 (rowOf rows { p with dest := destOf home first p.t p.e }) ++ toLE 4 p.gate) →
    (w = fr.2.writeAll r.ten ([(rdDispatch r.desc, dispatchBytes (rdD r.desc) first rows), (rdCombine r.desc, combine)] ++ (if rdDrops r.desc = 0 then [] else [(rdDrops r.desc, (drops.take (rdDropCap r.desc)).flatMap (dropEntry first))]))) →
    (w.2 = .ok) →
    (scr = (parts (rdScratch r.desc) (16 * rdT r.desc * rdK r.desc)).foldl (scratchPart r.ten) (w.1, none)) →
    (scr.2 = none) →
    (a = (scr.1.incSat RTE_STAT.pairs_dropped e nDrop).incWrap RTE_TEN_DROP.pairs_dropped r.ten nDrop) →
    (b = if (pairs.any fun p => isNan32 p.gate) || !nans.isEmpty then a.log { unit := a.engineUnit e, sev := 0, op := 0x19, ten := r.ten, mid := r.mid } else a) →
    exec (.routeSort e x) s = .next (s.settles (b.endRoute e x r stOk 0
      { flags := 2 * b2n (pairs.any fun p => isNan32 p.gate) + 4 * b2n (decide (rdDrops r.desc ≠ 0) && decide (rdDropCap r.desc < drops.length)), pairs := rdT r.desc * rdK r.desc, kept := nKept, dropped := nDrop, nans := nans.length,
        pads := (ds.map fun q => q.cap).foldl (· + ·) 0 - nKept, ties := (sels.filter fun q => q.2).length, fill := (outs.map fun o => o.count).foldl max 0 }))) ∧
  (∀ (s : State) (e x T k H : Nat) (r : Route) (comb : List Byte) (used : List Nat) (rd : Rd × List (Nat × List Byte)) (bs : List Byte) (w : Device × Wr),
    (e < 8) →
    (x < 8) →
    ((s.dev.rctx e x).route = some r) →
    (s.dev.rd MEM_CHAN_STAT.state (routeChan e x) = chActive) →
    (rdOp r.desc = 2) →
    (T = bdT r.desc) →
    (k = rdK r.desc) →
    (H = bdH r.desc) →
    (s.dev.readGA r.ten (bdCombine r.desc) (8 * T * k) = .ok comb) →
    (used = (List.range (T * k)).map fun j => leAt comb (8 * j) 4) →
    ((used.any fun v => v != 0xFFFFFFFF && decide (bdR r.desc ≤ v)) = false) →
    (rd = ((used.filter fun v => v != 0xFFFFFFFF).eraseDups).foldl (blendRow s.dev r.ten (bdReturns r.desc) (H * if bdIn r.desc then 2 else 4)) (.ok [], [])) →
    (rd.1 = .ok bs) →
    (w = s.dev.writeAll r.ten ((List.range T).map fun t => (bdOutput r.desc + t * H * (if bdOut r.desc then 2 else 4), (List.range H).flatMap fun j => blendOut (bdOut r.desc) (blendElem ((List.range k).filterMap fun i =>
      if leAt comb (8 * (k * t + i)) 4 = 0xFFFFFFFF then none else some (leAt comb (8 * (k * t + i) + 4) 4,
        if bdIn r.desc then leAt (smGet rd.2 (leAt comb (8 * (k * t + i)) 4) []) (2 * j) 2 * 65536 else leAt (smGet rd.2 (leAt comb (8 * (k * t + i)) 4) []) (4 * j) 4)))))) →
    (w.2 = .ok) →
    exec (.blend e x) s = .next (s.settles (w.1.endRoute e x r stOk 0 { kept := (used.filter fun v => v != 0xFFFFFFFF).length })))

/-- Fabric ports: lanes, training, flits, replay, paths -/
def Obligations.FabricLinks : Prop :=
  (∀ (s : State) (p lane : Nat) (a b : Device),
    (p < 16) →
    (s.dev.rd FAB_PORT_STAT.state p = ptUp ∨ s.dev.rd FAB_PORT_STAT.state p = ptRetraining) →
    (lane < 4) →
    (bit (s.dev.rd FAB_PORT_STAT.lanes_ok p) lane = true) →
    (a = s.dev.wr FAB_PORT_STAT.lanes_ok p (s.dev.rd FAB_PORT_STAT.lanes_ok p &&& (15 - 2 ^ lane))) →
    (b = if s.dev.spareFree p then (((a.wr FAB_LANE_SPARE.in_use (p / 4) 1).wr FAB_LANE_SPARE.port (p / 4) (p % 4)).wr FAB_LANE_SPARE.lane (p / 4) lane).wr FAB_PORT_STAT.spare_in p 1 else a) →
    exec (.laneFail p lane) s = .next (s.leads (((b.log { unit := unitOf 6 (0x20 + p), sev := 5, op := 0x12, detail := p + lane <<< 8 + b.widthNow p <<< 16 }).incSat FAB_PORT_STAT.retrains p 1).portStops p ptRetraining))) ∧
  (∀ (s : State) (p : Nat) (a : Device),
    (p < 16) →
    (s.dev.rd FAB_PORT_STAT.state p = ptUp ∨ s.dev.rd FAB_PORT_STAT.state p = ptRetraining) →
    (s.dev.on FAB_PORT_STAT.spare_in p = true) →
    (a = (s.dev.wr FAB_LANE_SPARE.avail (p / 4) 0).wr FAB_PORT_STAT.spare_in p 0) →
    exec (.laneFail p 4) s = .next (s.leads (((a.log { unit := unitOf 6 (0x20 + p), sev := 5, op := 0x12, detail := p + s.dev.rd FAB_LANE_SPARE.lane (p / 4) <<< 8 + a.widthNow p <<< 16 }).incSat FAB_PORT_STAT.retrains p 1).portStops p ptRetraining))) ∧
  (∀ (s : State) (p k w : Nat) (a b : Device),
    (p < 16) →
    (k < 32) →
    (s.dev.pwr.refDown.contains (p / 4) = false) →
    (s.dev.unpowered = false) →
    (s.dev.serves (unitOf 6 (0x20 + p)) = true) →
    (s.dev.on FAB_PORT_CFG.enable p = true) →
    (s.dev.rd FAB_PORT_STAT.state p = ptTraining ∨ s.dev.rd FAB_PORT_STAT.state p = ptRetraining ∨ s.dev.rd FAB_PORT_STAT.state p = ptDown) →
    (s.dev.failedIn p k = []) →
    (a = s.dev.wr FAB_PORT_STAT.lanes_ok p (k % 16)) →
    (w = a.widthNow p) →
    (w ≠ 3) →
    ((a.link p).unacked = []) →
    (b = ((a.setLink p { a.link p with replays := 0, nakOut := false, told := [] }).wr FAB_PORT_STAT.width p w).wr FAB_PORT_STAT.state p ptUp) →
    exec (.portTrained p k) s = .next (s.leads (b.pump p))) ∧
  (∀ (s : State) (p k : Nat),
    (p < 16) →
    (k < 32) →
    (s.dev.pwr.refDown.contains (p / 4) = false) →
    (s.dev.unpowered = false) →
    (s.dev.serves (unitOf 6 (0x20 + p)) = true) →
    (s.dev.on FAB_PORT_CFG.enable p = true) →
    (s.dev.rd FAB_PORT_STAT.state p = ptTraining ∨ s.dev.rd FAB_PORT_STAT.state p = ptRetraining ∨ s.dev.rd FAB_PORT_STAT.state p = ptDown) →
    (s.dev.failedIn p k ≠ []) →
    (s.dev.spareFree p = true) →
    exec (.portTrained p k) s = .next (s.leads ((((s.dev.failedIn p k).foldl (fun (d : Device) i => d.loseLane p i) (s.dev.wr FAB_PORT_STAT.lanes_ok p (k % 16))).incSat FAB_PORT_STAT.retrains p 1).wr FAB_PORT_STAT.state p ptRetraining))) ∧
  (∀ (s : State) (p : Nat),
    (p < 16) →
    (s.dev.rd FAB_PORT_STAT.state p ≠ ptOff) →
    (s.dev.rd FAB_PORT_STAT.state p ≠ ptDown) →
    exec (.portDown p) s = .next (s.leads ((s.dev.setLink p {}).portStops p ptDown))) ∧
  (∀ (s : State) (p hdr crc : Nat) (pl : List Byte) (ctl : Ctl) (l : Link) (a : Device),
    (p < 16) →
    (hdr < 2 ^ 64) →
    (crc < 2 ^ 64) →
    (s.dev.rd FAB_PORT_STAT.state p ≠ ptOff) →
    (s.dev.rd FAB_PORT_STAT.state p ≠ ptDown) →
    (l = s.dev.link p) →
    (crc = crc64 (toLE 8 hdr ++ (pl ++ List.replicate 240 0).take 240)) →
    (bits hdr 37 36 = 1) →
    (bits hdr 63 52 = l.rx) →
    (a = (s.dev.setLink p { l with rx := (l.rx + 1) % 4096, seen := true, nakOut := false }).takeData p hdr pl) →
    exec (.flitRx p hdr pl crc ctl) s = .next (s.leads ((if bit hdr 39 then a.takeAck p (bits hdr 51 40) (bit hdr 38) else a.pump p).idleFlit p l.tx))) ∧
  (∀ (s : State) (p hdr crc : Nat) (pl : List Byte) (ctl : Ctl) (l : Link) (a : Device),
    (p < 16) →
    (hdr < 2 ^ 64) →
    (crc < 2 ^ 64) →
    (s.dev.rd FAB_PORT_STAT.state p ≠ ptOff) →
    (s.dev.rd FAB_PORT_STAT.state p ≠ ptDown) →
    (l = s.dev.link p) →
    (crc = crc64 (toLE 8 hdr ++ (pl ++ List.replicate 240 0).take 240)) →
    (bits hdr 37 36 = 2) →
    (bits hdr 63 52 = l.rx) →
    (a = s.dev.setLink p { l with rx := (l.rx + 1) % 4096, seen := true, nakOut := false, granted := ctl.credits }) →
    exec (.flitRx p hdr pl crc ctl) s = .next (s.leads ((if bit hdr 39 then a.takeAck p (bits hdr 51 40) (bit hdr 38) else a.pump p).idleFlit p l.tx))) ∧
  (∀ (s : State) (p hdr crc : Nat) (pl : List Byte) (ctl : Ctl),
    (p < 16) →
    (hdr < 2 ^ 64) →
    (crc < 2 ^ 64) →
    (s.dev.rd FAB_PORT_STAT.state p ≠ ptOff) →
    (s.dev.rd FAB_PORT_STAT.state p ≠ ptDown) →
    (crc64 (toLE 8 hdr ++ (pl ++ List.replicate 240 0).take 240) ≠ crc) →
    exec (.flitRx p hdr pl crc ctl) s = .next (s.leads ((s.dev.incSat FAB_PORT_STAT.crc_errors p 1).discardFlit p))) ∧
  (∀ (s : State) (p : Nat) (f : TxFlit) (rest : List TxFlit),
    (p < 16) →
    ((s.dev.link p).unacked = f :: rest) →
    (s.dev.portUp p = true) →
    exec (.replayTimeout p) s = .next (s.leads (s.dev.replay p))) ∧
  (∀ (s : State) (p : Nat),
    (p < 16) →
    (s.dev.portUp p = true) →
    (s.dev.pathPort p ≠ p) →
    exec (.pathReturn p) s = .next (s.leads ((s.dev.setPath p p).resendPath p)))

/-- Remote operations: issue and target -/
def Obligations.RemoteRequests : Prop :=
  (∀ (s : State) (n ga ts len tok cy : Nat) (l q m : Leg) (d e : Device),
    (n < 192) →
    (tok < 64) →
    (ga < 2 ^ 64) →
    (max l.count (s.dev.rd COR_TIMING.leg_start n) = cy) →
    (s.dev.issues n cy l d q) →
    (d.remoteOk q ga len 8 = none) →
    (d.ownsRange n q.ten ts len = true) →
    (q.ops < 256) →
    (m = { q with ops := q.ops + 1 }) →
    (e = (d.putLeg n m).issueAny 1 (ftClass q.cls) ((d.putLeg n m).coreUnit n) ga len 0 q.sn q.remoteTag [] (.rload n q.serial ts tok)) →
    exec (.rload n ts ga len tok) s = .next (s.settles (e.putLeg n ((e.core n).leg.getD m)))) ∧
  (∀ (s : State) (n ga ts len tok cy : Nat) (l q m : Leg) (d e : Device) (bs : List Byte),
    (n < 192) →
    (tok < 64) →
    (ga < 2 ^ 64) →
    (max l.count (s.dev.rd COR_TIMING.leg_start n) = cy) →
    (s.dev.issues n cy l d q) →
    (d.remoteOk q ga len 8 = none) →
    (d.ownsRange n q.ten ts len = true) →
    (q.ops < 256) →
    (m = { q with ops := q.ops + 1 }) →
    (d.poisonIn spTS (tsOff n ts) len = none) →
    (bs = d.peek devKey spTS (tsOff n ts) len) →
    (e = (d.putLeg n m).issueAny 3 (ftClass q.cls) ((d.putLeg n m).coreUnit n) ga len 0 q.sn q.remoteTag bs (.rstore n q.serial tok)) →
    exec (.rstore n ga ts len tok) s = .next (s.settles (e.putLeg n ((e.core n).leg.getD m)))) ∧
  (∀ (s : State) (n op ga sv sc sd tok cy : Nat) (l q m : Leg) (d e : Device),
    (n < 192) →
    (tok < 64) →
    (op < 6) →
    (sv < 32) →
    (sc < 32) →
    (sd < 32) →
    (ga < 2 ^ 64) →
    (max l.count (s.dev.rd COR_TIMING.leg_start n) = cy) →
    (s.dev.issues n cy l d q) →
    (d.remoteOk q ga (if op = 5 then 4 else 8) (if op = 5 then 4 else 8) = none) →
    (gaSp ga ≠ 8) →
    (op = 5 → d.fixedOrder q.ten = false) →
    (q.ops < 256) →
    (m = { q with ops := q.ops + 1 }) →
    (e = (d.putLeg n m).issueAny 5 (ftClass q.cls) ((d.putLeg n m).coreUnit n) ga 16 op q.sn q.remoteTag (toLE 8 (smGet q.s sv 0) ++ toLE 8 (smGet q.s sc 0)) (.ratom n q.serial sd tok)) →
    exec (.ratom n op ga sv sc sd tok) s = .next (s.settles (e.putLeg n ((e.core n).leg.getD m)))) ∧
  (∀ (s : State) (b : List Byte) (p : Pkt) (a e : Device),
    (leAt b 4 1 = 1) →
    ((s.dev.disarmDeep 2).rd PWR_STATE_STAT.state 0 ≠ 2) →
    ((s.dev.disarmDeep 2).checkPkt b = (a, some p)) →
    (p.seq < 2 ^ 32) →
    ((a.inn (streamKey p.src p.path p.cls)).expect % 2 ^ 32 = p.seq) →
    (e = a.setIn (streamKey p.src p.path p.cls) { a.inn (streamKey p.src p.path p.cls) with expect := ((a.inn (streamKey p.src p.path p.cls)).expect + 1) % 2 ^ 32 }) →
    (e.on FAB_TEN_CFG.remote_en (tagTen p.tag) = true) →
    exec (.readRx b) s = .next (s.settles (e.serve { src := p.src, path := p.path, cls := p.cls, op := p.op, code := p.code, seq := p.seq, unit := p.unit, reqId := p.reqId, ga := p.ga, len := p.len, tag := p.tag, payload := p.payload, arrived := a.time }))) ∧
  (∀ (s : State) (b : List Byte) (p : Pkt) (a e : Device),
    (leAt b 4 1 = 3) →
    ((s.dev.disarmDeep 2).rd PWR_STATE_STAT.state 0 ≠ 2) →
    ((s.dev.disarmDeep 2).checkPkt b = (a, some p)) →
    (p.seq < 2 ^ 32) →
    ((a.inn (streamKey p.src p.path p.cls)).expect % 2 ^ 32 = p.seq) →
    (e = a.setIn (streamKey p.src p.path p.cls) { a.inn (streamKey p.src p.path p.cls) with expect := ((a.inn (streamKey p.src p.path p.cls)).expect + 1) % 2 ^ 32 }) →
    (e.on FAB_TEN_CFG.remote_en (tagTen p.tag) = true) →
    exec (.writeRx b) s = .next (s.settles (e.serve { src := p.src, path := p.path, cls := p.cls, op := p.op, code := p.code, seq := p.seq, unit := p.unit, reqId := p.reqId, ga := p.ga, len := p.len, tag := p.tag, payload := p.payload, arrived := a.time }))) ∧
  (∀ (s : State) (b : List Byte) (p : Pkt) (a e : Device),
    (leAt b 4 1 = 5) →
    ((s.dev.disarmDeep 2).rd PWR_STATE_STAT.state 0 ≠ 2) →
    ((s.dev.disarmDeep 2).checkPkt b = (a, some p)) →
    (p.seq < 2 ^ 32) →
    ((a.inn (streamKey p.src p.path p.cls)).expect % 2 ^ 32 = p.seq) →
    (e = a.setIn (streamKey p.src p.path p.cls) { a.inn (streamKey p.src p.path p.cls) with expect := ((a.inn (streamKey p.src p.path p.cls)).expect + 1) % 2 ^ 32 }) →
    (e.on FAB_TEN_CFG.remote_en (tagTen p.tag) = true) →
    exec (.atomicRx b) s = .next (s.settles (e.serve { src := p.src, path := p.path, cls := p.cls, op := p.op, code := p.code, seq := p.seq, unit := p.unit, reqId := p.reqId, ga := p.ga, len := p.len, tag := p.tag, payload := p.payload, arrived := a.time }))) ∧
  (∀ (s : State) (k : Nat) (t : TReq),
    (s.dev.fab.intake[k]? = some t) →
    ((s.dev.fab.intake.take k).any (s.dev.behind t) = false) →
    (s.dev.targetCheck t = .run) →
    (s.dev.cacheFull t = false) →
    exec (.lineSerialiserAccess k) s = .next (s.settles ((s.dev.leaveIntake t).execReq t))) ∧
  (∀ (s : State) (k : Nat) (t : TReq) (a : Device),
    (s.dev.fab.intake[k]? = some t) →
    (t.receipt = false) →
    (t.src ≠ s.dev.devId) →
    (a = { s.dev with fab := { s.dev.fab with intake := s.dev.fab.intake.set k { t with receipt := true } } }) →
    exec (.receiptTimer k) s = .next (s.leads (a.answer t.src 0x09 0 0 t.seq t.unit t.reqId t.ga 0 t.tag []))) ∧
  (∀ (s : State),
    exec .holdTick s = .next (s.leads (((s.dev.fab.intake.map fun t => t.src).eraseDups.filter fun x => x != s.dev.devId).foldl (fun d x => d.answer x 0x0B 0 0 0 0 0 0 0 (mkTag 0 1 0 4 0 0) []) s.dev))) ∧
  (∀ (s : State) (b : List Byte) (p : Pkt) (a : Device),
    (leAt b 4 1 = 0x07) →
    (s.dev.checkPkt b = (a, some p)) →
    exec (.replyAckRx b) s = .next (s.leads { a with fab := { a.fab with replies := a.fab.replies.filter fun r => !(r.src == p.src && r.unit == p.unit && r.reqId == p.reqId && r.seq == p.seq) } })) ∧
  (∀ (s : State) (k : Nat),
    exec (.replyCacheExpiry k) s = .next (s.leads { s.dev with fab := { s.dev.fab with replies := s.dev.fab.replies.eraseIdx k } }))

/-- Answers, resends and timeouts of remote requests -/
def Obligations.RemoteAnswers : Prop :=
  (∀ (s : State) (b : List Byte) (p : Pkt) (a : Device) (r : Req),
    (leAt b 4 1 = 0x02) →
    (s.dev.checkPkt b = (a, some p)) →
    (a.reqOf p = some r) →
    (r.op = 1) →
    exec (.readRspRx b) s = .next (s.settles (a.endReq r (.data p.payload)).askRemote)) ∧
  (∀ (s : State) (b : List Byte) (p : Pkt) (a : Device) (r : Req),
    (leAt b 4 1 = 0x04) →
    (s.dev.checkPkt b = (a, some p)) →
    (a.reqOf p = some r) →
    (r.op = 3 ∨ r.op = 0x10) →
    exec (.writeAckRx b) s = .next (s.settles (a.endReq r (.data [])).askRemote)) ∧
  (∀ (s : State) (b : List Byte) (p : Pkt) (a : Device) (r : Req),
    (leAt b 4 1 = 0x06) →
    (s.dev.checkPkt b = (a, some p)) →
    (a.reqOf p = some r) →
    (r.op = 5) →
    exec (.atomicRspRx b) s = .next (s.settles ((a.replyAck p).endReq r (.data p.payload)))) ∧
  (∀ (s : State) (b : List Byte) (p : Pkt) (a : Device) (r : Req),
    (leAt b 4 1 = 0x08) →
    (s.dev.checkPkt b = (a, some p)) →
    (a.reqOf p = some r) →
    (r.op = 1 ∨ r.op = 3 ∨ r.op = 5 ∨ r.op = 0x10) →
    exec (.errorRspRx b) s = .next (s.settles ((a.replyAck p).endReq r (.failed p.code (if p.code = stEcc then eccDetail 0xFFFF (p.ga % 65536) 0xFFFF else r.ga))))) ∧
  (∀ (s : State) (b : List Byte) (p : Pkt) (a : Device) (r : Req),
    (leAt b 4 1 = 0x09) →
    (s.dev.checkPkt b = (a, some p)) →
    (a.reqOf p = some r) →
    (r.op = 1 ∨ r.op = 3 ∨ r.op = 5 ∨ r.op = 0x10) →
    exec (.receiptRx b) s = .next (s.leads (a.setReq { r with interval := min (2 * r.interval) (min (64 * r.base) (r.limit / 2)) }))) ∧
  (∀ (s : State) (b : List Byte) (p : Pkt) (a : Device) (x : Req),
    (leAt b 4 1 = 0x0A) →
    (s.dev.checkPkt b = (a, some p)) →
    ((a.fab.reqs.find? fun r => r.dst == p.src && r.unit == p.unit && r.reqId == p.reqId) = some x) →
    exec (.xnakRx b) s = .next (s.leads ((a.fab.reqs.filter fun r => r.stream == x.stream && (r.seq.map fun q => decide ((q + 2 ^ 32 - p.seq) % 2 ^ 32 < 2 ^ 31)).getD false).foldl (fun d r => d.transmit r) a))) ∧
  (∀ (s : State) (b : List Byte) (a : Device) (p : Option Pkt),
    (leAt b 4 1 = 0x0B) →
    (s.dev.checkPkt b = (a, p)) →
    exec (.holdRx b) s = .next (s.leads a)) ∧
  (∀ (s : State) (b : List Byte) (p : Pkt) (a : Device) (k : Nat),
    (leAt b 4 1 = 0x0C) →
    (s.dev.checkPkt b = (a, some p)) →
    (k = streamKey p.src (leAt p.payload 0 1 % 16) (leAt p.payload 1 1 % 4)) →
    exec (.creditRx b) s = .next (s.leads ((a.setOut k { a.out k with grant := if (leAt p.payload 4 4 + 2 ^ 32 - (a.out k).grant % 2 ^ 32) % 2 ^ 32 < 2 ^ 31 then (a.out k).grant + (leAt p.payload 4 4 + 2 ^ 32 - (a.out k).grant % 2 ^ 32) % 2 ^ 32 else (a.out k).grant }).pumpOut k))) ∧
  (∀ (s : State) (k : Nat) (r : Req),
    (s.dev.fab.reqs[k]? = some r) →
    (r.seq.isSome = true) →
    (r.dst ≠ s.dev.devId) →
    exec (.resendTimeout k) s = .next (s.leads (s.dev.transmit r))) ∧
  (∀ (s : State) (k : Nat) (r : Req),
    (s.dev.fab.reqs[k]? = some r) →
    (r.dst ≠ s.dev.devId) →
    exec (.remoteRequestTimeout k) s = .next (s.settles (s.dev.endReq r .lost).askRemote))

/-- The flip of a crossing to a peer -/
def Obligations.PeerCrossings : Prop :=
  (∀ (s : State) (b : List Byte) (p : Pkt) (a : Device),
    (leAt b 4 1 = 0x20) →
    (s.dev.checkPkt b = (a, some p)) →
    exec (.prepareRx b) s = .next (s.settles (a.answer p.src 0x21 0 0 0 p.unit 0 p.ga 16 p.tag p.payload))) ∧
  (∀ (s : State) (b : List Byte) (p : Pkt) (a : Device) (f : PeerFlip) (x : Xfer),
    (leAt b 4 1 = 0x21) →
    (s.dev.checkPkt b = (a, some p)) →
    (a.flipOf p 0 = some f) →
    (a.chan? f.ch = some x) →
    exec (.prepareAckRx b) s = .next (s.settles (a.setChan f.ch { x with peerPhase := 2 }))) ∧
  (∀ (s : State) (b : List Byte) (p : Pkt) (a : Device) (ps : List Nat) (e : Device),
    (leAt b 4 1 = 0x22) →
    (s.dev.checkPkt b = (a, some p)) →
    (ps = (((parts (leAt p.payload 0 8) (leAt p.payload 8 8)).filterMap fun q => (a.locate (tagTen p.tag) q.1 false).map fun l => l.1.page).filter fun q => a.pageState q == pgArriving && smGet a.fab.arriving q 4096 == p.src)) →
    (e = a.setPages ps pgLanded) →
    exec (.openRx b) s = .next (s.settles ((Device.releaseHeld { e with fab := { e.fab with arriving := e.fab.arriving.filter fun x => !ps.contains x.1 } } chNone id).answer p.src 0x23 0 0 0 p.unit 0 p.ga 16 p.tag p.payload))) ∧
  (∀ (s : State) (b : List Byte) (p : Pkt) (a : Device) (f : PeerFlip),
    (leAt b 4 1 = 0x23) →
    (s.dev.checkPkt b = (a, some p)) →
    (a.flipOf p 1 = some f) →
    exec (.openAckRx b) s = .next (s.settles { a with fab := { a.fab with flips := a.fab.flips.erase f } })) ∧
  (∀ (s : State) (k : Nat) (f : PeerFlip),
    (s.dev.fab.flips[k]? = some f) →
    (f.phase = 0 ∨ s.dev.isMember f.dst = true) →
    exec (.peerFlipResend k) s = .next (s.leads (s.dev.sendFlip f))) ∧
  (∀ (s : State) (k : Nat) (f : PeerFlip) (x : Xfer) (a : Device),
    (s.dev.fab.flips[k]? = some f) →
    (f.phase = 0) →
    (a = { s.dev with fab := { s.dev.fab with flips := s.dev.fab.flips.eraseIdx k } }) →
    (a.chan? f.ch = some x) →
    (x.peerPhase ≠ 2) →
    exec (.prepareTimeout k) s = .next (s.settles (a.failXfer f.ch stTimeout f.first)))

/-- Collectives: data that arrive and the switch handshake of a reduction -/
def Obligations.CollectiveAnswers : Prop :=
  (∀ (s : State) (b : List Byte) (p : Pkt) (a e : Device),
    (leAt b 4 1 = 0x10) →
    ((s.dev.disarmDeep 2).rd PWR_STATE_STAT.state 0 ≠ 2) →
    ((s.dev.disarmDeep 2).checkPkt b = (a, some p)) →
    (crc32c (p.payload.drop 16) = leAt p.payload 4 4) →
    (p.seq < 2 ^ 32) →
    ((a.inn (streamKey p.src p.path p.cls)).expect % 2 ^ 32 = p.seq) →
    (e = a.setIn (streamKey p.src p.path p.cls) { a.inn (streamKey p.src p.path p.cls) with expect := ((a.inn (streamKey p.src p.path p.cls)).expect + 1) % 2 ^ 32 }) →
    (e.on FAB_TEN_CFG.remote_en (tagTen p.tag) = true) →
    exec (.collDataRx b) s = .next (s.settles (e.serve { src := p.src, path := p.path, cls := p.cls, op := p.op, code := p.code, seq := p.seq, unit := p.unit, reqId := p.reqId, ga := p.ga, len := p.len, tag := p.tag, payload := p.payload, arrived := a.time }))) ∧
  (∀ (s : State) (b : List Byte) (p : Pkt) (a : Device) (c e : Coll),
    (leAt b 4 1 = 0x12) →
    (s.dev.checkPkt b = (a, some p)) →
    (a.collOf p.ga = some c) →
    (c.kind = 5) →
    (c.phase = 0) →
    (e = { c with heard := a.time }) →
    exec (.redGrantRx b) s = .next (s.settles (sendContrib (e.chunks + 1) e.sn ((a.setColl e).setColl { e with phase := 1, window := clampN 1 64 (leAt p.payload 0 1) })))) ∧
  (∀ (s : State) (b : List Byte) (p : Pkt) (a : Device) (c e : Coll),
    (leAt b 4 1 = 0x13) →
    (s.dev.checkPkt b = (a, some p)) →
    (a.collOf p.ga = some c) →
    (c.kind = 5) →
    (c.phase = 0) →
    (e = { c with heard := a.time }) →
    exec (.redDeclinedRx b) s = .next (s.settles (if cdFallback e.desc then (((a.setColl e).incSat COL_STAT.declines 0 1).incSat COL_STAT.fallbacks 0 1).ringStart e.sn else ((a.setColl e).incSat COL_STAT.declines 0 1).endColl e stDeclined 0))) ∧
  (∀ (s : State) (b : List Byte) (p : Pkt) (a : Device) (c e : Coll) (h : List Byte) (i : Nat) (g : Device),
    (leAt b 4 1 = 0x15) →
    (s.dev.checkPkt b = (a, some p)) →
    (a.collOf p.ga = some c) →
    (c.kind = 5) →
    (c.phase = 1) →
    (e = { c with heard := a.time }) →
    (h = p.payload.take 16) →
    (i = leAt h 0 4) →
    (e.landed.contains i = false) →
    (i < e.chunks) →
    (crc32c (p.payload.drop 16) = leAt h 4 4) →
    (e.agrees h = true) →
    (e.fixed = true → bit (leAt h 10 1) 0 = true) →
    (((a.setColl e).logRec e.ten 3 p.src (cdDst e.desc + 4096 * i) p.tag p.payload).landResult e i (p.payload.drop 16) = (g, .done)) →
    ((p.payload.drop 16).length = e.chunkLen i) →
    exec (.redResultRx b) s = .next (s.settles (g.closeReduce e.sn))) ∧
  (∀ (s : State) (b : List Byte) (p : Pkt) (a : Device) (c e : Coll),
    (leAt b 4 1 = 0x16) →
    (s.dev.checkPkt b = (a, some p)) →
    (a.collOf p.ga = some c) →
    (c.kind = 5) →
    (c.phase = 2) →
    (e = { c with heard := a.time }) →
    exec (.redDoneRx b) s = .next (s.settles ((a.setColl e).verdict e (leAt p.payload 0 1 != 0)))) ∧
  (∀ (s : State) (b : List Byte) (p : Pkt) (a : Device) (c e : Coll),
    (leAt b 48 1 = 0) →
    (leAt b 4 1 = 0x17) →
    (s.dev.checkPkt b = (a, some p)) →
    (a.collOf p.ga = some c) →
    (c.kind = 5) →
    (c.phase ≤ 2) →
    (e = { c with heard := a.time }) →
    exec (.redWaitRx b) s = .next (s.leads (a.setColl e))) ∧
  (∀ (s : State) (b : List Byte) (p : Pkt) (a : Device) (c e : Coll),
    (leAt b 48 1 = 1) →
    (leAt b 4 1 = 0x17) →
    (s.dev.checkPkt b = (a, some p)) →
    (a.collOf p.ga = some c) →
    (c.kind = 5) →
    (c.phase ≤ 2) →
    (e = { c with heard := a.time }) →
    exec (.redAbortRx b) s = .next (s.settles ((a.setColl e).endColl e stTimeout (cdGroup e.desc)))) ∧
  (∀ (s : State) (k : Nat) (c : Coll),
    (s.dev.colls[k]? = some c) →
    (c.kind = 5) →
    (c.phase = 0) →
    exec (.redOpenTimeout k) s = .next (s.settles (s.dev.failColl c stTimeout (cdGroup c.desc)))) ∧
  (∀ (s : State) (k : Nat) (c : Coll),
    (s.dev.colls[k]? = some c) →
    (c.kind = 5) →
    (c.phase = 1 ∨ c.phase = 2) →
    exec (.redWaitTimeout k) s = .next (s.settles (s.dev.failColl c stTimeout (cdGroup c.desc))))

/-- Joining, heartbeats, suspicion, changes of membership -/
def Obligations.MembershipCommands : Prop :=
  (∀ (s : State) (value : Nat) (a : Device),
    (value < 2 ^ 64) →
    (s.dev.reaches 0 .FTP_CFG = true) →
    (bit value 0 = true) →
    (a = ((s.dev.wr FTP_CFG.isolate_ms 0 (bits value 31 24)).wr FTP_CFG.mgr_capable 0 (bits value 1 1)).wr FTP_CFG.enable 0 (bits value 0 0)) →
    (s.dev.on FTP_CFG.enable 0 = false) →
    (s.dev.isMemberNow = false) →
    exec (.musterEnable 0 value) s = .next (s.settles a.musterOff.tryJoin)) ∧
  (∀ (s : State) (value : Nat) (a : Device),
    (value < 2 ^ 64) →
    (s.dev.reaches 0 .FTP_CFG = true) →
    (bit value 0 = s.dev.on FTP_CFG.enable 0) →
    (a = ((s.dev.wr FTP_CFG.isolate_ms 0 (bits value 31 24)).wr FTP_CFG.mgr_capable 0 (bits value 1 1)).wr FTP_CFG.enable 0 (bits value 0 0)) →
    exec (.musterEnable 0 value) s = .next (s.settles a)) ∧
  (∀ (s : State) (value : Nat) (a : Device),
    (value < 2 ^ 64) →
    (s.dev.reaches 0 .FTP_CFG = true) →
    (bit value 0 = false) →
    (a = ((s.dev.wr FTP_CFG.isolate_ms 0 (bits value 31 24)).wr FTP_CFG.mgr_capable 0 (bits value 1 1)).wr FTP_CFG.enable 0 (bits value 0 0)) →
    (s.dev.on FTP_CFG.enable 0 = true) →
    (s.dev.isMemberNow = false) →
    exec (.musterEnable 0 value) s = .next (s.settles a.musterOff)) ∧
  (∀ (s : State) (value : Nat) (a : Device),
    (value < 2 ^ 64) →
    (s.dev.reaches 0 .FTP_CFG = true) →
    (bit value 0 = false) →
    (a = ((s.dev.wr FTP_CFG.isolate_ms 0 (bits value 31 24)).wr FTP_CFG.mgr_capable 0 (bits value 1 1)).wr FTP_CFG.enable 0 (bits value 0 0)) →
    (s.dev.on FTP_CFG.enable 0 = true) →
    (s.dev.isMemberNow = true) →
    exec (.musterEnable 0 value) s = .next (s.settles a.sendLeave)) ∧
  (∀ (s : State),
    (s.dev.rd FTP_STAT.state 0 = 1) →
    exec .joinTick s = .next (s.leads (s.dev.muster (s.dev.rd FTP_MGR.span_manager 0) muJoin { dev := s.dev.devId, capable := if s.dev.on FTP_CFG.mgr_capable 0 then [s.dev.devId] else [] }))) ∧
  (∀ (s : State) (a : Device),
    (s.dev.isMemberNow = true) →
    (a = s.dev.sendBeats.countMisses) →
    exec .heartbeatTick s = .next (s.leads (if a.isSpanMgr then a.ftp.suspected.foldl (fun d m => d.probe m) a else a))) ∧
  (∀ (s : State) (src : Nat),
    (src < 4096) →
    (s.dev.isMember src = true) →
    (s.dev.isMemberNow = true) →
    exec (.heartbeatRx src) s = .next (s.leads { s.dev with ftp := { s.dev.ftp with heard := src :: s.dev.ftp.heard.filter (fun x => x != src), misses := smSet s.dev.ftp.misses src 0 0, hearts := smIns s.dev.ftp.hearts src s.dev.cycle } })) ∧
  (∀ (s : State) (src : Nat),
    (src < 4096) →
    (s.dev.isMember src = true) →
    (s.dev.isMemberNow = true) →
    exec (.beaconRx src) s = .next (s.leads { s.dev with ftp := { s.dev.ftp with beacons := smIns s.dev.ftp.beacons src s.dev.cycle } })) ∧
  (∀ (s : State) (src : Nat),
    (src < 4096) →
    (s.dev.isMember src = true) →
    (s.dev.rd FTP_STAT.state 0 ≠ 0) →
    exec (.probeRx src) s = .next (s.leads (s.dev.muster src muProbeAck { dev := s.dev.devId }))) ∧
  (∀ (s : State) (src : Nat),
    (src < 4096) →
    (s.dev.ftp.suspected.contains src = true) →
    exec (.probeAckRx src) s = .next (s.leads ({ s.dev with ftp := { s.dev.ftp with suspected := s.dev.ftp.suspected.filter (fun x => x != src), misses := smSet s.dev.ftp.misses src 0 0 } }.incSat FTP_CNT.suspicions 0 1))) ∧
  (∀ (s : State) (dev : Nat),
    (dev < 4096) →
    (s.dev.isSpanMgr = true) →
    (s.dev.ftp.suspected.contains dev = true) →
    exec (.probeTimeout dev) s = .next (s.leads (s.dev.confirmLost dev))) ∧
  (∀ (s : State) (src dev : Nat),
    (src < 4096) →
    (dev < 4096) →
    (s.dev.isMember src = true) →
    (s.dev.isSysMgr = true) →
    exec (.removeRx src dev) s = .next (s.leads (s.dev.gatherRemove dev))) ∧
  (∀ (s : State) (dev : Nat) (capable : Bool),
    (dev < 4096) →
    (s.dev.isSysMgr = true) →
    (s.dev.isMember dev = false) →
    (∀ j ∈ s.dev.ftp.join, j.1 ≠ dev) →
    exec (.joinRx dev capable) s = .next (s.leads { s.dev with ftp := { s.dev.ftp with join := s.dev.ftp.join ++ [(dev, capable)], gatherAt := some (s.dev.ftp.gatherAt.getD s.dev.cycle) } })) ∧
  (∀ (s : State) (dev : Nat) (capable : Bool),
    (dev < 4096) →
    (s.dev.isSysMgr = false) →
    (s.dev.isSpanMgr = true) →
    (s.dev.isMember dev = false) →
    exec (.joinRx dev capable) s = .next (s.leads (s.dev.muster (s.dev.rd FTP_MGR.sys_manager 0) muJoin { dev := dev, capable := if capable then [dev] else [] }))) ∧
  (∀ (s : State) (dev : Nat) (capable : Bool),
    (dev < 4096) →
    (s.dev.isSysMgr = true ∨ s.dev.isSpanMgr = true) →
    (s.dev.isMember dev = true) →
    exec (.joinRx dev capable) s = .next (s.leads (s.dev.muster dev muEpoch { dev := s.dev.devId, epoch := s.dev.epoch, members := s.dev.fab.members, capable := s.dev.ftp.capable }))) ∧
  (∀ (s : State) (src : Nat),
    (src < 4096) →
    (s.dev.isMember src = true) →
    (s.dev.isSpanMgr = true ∨ s.dev.isSysMgr = true) →
    exec (.leaveRx src) s = .next (s.leads (s.dev.confirmLost src)))

/-- Epochs, managers, isolation -/
def Obligations.EpochCommands : Prop :=
  (∀ (s : State) (lossy joins members cap : List Nat) (m : Muster) (a b : Device),
    (s.dev.isSysMgr = true) →
    (s.dev.ftp.gatherAt.isSome = true) →
    (∀ t, s.dev.ftp.lastIssue = some t → t + 1800000 ≤ s.dev.cycle) →
    (s.dev.majority = true) →
    (joins = s.dev.ftp.join.map fun j => j.1) →
    (members = sortNat ((s.dev.fab.members.filter fun x => !s.dev.ftp.remove.contains x) ++ joins)) →
    (cap = (s.dev.ftp.capable ++ (s.dev.ftp.join.filter fun j => j.2).map fun j => j.1).filter members.contains) →
    (m = { dev := s.dev.devId, epoch := (s.dev.epoch + 1) % 2 ^ 32, members := members, capable := cap, joins := joins, lossy := lossy }) →
    (a = { s.dev with ftp := { s.dev.ftp with remove := [], join := [], gatherAt := none, lastIssue := some s.dev.cycle, acks := [] } }) →
    (b = (((managers members cap ++ managers s.dev.fab.members s.dev.ftp.capable).eraseDups.filter fun x => spanOf x != spanOf s.dev.devId) ++ a.spanTargets m).foldl (fun d x => d.muster x muEpoch m) a) →
    exec (.epochIssue lossy) s = .next (s.settles (b.applyEpoch s.dev.devId m))) ∧
  (∀ (s : State) (src : Nat) (m : Muster) (a e : Device),
    (src < 4096) →
    ((s.dev.rd FTP_STAT.state 0 = 1 ∧ m.joins.contains s.dev.devId = true) ∨ (s.dev.rd FTP_STAT.state 0 = 2 ∧ s.dev.isMember src = true ∧ s.dev.newer m.epoch = true)) →
    (a = if s.dev.isSpanMgr || (rankOrder m.members m.capable (spanOf s.dev.devId)).head? == some s.dev.devId then (s.dev.spanTargets m).foldl (fun d x => if x = src then d else d.muster x muEpoch m) s.dev else s.dev) →
    (e = a.applyEpoch src m) →
    exec (.epochRx src m) s = .next (s.settles (if e.pwr.removing && e.isolated && !s.dev.isolated then e.deviceReset 3 unitNone else e))) ∧
  (∀ (s : State) (src : Nat),
    (src < 4096) →
    (s.dev.isMember src = true) →
    exec (.epochAckRx src) s = .next (s.leads { s.dev with ftp := { s.dev.ftp with acks := src :: s.dev.ftp.acks.filter fun x => x != src } })) ∧
  (∀ (s : State) (sys : Bool) (order : List Nat) (k : Nat) (alone : Bool) (e a : Device),
    (s.dev.isMemberNow = true) →
    (order = if sys then managers s.dev.fab.members s.dev.ftp.capable else rankOrder s.dev.fab.members s.dev.ftp.capable (spanOf s.dev.devId)) →
    (findIdxFrom (fun x => x == s.dev.devId) order 0 = some k) →
    (0 < k) →
    ((if sys then s.dev.isSysMgr else s.dev.isSpanMgr) = false) →
    ((order.take k).any (fun x => s.dev.heardIn s.dev.ftp.beacons x (3 * k)) = false) →
    (alone = (!sys && (managers s.dev.fab.members s.dev.ftp.capable).all fun x => spanOf x == spanOf s.dev.devId)) →
    (e = if sys then s.dev else s.dev.wr FTP_MGR.span_manager 0 s.dev.devId) →
    (a = (if sys || alone then (e.wr FTP_MGR.sys_manager 0 e.devId).wr FTP_STAT.sys_manager 0 1 else e).incSat FTP_CNT.takeovers 0 1) →
    exec (.managerTakeover sys) s = .next (s.leads ((order.take k).foldl (fun d x => d.confirmLost x) a))) ∧
  (∀ (s : State) (src : Nat),
    (src < 4096) →
    (s.dev.isMember src = true) →
    (s.dev.isMemberNow = true) →
    exec (.isolateRx src) s = .next (s.settles (s.dev.isolate 3))) ∧
  (∀ (s : State),
    (s.dev.isMemberNow = true) →
    (s.dev.connected = false) →
    exec .isolateTimeout s = .next (s.settles ((if s.dev.isSpanMgr then s.dev.spanMembers.foldl (fun d m => d.muster m muIsolate {}) s.dev else s.dev).isolate 3))) ∧
  (∀ (d : Device),
    (d.newer ((d.epoch + 1) % 2 ^ 32) = true ∧ d.newer d.epoch = false)) ∧
  (∀ (d e : Device),
    (d.newer e.epoch = true) →
    e.newer d.epoch = false)

/-- Shadows, mirrored logs, restore -/
def Obligations.ShadowCommands : Prop :=
  (∀ (s : State) (t u : Nat) (g : ShadowGen) (idx pg : Nat) (rest : List (Nat × Nat)) (data : List Byte) (a : Device),
    (t < 64) →
    (s.dev.ftp.gens.find? (fun x => x.1 == t) = some (u, g)) →
    (g.left = (idx, pg) :: rest) →
    (data = s.dev.peek (if encrypted (pg / 2 ^ 20) then s.dev.tenKey t else devKey) (pg / 2 ^ 20) (pg % 2 ^ 20 * pageSize) pageSize) →
    (a = ({ s.dev with ftp := { s.dev.ftp with gens := smIns s.dev.ftp.gens t ({ g with left := rest } : ShadowGen) }, sent := .shadow s.dev.partner t g.step (.page idx data) :: s.dev.sent } : Device).unshadow [pg]) →
    exec (.shadowPageRead t) s = .next (s.settles (if rest.isEmpty then { a with sent := .shadow a.partner t g.step (.info g.count g.info) :: a.sent } else a))) ∧
  (∀ (s : State) (t u : Nat) (g : ShadowGen),
    (t < 64) →
    (s.dev.ftp.gens.find? (fun x => x.1 == t) = some (u, g)) →
    (g.left = []) →
    (g.count = 0) →
    exec (.shadowPageRead t) s = .next (s.settles { s.dev with sent := .shadow s.dev.partner t g.step (.info 0 g.info) :: s.dev.sent })) ∧
  (∀ (s : State) (src t u : Nat) (g : ShadowGen) (full : List Nat) (a b c e : Device),
    (src < 4096) →
    (t < 64) →
    (s.dev.ftp.gens.find? (fun x => x.1 == t) = some (u, g)) →
    (src = s.dev.partner) →
    (g.left = []) →
    (full = t :: s.dev.ftp.full.filter fun x => x != t) →
    (a = { s.dev with ftp := { s.dev.ftp with gens := smDel s.dev.ftp.gens t, full := full } }) →
    (b = (a.wr FTP_TEN_STAT.gen_step t g.step).wr FTP_TEN_STAT.unprotected t 0) →
    (c = if (List.range 64).all fun x => !b.isProtected x || full.contains x then b.wr FTP_PARTNER.state 0 2 else b) →
    (e = c.setInLog t { c.inLog t with gen := some g.step }) →
    exec (.shadowAckRx src t g.step true) s = .next (s.settles (((if e.rd FTP_TEN_STAT.log_state t = 2 then e.wr FTP_TEN_STAT.log_state t 0 else e).drainLogs t).commitsAcked t))) ∧
  (∀ (s : State) (src t u : Nat) (g : ShadowGen),
    (src < 4096) →
    (t < 64) →
    (s.dev.ftp.gens.find? (fun x => x.1 == t) = some (u, g)) →
    (src = s.dev.partner) →
    exec (.shadowAckRx src t g.step false) s = .next (s.settles (s.dev.shadowFailed t g))) ∧
  (∀ (s : State) (t : Nat) (a b : Device),
    (t < 64) →
    (s.dev.logHolds t = true) →
    (a = (s.dev.setInLog t { s.dev.inLog t with kept := [] }).drainLogs t) →
    (b = (a.wr FTP_TEN_STAT.log_state t 2).wr FTP_TEN_STAT.unprotected t 1) →
    exec (.logHoldTimeout t) s = .next (s.settles ((b.logUncoded unitNone t (b.step t)).commitsAcked t))) ∧
  (∀ (s : State) (value : Nat) (a b : Device),
    (value < 2 ^ 64) →
    (s.dev.reaches 0 .FTP_RESTORE = true) →
    (a = ((s.dev.wr FTP_RESTORE.tenancy 0 (bits value 60 55)).wr FTP_RESTORE.guest 0 (bits value 54 43)).wr FTP_RESTORE.source 0 (bits value 42 31)) →
    (b = if bit value 61 then a.wr FTP_RESTORE.err 0 0 else a) →
    (bit value 63 = true) →
    (b.ftp.restore = none) →
    exec (.restoreStart 0 value) s = .next (s.leads ({ b with ftp := { b.ftp with restore := some (bits value 60 55, bits value 54 43, bits value 42 31) } }.wr FTP_RESTORE.busy 0 1))) ∧
  (∀ (s : State) (value : Nat) (a b : Device),
    (value < 2 ^ 64) →
    (s.dev.reaches 0 .FTP_RESTORE = true) →
    (a = ((s.dev.wr FTP_RESTORE.tenancy 0 (bits value 60 55)).wr FTP_RESTORE.guest 0 (bits value 54 43)).wr FTP_RESTORE.source 0 (bits value 42 31)) →
    (b = if bit value 61 then a.wr FTP_RESTORE.err 0 0 else a) →
    (bit value 63 = false ∨ b.ftp.restore.isSome = true) →
    exec (.restoreStart 0 value) s = .next (s.leads b)) ∧
  (∀ (s : State) (ok : Bool) (img im : Restored) (t guest source : Nat) (ps : List (Nat × List Byte)) (b : Device),
    (s.dev.ftp.restore = some (t, guest, source)) →
    ((if source = s.dev.devId then s.dev.hostedImage guest t else if ok then some img else none) = some im) →
    (ps = s.dev.restorePages t (guest == s.dev.devId) im) →
    (∀ p ∈ ps, (s.dev.indexPage t p.1).isSome = true) →
    (b = (ps.foldl (Device.restorePage t) (s.dev.restoreEnds true)).restoreTables t im.info) →
    exec (.restoreDone ok img) s = .next (s.leads (if guest == s.dev.devId then b else b.takeRecs t im.recs))) ∧
  (∀ (s : State) (ok : Bool) (img im : Restored) (t guest source : Nat) (ps : List (Nat × List Byte)),
    (s.dev.ftp.restore = some (t, guest, source)) →
    ((if source = s.dev.devId then s.dev.hostedImage guest t else if ok then some img else none) = some im) →
    (ps = s.dev.restorePages t (guest == s.dev.devId) im) →
    (∃ p ∈ ps, s.dev.indexPage t p.1 = none) →
    exec (.restoreDone ok img) s = .next (s.leads (s.dev.restoreEnds false))) ∧
  (∀ (s : State) (img : Restored) (t guest source : Nat),
    (s.dev.ftp.restore = some (t, guest, source)) →
    (source ≠ s.dev.devId) →
    exec (.restoreDone false img) s = .next (s.leads (s.dev.restoreEnds false))) ∧
  (∀ (s : State) (guest t step i : Nat) (idx p : Nat) (data : List Byte) (h g : HostGen) (a : Device),
    (guest < 4096) →
    (t < 64) →
    (s.dev.hostArea guest = some i) →
    (s.dev.hostFree i = some p) →
    (h = s.dev.hostGen guest t step) →
    (g = { h with pages := h.pages.filter (fun x => x.1 != idx) ++ [(idx, p)] }) →
    (a = { s.dev with ftp := { s.dev.ftp with hosted := s.dev.ftp.hosted.filter fun h => !(h.freed && h.pages.any fun x => x.2 == p) } }) →
    exec (.shadowPageRx guest t step (.page idx data)) s = .next (s.leads (((a.poke devKey spT2 (p * pageSize) (data.take pageSize)).setHostGen g).hostDone g))) ∧
  (∀ (s : State) (guest t step : Nat) (x : ShadowItem),
    (guest < 4096) →
    (t < 64) →
    (s.dev.hostArea guest = none) →
    exec (.shadowPageRx guest t step x) s = .next (s.leads { s.dev with sent := .shadowAck guest t step false :: s.dev.sent })) ∧
  (∀ (s : State) (guest t step i : Nat) (idx : Nat) (data : List Byte),
    (guest < 4096) →
    (t < 64) →
    (s.dev.hostArea guest = some i) →
    (s.dev.hostFree i = none) →
    exec (.shadowPageRx guest t step (.page idx data)) s = .next (s.leads { s.dev with ftp := { s.dev.ftp with hosted := s.dev.ftp.hosted.filter fun h => !(h.is guest t && !h.complete) }, sent := .shadowAck guest t step false :: s.dev.sent })) ∧
  (∀ (s : State) (guest t step i : Nat) (n : Nat) (m : ShadowMeta) (g : HostGen),
    (guest < 4096) →
    (t < 64) →
    (s.dev.hostArea guest = some i) →
    (g = { s.dev.hostGen guest t step with info := some (n, m) }) →
    exec (.shadowPageRx guest t step (.info n m)) s = .next (s.leads ((s.dev.setHostGen g).hostDone g))) ∧
  (∀ (s : State) (guest t : Nat) (r : LogRec),
    (guest < 4096) →
    (t < 64) →
    exec (.logRecordMirrorRx guest t r) s = .next (s.leads { s.dev with ftp := { s.dev.ftp with mirrored := s.dev.ftp.mirrored ++ [(guest, t, r)] }, sent := .logAck guest t (r.order + 1) :: s.dev.sent })) ∧
  (∀ (s : State) (t num : Nat),
    (t < 64) →
    exec (.logMirrorAckRx t num) s = .next (s.leads ((s.dev.setInLog t { s.dev.inLog t with acked := max (s.dev.inLog t).acked (min num (s.dev.inLog t).next) }).commitsAcked t)))

/-- Operations of the security root -/
def Obligations.SecurityOperations : Prop :=
  (∀ (s : State) (value resp t : Nat) (a b : Device) (w : List Byte) (os : List (List Byte × List Byte)),
    (value < 2 ^ 64) →
    (s.dev.reaches 0 .SEC_OP_CTL = true) →
    (bits value 3 0 = 1) →
    (b = s.dev.secAck value) →
    (b.on SEC_OP_CTL.busy 0 = false) →
    (t = bits value 13 8) →
    (a = b.wr SEC_OP_CTL.tenancy 0 t) →
    (resp < 3) →
    (a.secBlob resp 1088 = some w) →
    (leAt w 0 4 = 0x09604F57) →
    (allZero w 4 28 = true) →
    (a.pwr.owners.length < 4) →
    (∀ x, a.owner = some x → rsaPssVerify x.1 (bmSigned w) (bmSig w) = true) →
    (os = a.pwr.owners ++ [(bmModulus w, (w.drop 32).take 32)]) →
    exec (.ownerEnrol 0 value resp) s = .next (s.leads (({ a with pwr := { a.pwr with owners := os } }.wr SEC_BOOT_STAT.owners 0 os.length).secPend { op := 1, ten := t, code := 0 }))) ∧
  (∀ (s : State) (value resp g t : Nat) (a b : Device) (w : List Byte) (x : List Byte × List Byte) (r : List Byte × List Byte),
    (value < 2 ^ 64) →
    (s.dev.reaches 0 .SEC_OP_CTL = true) →
    (bits value 3 0 = 2) →
    (b = s.dev.secAck value) →
    (b.on SEC_OP_CTL.busy 0 = false) →
    (t = bits value 13 8) →
    (a = b.wr SEC_OP_CTL.tenancy 0 t) →
    (resp < 3) →
    (a.secBlob resp 72 = some w) →
    (a.owner = some x) →
    (r = gcmUnseal x.2 ((w.drop 12).take 12) (w.take 12) ((w.drop 24).take 32)) →
    (g = leAt w 8 4) →
    (leAt w 0 4 = 0x0960464B) →
    (allZero w 5 3 = true) →
    (leAt w 4 1 = t) →
    (r.2 = (w.drop 56).take 16) →
    (newerGen g (a.fabKeys t).cur = true) →
    exec (.fabricKeyImport 0 value resp) s = .next (s.leads ((a.setKeys t { a.fabKeys t with next := some (g, r.1) }).secPend { op := 2, ten := t, code := 0 }))) ∧
  (∀ (s : State) (value t : Nat) (a b : Device),
    (value < 2 ^ 64) →
    (s.dev.reaches 0 .SEC_OP_CTL = true) →
    (bits value 3 0 = 3) →
    (b = s.dev.secAck value) →
    (b.on SEC_OP_CTL.busy 0 = false) →
    (t = bits value 13 8) →
    (a = b.wr SEC_OP_CTL.tenancy 0 t) →
    ((a.fabKeys t).next.isSome = true) →
    exec (.fabricKeyActivate 0 value) s = .next (s.leads ((a.setKeys t { a.fabKeys t with activate := true }).secPend { op := 3, ten := t, code := 0 }))) ∧
  (∀ (s : State) (value t : Nat) (a b : Device),
    (value < 2 ^ 64) →
    (s.dev.reaches 0 .SEC_OP_CTL = true) →
    (bits value 3 0 = 4) →
    (b = s.dev.secAck value) →
    (b.on SEC_OP_CTL.busy 0 = false) →
    (t = bits value 13 8) →
    (a = b.wr SEC_OP_CTL.tenancy 0 t) →
    exec (.fabricKeyRetirePrevious 0 value) s = .next (s.leads ((a.setKeys t { a.fabKeys t with prev := none }).secPend { op := 4, ten := t, code := 0 }))) ∧
  (∀ (s : State) (value t : Nat) (a b : Device),
    (value < 2 ^ 64) →
    (s.dev.reaches 0 .SEC_OP_CTL = true) →
    (bits value 3 0 = 5) →
    (b = s.dev.secAck value) →
    (b.on SEC_OP_CTL.busy 0 = false) →
    (t = bits value 13 8) →
    (a = b.wr SEC_OP_CTL.tenancy 0 t) →
    (a.rd TEN_STAT.t1_mapped t = 0) →
    (a.rd TEN_STAT.t2_mapped t = 0) →
    (∀ i, i < a.rd MEM_LAND_CFG.count t → a.landState t i = 0) →
    (a.rd SCH_KV_POOL.pages t = 0) →
    (a.rd FTP_TEN_CFG.mode t = 0) →
    exec (.memoryKeyRoll 0 value) s = .next (s.leads (({ a with rolls := smSet a.rolls t 0 (smGet a.rolls t 0 + 1) }.incWrap SEC_TEN_STAT.mkey_rolls t 1).secPend { op := 5, ten := t, code := 0 }))) ∧
  (∀ (s : State) (value t : Nat) (a b : Device),
    (value < 2 ^ 64) →
    (s.dev.reaches 0 .SEC_OP_CTL = true) →
    (bits value 3 0 = 6) →
    (b = s.dev.secAck value) →
    (b.on SEC_OP_CTL.busy 0 = false) →
    (t = bits value 13 8) →
    (a = b.wr SEC_OP_CTL.tenancy 0 t) →
    exec (.debugNonce 0 value) s = .next (s.leads (((List.range 4).foldl (fun d i => (d.fresh (2 ^ 64)).2.wr SEC_DBG_NONCE.nonce i (d.fresh (2 ^ 64)).1) a).secPend { op := 6, ten := t, code := 0 }))) ∧
  (∀ (s : State) (value resp t : Nat) (a b : Device) (w : List Byte),
    (value < 2 ^ 64) →
    (s.dev.reaches 0 .SEC_OP_CTL = true) →
    (bits value 3 0 = 7) →
    (b = s.dev.secAck value) →
    (b.on SEC_OP_CTL.busy 0 = false) →
    (t = bits value 13 8) →
    (a = b.wr SEC_OP_CTL.tenancy 0 t) →
    (resp < 3) →
    (a.secBlob resp 1088 = some w) →
    (leAt w 0 4 = 0x09604454) →
    (leAt w 4 1 < 4) →
    (allZero w 6 2 = true) →
    (allZero w 48 16 = true) →
    (leAt w 8 8 = a.rd SEC_SERIAL.serial 0) →
    ((w.drop 16).take 32 = a.nonce) →
    (allZero a.nonce 0 32 = false) →
    (a.tokenKey w = true) →
    (rsaPssVerify (bmModulus w) (bmSigned w) (bmSig w) = true) →
    exec (.debugUnlock 0 value resp) s = .next (s.leads (a.voidNonce.secPend { op := 7, ten := t, code := 0, scope := leAt w 4 1 }))) ∧
  (∀ (s : State) (value t : Nat) (a b : Device),
    (value < 2 ^ 64) →
    (s.dev.reaches 0 .SEC_OP_CTL = true) →
    (bits value 3 0 = 8) →
    (b = s.dev.secAck value) →
    (b.on SEC_OP_CTL.busy 0 = false) →
    (t = bits value 13 8) →
    (a = b.wr SEC_OP_CTL.tenancy 0 t) →
    exec (.debugLock 0 value) s = .next (s.leads ((a.wr SEC_BOOT_STAT.dbg_scope 0 0).secPend { op := 8, ten := t, code := 0 }))) ∧
  (∀ (s : State) (value resp k t : Nat) (a b : Device) (w img : List Byte),
    (value < 2 ^ 64) →
    (s.dev.reaches 0 .SEC_OP_CTL = true) →
    (bits value 3 0 = 9) →
    (b = s.dev.secAck value) →
    (b.on SEC_OP_CTL.busy 0 = false) →
    (t = bits value 13 8) →
    (a = b.wr SEC_OP_CTL.tenancy 0 t) →
    (resp < 3) →
    (a.on SEC_BOOT_STAT.recovery 0 = true) →
    (a.booting = true) →
    (a.secBlob resp 1088 = some w) →
    (img = w ++ a.peek devKey (spHost 0) (a.rd SEC_OP_ADDR.addr 0 * 64 + 1088) (if leAt w 12 4 ≤ 8388608 then leAt w 12 4 else 0)) →
    (k = stageKind (a.rd PWR_START_STAT.step 0)) →
    exec (.recoveryImage 0 value resp) s = .next (s.leads (if a.imageCode k img = 0 then ((a.wr SEC_BOOT_STAT.recovery 0 0).runStage k 2 img).secPend { op := 9, ten := t, code := 0 } else a.secPend { op := 9, ten := t, code := a.imageCode k img }))) ∧
  (∀ (s : State) (x : SecOp) (a : Device),
    (s.dev.pwr.secOp = some x) →
    (x.code = 0) →
    (a = ((({ s.dev with pwr := { s.dev.pwr with secOp := none } }.wr SEC_OP_CTL.busy 0 0).wr SEC_OP_CTL.code 0 0).wr SEC_OP_CTL.ok 0 1)) →
    exec .secOperationDone s = .next (s.leads (if x.op = 7 then (a.wr SEC_BOOT_STAT.dbg_scope 0 x.scope).deviceReset 4 unitNone else a))) ∧
  (∀ (s : State) (x : SecOp),
    (s.dev.pwr.secOp = some x) →
    (x.code ≠ 0) →
    exec .secOperationDone s = .next (s.leads ((({ s.dev with pwr := { s.dev.pwr with secOp := none } }.wr SEC_OP_CTL.busy 0 0).wr SEC_OP_CTL.code 0 x.code).wr SEC_OP_CTL.err 0 1))) ∧
  (∀ (s : State),
    (s.dev.reaches 0 .SEC_ARB = true) →
    (s.dev.on SEC_ARB.busy 0 = false) →
    exec (.arbAdvance 0) s = .next (s.leads (s.dev.wr SEC_ARB.busy 0 1))) ∧
  (∀ (s : State) (a b : Device),
    (s.dev.on SEC_ARB.busy 0 = true) →
    (a = s.dev.wr SEC_ARB.srf_count 0 (max (s.dev.rd SEC_ARB.srf_count 0) (s.dev.rd SEC_BOOT_STAT.srf_svn 0))) →
    (b = a.wr SEC_ARB.cpf_count 0 (max (a.rd SEC_ARB.cpf_count 0) (a.rd SEC_BOOT_STAT.cpf_svn 0))) →
    exec .arbProgramDone s = .next (s.leads ((b.wr SEC_ARB.aof_count 0 (max (b.rd SEC_ARB.aof_count 0) (b.rd SEC_BOOT_STAT.aof_svn 0))).wr SEC_ARB.busy 0 0)))

/-- Attestation and JTAG -/
def Obligations.Attestation : Prop :=
  (∀ (s : State),
    exec .spdmGetVersion s = .next (s.leads { s.dev with sent := .spdm (.version) :: s.dev.sent })) ∧
  (∀ (s : State),
    exec .spdmGetCapabilities s = .next (s.leads { s.dev with sent := .spdm (.capabilities 16) :: s.dev.sent })) ∧
  (∀ (s : State),
    exec .spdmNegotiateAlgorithms s = .next (s.leads { s.dev with sent := .spdm (.algorithms) :: s.dev.sent })) ∧
  (∀ (s : State),
    exec .spdmGetDigests s = .next (s.leads { s.dev with sent := .spdm (.digests (sha512 Config.certChain)) :: s.dev.sent })) ∧
  (∀ (s : State),
    exec .spdmUnsupported s = .next (s.leads { s.dev with sent := .spdm (.unsupported) :: s.dev.sent })) ∧
  (∀ (s : State) (off len : Nat),
    (off < 65536) →
    (len < 65536) →
    exec (.spdmGetCertificate off len) s = .next (s.leads { s.dev with sent := .spdm (.certificate off ((Config.certChain.drop off).take len)) :: s.dev.sent })) ∧
  (∀ (s : State) (nonce chain ms : List Byte) (r : List Byte × Device),
    (nonce.length = 32) →
    (r = s.dev.freshBytes 32) →
    (chain = sha512 Config.certChain) →
    (ms = sha512 (s.dev.pwr.meas.flatMap fun m => m.2)) →
    exec (.spdmChallenge nonce) s = .next (s.leads ((r.2.sign (nonce ++ r.1 ++ chain ++ ms)).2.answerSpdm (.challengeAuth r.1 chain ms (r.2.sign (nonce ++ r.1 ++ chain ++ ms)).1)))) ∧
  (∀ (s : State) (index : Nat) (nonce : List Byte),
    (index < 256) →
    (nonce.length = 32) →
    exec (.spdmGetMeasurements index false nonce) s = .next (s.leads (s.dev.answerSpdm (.measurements [] (s.dev.measured index) [])))) ∧
  (∀ (s : State) (index : Nat) (nonce m : List Byte) (r : List Byte × Device),
    (index < 256) →
    (nonce.length = 32) →
    (r = s.dev.freshBytes 32) →
    (m = nonce ++ r.1 ++ (s.dev.measured index).flatMap fun m => m.2) →
    exec (.spdmGetMeasurements index true nonce) s = .next (s.leads ((r.2.sign m).2.answerSpdm (.measurements r.1 (s.dev.measured index) (r.2.sign m).1)))) ∧
  (∀ (s : State) (ir : Nat) (isPublic : Bool),
    (isPublic = true ∨ bit (s.dev.rd SEC_BOOT_STAT.dbg_scope 0) 1 = true) →
    exec (.jtagInstruction ir isPublic) s = .next (s.leads { s.dev with pwr := { s.dev.pwr with tap := some ir } })) ∧
  (∀ (s : State) (ir : Nat),
    (bit (s.dev.rd SEC_BOOT_STAT.dbg_scope 0) 1 = false) →
    exec (.jtagInstruction ir false) s = .next (s.leads { s.dev with pwr := { s.dev.pwr with tapHeld := some ir } }))

/-- The management port and telemetry -/
def Obligations.ManagementPort : Prop :=
  (∀ (s : State) (seq mac off count : Nat) (ip : Option Nat) (a : Device),
    (seq < 65536) →
    (mac < 2 ^ 48) →
    (s.dev.on MGT_CFG.m0_en 0 = true) →
    (s.dev.aofUp = true ∧ s.dev.mgtAddressed ip = true ∧ (ip.all fun a => decide (a < 2 ^ 32)) = true) →
    ((s.dev.inWindow s.dev.pwr.mgtWin).2 = false) →
    (a = { s.dev with pwr := { s.dev.pwr with mgtWin := (s.dev.inWindow s.dev.pwr.mgtWin).1 } }) →
    (count ≤ 128) →
    (off % 8 = 0) →
    (∀ i, i < count → mgtBlock (off + 8 * i) = true) →
    exec (.mgtReadReg seq ⟨mac, ip⟩ off count) s = .next (s.leads { a with sent := .mgt false ((MgtReq.readReg off count).answer a seq mgOk ((List.range count).flatMap fun i => a.regBytes (off + 8 * i))) :: a.sent })) ∧
  (∀ (s : State) (seq mac off count : Nat) (ip : Option Nat) (a : Device),
    (seq < 65536) →
    (mac < 2 ^ 48) →
    (s.dev.on MGT_CFG.m0_en 0 = true) →
    (s.dev.aofUp = true ∧ s.dev.mgtAddressed ip = true ∧ (ip.all fun a => decide (a < 2 ^ 32)) = true) →
    ((s.dev.inWindow s.dev.pwr.mgtWin).2 = false) →
    (a = { s.dev with pwr := { s.dev.pwr with mgtWin := (s.dev.inWindow s.dev.pwr.mgtWin).1 } }) →
    (128 < count ∨ off % 8 ≠ 0 ∨ ∃ i, i < count ∧ mgtBlock (off + 8 * i) = false) →
    exec (.mgtReadReg seq ⟨mac, ip⟩ off count) s = .next (s.leads { a with sent := .mgt false ((MgtReq.readReg off count).answer a seq mgBad []) :: a.sent })) ∧
  (∀ (s : State) (seq mac idx count : Nat) (ip : Option Nat) (a : Device),
    (seq < 65536) →
    (mac < 2 ^ 48) →
    (s.dev.on MGT_CFG.m0_en 0 = true) →
    (s.dev.aofUp = true ∧ s.dev.mgtAddressed ip = true ∧ (ip.all fun a => decide (a < 2 ^ 32)) = true) →
    ((s.dev.inWindow s.dev.pwr.mgtWin).2 = false) →
    (a = { s.dev with pwr := { s.dev.pwr with mgtWin := (s.dev.inWindow s.dev.pwr.mgtWin).1 } }) →
    (count ≤ 16) →
    exec (.mgtReadLog seq ⟨mac, ip⟩ idx count) s = .next (s.leads { a with sent := .mgt false ((MgtReq.readLog idx count).answer a seq mgOk (a.logBytes idx count)) :: a.sent })) ∧
  (∀ (s : State) (seq mac idx count : Nat) (ip : Option Nat) (a : Device),
    (seq < 65536) →
    (mac < 2 ^ 48) →
    (s.dev.on MGT_CFG.m0_en 0 = true) →
    (s.dev.aofUp = true ∧ s.dev.mgtAddressed ip = true ∧ (ip.all fun a => decide (a < 2 ^ 32)) = true) →
    ((s.dev.inWindow s.dev.pwr.mgtWin).2 = false) →
    (a = { s.dev with pwr := { s.dev.pwr with mgtWin := (s.dev.inWindow s.dev.pwr.mgtWin).1 } }) →
    (count ≤ 8) →
    exec (.mgtReadTelem seq ⟨mac, ip⟩ idx count) s = .next (s.leads { a with sent := .mgt false ((MgtReq.readTelem idx count).answer a seq mgOk (a.telemBytes idx count)) :: a.sent })) ∧
  (∀ (s : State) (seq mac : Nat) (ip : Option Nat) (a : Device),
    (seq < 65536) →
    (mac < 2 ^ 48) →
    (s.dev.on MGT_CFG.m0_en 0 = true) →
    (s.dev.aofUp = true ∧ s.dev.mgtAddressed ip = true ∧ (ip.all fun a => decide (a < 2 ^ 32)) = true) →
    ((s.dev.inWindow s.dev.pwr.mgtWin).2 = false) →
    (a = { s.dev with pwr := { s.dev.pwr with mgtWin := (s.dev.inWindow s.dev.pwr.mgtWin).1 } }) →
    exec (.mgtReadSave seq ⟨mac, ip⟩) s = .next (s.leads { a with sent := .mgt false (MgtReq.readSave.answer a seq mgOk (toLE 8 (a.reg .PWR_SAVE_STAT 0).toNat)) :: a.sent })) ∧
  (∀ (s : State) (seq mac : Nat) (ip : Option Nat) (a : Device),
    (seq < 65536) →
    (mac < 2 ^ 48) →
    (s.dev.on MGT_CFG.m0_en 0 = true) →
    (s.dev.aofUp = true ∧ s.dev.mgtAddressed ip = true ∧ (ip.all fun a => decide (a < 2 ^ 32)) = true) →
    ((s.dev.inWindow s.dev.pwr.mgtWin).2 = false) →
    (a = { s.dev with pwr := { s.dev.pwr with mgtWin := (s.dev.inWindow s.dev.pwr.mgtWin).1 } }) →
    (a.mgtAllowed (some mac) = true) →
    exec (.mgtWake seq ⟨mac, ip⟩) s = .next (s.leads { (deepWake 4 a) with sent := .mgt false (MgtReq.wake.answer (deepWake 4 a) seq mgOk []) :: (deepWake 4 a).sent })) ∧
  (∀ (s : State) (seq mac : Nat) (ip : Option Nat) (a : Device),
    (seq < 65536) →
    (mac < 2 ^ 48) →
    (s.dev.on MGT_CFG.m0_en 0 = true) →
    (s.dev.aofUp = true ∧ s.dev.mgtAddressed ip = true ∧ (ip.all fun a => decide (a < 2 ^ 32)) = true) →
    ((s.dev.inWindow s.dev.pwr.mgtWin).2 = false) →
    (a = { s.dev with pwr := { s.dev.pwr with mgtWin := (s.dev.inWindow s.dev.pwr.mgtWin).1 } }) →
    (a.mgtAllowed (some mac) = true) →
    (a.asleep = false) →
    exec (.mgtDeviceReset seq ⟨mac, ip⟩) s = .next (s.leads { (a.deviceReset 3 unitNone) with sent := .mgt false (MgtReq.deviceReset.answer (a.deviceReset 3 unitNone) seq mgOk []) :: (a.deviceReset 3 unitNone).sent })) ∧
  (∀ (s : State) (seq mac : Nat) (ip : Option Nat) (a : Device),
    (seq < 65536) →
    (mac < 2 ^ 48) →
    (s.dev.on MGT_CFG.m0_en 0 = true) →
    (s.dev.aofUp = true ∧ s.dev.mgtAddressed ip = true ∧ (ip.all fun a => decide (a < 2 ^ 32)) = true) →
    ((s.dev.inWindow s.dev.pwr.mgtWin).2 = false) →
    (a = { s.dev with pwr := { s.dev.pwr with mgtWin := (s.dev.inWindow s.dev.pwr.mgtWin).1 } }) →
    (a.mgtAllowed (some mac) = true) →
    (a.asleep = true) →
    exec (.mgtDeviceReset seq ⟨mac, ip⟩) s = .next (s.leads { a with sent := .mgt false (MgtReq.deviceReset.answer a seq mgBusy []) :: a.sent })) ∧
  (∀ (s : State) (seq mac w : Nat) (ip : Option Nat) (a : Device),
    (seq < 65536) →
    (mac < 2 ^ 48) →
    (s.dev.on MGT_CFG.m0_en 0 = true) →
    (s.dev.aofUp = true ∧ s.dev.mgtAddressed ip = true ∧ (ip.all fun a => decide (a < 2 ^ 32)) = true) →
    ((s.dev.inWindow s.dev.pwr.mgtWin).2 = false) →
    (a = { s.dev with pwr := { s.dev.pwr with mgtWin := (s.dev.inWindow s.dev.pwr.mgtWin).1 } }) →
    (a.mgtAllowed (some mac) = true) →
    (300 ≤ w) →
    (w ≤ 1400) →
    exec (.mgtSetPkgLimit seq ⟨mac, ip⟩ w) s = .next (s.leads { (a.wr PWR_LIMIT_CFG.pkg_limit_w 0 w) with sent := .mgt false ((MgtReq.setPkgLimit w).answer (a.wr PWR_LIMIT_CFG.pkg_limit_w 0 w) seq mgOk []) :: (a.wr PWR_LIMIT_CFG.pkg_limit_w 0 w).sent })) ∧
  (∀ (s : State) (seq mac w : Nat) (ip : Option Nat) (a : Device),
    (seq < 65536) →
    (mac < 2 ^ 48) →
    (s.dev.on MGT_CFG.m0_en 0 = true) →
    (s.dev.aofUp = true ∧ s.dev.mgtAddressed ip = true ∧ (ip.all fun a => decide (a < 2 ^ 32)) = true) →
    ((s.dev.inWindow s.dev.pwr.mgtWin).2 = false) →
    (a = { s.dev with pwr := { s.dev.pwr with mgtWin := (s.dev.inWindow s.dev.pwr.mgtWin).1 } }) →
    (w < 65536) →
    (a.mgtAllowed (some mac) = false) →
    exec (.mgtSetPkgLimit seq ⟨mac, ip⟩ w) s = .next (s.leads { (a.incSat MGT_STAT.denied 0 1) with sent := .mgt false ((MgtReq.setPkgLimit w).answer (a.incSat MGT_STAT.denied 0 1) seq mgDenied []) :: (a.incSat MGT_STAT.denied 0 1).sent })) ∧
  (∀ (s : State) (seq mac op : Nat) (ip : Option Nat) (a : Device),
    (seq < 65536) →
    (mac < 2 ^ 48) →
    (s.dev.on MGT_CFG.m0_en 0 = true) →
    (s.dev.aofUp = true ∧ s.dev.mgtAddressed ip = true ∧ (ip.all fun a => decide (a < 2 ^ 32)) = true) →
    ((s.dev.inWindow s.dev.pwr.mgtWin).2 = false) →
    (a = { s.dev with pwr := { s.dev.pwr with mgtWin := (s.dev.inWindow s.dev.pwr.mgtWin).1 } }) →
    (op < 256) →
    (op < 0x10 ∨ 0x12 < op) →
    exec (.mgtBadRequest seq ⟨mac, ip⟩ op) s = .next (s.leads { a with sent := .mgt false ((MgtReq.other op).answer a seq mgBad []) :: a.sent })) ∧
  (∀ (s : State) (seq : Nat) (r : MgtReq) (a : Device) (x : Device × Nat × List Byte) (z : MgtAns),
    (seq < 65536) →
    (s.dev.on MGT_CFG.i3c_en 0 = true) →
    (s.dev.pwr.i3cDyn.isSome = true) →
    (s.dev.aofUp = true) →
    ((s.dev.inWindow s.dev.pwr.i3cWin).2 = false) →
    (a = { s.dev with pwr := { s.dev.pwr with i3cWin := (s.dev.inWindow s.dev.pwr.i3cWin).1 } }) →
    (x = a.mgtServe none r) →
    (z = r.answer x.1 seq x.2.1 x.2.2) →
    exec (.i3cPrivateWrite seq r) s = .next (s.leads { x.1 with pwr := { x.1.pwr with i3cAnswer := some z }, sent := .mgt true z :: x.1.sent })) ∧
  (∀ (s : State) (static dyn : Nat),
    (static < 128) →
    (dyn < 128) →
    (s.dev.on MGT_CFG.i3c_en 0 = true) →
    (s.dev.pwr.i3cDyn = none) →
    exec (.i3cAddressAssign true static dyn) s = .next (s.leads ({ s.dev with sent := .i3cId (s.dev.rd SEC_SERIAL.serial 0 % 2 ^ 32) :: s.dev.sent, pwr := { s.dev.pwr with i3cDyn := some dyn } }.wr MGT_STAT.i3c_addr_valid 0 1))) ∧
  (∀ (s : State) (static dyn : Nat),
    (static < 128) →
    (dyn < 128) →
    (s.dev.on MGT_CFG.i3c_en 0 = true) →
    (static = s.dev.rd MGT_CFG.i3c_addr 0) →
    exec (.i3cAddressAssign false static dyn) s = .next (s.leads ({ s.dev with pwr := { s.dev.pwr with i3cDyn := some dyn } }.wr MGT_STAT.i3c_addr_valid 0 1))) ∧
  (∀ (s : State) (md0 md1 iod n : Nat) (a : Device),
    (s.dev.aofUp = true) →
    (n = s.dev.rd MGT_TELEM_STAT.head 0) →
    (a = { s.dev with pwr := { s.dev.pwr with telem := (n, s.dev.telemRecord md0 md1 iod) :: s.dev.pwr.telem.filter (fun r => r.1 % 6000 != n % 6000), spareMax := s.dev.topDuty SCH_THR_STAT.spare_duty, promptMax := s.dev.topDuty SCH_THR_STAT.prompt_duty } }) →
    exec (.telemetryTick md0 md1 iod) s = .next (s.leads (a.incWrap MGT_TELEM_STAT.head 0 1)))

/-- A data tag reads back -/
def Obligations.TagsReadBack : Prop :=
  ∀ ten cls client kind step mid : Nat, ten < 64 → cls < 3 → client < 2 ^ 20 → kind ≤ 6 → step < 2 ^ 40 → mid < 2 ^ 24 →
    ∀ t : List Byte, t = mkTag ten cls client kind step mid →
    t.length = 16 ∧ tagOk t = true ∧ tagTen t = ten ∧ tagCls t = cls ∧ tagClient t = client ∧ tagKind t = kind ∧ tagStep t = step ∧ tagMid t = mid

/-- Flits carry a packet whole -/
def Obligations.FlitsCarryPackets : Prop :=
  (∀ (cls ten : Nat) (bs : List Byte), ((flitsOf cls ten bs).flatMap fun f => f.data) = bs) ∧
  (∀ (cls ten i : Nat) (bs : List Byte) (f : TxFlit), (flitsOf cls ten bs)[i]? = some f →
    f.cls = cls ∧ f.ten = ten ∧ f.data ≠ [] ∧ f.data.length ≤ 240 ∧ f.ctl = false ∧ (f.sop = true ↔ i = 0) ∧ (f.eop = true ↔ i + 1 = (flitsOf cls ten bs).length)) ∧
  (∀ (l : Link) (f : TxFlit), f.seq < 4096 → f.cls < 4 → f.data.length < 256 →
    bits (l.header f) 63 52 = f.seq ∧ bit (l.header f) 39 = l.seen ∧ bit (l.header f) 38 = false ∧ bits (l.header f) 37 36 = (if f.ctl then 2 else 1) ∧
    bits (l.header f) 35 34 = (if f.ctl then 0 else f.cls) ∧ bit (l.header f) 33 = f.sop ∧ bit (l.header f) 32 = f.eop ∧
    bits (l.header f) 31 24 = f.data.length ∧ (l.seen = true → bits (l.header f) 51 40 = (l.rx + 4095) % 4096))

/-- A packet that one device sends, another opens -/
def Obligations.PacketsArrive : Prop :=
  ∀ (d e : Device) (p dst op resent path cls code seq unit reqId ga len : Nat) (tag payload : List Byte),
    dst < 2 ^ 16 → op < 2 ^ 8 → resent < 2 → path < 16 → cls < 4 → code < 2 ^ 8 → seq < 2 ^ 32 → unit < 2 ^ 16 → reqId < 2 ^ 16 → ga < 2 ^ 64 → len < 2 ^ 32 →
    tag.length = 16 →
    (∀ (fl : Nat) (rest b : List Byte), fl < 4 → b = pktHeader dst d.devId op fl path cls code seq unit reqId ga len d.epoch ++ (tag ++ rest) →
      leAt b 0 2 = dst ∧ leAt b 2 2 = d.devId ∧ leAt b 4 1 = op ∧ leAt b 5 1 = fl ∧ leAt b 6 1 % 16 = path ∧ leAt b 6 1 / 16 = cls ∧ leAt b 7 1 = code ∧
      leAt b 8 4 = seq ∧ leAt b 12 2 = unit ∧ leAt b 14 2 = reqId ∧ leAt b 16 8 = ga ∧ leAt b 24 4 = len ∧ leAt b 28 4 = d.epoch ∧ (b.drop 32).take 16 = tag) ∧
    (∀ (g g' : Nat) (key b : List Byte), key.length = 32 → (d.fabKeys (tagTen tag)).cur = some (g, key) → (e.fabKeys (tagTen tag)).cur = some (g', key) →
      d.epoch ≤ e.epoch + 1 → e.epoch ≤ d.epoch + 1 → (e.inn (streamKey d.devId path cls)).resetEpoch ≤ d.epoch →
      b = pktHeader dst d.devId op (resent + 2) path cls code seq unit reqId ga len d.epoch ++
        (d.protectBody p (pktHeader dst d.devId op (resent + 2) path cls code seq unit reqId ga len d.epoch) tag payload).2 →
      e.verifyPkt b = some (payload, false)) ∧
    (∀ b : List Byte, (opProtected op && e.protects (tagTen tag)) = false →
      b = pktHeader dst d.devId op resent path cls code seq unit reqId ga len d.epoch ++ (tag ++ payload ++ List.replicate 16 0) →
      e.verifyPkt b = some (payload, false))
end

