-- ==== Sys2Proof/Laws/SparseMap.lean ====
section
/-! SUPPORT. Laws of the sparse maps: what a read after a write gives, and that every operation keeps the canonical form. -/

namespace Sys2Proof.Machine

variable {α : Type}

theorem smGet_smIns_self (m : List (Nat × α)) (k : Nat) (v e : α) : smGet (smIns m k v) k e = v := by
  induction m with
  | nil => simp [smIns, smGet]
  | cons x m ih =>
    obtain ⟨k', v'⟩ := x
    simp only [smIns]
    split
    · simp [smGet]
    · split
      · simp [smGet]
      · rename_i h; simp [smGet, h, ih]

theorem smGet_smIns_ne (m : List (Nat × α)) {k j : Nat} (h : j ≠ k) (v e : α) : smGet (smIns m k v) j e = smGet m j e := by
  induction m with
  | nil => simp [smIns, smGet, Ne.symm h]
  | cons x m ih =>
    obtain ⟨k', v'⟩ := x
    simp only [smIns]
    split
    · simp [smGet, Ne.symm h]
    · split
      · rename_i e'; subst e'; simp [smGet, Ne.symm h]
      · simp [smGet, ih]

theorem smDel_cons (m : List (Nat × α)) (k k' : Nat) (v' : α) :
    smDel ((k', v') :: m) k = if k' = k then smDel m k else (k', v') :: smDel m k := by
  by_cases h : k' = k <;> simp [smDel, h]

theorem smGet_smDel_self (m : List (Nat × α)) (k : Nat) (e : α) : smGet (smDel m k) k e = e := by
  induction m with
  | nil => rfl
  | cons x m ih =>
    obtain ⟨k', v'⟩ := x
    rw [smDel_cons]
    split
    · exact ih
    · rename_i h; simp [smGet, h, ih]

theorem smGet_smDel_ne (m : List (Nat × α)) {k j : Nat} (h : j ≠ k) (e : α) : smGet (smDel m k) j e = smGet m j e := by
  induction m with
  | nil => rfl
  | cons x m ih =>
    obtain ⟨k', v'⟩ := x
    rw [smDel_cons]
    split
    · rename_i hk; subst hk; simp [smGet, Ne.symm h, ih]
    · simp [smGet, ih]

/-- A read of the key just written gives the value written. -/
@[simp] theorem smGet_smSet_self [DecidableEq α] (m : List (Nat × α)) (k : Nat) (e v : α) : smGet (smSet m k e v) k e = v := by
  unfold smSet
  split
  · rename_i h; rw [smGet_smDel_self, h]
  · exact smGet_smIns_self m k v e

/-- A write leaves every other key alone. -/
theorem smGet_smSet_ne [DecidableEq α] (m : List (Nat × α)) {k j : Nat} (h : j ≠ k) (e v e' : α) :
    smGet (smSet m k e v) j e' = smGet m j e' := by
  unfold smSet
  split
  · exact smGet_smDel_ne m h e'
  · exact smGet_smIns_ne m h v e'

@[simp] theorem smGet_nil (k : Nat) (e : α) : smGet ([] : List (Nat × α)) k e = e := rfl

/-! ### The canonical form -/

theorem smSorted_cons (x : Nat × α) (m : List (Nat × α)) :
    smSorted (x :: m) = true ↔ (∀ y ∈ m, x.1 < y.1) ∧ smSorted m = true := by
  induction m generalizing x with
  | nil => simp [smSorted]
  | cons y m ih =>
    obtain ⟨k, v⟩ := x
    obtain ⟨k', v'⟩ := y
    simp only [smSorted, Bool.and_eq_true, decide_eq_true_eq, List.mem_cons, forall_eq_or_imp]
    constructor
    · intro ⟨h, hs⟩
      exact ⟨⟨h, fun z hz => Nat.lt_trans h ((ih (k', v')).1 hs |>.1 z hz)⟩, hs⟩
    · intro ⟨⟨h, _⟩, hs⟩; exact ⟨h, hs⟩

theorem smSorted_filter (p : Nat × α → Bool) (m : List (Nat × α)) (h : smSorted m = true) : smSorted (m.filter p) = true := by
  induction m with
  | nil => rfl
  | cons x m ih =>
    rw [smSorted_cons] at h
    simp only [List.filter]
    split
    · rw [smSorted_cons]
      exact ⟨fun y hy => h.1 y (List.mem_filter.1 hy).1, ih h.2⟩
    · exact ih h.2

theorem mem_smIns (m : List (Nat × α)) (k : Nat) (v : α) (y : Nat × α) (h : y ∈ smIns m k v) : y = (k, v) ∨ y ∈ m := by
  induction m with
  | nil => simpa [smIns] using h
  | cons x m ih =>
    obtain ⟨k', v'⟩ := x
    simp only [smIns] at h
    split at h
    · simpa using h
    · split at h
      · rcases List.mem_cons.1 h with h | h
        · exact .inl h
        · exact .inr (List.mem_cons_of_mem _ h)
      · rcases List.mem_cons.1 h with h | h
        · exact .inr (h ▸ List.mem_cons_self)
        · rcases ih h with h | h
          · exact .inl h
          · exact .inr (List.mem_cons_of_mem _ h)

theorem smSorted_smIns (m : List (Nat × α)) (k : Nat) (v : α) (h : smSorted m = true) : smSorted (smIns m k v) = true := by
  induction m with
  | nil => rfl
  | cons x m ih =>
    obtain ⟨k', v'⟩ := x
    have hs := (smSorted_cons (k', v') m).1 h
    simp only [smIns]
    split
    · rename_i hk
      rw [smSorted_cons]
      refine ⟨?_, h⟩
      intro y hy
      rcases List.mem_cons.1 hy with rfl | hy
      · exact hk
      · exact Nat.lt_trans hk (hs.1 y hy)
    · split
      · rename_i e; subst e; rw [smSorted_cons]; exact hs
      · rename_i h1 h2
        rw [smSorted_cons]
        refine ⟨?_, ih hs.2⟩
        intro y hy
        rcases mem_smIns m k v y hy with rfl | hy
        · simp only; omega
        · exact hs.1 y hy

theorem smSorted_smSet [DecidableEq α] (m : List (Nat × α)) (k : Nat) (e v : α) (h : smSorted m = true) : smSorted (smSet m k e v) = true := by
  unfold smSet
  split
  · exact smSorted_filter _ m h
  · exact smSorted_smIns m k v h

/-- A write keeps the canonical form. -/
theorem smWf_smSet [DecidableEq α] (dflt : Nat → α) (m : List (Nat × α)) (k : Nat) (v : α) (h : smWf dflt m = true) :
    smWf dflt (smSet m k (dflt k) v) = true := by
  simp only [smWf, Bool.and_eq_true, List.all_eq_true, bne_iff_ne] at h ⊢
  refine ⟨smSorted_smSet m k _ v h.1, ?_⟩
  intro y hy
  unfold smSet at hy
  split at hy
  · exact h.2 y (List.mem_filter.1 hy).1
  · rename_i hv
    rcases mem_smIns m k v y hy with rfl | hy
    · exact hv
    · exact h.2 y hy

/-- Clearing a range keeps the canonical form. -/
theorem smWf_smClear [DecidableEq α] (dflt : Nat → α) (m : List (Nat × α)) (lo len : Nat) (h : smWf dflt m = true) :
    smWf dflt (smClear m lo len) = true := by
  simp only [smWf, Bool.and_eq_true, List.all_eq_true, bne_iff_ne] at h ⊢
  exact ⟨smSorted_filter _ m h.1, fun y hy => h.2 y (List.mem_filter.1 hy).1⟩

theorem smClear_cons (m : List (Nat × α)) (lo len k' : Nat) (v' : α) :
    smClear ((k', v') :: m) lo len = if lo ≤ k' ∧ k' < lo + len then smClear m lo len else (k', v') :: smClear m lo len := by
  by_cases h : lo ≤ k' ∧ k' < lo + len
  · simp [smClear, h.1, h.2]
  · have : (!(decide (lo ≤ k') && decide (k' < lo + len))) = true := by simp; omega
    simp only [smClear, List.filter, this, h, ↓reduceIte]

/-- A cleared range reads as never written; every other key keeps its value. -/
theorem smGet_smClear (m : List (Nat × α)) (lo len k : Nat) (e : α) :
    smGet (smClear m lo len) k e = if lo ≤ k ∧ k < lo + len then e else smGet m k e := by
  induction m with
  | nil => simp [smClear, smGet]
  | cons x m ih =>
    obtain ⟨k', v'⟩ := x
    rw [smClear_cons]
    split
    · rename_i h
      rw [ih]
      by_cases hk : k' = k
      · subst hk; simp [h]
      · simp [smGet, hk]
    · rename_i h
      by_cases hk : k' = k
      · subst hk; simp [smGet, h]
      · simp [smGet, hk, ih]

end Sys2Proof.Machine
end

