-- ==== Sys2Proof/Laws/State.lean ====
section
/-! SUPPORT. What each update of the device leaves alone: one lemma for each update and each field that it does not write. -/

namespace Sys2Proof.Machine

@[simp] theorem State.act_eq (s : State) (f : Device → Device) : s.act f = .next { s with dev := f s.dev } := rfl
@[simp] theorem State.actIf_true (s : State) (f : Device → Device) : s.actIf true f = .next { s with dev := f s.dev } := rfl
@[simp] theorem State.actIf_false (s : State) (f : Device → Device) : s.actIf false f = .next s := rfl

/-! ### setReg -/

@[simp] theorem setReg_heldLow (d : Device) (r : Reg) (i : Nat) (v : Word) : (d.setReg r i v).heldLow = d.heldLow := rfl
@[simp] theorem setReg_woHeld (d : Device) (r : Reg) (i : Nat) (v : Word) : (d.setReg r i v).woHeld = d.woHeld := rfl
@[simp] theorem setReg_mem (d : Device) (r : Reg) (i : Nat) (v : Word) : (d.setReg r i v).mem = d.mem := rfl
@[simp] theorem setReg_tags (d : Device) (r : Reg) (i : Nat) (v : Word) : (d.setReg r i v).tags = d.tags := rfl
@[simp] theorem setReg_rolls (d : Device) (r : Reg) (i : Nat) (v : Word) : (d.setReg r i v).rolls = d.rolls := rfl
@[simp] theorem setReg_junk (d : Device) (r : Reg) (i : Nat) (v : Word) : (d.setReg r i v).junk = d.junk := rfl
@[simp] theorem setReg_poison (d : Device) (r : Reg) (i : Nat) (v : Word) : (d.setReg r i v).poison = d.poison := rfl
@[simp] theorem setReg_pages (d : Device) (r : Reg) (i : Nat) (v : Word) : (d.setReg r i v).pages = d.pages := rfl
@[simp] theorem setReg_freeCtr (d : Device) (r : Reg) (i : Nat) (v : Word) : (d.setReg r i v).freeCtr = d.freeCtr := rfl
@[simp] theorem setReg_cycle (d : Device) (r : Reg) (i : Nat) (v : Word) : (d.setReg r i v).cycle = d.cycle := rfl
@[simp] theorem setReg_time (d : Device) (r : Reg) (i : Nat) (v : Word) : (d.setReg r i v).time = d.time := rfl
@[simp] theorem setReg_queues (d : Device) (r : Reg) (i : Nat) (v : Word) : (d.setReg r i v).queues = d.queues := rfl
@[simp] theorem setReg_cmds (d : Device) (r : Reg) (i : Nat) (v : Word) : (d.setReg r i v).cmds = d.cmds := rfl
@[simp] theorem setReg_sn (d : Device) (r : Reg) (i : Nat) (v : Word) : (d.setReg r i v).sn = d.sn := rfl
@[simp] theorem setReg_txns (d : Device) (r : Reg) (i : Nat) (v : Word) : (d.setReg r i v).txns = d.txns := rfl
@[simp] theorem setReg_verified (d : Device) (r : Reg) (i : Nat) (v : Word) : (d.setReg r i v).verified = d.verified := rfl
@[simp] theorem setReg_evtFill (d : Device) (r : Reg) (i : Nat) (v : Word) : (d.setReg r i v).evtFill = d.evtFill := rfl
@[simp] theorem setReg_batches (d : Device) (r : Reg) (i : Nat) (v : Word) : (d.setReg r i v).batches = d.batches := rfl
@[simp] theorem setReg_sched (d : Device) (r : Reg) (i : Nat) (v : Word) : (d.setReg r i v).sched = d.sched := rfl
@[simp] theorem setReg_msix (d : Device) (r : Reg) (i : Nat) (v : Word) : (d.setReg r i v).msix = d.msix := rfl
@[simp] theorem setReg_tens (d : Device) (r : Reg) (i : Nat) (v : Word) : (d.setReg r i v).tens = d.tens := rfl
@[simp] theorem setReg_vfEnable (d : Device) (r : Reg) (i : Nat) (v : Word) : (d.setReg r i v).vfEnable = d.vfEnable := rfl
@[simp] theorem setReg_numVfs (d : Device) (r : Reg) (i : Nat) (v : Word) : (d.setReg r i v).numVfs = d.numVfs := rfl
@[simp] theorem setReg_mm (d : Device) (r : Reg) (i : Nat) (v : Word) : (d.setReg r i v).mm = d.mm := rfl
@[simp] theorem setReg_ras (d : Device) (r : Reg) (i : Nat) (v : Word) : (d.setReg r i v).ras = d.ras := rfl
@[simp] theorem setReg_cores (d : Device) (r : Reg) (i : Nat) (v : Word) : (d.setReg r i v).cores = d.cores := rfl
@[simp] theorem setReg_tows (d : Device) (r : Reg) (i : Nat) (v : Word) : (d.setReg r i v).tows = d.tows := rfl
@[simp] theorem setReg_timing (d : Device) (r : Reg) (i : Nat) (v : Word) : (d.setReg r i v).timing = d.timing := rfl
@[simp] theorem setReg_radio (d : Device) (r : Reg) (i : Nat) (v : Word) : (d.setReg r i v).radio = d.radio := rfl
@[simp] theorem setReg_engines (d : Device) (r : Reg) (i : Nat) (v : Word) : (d.setReg r i v).engines = d.engines := rfl
@[simp] theorem setReg_rteFenced (d : Device) (r : Reg) (i : Nat) (v : Word) : (d.setReg r i v).rteFenced = d.rteFenced := rfl
@[simp] theorem setReg_rteSeq (d : Device) (r : Reg) (i : Nat) (v : Word) : (d.setReg r i v).rteSeq = d.rteSeq := rfl
@[simp] theorem setReg_rteIn (d : Device) (r : Reg) (i : Nat) (v : Word) : (d.setReg r i v).rteIn = d.rteIn := rfl
@[simp] theorem setReg_det (d : Device) (r : Reg) (i : Nat) (v : Word) : (d.setReg r i v).det = d.det := rfl
@[simp] theorem setReg_fab (d : Device) (r : Reg) (i : Nat) (v : Word) : (d.setReg r i v).fab = d.fab := rfl
@[simp] theorem setReg_colls (d : Device) (r : Reg) (i : Nat) (v : Word) : (d.setReg r i v).colls = d.colls := rfl
@[simp] theorem setReg_ftp (d : Device) (r : Reg) (i : Nat) (v : Word) : (d.setReg r i v).ftp = d.ftp := rfl
@[simp] theorem setReg_pwr (d : Device) (r : Reg) (i : Nat) (v : Word) : (d.setReg r i v).pwr = d.pwr := rfl
@[simp] theorem setReg_sent (d : Device) (r : Reg) (i : Nat) (v : Word) : (d.setReg r i v).sent = d.sent := rfl

/-! ### wr -/

@[simp] theorem wr_heldLow (d : Device) (f : Fld) (i v : Nat) : (d.wr f i v).heldLow = d.heldLow := rfl
@[simp] theorem wr_woHeld (d : Device) (f : Fld) (i v : Nat) : (d.wr f i v).woHeld = d.woHeld := rfl
@[simp] theorem wr_mem (d : Device) (f : Fld) (i v : Nat) : (d.wr f i v).mem = d.mem := rfl
@[simp] theorem wr_tags (d : Device) (f : Fld) (i v : Nat) : (d.wr f i v).tags = d.tags := rfl
@[simp] theorem wr_rolls (d : Device) (f : Fld) (i v : Nat) : (d.wr f i v).rolls = d.rolls := rfl
@[simp] theorem wr_junk (d : Device) (f : Fld) (i v : Nat) : (d.wr f i v).junk = d.junk := rfl
@[simp] theorem wr_poison (d : Device) (f : Fld) (i v : Nat) : (d.wr f i v).poison = d.poison := rfl
@[simp] theorem wr_pages (d : Device) (f : Fld) (i v : Nat) : (d.wr f i v).pages = d.pages := rfl
@[simp] theorem wr_freeCtr (d : Device) (f : Fld) (i v : Nat) : (d.wr f i v).freeCtr = d.freeCtr := rfl
@[simp] theorem wr_cycle (d : Device) (f : Fld) (i v : Nat) : (d.wr f i v).cycle = d.cycle := rfl
@[simp] theorem wr_time (d : Device) (f : Fld) (i v : Nat) : (d.wr f i v).time = d.time := rfl
@[simp] theorem wr_queues (d : Device) (f : Fld) (i v : Nat) : (d.wr f i v).queues = d.queues := rfl
@[simp] theorem wr_cmds (d : Device) (f : Fld) (i v : Nat) : (d.wr f i v).cmds = d.cmds := rfl
@[simp] theorem wr_sn (d : Device) (f : Fld) (i v : Nat) : (d.wr f i v).sn = d.sn := rfl
@[simp] theorem wr_txns (d : Device) (f : Fld) (i v : Nat) : (d.wr f i v).txns = d.txns := rfl
@[simp] theorem wr_verified (d : Device) (f : Fld) (i v : Nat) : (d.wr f i v).verified = d.verified := rfl
@[simp] theorem wr_evtFill (d : Device) (f : Fld) (i v : Nat) : (d.wr f i v).evtFill = d.evtFill := rfl
@[simp] theorem wr_batches (d : Device) (f : Fld) (i v : Nat) : (d.wr f i v).batches = d.batches := rfl
@[simp] theorem wr_sched (d : Device) (f : Fld) (i v : Nat) : (d.wr f i v).sched = d.sched := rfl
@[simp] theorem wr_msix (d : Device) (f : Fld) (i v : Nat) : (d.wr f i v).msix = d.msix := rfl
@[simp] theorem wr_tens (d : Device) (f : Fld) (i v : Nat) : (d.wr f i v).tens = d.tens := rfl
@[simp] theorem wr_vfEnable (d : Device) (f : Fld) (i v : Nat) : (d.wr f i v).vfEnable = d.vfEnable := rfl
@[simp] theorem wr_numVfs (d : Device) (f : Fld) (i v : Nat) : (d.wr f i v).numVfs = d.numVfs := rfl
@[simp] theorem wr_mm (d : Device) (f : Fld) (i v : Nat) : (d.wr f i v).mm = d.mm := rfl
@[simp] theorem wr_ras (d : Device) (f : Fld) (i v : Nat) : (d.wr f i v).ras = d.ras := rfl
@[simp] theorem wr_cores (d : Device) (f : Fld) (i v : Nat) : (d.wr f i v).cores = d.cores := rfl
@[simp] theorem wr_tows (d : Device) (f : Fld) (i v : Nat) : (d.wr f i v).tows = d.tows := rfl
@[simp] theorem wr_timing (d : Device) (f : Fld) (i v : Nat) : (d.wr f i v).timing = d.timing := rfl
@[simp] theorem wr_radio (d : Device) (f : Fld) (i v : Nat) : (d.wr f i v).radio = d.radio := rfl
@[simp] theorem wr_engines (d : Device) (f : Fld) (i v : Nat) : (d.wr f i v).engines = d.engines := rfl
@[simp] theorem wr_rteFenced (d : Device) (f : Fld) (i v : Nat) : (d.wr f i v).rteFenced = d.rteFenced := rfl
@[simp] theorem wr_rteSeq (d : Device) (f : Fld) (i v : Nat) : (d.wr f i v).rteSeq = d.rteSeq := rfl
@[simp] theorem wr_rteIn (d : Device) (f : Fld) (i v : Nat) : (d.wr f i v).rteIn = d.rteIn := rfl
@[simp] theorem wr_det (d : Device) (f : Fld) (i v : Nat) : (d.wr f i v).det = d.det := rfl
@[simp] theorem wr_fab (d : Device) (f : Fld) (i v : Nat) : (d.wr f i v).fab = d.fab := rfl
@[simp] theorem wr_colls (d : Device) (f : Fld) (i v : Nat) : (d.wr f i v).colls = d.colls := rfl
@[simp] theorem wr_ftp (d : Device) (f : Fld) (i v : Nat) : (d.wr f i v).ftp = d.ftp := rfl
@[simp] theorem wr_pwr (d : Device) (f : Fld) (i v : Nat) : (d.wr f i v).pwr = d.pwr := rfl
@[simp] theorem wr_sent (d : Device) (f : Fld) (i v : Nat) : (d.wr f i v).sent = d.sent := rfl

/-! ### incSat -/

@[simp] theorem incSat_heldLow (d : Device) (f : Fld) (i n : Nat) : (d.incSat f i n).heldLow = d.heldLow := rfl
@[simp] theorem incSat_woHeld (d : Device) (f : Fld) (i n : Nat) : (d.incSat f i n).woHeld = d.woHeld := rfl
@[simp] theorem incSat_mem (d : Device) (f : Fld) (i n : Nat) : (d.incSat f i n).mem = d.mem := rfl
@[simp] theorem incSat_tags (d : Device) (f : Fld) (i n : Nat) : (d.incSat f i n).tags = d.tags := rfl
@[simp] theorem incSat_rolls (d : Device) (f : Fld) (i n : Nat) : (d.incSat f i n).rolls = d.rolls := rfl
@[simp] theorem incSat_junk (d : Device) (f : Fld) (i n : Nat) : (d.incSat f i n).junk = d.junk := rfl
@[simp] theorem incSat_poison (d : Device) (f : Fld) (i n : Nat) : (d.incSat f i n).poison = d.poison := rfl
@[simp] theorem incSat_pages (d : Device) (f : Fld) (i n : Nat) : (d.incSat f i n).pages = d.pages := rfl
@[simp] theorem incSat_freeCtr (d : Device) (f : Fld) (i n : Nat) : (d.incSat f i n).freeCtr = d.freeCtr := rfl
@[simp] theorem incSat_cycle (d : Device) (f : Fld) (i n : Nat) : (d.incSat f i n).cycle = d.cycle := rfl
@[simp] theorem incSat_time (d : Device) (f : Fld) (i n : Nat) : (d.incSat f i n).time = d.time := rfl
@[simp] theorem incSat_queues (d : Device) (f : Fld) (i n : Nat) : (d.incSat f i n).queues = d.queues := rfl
@[simp] theorem incSat_cmds (d : Device) (f : Fld) (i n : Nat) : (d.incSat f i n).cmds = d.cmds := rfl
@[simp] theorem incSat_sn (d : Device) (f : Fld) (i n : Nat) : (d.incSat f i n).sn = d.sn := rfl
@[simp] theorem incSat_txns (d : Device) (f : Fld) (i n : Nat) : (d.incSat f i n).txns = d.txns := rfl
@[simp] theorem incSat_verified (d : Device) (f : Fld) (i n : Nat) : (d.incSat f i n).verified = d.verified := rfl
@[simp] theorem incSat_evtFill (d : Device) (f : Fld) (i n : Nat) : (d.incSat f i n).evtFill = d.evtFill := rfl
@[simp] theorem incSat_batches (d : Device) (f : Fld) (i n : Nat) : (d.incSat f i n).batches = d.batches := rfl
@[simp] theorem incSat_sched (d : Device) (f : Fld) (i n : Nat) : (d.incSat f i n).sched = d.sched := rfl
@[simp] theorem incSat_msix (d : Device) (f : Fld) (i n : Nat) : (d.incSat f i n).msix = d.msix := rfl
@[simp] theorem incSat_tens (d : Device) (f : Fld) (i n : Nat) : (d.incSat f i n).tens = d.tens := rfl
@[simp] theorem incSat_vfEnable (d : Device) (f : Fld) (i n : Nat) : (d.incSat f i n).vfEnable = d.vfEnable := rfl
@[simp] theorem incSat_numVfs (d : Device) (f : Fld) (i n : Nat) : (d.incSat f i n).numVfs = d.numVfs := rfl
@[simp] theorem incSat_mm (d : Device) (f : Fld) (i n : Nat) : (d.incSat f i n).mm = d.mm := rfl
@[simp] theorem incSat_ras (d : Device) (f : Fld) (i n : Nat) : (d.incSat f i n).ras = d.ras := rfl
@[simp] theorem incSat_cores (d : Device) (f : Fld) (i n : Nat) : (d.incSat f i n).cores = d.cores := rfl
@[simp] theorem incSat_tows (d : Device) (f : Fld) (i n : Nat) : (d.incSat f i n).tows = d.tows := rfl
@[simp] theorem incSat_timing (d : Device) (f : Fld) (i n : Nat) : (d.incSat f i n).timing = d.timing := rfl
@[simp] theorem incSat_radio (d : Device) (f : Fld) (i n : Nat) : (d.incSat f i n).radio = d.radio := rfl
@[simp] theorem incSat_engines (d : Device) (f : Fld) (i n : Nat) : (d.incSat f i n).engines = d.engines := rfl
@[simp] theorem incSat_rteFenced (d : Device) (f : Fld) (i n : Nat) : (d.incSat f i n).rteFenced = d.rteFenced := rfl
@[simp] theorem incSat_rteSeq (d : Device) (f : Fld) (i n : Nat) : (d.incSat f i n).rteSeq = d.rteSeq := rfl
@[simp] theorem incSat_rteIn (d : Device) (f : Fld) (i n : Nat) : (d.incSat f i n).rteIn = d.rteIn := rfl
@[simp] theorem incSat_det (d : Device) (f : Fld) (i n : Nat) : (d.incSat f i n).det = d.det := rfl
@[simp] theorem incSat_fab (d : Device) (f : Fld) (i n : Nat) : (d.incSat f i n).fab = d.fab := rfl
@[simp] theorem incSat_colls (d : Device) (f : Fld) (i n : Nat) : (d.incSat f i n).colls = d.colls := rfl
@[simp] theorem incSat_ftp (d : Device) (f : Fld) (i n : Nat) : (d.incSat f i n).ftp = d.ftp := rfl
@[simp] theorem incSat_pwr (d : Device) (f : Fld) (i n : Nat) : (d.incSat f i n).pwr = d.pwr := rfl
@[simp] theorem incSat_sent (d : Device) (f : Fld) (i n : Nat) : (d.incSat f i n).sent = d.sent := rfl

/-! ### incWrap -/

@[simp] theorem incWrap_heldLow (d : Device) (f : Fld) (i n : Nat) : (d.incWrap f i n).heldLow = d.heldLow := rfl
@[simp] theorem incWrap_woHeld (d : Device) (f : Fld) (i n : Nat) : (d.incWrap f i n).woHeld = d.woHeld := rfl
@[simp] theorem incWrap_mem (d : Device) (f : Fld) (i n : Nat) : (d.incWrap f i n).mem = d.mem := rfl
@[simp] theorem incWrap_tags (d : Device) (f : Fld) (i n : Nat) : (d.incWrap f i n).tags = d.tags := rfl
@[simp] theorem incWrap_rolls (d : Device) (f : Fld) (i n : Nat) : (d.incWrap f i n).rolls = d.rolls := rfl
@[simp] theorem incWrap_junk (d : Device) (f : Fld) (i n : Nat) : (d.incWrap f i n).junk = d.junk := rfl
@[simp] theorem incWrap_poison (d : Device) (f : Fld) (i n : Nat) : (d.incWrap f i n).poison = d.poison := rfl
@[simp] theorem incWrap_pages (d : Device) (f : Fld) (i n : Nat) : (d.incWrap f i n).pages = d.pages := rfl
@[simp] theorem incWrap_freeCtr (d : Device) (f : Fld) (i n : Nat) : (d.incWrap f i n).freeCtr = d.freeCtr := rfl
@[simp] theorem incWrap_cycle (d : Device) (f : Fld) (i n : Nat) : (d.incWrap f i n).cycle = d.cycle := rfl
@[simp] theorem incWrap_time (d : Device) (f : Fld) (i n : Nat) : (d.incWrap f i n).time = d.time := rfl
@[simp] theorem incWrap_queues (d : Device) (f : Fld) (i n : Nat) : (d.incWrap f i n).queues = d.queues := rfl
@[simp] theorem incWrap_cmds (d : Device) (f : Fld) (i n : Nat) : (d.incWrap f i n).cmds = d.cmds := rfl
@[simp] theorem incWrap_sn (d : Device) (f : Fld) (i n : Nat) : (d.incWrap f i n).sn = d.sn := rfl
@[simp] theorem incWrap_txns (d : Device) (f : Fld) (i n : Nat) : (d.incWrap f i n).txns = d.txns := rfl
@[simp] theorem incWrap_verified (d : Device) (f : Fld) (i n : Nat) : (d.incWrap f i n).verified = d.verified := rfl
@[simp] theorem incWrap_evtFill (d : Device) (f : Fld) (i n : Nat) : (d.incWrap f i n).evtFill = d.evtFill := rfl
@[simp] theorem incWrap_batches (d : Device) (f : Fld) (i n : Nat) : (d.incWrap f i n).batches = d.batches := rfl
@[simp] theorem incWrap_sched (d : Device) (f : Fld) (i n : Nat) : (d.incWrap f i n).sched = d.sched := rfl
@[simp] theorem incWrap_msix (d : Device) (f : Fld) (i n : Nat) : (d.incWrap f i n).msix = d.msix := rfl
@[simp] theorem incWrap_tens (d : Device) (f : Fld) (i n : Nat) : (d.incWrap f i n).tens = d.tens := rfl
@[simp] theorem incWrap_vfEnable (d : Device) (f : Fld) (i n : Nat) : (d.incWrap f i n).vfEnable = d.vfEnable := rfl
@[simp] theorem incWrap_numVfs (d : Device) (f : Fld) (i n : Nat) : (d.incWrap f i n).numVfs = d.numVfs := rfl
@[simp] theorem incWrap_mm (d : Device) (f : Fld) (i n : Nat) : (d.incWrap f i n).mm = d.mm := rfl
@[simp] theorem incWrap_ras (d : Device) (f : Fld) (i n : Nat) : (d.incWrap f i n).ras = d.ras := rfl
@[simp] theorem incWrap_cores (d : Device) (f : Fld) (i n : Nat) : (d.incWrap f i n).cores = d.cores := rfl
@[simp] theorem incWrap_tows (d : Device) (f : Fld) (i n : Nat) : (d.incWrap f i n).tows = d.tows := rfl
@[simp] theorem incWrap_timing (d : Device) (f : Fld) (i n : Nat) : (d.incWrap f i n).timing = d.timing := rfl
@[simp] theorem incWrap_radio (d : Device) (f : Fld) (i n : Nat) : (d.incWrap f i n).radio = d.radio := rfl
@[simp] theorem incWrap_engines (d : Device) (f : Fld) (i n : Nat) : (d.incWrap f i n).engines = d.engines := rfl
@[simp] theorem incWrap_rteFenced (d : Device) (f : Fld) (i n : Nat) : (d.incWrap f i n).rteFenced = d.rteFenced := rfl
@[simp] theorem incWrap_rteSeq (d : Device) (f : Fld) (i n : Nat) : (d.incWrap f i n).rteSeq = d.rteSeq := rfl
@[simp] theorem incWrap_rteIn (d : Device) (f : Fld) (i n : Nat) : (d.incWrap f i n).rteIn = d.rteIn := rfl
@[simp] theorem incWrap_det (d : Device) (f : Fld) (i n : Nat) : (d.incWrap f i n).det = d.det := rfl
@[simp] theorem incWrap_fab (d : Device) (f : Fld) (i n : Nat) : (d.incWrap f i n).fab = d.fab := rfl
@[simp] theorem incWrap_colls (d : Device) (f : Fld) (i n : Nat) : (d.incWrap f i n).colls = d.colls := rfl
@[simp] theorem incWrap_ftp (d : Device) (f : Fld) (i n : Nat) : (d.incWrap f i n).ftp = d.ftp := rfl
@[simp] theorem incWrap_pwr (d : Device) (f : Fld) (i n : Nat) : (d.incWrap f i n).pwr = d.pwr := rfl
@[simp] theorem incWrap_sent (d : Device) (f : Fld) (i n : Nat) : (d.incWrap f i n).sent = d.sent := rfl

/-! ### setQueue -/

@[simp] theorem setQueue_regs (d : Device) (q : Nat) (c : QueueCtx) : (d.setQueue q c).regs = d.regs := rfl
@[simp] theorem setQueue_heldLow (d : Device) (q : Nat) (c : QueueCtx) : (d.setQueue q c).heldLow = d.heldLow := rfl
@[simp] theorem setQueue_woHeld (d : Device) (q : Nat) (c : QueueCtx) : (d.setQueue q c).woHeld = d.woHeld := rfl
@[simp] theorem setQueue_mem (d : Device) (q : Nat) (c : QueueCtx) : (d.setQueue q c).mem = d.mem := rfl
@[simp] theorem setQueue_tags (d : Device) (q : Nat) (c : QueueCtx) : (d.setQueue q c).tags = d.tags := rfl
@[simp] theorem setQueue_rolls (d : Device) (q : Nat) (c : QueueCtx) : (d.setQueue q c).rolls = d.rolls := rfl
@[simp] theorem setQueue_junk (d : Device) (q : Nat) (c : QueueCtx) : (d.setQueue q c).junk = d.junk := rfl
@[simp] theorem setQueue_poison (d : Device) (q : Nat) (c : QueueCtx) : (d.setQueue q c).poison = d.poison := rfl
@[simp] theorem setQueue_pages (d : Device) (q : Nat) (c : QueueCtx) : (d.setQueue q c).pages = d.pages := rfl
@[simp] theorem setQueue_freeCtr (d : Device) (q : Nat) (c : QueueCtx) : (d.setQueue q c).freeCtr = d.freeCtr := rfl
@[simp] theorem setQueue_cycle (d : Device) (q : Nat) (c : QueueCtx) : (d.setQueue q c).cycle = d.cycle := rfl
@[simp] theorem setQueue_time (d : Device) (q : Nat) (c : QueueCtx) : (d.setQueue q c).time = d.time := rfl
@[simp] theorem setQueue_cmds (d : Device) (q : Nat) (c : QueueCtx) : (d.setQueue q c).cmds = d.cmds := rfl
@[simp] theorem setQueue_sn (d : Device) (q : Nat) (c : QueueCtx) : (d.setQueue q c).sn = d.sn := rfl
@[simp] theorem setQueue_txns (d : Device) (q : Nat) (c : QueueCtx) : (d.setQueue q c).txns = d.txns := rfl
@[simp] theorem setQueue_verified (d : Device) (q : Nat) (c : QueueCtx) : (d.setQueue q c).verified = d.verified := rfl
@[simp] theorem setQueue_evtFill (d : Device) (q : Nat) (c : QueueCtx) : (d.setQueue q c).evtFill = d.evtFill := rfl
@[simp] theorem setQueue_batches (d : Device) (q : Nat) (c : QueueCtx) : (d.setQueue q c).batches = d.batches := rfl
@[simp] theorem setQueue_sched (d : Device) (q : Nat) (c : QueueCtx) : (d.setQueue q c).sched = d.sched := rfl
@[simp] theorem setQueue_msix (d : Device) (q : Nat) (c : QueueCtx) : (d.setQueue q c).msix = d.msix := rfl
@[simp] theorem setQueue_tens (d : Device) (q : Nat) (c : QueueCtx) : (d.setQueue q c).tens = d.tens := rfl
@[simp] theorem setQueue_vfEnable (d : Device) (q : Nat) (c : QueueCtx) : (d.setQueue q c).vfEnable = d.vfEnable := rfl
@[simp] theorem setQueue_numVfs (d : Device) (q : Nat) (c : QueueCtx) : (d.setQueue q c).numVfs = d.numVfs := rfl
@[simp] theorem setQueue_mm (d : Device) (q : Nat) (c : QueueCtx) : (d.setQueue q c).mm = d.mm := rfl
@[simp] theorem setQueue_ras (d : Device) (q : Nat) (c : QueueCtx) : (d.setQueue q c).ras = d.ras := rfl
@[simp] theorem setQueue_cores (d : Device) (q : Nat) (c : QueueCtx) : (d.setQueue q c).cores = d.cores := rfl
@[simp] theorem setQueue_tows (d : Device) (q : Nat) (c : QueueCtx) : (d.setQueue q c).tows = d.tows := rfl
@[simp] theorem setQueue_timing (d : Device) (q : Nat) (c : QueueCtx) : (d.setQueue q c).timing = d.timing := rfl
@[simp] theorem setQueue_radio (d : Device) (q : Nat) (c : QueueCtx) : (d.setQueue q c).radio = d.radio := rfl
@[simp] theorem setQueue_engines (d : Device) (q : Nat) (c : QueueCtx) : (d.setQueue q c).engines = d.engines := rfl
@[simp] theorem setQueue_rteFenced (d : Device) (q : Nat) (c : QueueCtx) : (d.setQueue q c).rteFenced = d.rteFenced := rfl
@[simp] theorem setQueue_rteSeq (d : Device) (q : Nat) (c : QueueCtx) : (d.setQueue q c).rteSeq = d.rteSeq := rfl
@[simp] theorem setQueue_rteIn (d : Device) (q : Nat) (c : QueueCtx) : (d.setQueue q c).rteIn = d.rteIn := rfl
@[simp] theorem setQueue_det (d : Device) (q : Nat) (c : QueueCtx) : (d.setQueue q c).det = d.det := rfl
@[simp] theorem setQueue_fab (d : Device) (q : Nat) (c : QueueCtx) : (d.setQueue q c).fab = d.fab := rfl
@[simp] theorem setQueue_colls (d : Device) (q : Nat) (c : QueueCtx) : (d.setQueue q c).colls = d.colls := rfl
@[simp] theorem setQueue_ftp (d : Device) (q : Nat) (c : QueueCtx) : (d.setQueue q c).ftp = d.ftp := rfl
@[simp] theorem setQueue_pwr (d : Device) (q : Nat) (c : QueueCtx) : (d.setQueue q c).pwr = d.pwr := rfl
@[simp] theorem setQueue_sent (d : Device) (q : Nat) (c : QueueCtx) : (d.setQueue q c).sent = d.sent := rfl

/-! ### setCore -/

@[simp] theorem setCore_regs (d : Device) (n : Nat) (c : Core) : (d.setCore n c).regs = d.regs := rfl
@[simp] theorem setCore_heldLow (d : Device) (n : Nat) (c : Core) : (d.setCore n c).heldLow = d.heldLow := rfl
@[simp] theorem setCore_woHeld (d : Device) (n : Nat) (c : Core) : (d.setCore n c).woHeld = d.woHeld := rfl
@[simp] theorem setCore_mem (d : Device) (n : Nat) (c : Core) : (d.setCore n c).mem = d.mem := rfl
@[simp] theorem setCore_tags (d : Device) (n : Nat) (c : Core) : (d.setCore n c).tags = d.tags := rfl
@[simp] theorem setCore_rolls (d : Device) (n : Nat) (c : Core) : (d.setCore n c).rolls = d.rolls := rfl
@[simp] theorem setCore_junk (d : Device) (n : Nat) (c : Core) : (d.setCore n c).junk = d.junk := rfl
@[simp] theorem setCore_poison (d : Device) (n : Nat) (c : Core) : (d.setCore n c).poison = d.poison := rfl
@[simp] theorem setCore_pages (d : Device) (n : Nat) (c : Core) : (d.setCore n c).pages = d.pages := rfl
@[simp] theorem setCore_freeCtr (d : Device) (n : Nat) (c : Core) : (d.setCore n c).freeCtr = d.freeCtr := rfl
@[simp] theorem setCore_cycle (d : Device) (n : Nat) (c : Core) : (d.setCore n c).cycle = d.cycle := rfl
@[simp] theorem setCore_time (d : Device) (n : Nat) (c : Core) : (d.setCore n c).time = d.time := rfl
@[simp] theorem setCore_queues (d : Device) (n : Nat) (c : Core) : (d.setCore n c).queues = d.queues := rfl
@[simp] theorem setCore_cmds (d : Device) (n : Nat) (c : Core) : (d.setCore n c).cmds = d.cmds := rfl
@[simp] theorem setCore_sn (d : Device) (n : Nat) (c : Core) : (d.setCore n c).sn = d.sn := rfl
@[simp] theorem setCore_txns (d : Device) (n : Nat) (c : Core) : (d.setCore n c).txns = d.txns := rfl
@[simp] theorem setCore_verified (d : Device) (n : Nat) (c : Core) : (d.setCore n c).verified = d.verified := rfl
@[simp] theorem setCore_evtFill (d : Device) (n : Nat) (c : Core) : (d.setCore n c).evtFill = d.evtFill := rfl
@[simp] theorem setCore_batches (d : Device) (n : Nat) (c : Core) : (d.setCore n c).batches = d.batches := rfl
@[simp] theorem setCore_sched (d : Device) (n : Nat) (c : Core) : (d.setCore n c).sched = d.sched := rfl
@[simp] theorem setCore_msix (d : Device) (n : Nat) (c : Core) : (d.setCore n c).msix = d.msix := rfl
@[simp] theorem setCore_tens (d : Device) (n : Nat) (c : Core) : (d.setCore n c).tens = d.tens := rfl
@[simp] theorem setCore_vfEnable (d : Device) (n : Nat) (c : Core) : (d.setCore n c).vfEnable = d.vfEnable := rfl
@[simp] theorem setCore_numVfs (d : Device) (n : Nat) (c : Core) : (d.setCore n c).numVfs = d.numVfs := rfl
@[simp] theorem setCore_mm (d : Device) (n : Nat) (c : Core) : (d.setCore n c).mm = d.mm := rfl
@[simp] theorem setCore_ras (d : Device) (n : Nat) (c : Core) : (d.setCore n c).ras = d.ras := rfl
@[simp] theorem setCore_tows (d : Device) (n : Nat) (c : Core) : (d.setCore n c).tows = d.tows := rfl
@[simp] theorem setCore_timing (d : Device) (n : Nat) (c : Core) : (d.setCore n c).timing = d.timing := rfl
@[simp] theorem setCore_radio (d : Device) (n : Nat) (c : Core) : (d.setCore n c).radio = d.radio := rfl
@[simp] theorem setCore_engines (d : Device) (n : Nat) (c : Core) : (d.setCore n c).engines = d.engines := rfl
@[simp] theorem setCore_rteFenced (d : Device) (n : Nat) (c : Core) : (d.setCore n c).rteFenced = d.rteFenced := rfl
@[simp] theorem setCore_rteSeq (d : Device) (n : Nat) (c : Core) : (d.setCore n c).rteSeq = d.rteSeq := rfl
@[simp] theorem setCore_rteIn (d : Device) (n : Nat) (c : Core) : (d.setCore n c).rteIn = d.rteIn := rfl
@[simp] theorem setCore_det (d : Device) (n : Nat) (c : Core) : (d.setCore n c).det = d.det := rfl
@[simp] theorem setCore_fab (d : Device) (n : Nat) (c : Core) : (d.setCore n c).fab = d.fab := rfl
@[simp] theorem setCore_colls (d : Device) (n : Nat) (c : Core) : (d.setCore n c).colls = d.colls := rfl
@[simp] theorem setCore_ftp (d : Device) (n : Nat) (c : Core) : (d.setCore n c).ftp = d.ftp := rfl
@[simp] theorem setCore_pwr (d : Device) (n : Nat) (c : Core) : (d.setCore n c).pwr = d.pwr := rfl
@[simp] theorem setCore_sent (d : Device) (n : Nat) (c : Core) : (d.setCore n c).sent = d.sent := rfl

/-! ### setCmd -/

@[simp] theorem setCmd_regs (d : Device) (c : Cmd) : (d.setCmd c).regs = d.regs := rfl
@[simp] theorem setCmd_heldLow (d : Device) (c : Cmd) : (d.setCmd c).heldLow = d.heldLow := rfl
@[simp] theorem setCmd_woHeld (d : Device) (c : Cmd) : (d.setCmd c).woHeld = d.woHeld := rfl
@[simp] theorem setCmd_mem (d : Device) (c : Cmd) : (d.setCmd c).mem = d.mem := rfl
@[simp] theorem setCmd_tags (d : Device) (c : Cmd) : (d.setCmd c).tags = d.tags := rfl
@[simp] theorem setCmd_rolls (d : Device) (c : Cmd) : (d.setCmd c).rolls = d.rolls := rfl
@[simp] theorem setCmd_junk (d : Device) (c : Cmd) : (d.setCmd c).junk = d.junk := rfl
@[simp] theorem setCmd_poison (d : Device) (c : Cmd) : (d.setCmd c).poison = d.poison := rfl
@[simp] theorem setCmd_pages (d : Device) (c : Cmd) : (d.setCmd c).pages = d.pages := rfl
@[simp] theorem setCmd_freeCtr (d : Device) (c : Cmd) : (d.setCmd c).freeCtr = d.freeCtr := rfl
@[simp] theorem setCmd_cycle (d : Device) (c : Cmd) : (d.setCmd c).cycle = d.cycle := rfl
@[simp] theorem setCmd_time (d : Device) (c : Cmd) : (d.setCmd c).time = d.time := rfl
@[simp] theorem setCmd_queues (d : Device) (c : Cmd) : (d.setCmd c).queues = d.queues := rfl
@[simp] theorem setCmd_sn (d : Device) (c : Cmd) : (d.setCmd c).sn = d.sn := rfl
@[simp] theorem setCmd_txns (d : Device) (c : Cmd) : (d.setCmd c).txns = d.txns := rfl
@[simp] theorem setCmd_verified (d : Device) (c : Cmd) : (d.setCmd c).verified = d.verified := rfl
@[simp] theorem setCmd_evtFill (d : Device) (c : Cmd) : (d.setCmd c).evtFill = d.evtFill := rfl
@[simp] theorem setCmd_batches (d : Device) (c : Cmd) : (d.setCmd c).batches = d.batches := rfl
@[simp] theorem setCmd_sched (d : Device) (c : Cmd) : (d.setCmd c).sched = d.sched := rfl
@[simp] theorem setCmd_msix (d : Device) (c : Cmd) : (d.setCmd c).msix = d.msix := rfl
@[simp] theorem setCmd_tens (d : Device) (c : Cmd) : (d.setCmd c).tens = d.tens := rfl
@[simp] theorem setCmd_vfEnable (d : Device) (c : Cmd) : (d.setCmd c).vfEnable = d.vfEnable := rfl
@[simp] theorem setCmd_numVfs (d : Device) (c : Cmd) : (d.setCmd c).numVfs = d.numVfs := rfl
@[simp] theorem setCmd_mm (d : Device) (c : Cmd) : (d.setCmd c).mm = d.mm := rfl
@[simp] theorem setCmd_ras (d : Device) (c : Cmd) : (d.setCmd c).ras = d.ras := rfl
@[simp] theorem setCmd_cores (d : Device) (c : Cmd) : (d.setCmd c).cores = d.cores := rfl
@[simp] theorem setCmd_tows (d : Device) (c : Cmd) : (d.setCmd c).tows = d.tows := rfl
@[simp] theorem setCmd_timing (d : Device) (c : Cmd) : (d.setCmd c).timing = d.timing := rfl
@[simp] theorem setCmd_radio (d : Device) (c : Cmd) : (d.setCmd c).radio = d.radio := rfl
@[simp] theorem setCmd_engines (d : Device) (c : Cmd) : (d.setCmd c).engines = d.engines := rfl
@[simp] theorem setCmd_rteFenced (d : Device) (c : Cmd) : (d.setCmd c).rteFenced = d.rteFenced := rfl
@[simp] theorem setCmd_rteSeq (d : Device) (c : Cmd) : (d.setCmd c).rteSeq = d.rteSeq := rfl
@[simp] theorem setCmd_rteIn (d : Device) (c : Cmd) : (d.setCmd c).rteIn = d.rteIn := rfl
@[simp] theorem setCmd_det (d : Device) (c : Cmd) : (d.setCmd c).det = d.det := rfl
@[simp] theorem setCmd_fab (d : Device) (c : Cmd) : (d.setCmd c).fab = d.fab := rfl
@[simp] theorem setCmd_colls (d : Device) (c : Cmd) : (d.setCmd c).colls = d.colls := rfl
@[simp] theorem setCmd_ftp (d : Device) (c : Cmd) : (d.setCmd c).ftp = d.ftp := rfl
@[simp] theorem setCmd_pwr (d : Device) (c : Cmd) : (d.setCmd c).pwr = d.pwr := rfl
@[simp] theorem setCmd_sent (d : Device) (c : Cmd) : (d.setCmd c).sent = d.sent := rfl

/-! ### setPage -/

@[simp] theorem setPage_regs (d : Device) (p st : Nat) : (d.setPage p st).regs = d.regs := rfl
@[simp] theorem setPage_heldLow (d : Device) (p st : Nat) : (d.setPage p st).heldLow = d.heldLow := rfl
@[simp] theorem setPage_woHeld (d : Device) (p st : Nat) : (d.setPage p st).woHeld = d.woHeld := rfl
@[simp] theorem setPage_mem (d : Device) (p st : Nat) : (d.setPage p st).mem = d.mem := rfl
@[simp] theorem setPage_tags (d : Device) (p st : Nat) : (d.setPage p st).tags = d.tags := rfl
@[simp] theorem setPage_rolls (d : Device) (p st : Nat) : (d.setPage p st).rolls = d.rolls := rfl
@[simp] theorem setPage_junk (d : Device) (p st : Nat) : (d.setPage p st).junk = d.junk := rfl
@[simp] theorem setPage_poison (d : Device) (p st : Nat) : (d.setPage p st).poison = d.poison := rfl
@[simp] theorem setPage_freeCtr (d : Device) (p st : Nat) : (d.setPage p st).freeCtr = d.freeCtr := rfl
@[simp] theorem setPage_cycle (d : Device) (p st : Nat) : (d.setPage p st).cycle = d.cycle := rfl
@[simp] theorem setPage_time (d : Device) (p st : Nat) : (d.setPage p st).time = d.time := rfl
@[simp] theorem setPage_queues (d : Device) (p st : Nat) : (d.setPage p st).queues = d.queues := rfl
@[simp] theorem setPage_cmds (d : Device) (p st : Nat) : (d.setPage p st).cmds = d.cmds := rfl
@[simp] theorem setPage_sn (d : Device) (p st : Nat) : (d.setPage p st).sn = d.sn := rfl
@[simp] theorem setPage_txns (d : Device) (p st : Nat) : (d.setPage p st).txns = d.txns := rfl
@[simp] theorem setPage_verified (d : Device) (p st : Nat) : (d.setPage p st).verified = d.verified := rfl
@[simp] theorem setPage_evtFill (d : Device) (p st : Nat) : (d.setPage p st).evtFill = d.evtFill := rfl
@[simp] theorem setPage_batches (d : Device) (p st : Nat) : (d.setPage p st).batches = d.batches := rfl
@[simp] theorem setPage_sched (d : Device) (p st : Nat) : (d.setPage p st).sched = d.sched := rfl
@[simp] theorem setPage_msix (d : Device) (p st : Nat) : (d.setPage p st).msix = d.msix := rfl
@[simp] theorem setPage_tens (d : Device) (p st : Nat) : (d.setPage p st).tens = d.tens := rfl
@[simp] theorem setPage_vfEnable (d : Device) (p st : Nat) : (d.setPage p st).vfEnable = d.vfEnable := rfl
@[simp] theorem setPage_numVfs (d : Device) (p st : Nat) : (d.setPage p st).numVfs = d.numVfs := rfl
@[simp] theorem setPage_mm (d : Device) (p st : Nat) : (d.setPage p st).mm = d.mm := rfl
@[simp] theorem setPage_ras (d : Device) (p st : Nat) : (d.setPage p st).ras = d.ras := rfl
@[simp] theorem setPage_cores (d : Device) (p st : Nat) : (d.setPage p st).cores = d.cores := rfl
@[simp] theorem setPage_tows (d : Device) (p st : Nat) : (d.setPage p st).tows = d.tows := rfl
@[simp] theorem setPage_timing (d : Device) (p st : Nat) : (d.setPage p st).timing = d.timing := rfl
@[simp] theorem setPage_radio (d : Device) (p st : Nat) : (d.setPage p st).radio = d.radio := rfl
@[simp] theorem setPage_engines (d : Device) (p st : Nat) : (d.setPage p st).engines = d.engines := rfl
@[simp] theorem setPage_rteFenced (d : Device) (p st : Nat) : (d.setPage p st).rteFenced = d.rteFenced := rfl
@[simp] theorem setPage_rteSeq (d : Device) (p st : Nat) : (d.setPage p st).rteSeq = d.rteSeq := rfl
@[simp] theorem setPage_rteIn (d : Device) (p st : Nat) : (d.setPage p st).rteIn = d.rteIn := rfl
@[simp] theorem setPage_det (d : Device) (p st : Nat) : (d.setPage p st).det = d.det := rfl
@[simp] theorem setPage_fab (d : Device) (p st : Nat) : (d.setPage p st).fab = d.fab := rfl
@[simp] theorem setPage_colls (d : Device) (p st : Nat) : (d.setPage p st).colls = d.colls := rfl
@[simp] theorem setPage_ftp (d : Device) (p st : Nat) : (d.setPage p st).ftp = d.ftp := rfl
@[simp] theorem setPage_pwr (d : Device) (p st : Nat) : (d.setPage p st).pwr = d.pwr := rfl
@[simp] theorem setPage_sent (d : Device) (p st : Nat) : (d.setPage p st).sent = d.sent := rfl

/-! ### setSeal -/

@[simp] theorem setSeal_regs (d : Device) (p : Nat) (b : Bool) : (d.setSeal p b).regs = d.regs := rfl
@[simp] theorem setSeal_heldLow (d : Device) (p : Nat) (b : Bool) : (d.setSeal p b).heldLow = d.heldLow := rfl
@[simp] theorem setSeal_woHeld (d : Device) (p : Nat) (b : Bool) : (d.setSeal p b).woHeld = d.woHeld := rfl
@[simp] theorem setSeal_mem (d : Device) (p : Nat) (b : Bool) : (d.setSeal p b).mem = d.mem := rfl
@[simp] theorem setSeal_tags (d : Device) (p : Nat) (b : Bool) : (d.setSeal p b).tags = d.tags := rfl
@[simp] theorem setSeal_rolls (d : Device) (p : Nat) (b : Bool) : (d.setSeal p b).rolls = d.rolls := rfl
@[simp] theorem setSeal_junk (d : Device) (p : Nat) (b : Bool) : (d.setSeal p b).junk = d.junk := rfl
@[simp] theorem setSeal_poison (d : Device) (p : Nat) (b : Bool) : (d.setSeal p b).poison = d.poison := rfl
@[simp] theorem setSeal_freeCtr (d : Device) (p : Nat) (b : Bool) : (d.setSeal p b).freeCtr = d.freeCtr := rfl
@[simp] theorem setSeal_cycle (d : Device) (p : Nat) (b : Bool) : (d.setSeal p b).cycle = d.cycle := rfl
@[simp] theorem setSeal_time (d : Device) (p : Nat) (b : Bool) : (d.setSeal p b).time = d.time := rfl
@[simp] theorem setSeal_queues (d : Device) (p : Nat) (b : Bool) : (d.setSeal p b).queues = d.queues := rfl
@[simp] theorem setSeal_cmds (d : Device) (p : Nat) (b : Bool) : (d.setSeal p b).cmds = d.cmds := rfl
@[simp] theorem setSeal_sn (d : Device) (p : Nat) (b : Bool) : (d.setSeal p b).sn = d.sn := rfl
@[simp] theorem setSeal_txns (d : Device) (p : Nat) (b : Bool) : (d.setSeal p b).txns = d.txns := rfl
@[simp] theorem setSeal_verified (d : Device) (p : Nat) (b : Bool) : (d.setSeal p b).verified = d.verified := rfl
@[simp] theorem setSeal_evtFill (d : Device) (p : Nat) (b : Bool) : (d.setSeal p b).evtFill = d.evtFill := rfl
@[simp] theorem setSeal_batches (d : Device) (p : Nat) (b : Bool) : (d.setSeal p b).batches = d.batches := rfl
@[simp] theorem setSeal_sched (d : Device) (p : Nat) (b : Bool) : (d.setSeal p b).sched = d.sched := rfl
@[simp] theorem setSeal_msix (d : Device) (p : Nat) (b : Bool) : (d.setSeal p b).msix = d.msix := rfl
@[simp] theorem setSeal_tens (d : Device) (p : Nat) (b : Bool) : (d.setSeal p b).tens = d.tens := rfl
@[simp] theorem setSeal_vfEnable (d : Device) (p : Nat) (b : Bool) : (d.setSeal p b).vfEnable = d.vfEnable := rfl
@[simp] theorem setSeal_numVfs (d : Device) (p : Nat) (b : Bool) : (d.setSeal p b).numVfs = d.numVfs := rfl
@[simp] theorem setSeal_mm (d : Device) (p : Nat) (b : Bool) : (d.setSeal p b).mm = d.mm := rfl
@[simp] theorem setSeal_ras (d : Device) (p : Nat) (b : Bool) : (d.setSeal p b).ras = d.ras := rfl
@[simp] theorem setSeal_cores (d : Device) (p : Nat) (b : Bool) : (d.setSeal p b).cores = d.cores := rfl
@[simp] theorem setSeal_tows (d : Device) (p : Nat) (b : Bool) : (d.setSeal p b).tows = d.tows := rfl
@[simp] theorem setSeal_timing (d : Device) (p : Nat) (b : Bool) : (d.setSeal p b).timing = d.timing := rfl
@[simp] theorem setSeal_radio (d : Device) (p : Nat) (b : Bool) : (d.setSeal p b).radio = d.radio := rfl
@[simp] theorem setSeal_engines (d : Device) (p : Nat) (b : Bool) : (d.setSeal p b).engines = d.engines := rfl
@[simp] theorem setSeal_rteFenced (d : Device) (p : Nat) (b : Bool) : (d.setSeal p b).rteFenced = d.rteFenced := rfl
@[simp] theorem setSeal_rteSeq (d : Device) (p : Nat) (b : Bool) : (d.setSeal p b).rteSeq = d.rteSeq := rfl
@[simp] theorem setSeal_rteIn (d : Device) (p : Nat) (b : Bool) : (d.setSeal p b).rteIn = d.rteIn := rfl
@[simp] theorem setSeal_det (d : Device) (p : Nat) (b : Bool) : (d.setSeal p b).det = d.det := rfl
@[simp] theorem setSeal_fab (d : Device) (p : Nat) (b : Bool) : (d.setSeal p b).fab = d.fab := rfl
@[simp] theorem setSeal_colls (d : Device) (p : Nat) (b : Bool) : (d.setSeal p b).colls = d.colls := rfl
@[simp] theorem setSeal_ftp (d : Device) (p : Nat) (b : Bool) : (d.setSeal p b).ftp = d.ftp := rfl
@[simp] theorem setSeal_pwr (d : Device) (p : Nat) (b : Bool) : (d.setSeal p b).pwr = d.pwr := rfl
@[simp] theorem setSeal_sent (d : Device) (p : Nat) (b : Bool) : (d.setSeal p b).sent = d.sent := rfl

/-! ### store -/

@[simp] theorem store_regs (d : Device) (sp off : Nat) (bs : List Byte) : (d.store sp off bs).regs = d.regs := rfl
@[simp] theorem store_heldLow (d : Device) (sp off : Nat) (bs : List Byte) : (d.store sp off bs).heldLow = d.heldLow := rfl
@[simp] theorem store_woHeld (d : Device) (sp off : Nat) (bs : List Byte) : (d.store sp off bs).woHeld = d.woHeld := rfl
@[simp] theorem store_tags (d : Device) (sp off : Nat) (bs : List Byte) : (d.store sp off bs).tags = d.tags := rfl
@[simp] theorem store_rolls (d : Device) (sp off : Nat) (bs : List Byte) : (d.store sp off bs).rolls = d.rolls := rfl
@[simp] theorem store_poison (d : Device) (sp off : Nat) (bs : List Byte) : (d.store sp off bs).poison = d.poison := rfl
@[simp] theorem store_pages (d : Device) (sp off : Nat) (bs : List Byte) : (d.store sp off bs).pages = d.pages := rfl
@[simp] theorem store_freeCtr (d : Device) (sp off : Nat) (bs : List Byte) : (d.store sp off bs).freeCtr = d.freeCtr := rfl
@[simp] theorem store_cycle (d : Device) (sp off : Nat) (bs : List Byte) : (d.store sp off bs).cycle = d.cycle := rfl
@[simp] theorem store_time (d : Device) (sp off : Nat) (bs : List Byte) : (d.store sp off bs).time = d.time := rfl
@[simp] theorem store_queues (d : Device) (sp off : Nat) (bs : List Byte) : (d.store sp off bs).queues = d.queues := rfl
@[simp] theorem store_cmds (d : Device) (sp off : Nat) (bs : List Byte) : (d.store sp off bs).cmds = d.cmds := rfl
@[simp] theorem store_sn (d : Device) (sp off : Nat) (bs : List Byte) : (d.store sp off bs).sn = d.sn := rfl
@[simp] theorem store_txns (d : Device) (sp off : Nat) (bs : List Byte) : (d.store sp off bs).txns = d.txns := rfl
@[simp] theorem store_verified (d : Device) (sp off : Nat) (bs : List Byte) : (d.store sp off bs).verified = d.verified := rfl
@[simp] theorem store_evtFill (d : Device) (sp off : Nat) (bs : List Byte) : (d.store sp off bs).evtFill = d.evtFill := rfl
@[simp] theorem store_batches (d : Device) (sp off : Nat) (bs : List Byte) : (d.store sp off bs).batches = d.batches := rfl
@[simp] theorem store_sched (d : Device) (sp off : Nat) (bs : List Byte) : (d.store sp off bs).sched = d.sched := rfl
@[simp] theorem store_msix (d : Device) (sp off : Nat) (bs : List Byte) : (d.store sp off bs).msix = d.msix := rfl
@[simp] theorem store_tens (d : Device) (sp off : Nat) (bs : List Byte) : (d.store sp off bs).tens = d.tens := rfl
@[simp] theorem store_vfEnable (d : Device) (sp off : Nat) (bs : List Byte) : (d.store sp off bs).vfEnable = d.vfEnable := rfl
@[simp] theorem store_numVfs (d : Device) (sp off : Nat) (bs : List Byte) : (d.store sp off bs).numVfs = d.numVfs := rfl
@[simp] theorem store_mm (d : Device) (sp off : Nat) (bs : List Byte) : (d.store sp off bs).mm = d.mm := rfl
@[simp] theorem store_ras (d : Device) (sp off : Nat) (bs : List Byte) : (d.store sp off bs).ras = d.ras := rfl
@[simp] theorem store_cores (d : Device) (sp off : Nat) (bs : List Byte) : (d.store sp off bs).cores = d.cores := rfl
@[simp] theorem store_tows (d : Device) (sp off : Nat) (bs : List Byte) : (d.store sp off bs).tows = d.tows := rfl
@[simp] theorem store_timing (d : Device) (sp off : Nat) (bs : List Byte) : (d.store sp off bs).timing = d.timing := rfl
@[simp] theorem store_radio (d : Device) (sp off : Nat) (bs : List Byte) : (d.store sp off bs).radio = d.radio := rfl
@[simp] theorem store_engines (d : Device) (sp off : Nat) (bs : List Byte) : (d.store sp off bs).engines = d.engines := rfl
@[simp] theorem store_rteFenced (d : Device) (sp off : Nat) (bs : List Byte) : (d.store sp off bs).rteFenced = d.rteFenced := rfl
@[simp] theorem store_rteSeq (d : Device) (sp off : Nat) (bs : List Byte) : (d.store sp off bs).rteSeq = d.rteSeq := rfl
@[simp] theorem store_rteIn (d : Device) (sp off : Nat) (bs : List Byte) : (d.store sp off bs).rteIn = d.rteIn := rfl
@[simp] theorem store_det (d : Device) (sp off : Nat) (bs : List Byte) : (d.store sp off bs).det = d.det := rfl
@[simp] theorem store_fab (d : Device) (sp off : Nat) (bs : List Byte) : (d.store sp off bs).fab = d.fab := rfl
@[simp] theorem store_colls (d : Device) (sp off : Nat) (bs : List Byte) : (d.store sp off bs).colls = d.colls := rfl
@[simp] theorem store_ftp (d : Device) (sp off : Nat) (bs : List Byte) : (d.store sp off bs).ftp = d.ftp := rfl
@[simp] theorem store_pwr (d : Device) (sp off : Nat) (bs : List Byte) : (d.store sp off bs).pwr = d.pwr := rfl
@[simp] theorem store_sent (d : Device) (sp off : Nat) (bs : List Byte) : (d.store sp off bs).sent = d.sent := rfl

/-! ### zero -/

@[simp] theorem zero_regs (d : Device) (sp off len : Nat) : (d.zero sp off len).regs = d.regs := rfl
@[simp] theorem zero_heldLow (d : Device) (sp off len : Nat) : (d.zero sp off len).heldLow = d.heldLow := rfl
@[simp] theorem zero_woHeld (d : Device) (sp off len : Nat) : (d.zero sp off len).woHeld = d.woHeld := rfl
@[simp] theorem zero_rolls (d : Device) (sp off len : Nat) : (d.zero sp off len).rolls = d.rolls := rfl
@[simp] theorem zero_pages (d : Device) (sp off len : Nat) : (d.zero sp off len).pages = d.pages := rfl
@[simp] theorem zero_freeCtr (d : Device) (sp off len : Nat) : (d.zero sp off len).freeCtr = d.freeCtr := rfl
@[simp] theorem zero_cycle (d : Device) (sp off len : Nat) : (d.zero sp off len).cycle = d.cycle := rfl
@[simp] theorem zero_time (d : Device) (sp off len : Nat) : (d.zero sp off len).time = d.time := rfl
@[simp] theorem zero_queues (d : Device) (sp off len : Nat) : (d.zero sp off len).queues = d.queues := rfl
@[simp] theorem zero_cmds (d : Device) (sp off len : Nat) : (d.zero sp off len).cmds = d.cmds := rfl
@[simp] theorem zero_sn (d : Device) (sp off len : Nat) : (d.zero sp off len).sn = d.sn := rfl
@[simp] theorem zero_txns (d : Device) (sp off len : Nat) : (d.zero sp off len).txns = d.txns := rfl
@[simp] theorem zero_verified (d : Device) (sp off len : Nat) : (d.zero sp off len).verified = d.verified := rfl
@[simp] theorem zero_evtFill (d : Device) (sp off len : Nat) : (d.zero sp off len).evtFill = d.evtFill := rfl
@[simp] theorem zero_batches (d : Device) (sp off len : Nat) : (d.zero sp off len).batches = d.batches := rfl
@[simp] theorem zero_sched (d : Device) (sp off len : Nat) : (d.zero sp off len).sched = d.sched := rfl
@[simp] theorem zero_msix (d : Device) (sp off len : Nat) : (d.zero sp off len).msix = d.msix := rfl
@[simp] theorem zero_tens (d : Device) (sp off len : Nat) : (d.zero sp off len).tens = d.tens := rfl
@[simp] theorem zero_vfEnable (d : Device) (sp off len : Nat) : (d.zero sp off len).vfEnable = d.vfEnable := rfl
@[simp] theorem zero_numVfs (d : Device) (sp off len : Nat) : (d.zero sp off len).numVfs = d.numVfs := rfl
@[simp] theorem zero_mm (d : Device) (sp off len : Nat) : (d.zero sp off len).mm = d.mm := rfl
@[simp] theorem zero_ras (d : Device) (sp off len : Nat) : (d.zero sp off len).ras = d.ras := rfl
@[simp] theorem zero_cores (d : Device) (sp off len : Nat) : (d.zero sp off len).cores = d.cores := rfl
@[simp] theorem zero_tows (d : Device) (sp off len : Nat) : (d.zero sp off len).tows = d.tows := rfl
@[simp] theorem zero_timing (d : Device) (sp off len : Nat) : (d.zero sp off len).timing = d.timing := rfl
@[simp] theorem zero_radio (d : Device) (sp off len : Nat) : (d.zero sp off len).radio = d.radio := rfl
@[simp] theorem zero_engines (d : Device) (sp off len : Nat) : (d.zero sp off len).engines = d.engines := rfl
@[simp] theorem zero_rteFenced (d : Device) (sp off len : Nat) : (d.zero sp off len).rteFenced = d.rteFenced := rfl
@[simp] theorem zero_rteSeq (d : Device) (sp off len : Nat) : (d.zero sp off len).rteSeq = d.rteSeq := rfl
@[simp] theorem zero_rteIn (d : Device) (sp off len : Nat) : (d.zero sp off len).rteIn = d.rteIn := rfl
@[simp] theorem zero_det (d : Device) (sp off len : Nat) : (d.zero sp off len).det = d.det := rfl
@[simp] theorem zero_fab (d : Device) (sp off len : Nat) : (d.zero sp off len).fab = d.fab := rfl
@[simp] theorem zero_colls (d : Device) (sp off len : Nat) : (d.zero sp off len).colls = d.colls := rfl
@[simp] theorem zero_ftp (d : Device) (sp off len : Nat) : (d.zero sp off len).ftp = d.ftp := rfl
@[simp] theorem zero_pwr (d : Device) (sp off len : Nat) : (d.zero sp off len).pwr = d.pwr := rfl
@[simp] theorem zero_sent (d : Device) (sp off len : Nat) : (d.zero sp off len).sent = d.sent := rfl

/-! ### scramble -/

@[simp] theorem scramble_regs (d : Device) (sp off len : Nat) : (d.scramble sp off len).regs = d.regs := rfl
@[simp] theorem scramble_heldLow (d : Device) (sp off len : Nat) : (d.scramble sp off len).heldLow = d.heldLow := rfl
@[simp] theorem scramble_woHeld (d : Device) (sp off len : Nat) : (d.scramble sp off len).woHeld = d.woHeld := rfl
@[simp] theorem scramble_rolls (d : Device) (sp off len : Nat) : (d.scramble sp off len).rolls = d.rolls := rfl
@[simp] theorem scramble_poison (d : Device) (sp off len : Nat) : (d.scramble sp off len).poison = d.poison := rfl
@[simp] theorem scramble_pages (d : Device) (sp off len : Nat) : (d.scramble sp off len).pages = d.pages := rfl
@[simp] theorem scramble_cycle (d : Device) (sp off len : Nat) : (d.scramble sp off len).cycle = d.cycle := rfl
@[simp] theorem scramble_time (d : Device) (sp off len : Nat) : (d.scramble sp off len).time = d.time := rfl
@[simp] theorem scramble_queues (d : Device) (sp off len : Nat) : (d.scramble sp off len).queues = d.queues := rfl
@[simp] theorem scramble_cmds (d : Device) (sp off len : Nat) : (d.scramble sp off len).cmds = d.cmds := rfl
@[simp] theorem scramble_sn (d : Device) (sp off len : Nat) : (d.scramble sp off len).sn = d.sn := rfl
@[simp] theorem scramble_txns (d : Device) (sp off len : Nat) : (d.scramble sp off len).txns = d.txns := rfl
@[simp] theorem scramble_verified (d : Device) (sp off len : Nat) : (d.scramble sp off len).verified = d.verified := rfl
@[simp] theorem scramble_evtFill (d : Device) (sp off len : Nat) : (d.scramble sp off len).evtFill = d.evtFill := rfl
@[simp] theorem scramble_batches (d : Device) (sp off len : Nat) : (d.scramble sp off len).batches = d.batches := rfl
@[simp] theorem scramble_sched (d : Device) (sp off len : Nat) : (d.scramble sp off len).sched = d.sched := rfl
@[simp] theorem scramble_msix (d : Device) (sp off len : Nat) : (d.scramble sp off len).msix = d.msix := rfl
@[simp] theorem scramble_tens (d : Device) (sp off len : Nat) : (d.scramble sp off len).tens = d.tens := rfl
@[simp] theorem scramble_vfEnable (d : Device) (sp off len : Nat) : (d.scramble sp off len).vfEnable = d.vfEnable := rfl
@[simp] theorem scramble_numVfs (d : Device) (sp off len : Nat) : (d.scramble sp off len).numVfs = d.numVfs := rfl
@[simp] theorem scramble_mm (d : Device) (sp off len : Nat) : (d.scramble sp off len).mm = d.mm := rfl
@[simp] theorem scramble_ras (d : Device) (sp off len : Nat) : (d.scramble sp off len).ras = d.ras := rfl
@[simp] theorem scramble_cores (d : Device) (sp off len : Nat) : (d.scramble sp off len).cores = d.cores := rfl
@[simp] theorem scramble_tows (d : Device) (sp off len : Nat) : (d.scramble sp off len).tows = d.tows := rfl
@[simp] theorem scramble_timing (d : Device) (sp off len : Nat) : (d.scramble sp off len).timing = d.timing := rfl
@[simp] theorem scramble_radio (d : Device) (sp off len : Nat) : (d.scramble sp off len).radio = d.radio := rfl
@[simp] theorem scramble_engines (d : Device) (sp off len : Nat) : (d.scramble sp off len).engines = d.engines := rfl
@[simp] theorem scramble_rteFenced (d : Device) (sp off len : Nat) : (d.scramble sp off len).rteFenced = d.rteFenced := rfl
@[simp] theorem scramble_rteSeq (d : Device) (sp off len : Nat) : (d.scramble sp off len).rteSeq = d.rteSeq := rfl
@[simp] theorem scramble_rteIn (d : Device) (sp off len : Nat) : (d.scramble sp off len).rteIn = d.rteIn := rfl
@[simp] theorem scramble_det (d : Device) (sp off len : Nat) : (d.scramble sp off len).det = d.det := rfl
@[simp] theorem scramble_fab (d : Device) (sp off len : Nat) : (d.scramble sp off len).fab = d.fab := rfl
@[simp] theorem scramble_colls (d : Device) (sp off len : Nat) : (d.scramble sp off len).colls = d.colls := rfl
@[simp] theorem scramble_ftp (d : Device) (sp off len : Nat) : (d.scramble sp off len).ftp = d.ftp := rfl
@[simp] theorem scramble_pwr (d : Device) (sp off len : Nat) : (d.scramble sp off len).pwr = d.pwr := rfl
@[simp] theorem scramble_sent (d : Device) (sp off len : Nat) : (d.scramble sp off len).sent = d.sent := rfl

/-! ### Registers after updates of other fields -/

@[simp] theorem rd_setQueue (d : Device) (q : Nat) (c : QueueCtx) (f : Fld) (i : Nat) : (d.setQueue q c).rd f i = d.rd f i := rfl
@[simp] theorem rd_setCore (d : Device) (n : Nat) (c : Core) (f : Fld) (i : Nat) : (d.setCore n c).rd f i = d.rd f i := rfl
@[simp] theorem rd_setCmd (d : Device) (c : Cmd) (f : Fld) (i : Nat) : (d.setCmd c).rd f i = d.rd f i := rfl
@[simp] theorem rd_setPage (d : Device) (p st : Nat) (f : Fld) (i : Nat) : (d.setPage p st).rd f i = d.rd f i := rfl
@[simp] theorem rd_setSeal (d : Device) (p : Nat) (b : Bool) (f : Fld) (i : Nat) : (d.setSeal p b).rd f i = d.rd f i := rfl
@[simp] theorem rd_store (d : Device) (sp off : Nat) (bs : List Byte) (f : Fld) (i : Nat) : (d.store sp off bs).rd f i = d.rd f i := rfl
@[simp] theorem rd_zero (d : Device) (sp off len : Nat) (f : Fld) (i : Nat) : (d.zero sp off len).rd f i = d.rd f i := rfl
@[simp] theorem rd_scramble (d : Device) (sp off len : Nat) (f : Fld) (i : Nat) : (d.scramble sp off len).rd f i = d.rd f i := rfl

/-! ### Writes under a key leave the cores -/

@[simp] theorem takeUnit_cores (d : Device) (key sp u : Nat) : (d.takeUnit key sp u).cores = d.cores := by
  unfold Device.takeUnit
  dsimp only
  split
  · rfl
  · split <;> rfl

@[simp] theorem poke_cores (d : Device) (key sp off : Nat) (bs : List Byte) : (d.poke key sp off bs).cores = d.cores := by
  unfold Device.poke
  rw [store_cores]
  split
  · generalize List.range ((off + bs.length + 31) / 32 - off / 32) = is
    induction is generalizing d with
    | nil => rfl
    | cons i is ih => rw [List.foldl_cons, ih, takeUnit_cores]
  · rfl

@[simp] theorem pokeN_cores (d : Device) (sp off n v : Nat) : (d.pokeN sp off n v).cores = d.cores := poke_cores _ _ _ _ _

end Sys2Proof.Machine
end

