-- ==== Sys2Proof/Laws/Memory.lean ====
section
/-! SUPPORT. Laws of memory: every memory operation keeps the canonical form, and a stored byte reads back while every other cell keeps its value. -/

namespace Sys2Proof.Machine

theorem Memory.wf_smSet (m : List Host.Cell) (c : Nat) (b : Byte) (h : Memory.wf m = true) : Memory.wf (smSet m c 0 b) = true :=
  smWf_smSet (fun _ => (0 : Byte)) m c b h

theorem storeCells_wf (bs : List Byte) (m : List Host.Cell) (c : Nat) (h : Memory.wf m = true) : Memory.wf (storeCells m c bs) = true := by
  induction bs generalizing m c with
  | nil => exact h
  | cons b bs ih => exact ih _ _ (Memory.wf_smSet m c b h)

theorem store_wf (d : Device) (sp off : Nat) (bs : List Byte) (h : Memory.wf d.mem = true) : Memory.wf (d.store sp off bs).mem = true :=
  storeCells_wf bs d.mem _ h

theorem zero_wf (d : Device) (sp off len : Nat) (h : Memory.wf d.mem = true) : Memory.wf (d.zero sp off len).mem = true :=
  smWf_smClear (fun _ => (0 : Byte)) d.mem _ _ h

theorem scramble_wf (d : Device) (sp off len : Nat) (h : Memory.wf d.mem = true) : Memory.wf (d.scramble sp off len).mem = true :=
  smWf_smClear (fun _ => (0 : Byte)) d.mem _ _ h

theorem takeUnit_wf (d : Device) (key sp u : Nat) (h : Memory.wf d.mem = true) : Memory.wf (d.takeUnit key sp u).mem = true := by
  unfold Device.takeUnit
  simp only
  split
  · exact h
  · split
    · exact h
    · exact store_wf d sp u _ h

theorem foldl_wf {β : Type} (f : Device → β → Device) (hf : ∀ d x, Memory.wf d.mem = true → Memory.wf (f d x).mem = true)
    (xs : List β) (d : Device) (h : Memory.wf d.mem = true) : Memory.wf (xs.foldl f d).mem = true := by
  induction xs generalizing d with
  | nil => exact h
  | cons x xs ih => exact ih _ (hf d x h)

theorem poke_wf (d : Device) (key sp off : Nat) (bs : List Byte) (h : Memory.wf d.mem = true) : Memory.wf (d.poke key sp off bs).mem = true := by
  unfold Device.poke
  apply store_wf
  split
  · exact foldl_wf _ (fun d x h => takeUnit_wf d key sp _ h) _ d h
  · exact h

theorem pokeN_wf (d : Device) (sp off n v : Nat) (h : Memory.wf d.mem = true) : Memory.wf (d.pokeN sp off n v).mem = true :=
  poke_wf d devKey sp off _ h

theorem setBit_wf (d : Device) (sp off i : Nat) (h : Memory.wf d.mem = true) : Memory.wf (d.setBit sp off i).mem = true :=
  poke_wf d devKey sp _ _ h

theorem markHost_wf (d : Device) (t off len : Nat) (h : Memory.wf d.mem = true) : Memory.wf (d.markHost t off len).mem = true := by
  unfold Device.markHost
  split
  · refine foldl_wf _ ?_ _ d h
    intro d x h
    simp only
    split
    · exact setBit_wf d _ _ _ h
    · exact h
  · exact h

theorem markDev_wf (d : Device) (t : Nat) (idx : Option Nat) (h : Memory.wf d.mem = true) : Memory.wf (d.markDev t idx).mem = true := by
  unfold Device.markDev
  cases idx with
  | none => exact h
  | some i =>
    dsimp only
    have key : ∀ e : Device, Memory.wf e.mem = true → Memory.wf (if e.on TEN_DLOG_CTL.enable t then
        e.setBit spT1 (e.rd TEN_DLOG_DBASE.base t * 4096 + (if e.on TEN_DLOG_CTL.b_active t then e.devMapBytes t else 0)) i
        else e).mem = true := by
      intro e he
      split
      · exact setBit_wf e _ _ _ he
      · exact he
    apply key
    split
    · exact h
    · exact h

theorem writeHost_wf (d : Device) (t off : Nat) (bs : List Byte) (h : Memory.wf d.mem = true) : Memory.wf (d.writeHost t off bs).mem = true := by
  unfold Device.writeHost
  split
  · exact h
  · exact markHost_wf _ _ _ _ (store_wf d _ _ _ h)

theorem writeLoc_wf (d : Device) (t : Nat) (l : Loc) (idx : Option Nat) (bs : List Byte) (h : Memory.wf d.mem = true) :
    Memory.wf (d.writeLoc t l idx bs).mem = true := by
  unfold Device.writeLoc
  split
  · exact writeHost_wf d t _ bs h
  · exact markDev_wf _ _ _ (poke_wf d _ _ _ bs h)

theorem poisonWrite_mem (d e : Device) (sp off len : Nat) (h : d.poisonWrite sp off len = some e) : e.mem = d.mem := by
  unfold Device.poisonWrite at h
  simp only at h
  split at h
  · cases h; rfl
  · cases h

/-- Perturbing legs leaves memory alone. -/
theorem perturb_mem (d : Device) (n : Nat) : (d.perturb n).mem = d.mem := by
  unfold Device.perturb
  split <;> rfl

theorem touchTS_mem (d : Device) (ga len : Nat) : (d.touchTS ga len).mem = d.mem := by
  have key : ∀ (f : Nat → Nat) (xs : List Nat) (d : Device), (xs.foldl (fun d i => d.perturb (f i)) d).mem = d.mem := by
    intro f xs
    induction xs with
    | nil => intro d; rfl
    | cons x xs ih => intro d; rw [List.foldl_cons, ih, perturb_mem]
  unfold Device.touchTS
  split
  · exact key _ _ _
  · rfl

/-- A write with translation keeps the canonical form. -/
theorem writeGA_wf (d : Device) (t ga : Nat) (bs : List Byte) (n : Notify) (h : Memory.wf d.mem = true) :
    Memory.wf (d.writeGA t ga bs n).1.mem = true := by
  unfold Device.writeGA
  have : ∀ (ps : List (Nat × Nat)) (acc : Device × Wr), Memory.wf acc.1.mem = true → Memory.wf (ps.foldl (fun (acc : Device × Wr) p =>
      let d := acc.1
      let piece := (bs.drop (p.1 - ga)).take p.2
      match d.meet t p.1 true with
      | .faults => (d, acc.2.join (.fault p.1))
      | .waits l =>
        ({ d with mm := { d.mm with held := d.mm.held ++
            [{ ch := d.crossingOf t p.1 l, ten := t, ga := p.1, write := true, data := piece, len := p.2, notify := n }] } },
         acc.2.join .waits)
      | .proceeds l idx =>
        match d.poisonWrite l.sp l.off p.2 with
        | none => (d, acc.2.join (.poison l))
        | some d => ((d.writeLoc t l idx piece).touchTS p.1 p.2, acc.2)) acc).1.mem = true := by
    intro ps
    induction ps with
    | nil => intro acc h; exact h
    | cons p ps ih =>
      intro acc h
      rw [List.foldl_cons]
      apply ih
      dsimp only
      split
      · exact h
      · exact h
      · split
        · exact h
        · rename_i e he
          rw [touchTS_mem]
          exact writeLoc_wf _ _ _ _ _ (by rw [poisonWrite_mem _ _ _ _ _ he]; exact h)
  exact this _ _ h

theorem reset_memory_wf : Memory.wf State.reset.dev.mem = true := rfl

/-! ### Reading what was written -/

/-- A cell outside the stored range keeps its byte. -/
theorem smGet_storeCells_outside (bs : List Byte) (m : List Host.Cell) (c k : Nat) (h : k < c ∨ c + bs.length ≤ k) :
    smGet (storeCells m c bs) k 0 = smGet m k 0 := by
  induction bs generalizing m c with
  | nil => rfl
  | cons b bs ih =>
    simp only [List.length_cons] at h
    rw [storeCells, ih _ _ (by omega), smGet_smSet_ne m (by omega)]

/-- A cell inside the stored range holds the byte stored there. -/
theorem smGet_storeCells_inside (bs : List Byte) (m : List Host.Cell) (c i : Nat) (h : i < bs.length) :
    smGet (storeCells m c bs) (c + i) 0 = bs[i] := by
  induction bs generalizing m c i with
  | nil => simp at h
  | cons b bs ih =>
    cases i with
    | zero => rw [storeCells, smGet_storeCells_outside _ _ _ _ (by omega)]; simp
    | succ i =>
      have := ih (smSet m c 0 b) (c + 1) i (by simpa using h)
      rw [storeCells]
      simpa [Nat.add_assoc, Nat.add_comm 1 i] using this

theorem inRange_iff (c lo n : Nat) : inRange c lo n = true ↔ lo ≤ c ∧ c < lo + n := by simp [inRange]

/-- A cell outside a written range stays in the unspecified range that held it. -/
theorem find_junkCut (js : List (Nat × Nat × Nat)) (lo n c : Nat) (h : c < lo ∨ lo + n ≤ c) :
    ((junkCut js lo n).find? fun j => inRange c j.1 j.2.1).map (fun j => j.2.2) = (js.find? fun j => inRange c j.1 j.2.1).map (fun j => j.2.2) := by
  induction js with
  | nil => rfl
  | cons j js ih =>
    rw [junkCut, List.flatMap_cons, List.find?_append]
    change Option.map _ (((_ : Option _).or ((junkCut js lo n).find? _))) = _
    rw [List.find?_cons]
    by_cases hj : inRange c j.1 j.2.1 = true
    · rw [hj]
      rw [inRange_iff] at hj
      rw [List.find?_append]
      rcases h with h | h
      · have h1 : j.1 < lo := by omega
        have : inRange c j.1 (min j.2.1 (lo - j.1)) = true := by rw [inRange_iff]; omega
        simp [h1, this]
      · have h1 : lo + n < j.1 + j.2.1 := by omega
        have h2 : inRange c (max j.1 (lo + n)) (j.1 + j.2.1 - max j.1 (lo + n)) = true := by rw [inRange_iff]; omega
        by_cases h3 : j.1 < lo
        · have h4 : inRange c j.1 (min j.2.1 (lo - j.1)) = false := by rw [← Bool.not_eq_true, inRange_iff]; omega
          simp [h1, h2, h3, h4]
        · simp [h1, h2, h3]
    · rw [Bool.not_eq_true] at hj
      rw [hj, ← ih]
      rw [← Bool.not_eq_true, inRange_iff] at hj
      have : ((if j.1 < lo then [(j.1, min j.2.1 (lo - j.1), j.2.2)] else []) ++
          (if lo + n < j.1 + j.2.1 then [(max j.1 (lo + n), j.1 + j.2.1 - max j.1 (lo + n), j.2.2)] else [])).find? (fun j => inRange c j.1 j.2.1) = none := by
        rw [List.find?_eq_none]
        intro x hx
        rw [inRange_iff]
        simp only [List.mem_append] at hx
        rcases hx with hx | hx <;> split at hx <;> simp at hx
        · subst hx; dsimp only; omega
        · subst hx; dsimp only; omega
      rw [this]; rfl

/-- A written cell is in no unspecified range. -/
theorem find_junkCut_in (js : List (Nat × Nat × Nat)) (lo n c : Nat) (h : lo ≤ c ∧ c < lo + n) :
    ((junkCut js lo n).find? fun j => inRange c j.1 j.2.1) = none := by
  rw [List.find?_eq_none]
  intro x hx
  rw [inRange_iff]
  simp only [junkCut, List.mem_flatMap, List.mem_append] at hx
  obtain ⟨j, -, hx⟩ := hx
  rcases hx with hx | hx <;> split at hx <;> simp at hx
  · subst hx; dsimp only; omega
  · subst hx; dsimp only; omega

/-- A store leaves every other byte as it was. -/
theorem raw_store_out (d : Device) (sp off : Nat) (bs : List Byte) (sp' o : Nat) (h : cellAt sp' o < cellAt sp off ∨ cellAt sp off + bs.length ≤ cellAt sp' o) :
    (d.store sp off bs).raw sp' o = d.raw sp' o := by
  have hf := find_junkCut d.junk (cellAt sp off) bs.length (cellAt sp' o) h
  have hm : smGet (storeCells d.mem (cellAt sp off) bs) (cellAt sp' o) 0 = smGet d.mem (cellAt sp' o) 0 := smGet_storeCells_outside _ _ _ _ h
  unfold Device.raw Device.store
  dsimp only
  rw [hm]
  generalize ((junkCut d.junk (cellAt sp off) bs.length).find? fun j => inRange (cellAt sp' o) j.1 j.2.1) = x at hf ⊢
  generalize (d.junk.find? fun j => inRange (cellAt sp' o) j.1 j.2.1) = y at hf ⊢
  cases x <;> cases y <;> simp_all

/-- A stored byte is there. -/
theorem raw_store_in (d : Device) (sp off : Nat) (bs : List Byte) (i : Nat) (h : i < bs.length) : (d.store sp off bs).raw sp (off + i) = bs[i] := by
  have hc : cellAt sp (off + i) = cellAt sp off + i := by simp [cellAt, Nat.add_assoc]
  unfold Device.raw Device.store
  dsimp only
  rw [hc, find_junkCut_in _ _ _ _ (by omega)]
  exact smGet_storeCells_inside bs d.mem _ i h

end Sys2Proof.Machine
end

