-- ==== Sys2Proof/Laws/Registers.lean ====
section
/-! SUPPORT. Laws of the register file: what a read of a field gives after a write of a field, and that nothing else of the device changes. -/

namespace Sys2Proof.Machine

/-! ### Bits of a register word -/

theorem fieldSet_testBit (x : Word) (lo w v j : Nat) (hj : j < 64) :
    (fieldSet x lo w v).getLsbD j = if lo ≤ j ∧ j < lo + w then v.testBit (j - lo) else x.getLsbD j := by
  unfold fieldSet
  rw [BitVec.getLsbD_or, BitVec.getLsbD_and, BitVec.getLsbD_not, BitVec.getLsbD_ofNat, BitVec.getLsbD_ofNat,
    Nat.testBit_shiftLeft, Nat.testBit_shiftLeft, Nat.testBit_two_pow_sub_one, Nat.testBit_mod_two_pow]
  by_cases h1 : lo ≤ j
  · by_cases h2 : j < lo + w
    · have h3 : j - lo < w := by omega
      simp [hj, h1, h2, h3]
    · have h3 : ¬ (j - lo < w) := by omega
      simp [hj, h1, h2, h3]
  · simp [hj, h1]

/-- The field just written reads back, cut to its width. -/
theorem fieldGet_fieldSet_self (x : Word) (lo w v : Nat) (h : lo + w ≤ 64) : fieldGet (fieldSet x lo w v) lo w = v % 2 ^ w := by
  unfold fieldGet
  apply Nat.eq_of_testBit_eq
  intro j
  rw [Nat.testBit_mod_two_pow, Nat.testBit_mod_two_pow, Nat.testBit_shiftRight]
  by_cases hj : j < w
  · have h64 : lo + j < 64 := by omega
    have := fieldSet_testBit x lo w v (lo + j) h64
    rw [BitVec.testBit_toNat, this]
    simp [hj]
  · simp [hj]

/-- A field that shares no bit with the one written keeps its value. -/
theorem fieldGet_fieldSet_disjoint (x : Word) (lo w v lo' w' : Nat) (hd : lo + w ≤ lo' ∨ lo' + w' ≤ lo) (h : lo' + w' ≤ 64) :
    fieldGet (fieldSet x lo w v) lo' w' = fieldGet x lo' w' := by
  unfold fieldGet
  apply Nat.eq_of_testBit_eq
  intro j
  rw [Nat.testBit_mod_two_pow, Nat.testBit_mod_two_pow, Nat.testBit_shiftRight, Nat.testBit_shiftRight]
  by_cases hj : j < w'
  · have h64 : lo' + j < 64 := by omega
    have := fieldSet_testBit x lo w v (lo' + j) h64
    rw [BitVec.testBit_toNat, BitVec.testBit_toNat, this]
    have : ¬ (lo ≤ lo' + j ∧ lo' + j < lo + w) := by omega
    simp [this]
  · simp [hj]

/-! ### Registers -/

theorem allRegs_code (r : Reg) : allRegs[r.code]? = some r := by cases r <;> rfl

theorem Reg.code_inj {r r' : Reg} (h : r.code = r'.code) : r = r' := by
  have h1 := allRegs_code r
  rw [h, allRegs_code r'] at h1
  exact (Option.some.inj h1).symm

theorem regKey_ne {r r' : Reg} {i i' : Nat} (hi : i < 4096) (hi' : i' < 4096) (h : r ≠ r') : regKey r i ≠ regKey r' i' := by
  intro he
  unfold regKey at he
  exact h (Reg.code_inj (by omega))

theorem regKey_ne_idx (r : Reg) {i i' : Nat} (h : i ≠ i') : regKey r i ≠ regKey r i' := by
  unfold regKey; omega

@[simp] theorem reg_setReg_self (d : Device) (r : Reg) (i : Nat) (v : Word) : (d.setReg r i v).reg r i = v := by
  simp [Device.reg, Device.setReg]

theorem reg_setReg_idx (d : Device) (r : Reg) {i i' : Nat} (h : i' ≠ i) (v : Word) : (d.setReg r i v).reg r i' = d.reg r i' := by
  simp only [Device.reg, Device.setReg]
  exact smGet_smSet_ne d.regs (regKey_ne_idx r h) _ _ _

theorem reg_setReg_ne (d : Device) {r r' : Reg} {i i' : Nat} (hi : i < 4096) (hi' : i' < 4096) (h : r' ≠ r) (v : Word) :
    (d.setReg r i v).reg r' i' = d.reg r' i' := by
  simp only [Device.reg, Device.setReg]
  exact smGet_smSet_ne d.regs (regKey_ne hi' hi h) _ _ _

/-- The field just written reads back, cut to its width. -/
theorem rd_wr_self (d : Device) (f : Fld) (i v : Nat) (h : f.lo + f.width ≤ 64) : (d.wr f i v).rd f i = v % 2 ^ f.width := by
  simp only [Device.rd, Device.wr, reg_setReg_self]
  exact fieldGet_fieldSet_self _ _ _ _ h

/-- Another field of the same register keeps its value. -/
theorem rd_wr_field (d : Device) (f g : Fld) (i v : Nat) (hr : g.reg = f.reg)
    (hd : f.lo + f.width ≤ g.lo ∨ g.lo + g.width ≤ f.lo) (h : g.lo + g.width ≤ 64) : (d.wr f i v).rd g i = d.rd g i := by
  simp only [Device.rd, Device.wr, hr, reg_setReg_self]
  exact fieldGet_fieldSet_disjoint _ _ _ _ _ _ hd h

/-- The same register at another index keeps its value. -/
theorem rd_wr_idx (d : Device) (f g : Fld) {i i' : Nat} (v : Nat) (hr : g.reg = f.reg) (hi : i' ≠ i) : (d.wr f i v).rd g i' = d.rd g i' := by
  simp only [Device.rd, Device.wr, hr]
  rw [reg_setReg_idx d f.reg hi]

/-- Another register keeps its value. -/
theorem rd_wr_reg (d : Device) (f g : Fld) {i i' : Nat} (v : Nat) (hi : i < 4096) (hi' : i' < 4096) (hr : g.reg ≠ f.reg) :
    (d.wr f i v).rd g i' = d.rd g i' := by
  simp only [Device.rd, Device.wr]
  rw [reg_setReg_ne d hi hi' hr]

end Sys2Proof.Machine
end

