-- ==== Sys2Proof/Laws/Steps.lean ====
section
/-! SUPPORT. Once for all commands: the guard of a register write, and the start of a queue's front entry. -/

namespace Sys2Proof.Machine

/-- A register write that reaches its register has its body's effect. -/
theorem via_of_reaches {d : Device} {fn : Nat} {r : Reg} {f : Device → Device} (h : d.reaches fn r = true) : Device.via fn r f d = f d := by
  simp only [Device.reaches, Bool.and_eq_true, Bool.not_eq_true'] at h
  obtain ⟨⟨h1, h2⟩, h3⟩ := h
  simp only [Device.via, h1, h2, h3]
  rfl

/-- A register write that does not reach its register changes nothing. -/
theorem via_of_not_reaches {d : Device} {fn : Nat} {r : Reg} {f : Device → Device} (h : d.reaches fn r = false) : Device.via fn r f d = d := by
  unfold Device.via
  split
  · rfl
  · rename_i hn
    simp only [Bool.or_eq_true, Bool.not_eq_true', not_or, Bool.not_eq_true, Bool.not_eq_false] at hn
    simp [Device.reaches, hn.1.1, hn.1.2, hn.2] at h

theorem fnAwake_of_reaches {d : Device} {fn : Nat} {r : Reg} (h : d.reaches fn r = true) : d.fnAwake fn = true := by
  simp only [Device.reaches, Bool.and_eq_true] at h; exact h.1.1

/-- The front entry of a queue that has the opcode and passes its checks has its command's own effect, and what stands behind it is looked at. -/
theorem begin_of_starts {d : Device} {q op : Nat} {x : Nat × List Byte} {g : List Byte → Bool} {k : Device → Cmd → Device}
    (h : d.starts q op x = true) (hg : g x.2 = true) :
    d.begin q op g k = (k (d.startFront q x).1 (d.startFront q x).2).settle q := by
  simp only [Device.starts, Bool.and_eq_true, beq_iff_eq, Bool.not_eq_true'] at h
  obtain ⟨⟨⟨⟨h1, h2⟩, h3⟩, h4⟩, h5⟩ := h
  unfold Device.begin
  simp only [h1, h2, h3, h4, hg, ne_eq, not_true_eq_false, Bool.not_true, decide_false, Bool.or_self, Bool.false_eq_true, if_false]
  cases hz : smGet (d.startFront q x).1.ftp.double (d.startFront q x).2.ten 0 with
  | zero => rfl
  | succ e => simp_all

/-- An operation of a leg that goes on leaves the leg it answers on the core. -/
theorem legAct_go {d e : Device} {n : Nat} {l m : Leg} {f : Device → Leg → LegRes} (h : (d.core n).leg = some l) (hf : f d l = .go e m) :
    d.legAct n f = e.putLeg n m := by simp [Device.legAct, h, hf, Device.putLeg]

/-- An operation of a leg that stops it. -/
theorem legAct_stop {d e : Device} {n st op addr : Nat} {l m : Leg} {f : Device → Leg → LegRes} (h : (d.core n).leg = some l)
    (hf : f d l = .stop e m st op addr) : d.legAct n f = e.stopLeg n m st op addr := by simp [Device.legAct, h, hf]

/-- What a leg does in a cycle it comes to. -/
theorem legAt_go {d d' e : Device} {n first c : Nat} {cyc : Option Nat} {l l' m : Leg} {f : Device → Leg → LegRes} (h : d.acts n first c l d' l')
    (hc : cyc.getD (max l.count first) = c) (hf : f d' l' = .go e m) : d.legAt n first cyc f = e.putLeg n m := by
  obtain ⟨h1, h2, h3, h4, h5, h6⟩ := h
  refine legAct_go h1 ?_
  have hg : (decide (c < first) || decide (c < l.count) || decide (4 * l.bound ≤ c) || d.withheld n l) = false := by
    simp [h2, h3, h4, h5]
  simp only [hc, hg, Bool.false_eq_true, if_false, h6, hf]

/-- The same, where the operation stops the leg. -/
theorem legAt_stop {d d' e : Device} {n first c st op addr : Nat} {cyc : Option Nat} {l l' m : Leg} {f : Device → Leg → LegRes}
    (h : d.acts n first c l d' l') (hc : cyc.getD (max l.count first) = c) (hf : f d' l' = .stop e m st op addr) :
    d.legAt n first cyc f = e.stopLeg n m st op addr := by
  obtain ⟨h1, h2, h3, h4, h5, h6⟩ := h
  refine legAct_stop h1 ?_
  have hg : (decide (c < first) || decide (c < l.count) || decide (4 * l.bound ≤ c) || d.withheld n l) = false := by
    simp [h2, h3, h4, h5]
  simp only [hc, hg, Bool.false_eq_true, if_false, h6, hf]

/-- A sequencer instruction of a leg that issues. -/
theorem seqAct_go {d d' e : Device} {n c : Nat} {l l' m : Leg} {cyc : Option Nat} {f : Device → Leg → LegRes} (h : d.issues n c l d' l')
    (hc : cyc.getD (max l.count (d.rd COR_TIMING.leg_start n)) = c) (hf : f d' l' = .go e m) : d.seqAct n cyc f = e.putLeg n m := by
  refine legAt_go h.1 hc ?_
  rw [if_neg (by simp [h.2.1, h.2.2.1, h.2.2.2.1, h.2.2.2.2])]
  exact hf

/-- A sequencer instruction that need not stall. -/
theorem seqStall_go {d d' e : Device} {n c : Nat} {l l' m : Leg} {code : List Nat} {f : Device → Leg → Option LegRes} (h : d.issues n c l d' l')
    (hc : max l.count (d.rd COR_TIMING.leg_start n) = c) (hf : f d' l' = some (.go e m)) : d.seqStall n code f = e.putLeg n m := by
  have hl : ({ l' with stall := none } : Leg) = l' := by rw [← h.2.2.2.2]
  refine legAt_go h.1 hc ?_
  rw [if_neg (by simp [h.2.1, h.2.2.1, h.2.2.2.1, h.2.2.2.2])]
  unfold stallOp
  rw [hl, hf]

/-- A signal-lane instruction of a leg whose lane issues. -/
theorem laneAct_go {d d' e : Device} {n c : Nat} {l l' m : Leg} {f : Device → Leg → LegRes} (h : d.laneIssues n c l d' l')
    (hf : f d' l' = .go e m) : d.laneAct n c f = e.putLeg n (m.laneOn c) := by
  refine legAt_go h.1 rfl ?_
  rw [if_neg (by simp only [h.2.1, h.2.2.1, Nat.not_lt.2 h.2.2.2.1, h.2.2.2.2]; simp), hf]
  rfl

/-- An operation of the security root that the PF names while none runs: its result is taken from the body and waits for the operation's end. -/
theorem secOp_go {d a : Device} {value op : Nat} {body : Device → Nat → Device × Nat × Nat} (hw : d.fnAwake 0 = true) (ho : bits value 3 0 = op)
    (hb : (d.secAck value).on SEC_OP_CTL.busy 0 = false) (ha : a = (d.secAck value).wr SEC_OP_CTL.tenancy 0 (bits value 13 8)) :
    d.secOp 0 value op body = (body a (bits value 13 8)).1.secPend
      { op := op, ten := bits value 13 8, code := (body a (bits value 13 8)).2.1, scope := (body a (bits value 13 8)).2.2 } := by
  subst ha
  simp [Device.secOp, hw, ho, hb]

/-- A datagram to this device within its window is answered with what serving it answers. -/
theorem mgtDatagram_go {d a e : Device} {seq mac st : Nat} {ip : Option Nat} {r : MgtReq} {data : List Byte} (hm : d.on MGT_CFG.m0_en 0 = true) (hf : d.aofUp = true)
    (hi : d.mgtAddressed ip = true) (hw : (d.inWindow d.pwr.mgtWin).2 = false)
    (ha : a = { d with pwr := { d.pwr with mgtWin := (d.inWindow d.pwr.mgtWin).1 } }) (hs : a.mgtServe (some mac) r = (e, st, data)) :
    mgtDatagram seq mac ip r d = { e with sent := .mgt false (r.answer e seq st data) :: e.sent } := by
  unfold mgtDatagram
  simp only [hm, hf, hi, hw, Bool.not_true, Bool.or_self, Bool.false_eq_true, if_false, ← ha, hs]

/-- What is no control request is carried out for anyone. -/
theorem mgtServe_read {d : Device} {mac : Option Nat} {r : MgtReq} (h : r.control = false) : d.mgtServe mac r = d.mgtDo mac.isNone r := by
  simp [Device.mgtServe, h]

/-- A control request is carried out where it may act. -/
theorem mgtServe_control {d : Device} {mac : Option Nat} {r : MgtReq} (h : d.mgtAllowed mac = true) : d.mgtServe mac r = d.mgtDo mac.isNone r := by
  simp [Device.mgtServe, h]

end Sys2Proof.Machine
end

