-- ==== Sys2Proof/Machine/HostRead.lean ====
section
/-! DEFINITION. What a read of the host answers: registers by function, the record windows, MSI-X structures, reserved offsets, and the doorbell pages (R3, R7, R10,
R11, R127, R180, R192, R444, R463, R526–R529). A read has no effect but those of the rows NOW_S_READ, CAPTURE_READ and BAR0_BAD_ACCESS. -/

namespace Sys2Proof.Machine

/-- Registers indexed by carrier, and those indexed by tenancy; a tenancy's core set takes three entries (Table 19-2). -/
def Reg.byCarrier (r : Reg) : Bool := decide (Reg.RAD_CAR_CFG.code ≤ r.code) && decide (r.code ≤ Reg.RAD_CAR_STAT.code)
def Reg.byTenancy (r : Reg) : Bool := !r.byCarrier && r.layout.2.2 == 64
def Reg.byQueue (r : Reg) : Bool := r.layout.2.2 == 4096

/-- Whether a function sees an entry of a register; tenancy 0 sees all (R444). -/
def Device.mayRead (d : Device) (fn : Nat) (r : Reg) (i : Nat) : Bool :=
  fn == 0 || decide (r.layout.1 < 0x80000) || inRange r.layout.1 0xD00000 0x100000 ||
  (r.byTenancy && i == fn) || (r == .TEN_CORES && i / 3 == fn) || (r.byQueue && d.qTen i == fn) || (r.byCarrier && d.rd RAD_CAR_CFG.owner i == fn) ||
  (r == .RAD_FLOW_STAT && d.rd RAD_CAR_CFG.owner (d.rd RAD_FLOW_CFG.carrier i) == fn)

/-- The 8 bytes at an offset of a record window: the fault log's 4,096 records, the telemetry's 6,000 (R527). -/
def Device.windowWord (d : Device) (off : Nat) : Option Nat :=
  if inRange off 0xE80000 0x40000 then some (leAt (d.logBytes ((off - 0xE80000) / 64) 1) (off % 64) 8)
  else if inRange off 0x1310000 0xBB800 then some (leAt (d.telemBytes ((off - 0x1310000) / 128) 1) (off % 128) 8)
  else none

/-- The 4 bytes at an offset of a function's MSI-X structures: an entry's address, data and mask bit, or 32 pending bits; a reserved entry is 0 (R451, R528). -/
def Device.msixRead4 (d : Device) (fn off : Nat) : Nat :=
  let vec (n : Nat) : Vec := smGet d.msix (fn * 4096 + n) {}
  if 0x8000 ≤ off then maskOf 32 fun b => let n := 8 * (off - 0x8000) + b; decide (n < d.vectors fn) && (vec n).pending
  else if 16 * d.vectors fn ≤ off then 0
  else
    let e := vec (off / 16)
    match off % 16 / 4 with
    | 0 => e.addr % 2 ^ 32
    | 1 => e.addr / 2 ^ 32
    | 2 => e.data
    | _ => b2n e.masked

/-- The 8 bytes at an offset of BAR0 that is a multiple of 8, as a function sees them: 0 at a reserved offset, and of what is not open to a VF (R444, R528). -/
def Device.bar0Word (d : Device) (fn off : Nat) : Nat :=
  if inRange off 0x3800000 0x8100 then d.msixRead4 fn (off - 0x3800000) + d.msixRead4 fn (off - 0x3800000 + 4) <<< 32
  else
    match d.windowWord off with
    | some w => if fn = 0 then w else 0
    | none => match regAt off with
      | some (r, i) => if d.mayRead fn r i then d.regRead fn r i else 0
      | none => 0

/-- Whether a BAR0 offset answers at all in the device's present state: all of it in service; GEN, RAS, PWR and MGT, with SEC in recovery, while the device starts or is
unserviceable (R463, R469, Table 1-5). -/
def Device.answersAt (d : Device) (off : Nat) : Bool :=
  let up := decide (off < 0x80000) || inRange off 0xE00000 0x100000 || inRange off 0x1200000 0x200000
  up || (if d.rd PWR_STATE_STAT.state 0 = 4 then d.on SEC_BOOT_STAT.recovery 0 && inRange off 0x1100000 0x100000 else !d.unserviceable)

/-- What a function's read of BAR0 answers; none where nothing answers, or the manual gives no value. Of a wrong size or place all ones (R11). -/
def Device.bar0Read (d : Device) (fn off size : Nat) : Option Nat :=
  if !d.fnAwake fn || d.hostDown then none
  else if !(size == 4 || size == 8) || off % size ≠ 0 then some (2 ^ (8 * size) - 1)
  else if !d.answersAt off then none
  else some (d.bar0Word fn (off / 8 * 8) / 2 ^ (8 * (off % 8)) % 2 ^ (8 * size))

/-- What a read of a doorbell page answers: the last value accepted, and 0 at another offset (R127). -/
def Device.doorbellRead (d : Device) (q off : Nat) : Nat := if off = 0 then (d.queue q).tail else if off = 8 then (d.queue q).cqHead else 0

end Sys2Proof.Machine
end

