-- ==== Sys2Proof/Tests/Slice0.lean ====
section
/-! SUPPORT. Tests: ill-formed commands that the check refuses, and for every statement with hypotheses a state and operands that meet them. -/

set_option Elab.async false

namespace Sys2Proof.Tests
open Sys2Proof Sys2Proof.Machine

/-- A submission entry of class Prompt with an opcode, its operation bytes and nothing else set. -/
def entryOf (op : Nat) (rest : List Nat) : List Byte :=
  ([op, 0, 7, 0] ++ List.replicate 20 0 ++ [0, 0, 16, 0] ++ rest ++ List.replicate (36 - rest.length) 0).map (BitVec.ofNat 8)

/-- A state with one Running queue of class Prompt whose front entry is given, on a device otherwise as d. -/
def queued (d : Device) (q : Nat) (e : List Byte) : State :=
  { dev := { (d.wr QUE_STAT.state q 1).wr QUE_CFG.class_mask q 3 with queues := [(q, { fetched := [(0, e)] })] } }

/-- A device on which tenancy 0 has one page of tier 1: virtual page 0 is physical page 1, written through table page 2. -/
def mapped : Device :=
  ((({} : Device).wr MEM_XT_BASE.base 0 2).wr MEM_XT_BASE.enable 0 1).wr MEM_XT_CFG.t1_pages 0 1 |>.store spT1 (2 * pageSize) [1, 0, 0, 0, 0, 0, 0, 0xC0]

/-- A device whose tier 1 holds, in the page of `mapped`, some bytes at an offset. -/
def holding (off : Nat) (bs : List Nat) : Device := mapped.store spT1 (pageSize + off) (bs.map (BitVec.ofNat 8))

/-- A group table of two devices, this one at rank 0, followed 64 bytes on by an empty dispatch block of rows of 64 bytes. -/
def grouped : Device :=
  ((holding 0 ([1, 0, 2, 0] ++ List.replicate 60 0 ++ [0, 0, 1, 0])).store spT1 (pageSize + 128)
    ((List.replicate 32 0 ++ [0, 16] ++ List.replicate 22 0 ++ [64, 0, 0, 0, 1, 0, 0, 0]).map (BitVec.ofNat 8)))

/-- A manifest image of one leg in host memory of function 0 at 0: header, leg table, resource block, no code. -/
def imageBytes : List Byte :=
  ([0x46, 0x4D, 0x60, 0x09, 1, 0, 3, 7, 5, 0, 0, 0, 0x80, 1, 0, 0, 1, 0, 0, 0, 128, 0, 0, 0, 0, 1, 0, 0, 0, 1, 0, 0, 0x80, 1, 0, 0, 0, 0, 0, 0] ++
    List.replicate 88 0 ++ [26, 0, 0, 0, 4, 0, 0, 0, 0, 0, 255, 255, 255, 255] ++ List.replicate 114 0 ++ [1, 0] ++ List.replicate 126 0).map (BitVec.ofNat 8)

/-- What the group table of `grouped` makes of a collective of a kind. -/
def collOf (k : Nat) (ops : List Nat) : Coll :=
  { sn := 1, ten := 0, cls := 1, client := 0, step := 0, kind := k, desc := (entryOf 3 ops).drop 28, gid := 1, seq := 0, rank := 0, devs := [0, 1], fixed := false }


/-- A leg of tenancy 0 and class Prompt with bound 100 that has just started, its signal lane running. -/
def aLeg : Leg :=
  { freshLeg 1 ⟨1, 0, [100, 0, 0, 0] ++ List.replicate 28 0 ++ mkTag 0 1 0 0 0 0 ++ List.replicate 16 0, none, false, 0, 0, false, 0⟩ with lane := { running := true } }

/-- The same leg in a cycle. -/
def aLegAt (c : Nat) : Leg := { aLeg with count := c }

/-- A device on which core n, its granules all of tenancy 0, is Running the leg l. -/
def running (n : Nat) (l : Leg) : Device := { (({} : Device).setReg .COR_TSPART n 0xBC00).setCoreSt n 4 with cores := [(n, { leg := some l })] }

/-- A pass of four K-steps of INT8 on a cube, everything else of its descriptor 0. -/
def aPass (u : Nat) : PassDesc :=
  { cube := u, fmt := .int8, n := 4, form := 0, token := none, shareA := false, shareB := false, a := 0, b := 0, aScale := 0, bScale := 0, rowBase := 0, colScale := 0,
    bias := 0, dest := 0, destExp := 0, towCore := 0, towDev := 0, towTok := none, band := 0, colTile := 0, lastTile := false, rowMask := 0, trailAddr := 0, trailTok := none }

/-- A copy of 128 bytes within the page of `mapped`, in two chunks. -/
def aXfer (k : Nat) : Xfer :=
  { kind := k, sn := 0, queue := 0, ten := 0, cls := 1, client := 0, step := 0, mid := 0, src := 0, dst := 65536, len := 128, chunk := 64, issued := 2 }

/-- A device with a transfer on a channel in a state. -/
def moving (ch st : Nat) (x : Xfer) : Device := { ((mapped.wr MEM_CHAN_STAT.state ch st).wr MEM_FILL_STAT.t2_done 0 1) with mm := { chans := [(ch, x)] } }

/-- A taste record of core 7 placed on its tasting core. -/
def aTaste : Taste :=
  { id := 0, core := 7, cube := 3, sn := 0, ten := 0, mid := 0, leg := 0, fmt := .int8, pass := { desc := aPass 3, num := 0, cube := 3 }, form := [], part := none, scales := [], out := [], sums := [],
    die := 0, temp := 0, volt := 0, placed := true }

/-- A device with carrier 0 enabled on port 0, whose link is up, no doubt, t nanoseconds after its slot 0 began. -/
def aCarrier (t : Nat) : Device :=
  { (((((({} : Device).wr RAD_CAR_CFG.enable 0 1).wr RAD_CAR_CFG.prbs 0 1).wr RAD_CAR_FH.tagged 0 0).wr RAD_PORT_CFG.speed 0 1).wr RAD_PORT_STAT.link_up 0 1).wr PWR_STATE_STAT.state 0 0 with
    timing := { doubtFrom := none }, pwr := { gated := false }, time := 45498933936 * 1000000000 + 144 * t }

/-- A U-plane frame of slot 0, symbol 0, one PRB, with nothing in it. -/
def aFrame : FhFrame :=
  { etherType := 0xAEFE, udpPort := none, vid := none, mt := 0, eaxc := 0, seq := 0, slot := 0, sym := 0, startPrb := 0, numPrb := 1, payload := [], len := 64 }

/-- A route or blend of tenancy 0 and manifest 1 with a descriptor's first bytes. -/
def aRoute (b : List Nat) : Route :=
  { desc := (b ++ List.replicate (128 - b.length) 0).map (BitVec.ofNat 8), core := 0, serial := 0, tok := 0, leg := 0, ten := 0, mid := 1, sn := 1, fixed := false, started := 0 }

/-- A device whose engine 0 holds a route in context 0, its channel active. -/
def routing (r : Route) : Device := { mapped.wr MEM_CHAN_STAT.state 192 1 with engines := [(0, { sn := 1, route := some r })] }

/-- A route of one token to one expert with one destination of capacity 1: home table at 0, scratch area at 128, lists at 256 and 512, status record at 1024; its only tile has arrived. -/
def aSorted : Route :=
  { aRoute ([1, 0, 1, 1, 1, 0, 1, 0, 1, 0, 0, 0, 0, 0, 0, 0, 0, 0, 128, 63, 1] ++ List.replicate 19 0 ++ [128, 0, 0, 0, 0, 0, 0, 0, 0, 1, 0, 0, 0, 0, 0, 0, 0, 2] ++ List.replicate 22 0 ++ [0, 4]) with
    tiles := [⟨0, 0, 0, List.replicate 64 0⟩], bias := some [] }

/-- The device on which `aSorted` runs, its home table written. -/
def sorting : Device :=
  { (holding 0 ([0, 0, 1] ++ List.replicate 64 0 ++ [16])).wr MEM_CHAN_STAT.state 192 1 with engines := [(0, { sn := 1, route := some aSorted })] }

/-- A blend of one token, rank 1, 32 elements: combine list at 0, returned rows at 64, output at 256, status record at 1024. -/
def aBlend : Route :=
  aRoute ([2, 0, 1, 0, 32, 0, 0, 0, 1, 0, 0, 0, 1, 0, 0, 0] ++ List.replicate 8 0 ++ [64, 0, 0, 0, 0, 0, 0, 0, 0, 1, 0, 0, 0, 0, 0, 0, 0, 4])

/-- A packet of an op from device 1 to device 0, FT0 on path 0, unit 0, request 0, under a tag of tenancy 0 and kind 4. -/
def aPacket (op seq ga len : Nat) (pl : List Byte) : List Byte := pktHeader 0 1 op 0 0 0 0 seq 0 0 ga len 0 ++ mkTag 0 1 0 4 0 0 ++ pl ++ List.replicate 16 0

/-- What the checks make of it. -/
def aPkt (op seq ga len : Nat) (pl : List Byte) : Pkt :=
  { src := 1, op := op, path := 0, cls := 0, code := 0, seq := seq, unit := 0, reqId := 0, ga := ga, len := len, epoch := 0, tag := mkTag 0 1 0 4 0 0, payload := pl }

/-- An unanswered request to device 1, of no one's. -/
def aReq (op : Nat) : Req :=
  { id := 1, op := op, dst := 1, path := 0, cls := 0, seq := some 0, unit := 0, reqId := 0, ga := 2 ^ 52, len := 8, tag := mkTag 0 1 0 4 0 0, payload := [], sn := 0, who := .ftp 0 0, sent := 1 }

/-- A device of an epoch with device 1, which has left a request unanswered. -/
def asking (op : Nat) : Device := { mapped with fab := { members := [1], reqs := [aReq op] } }

/-- A request of device 1 that waits here. -/
def aTReq : TReq :=
  { src := 1, path := 0, cls := 1, op := 1, code := 0, seq := 0, unit := 0, reqId := 0, ga := 0, len := 8, tag := mkTag 0 1 0 4 0 0, payload := [], arrived := 0 }

/-- A CRC-64 has 64 bits. -/
theorem crc64_lt (bs : List Byte) : crc64 bs < 2 ^ 64 := by
  have key : ∀ (xs : List Bool) (r : Nat), r < 2 ^ 64 → crcBits 64 0x42F0E1EBA9EA3693 r xs < 2 ^ 64 := by
    intro xs
    induction xs with
    | nil => intro r h; exact h
    | cons b bs ih =>
      intro r _
      apply ih
      have h1 : 2 * r % 2 ^ 64 < 2 ^ 64 := Nat.mod_lt _ (by decide)
      split
      · exact Nat.xor_lt_two_pow h1 (by decide)
      · exact h1
  exact Nat.xor_lt_two_pow (key _ _ (by decide)) (by decide)

/-- Metadata of a shadow with nothing in its tables. -/
def anInfo : ShadowMeta := { step := 3, xt := [], land := [], events := [], batchTab := [], batch := {} }

/-- A device of tenancy 0 with a generation of step 3 under way, its partner device 1. -/
def shadowing (left : List (Nat × Nat)) : Device := { (({} : Device).wr FTP_PARTNER.valid 0 1).wr FTP_PARTNER.partner 0 1 with ftp := { gens := [(0, ⟨3, left.map (fun p => p.1), left, left.length, anInfo⟩)] } }

/-- A device that hosts guest 2 on two pages. -/
def hosting : Device := (((({} : Device).wr FTP_SHADOW_HOST.valid 3 1).wr FTP_SHADOW_HOST.guest 3 2).wr FTP_SHADOW_HOST.pages 3 2).wr FTP_SHADOW_HOST.base_page 3 7

/-- A device with some bytes at 0 of function 0's host memory. -/
def told (bs : List Byte) : Device := ({} : Device).store (spHost 0) 0 bs

/-- An owner's record that nothing has signed: Table 16-4's magic number, an owner key of zeros. -/
def anOwner : List Byte := (0x57 : Byte) :: 0x4F :: 0x60 :: 0x09 :: List.replicate 1084 0

/-- A fabric key of generation 1 for tenancy 5, wrapped under an owner key of zeros (Table 16-5). -/
def aWrap : List Byte :=
  let h : List Byte := [0x4B, 0x46, 0x60, 0x09, 5, 0, 0, 0, 1, 0, 0, 0]
  h ++ List.replicate 44 0 ++ (gcmUnseal (List.replicate 32 0) (List.replicate 12 0) h (List.replicate 32 0)).2

/-- A prime modulus, and a debug token for the owner who holds it: scope 1, serial 0, nonce 1 (Table 16-6). -/
def aModulus : List Byte := toBE 512 (2 ^ 1040 + 387)
def aToken : List Byte :=
  ([0x54, 0x44, 0x60, 0x09, 1, 1] ++ List.replicate 10 0 ++ [1] ++ List.replicate 47 0).map (BitVec.ofNat 8) ++ aModulus ++
    toBE 512 0x7f4cf756c69fadc2c04deb325616985ecb09fe0b1d42538b1dfb27ec03b272d065d37faec50f48c90521b08a0602eed85714c88a86cc3f31ae0609d642c67ff9097b06ed936c0f7fe55ef909b5758275e804cdd89a7034690c4e60a34437ec11917c76e9249e8b3024ff0a57a4a56ce511c8b79cf312490b5f5574723681a4f7a8ee

/-- The acknowledged results of SEC_OP_CTL touch no memory. -/
theorem secAck_mem (d : Device) (v : Nat) : (d.secAck v).mem = d.mem ∧ (d.secAck v).junk = d.junk := by
  unfold Device.secAck
  split <;> split <;> exact ⟨rfl, rfl⟩

/-- The blob of an operation of the security root is what was put at 0. -/
theorem secBlob_told {d : Device} (v x : Nat) (f : Fld) (bs : List Byte) {n : Nat} (hn : n = bs.length) (hm : d.mem = (told bs).mem) (hj : d.junk = [])
    (ha : ((d.secAck v).wr f 0 x).rd SEC_OP_ADDR.addr 0 = 0) : ((d.secAck v).wr f 0 x).secBlob 0 n = some bs := by
  subst hn
  have hm' : ((d.secAck v).wr f 0 x).mem = (told bs).mem := (secAck_mem d v).1.trans hm
  have hj' : ((d.secAck v).wr f 0 x).junk = [] := (secAck_mem d v).2.trans hj
  generalize (d.secAck v).wr f 0 x = e at ha hm' hj'
  simp only [Device.secBlob, if_true, ha, Nat.zero_mul, Option.some.injEq, Device.peek]
  refine List.ext_getElem (by simp) fun i h1 h2 => ?_
  simp only [List.getElem_map, List.getElem_range, Nat.zero_add]
  have he : encrypted (spHost 0) = false := rfl
  simp only [Device.readB, he, Bool.false_eq_true, if_false, Device.raw, hj', List.find?_nil, hm']
  have hc : cellAt (spHost 0) i = cellAt (spHost 0) 0 + i := by simp [cellAt]
  rw [hc]
  exact smGet_storeCells_inside bs [] _ i h2

/-- A device with an owner and a nonce of 1. -/
def owned (d : Device) : Device := { d.wr SEC_DBG_NONCE.nonce 0 1 with pwr := { owners := [(aModulus, List.replicate 32 0)] } }
theorem owned_mem (bs : List Byte) : (owned (told bs)).mem = (told bs).mem ∧ (owned (told bs)).junk = [] := ⟨rfl, rfl⟩

/-- A device at step 2 of start-up, in recovery. -/
def inRecovery (d : Device) : Device :=
  { ((d.wr SEC_BOOT_STAT.recovery 0 1).wr PWR_STATE_STAT.state 0 4).wr PWR_START_STAT.step 0 2 with pwr := { gated := false, perst := false, held := false } }
theorem inRecovery_mem (bs : List Byte) : (inRecovery (told bs)).mem = (told bs).mem ∧ (inRecovery (told bs)).junk = [] := ⟨rfl, rfl⟩
theorem told_junk (bs : List Byte) : (told bs).junk = [] := rfl

/-- A device whose firmware runs, with M0 and control enabled, one source allowed, and the I3C target addressed. -/
def managed : Device :=
  { ((((({} : Device).wr MGT_CFG.m0_en 0 1).wr MGT_CFG.ctl_en 0 1).wr MGT_CFG.i3c_en 0 1).wr MGT_ACL.valid 3 1).wr MGT_ACL.mac 3 7 |>.wr PWR_STATE_STAT.state 0 0 with
    pwr := { i3cDyn := some 9, save := none } }

/-- An answer of a peer that never came. -/
def noAns : PeerAns := ⟨2, []⟩

/-- Ill-formed commands, one for each check of `Instr.wf`: every other operand is good. Source: the numbers of units, queues, tenancies and registers of the rules that
name them. -/
theorem test_wf_refuses_1 : (
  [.registerWrite 64 0 0 0, .registerWrite 0 67108864 0 0, .registerWrite 0 0 0 1, .registerWrite 0 0 9 0, .bar0BadAccess 64 ⟨0, 1, false⟩,
   .bar0BadAccess 0 ⟨67108864, 1, false⟩, .bar0BadAccess 0 ⟨0, 0, false⟩, .bar0BadAccess 0 ⟨0, 65, false⟩, .bar0BadAccess 0 ⟨0, 4, false⟩, .legStart 192,
   .legEnd 192 0 0, .legOverrun 192, .legDiscard 192, .coreRecoveryDone 192, .passDescriptorIssue 192 0 0 [], .passDescriptorIssue 0 0 4 [],
   .passDescriptorIssue 0 0 0 [aPass 4], .feederPop ⟨192, 0⟩ 0, .feederPop ⟨0, 0⟩ 16, .feederFill 192 0 false, .feederFill 0 16 false, .epiloguePass 192 0,
   .epiloguePass 0 16, .towedTileArrival 192 (List.replicate 16 0) 0 none none [], .towedTileArrival 0 [] 0 none none [],
   .towedTileArrival 0 (List.replicate 16 0) 0 (some 64) none [], .tokenSet 192 0, .tokenSet 0 64, .tokenWait ⟨192, 0⟩ 0 false, .tokenWait ⟨0, 0⟩ 64 false,
   .startSignalLane 192 0, .seqMove 192 false 0 0 0 none, .seqMove 0 false 0 0 0 (some 64), .signalLaneOp 192 0 (.recip 0 0),
   .signalLaneOp 0 0 (.recip 32 0), .signalLaneLoad 192 0 0 0 0 none, .signalLaneLoad 0 0 0 32 0 none, .signalLaneLoad 0 0 3 0 0 none,
   .signalLaneLoad 0 0 0 0 0 (some { lenLog := 17 }), .wStore 192 0 [0] .f32 .f32 false 0 0, .wStore 0 0 [32] .f32 .f32 false 0 0,
   .wStore 0 0 [] .f32 .f32 false 0 0, .wStore 0 0 [0] .i16 (.bfp 17) false 0 0, .repeat_ 192 0 0 1 1, .repeat_ 0 0 0 0 1, .repeat_ 0 0 0 257 1,
   .repeat_ 0 0 0 1 0, .repeat_ 0 0 0 1 65537, .repeatCacheParityError 192, .shset ⟨192, 0⟩ 0 0 0, .expset ⟨192, 0⟩ 0 0, .expset ⟨0, 0⟩ 0 (2 ^ 64),
   .expset ⟨0, 0⟩ 32 0, .beclr ⟨192, 0⟩, .divsetup 192 0 0 0, .divsetup 0 0 32 0, .divsetup 0 0 0 32, .divsetupF 192 0 0 0, .divsetupF 0 0 32 0,
   .divsetupF 0 0 0 32, .divisionStep 192 0, .divq15 192 0 0, .divq15 0 0 32, .divrnd 192 0 0]
   : List Instr).all (fun c => !c.wf) = true := by decide

/-- Ill-formed commands, one for each check of `Instr.wf`: every other operand is good. Source: the numbers of units, queues, tenancies and registers of the rules that
name them. -/
theorem test_wf_refuses_2 : (
  [.divrnd 0 0 32, .rsload 192 0 0 0 0, .rsload 0 4 0 0 0, .rsload 0 0 0 256 0, .rsload 0 0 0 0 257, .tileStoreBankGrant 192 0 [] false false none,
   .tileStoreBankGrant 0 32 [] false false none, .tileStoreBankGrant 0 0 [(29, 0)] false false none, .bankWatchdogFire 192 0, .bankWatchdogFire 0 32,
   .debugAccess (2 ^ 29) 0 none, .debugAccess 0 129 none, .debugAccess 0 0 (some [0]), .tileStoreUncorrectable 192 0, .tspartAdoption 192, .dutyFrame 4,
   .sqDoorbell 64 0 0, .sqDoorbell 0 4096 0, .sqDoorbell 0 0 (2 ^ 64), .cqDoorbell 64 0 0, .cqDoorbell 0 4096 0, .cqDoorbell 0 0 (2 ^ 64),
   .doorbellBadWrite 64 0, .doorbellBadWrite 0 16777216, .submissionFetch 4096 0, .submissionFetch 0 3, .completionPost 4096, .run 4096 noAns noAns,
   .crossDeclare 4096, .crossCrossing 4096, .crossRelease 4096, .collShift 4096, .collPermute 4096, .collDispatch 4096, .collReturn 4096, .collReduce 4096,
   .signal 4096, .wait 4096, .fence 4096, .batchJoin 4096, .batchLeave 4096, .cfgTxnBegin 4096, .cfgTxnCommit 4096, .cfgTxnRollback 4096, .txnValidation 64,
   .txnTakeEffect 64, .txnCommitTimeout 64, .timetableLoad 4096 noAns, .timetablePlacementDone 8 noAns, .timetableInForce 8, .stepCommit 4096, .logMark 4096,
   .stepBoundary 64, .queCfgWrite 64 0 0, .queCfgWrite 0 4096 0, .queCfgWrite 0 0 (2 ^ 64), .queueEnable 64 0, .queueEnable 0 4096, .queueResume 64 0,
   .queueResume 0 4096, .queueReset 64 0, .queueReset 0 4096, .queueDrained 4096, .eventArraySetup 64 0 0]
   : List Instr).all (fun c => !c.wf) = true := by decide

/-- Ill-formed commands, one for each check of `Instr.wf`: every other operand is good. Source: the numbers of units, queues, tenancies and registers of the rules that
name them. -/
theorem test_wf_refuses_3 : (
  [.eventArraySetup 0 64 0, .eventArraySetup 0 0 (2 ^ 64), .eventArrayFillDone 64, .legPlace 192 noAns, .radioWindowCheck 8 0 0, .reserveCountApply 192,
   .kvget 192 0 0, .kvget 0 64 0, .evictionCrossingDone 64 0 0, .timNowSRead 64, .ptpFrameRx 5 [], .syncTx 5 [], .domainUpdate 2 0 0, .domainUpdate 0 0 256,
   .domainLossTimeout 2, .requalifyExpiry 2, .esmcRx 4 0, .esmcRx 0 16, .slotBoundary 4, .ppsEnable 64 0 0, .ppsEnable 0 0 (2 ^ 64), .ppsEnable 0 4 0,
   .pulseEdge 4, .captureEdge 4 false, .capNsRead 64 0, .capNsRead 0 4, .fhpost 192 0 0 0, .fhpost 0 0 64 0, .fhpost 0 2 0 0, .slotDeadline 64 0,
   .cplaneTx 64 0 0 ⟨0, false⟩, .cplaneTx 0 2 0 ⟨0, false⟩, .uplaneTx 64 0 ⟨0, false⟩ 0 0, .uplaneTx 0 0 ⟨0, false⟩ 14 0,
   .fronthaulFrameRx 4 ⟨0xAEFE, none, none, 0, 0, 0, 0, 0, 0, 0, [], 64⟩, .ulWindowOpen 64 0 0, .ulWindowOpen 0 0 14, .ulWindowClose 64 0 0,
   .ulWindowClose 0 0 14, .muteCtlWrite 64 0, .muteCtlWrite 0 (2 ^ 64), .softMove 192 0 0 0 none, .softMove 0 (2 ^ 64) 0 0 none, .softMove 0 0 0 0 (some 64),
   .rtsubmit 192 0 0 0, .rtsubmit 0 0 0 64, .logitTileArrival 8 0 0 (List.replicate 16 0) 0 0 0 [], .logitTileArrival 0 8 0 (List.replicate 16 0) 0 0 0 [],
   .logitTileArrival 0 0 192 (List.replicate 16 0) 0 0 0 [], .logitTileArrival 0 0 0 [] 0 0 0 [], .logitTileArrival 0 0 0 (List.replicate 16 0) 0 0 8 [],
   .routeSort 8 0, .routeSort 0 8, .blend 8 0, .blend 0 8, .engineBringIn 8 false, .xtEnable 64 0, .xtEnable 0 64, .xtDisable 64 0, .xtDisable 0 64,
   .xtMap 64 false 0, .xtMap 0 false (2 ^ 19), .xtUnmap 64, .xtReclaim 64]
   : List Instr).all (fun c => !c.wf) = true := by decide

/-- Ill-formed commands, one for each check of `Instr.wf`: every other operand is good. Source: the numbers of units, queues, tenancies and registers of the rules that
name them. -/
theorem test_wf_refuses_4 : (
  [.prgResponseRx 64 0 0, .prgResponseRx 0 0 16, .priTimeout 64 0, .atsInvalidationRx 64 0, .chunkLanded 256 0 [], .crossingFlip 256, .dmago 192 0 0 0 0,
   .dmago 0 0 0 0 64, .dmago 0 (2 ^ 64) 0 0 0, .dmago 0 0 (2 ^ 64) 0 0, .chunkFault 256 false, .chanResume 64 0, .chanResume 0 256, .chanAbort 64 0,
   .chanAbort 0 256, .chanServiceTimeout 256, .channelUncorrectable 256 ⟨0, 0⟩, .channelUncorrectable 0 ⟨6, 0⟩, .memArbiterGrant 65536 [] false false,
   .memArbWatchdogFire 65536, .refresh 65536 false, .scrubRead 5 0 0 0, .scrubRead 0 0 3 0, .correctedWriteBack 65536, .laneFail 16 0, .laneFail 0 5,
   .portTrained 16 0, .portTrained 0 32, .portDown 16, .flitRx 16 0 [] 0 ⟨[], 0, 0, 0⟩, .flitRx 0 (2 ^ 64) [] 0 ⟨[], 0, 0, 0⟩,
   .flitRx 0 0 [] (2 ^ 64) ⟨[], 0, 0, 0⟩, .replayTimeout 16, .pathReturn 16, .rload 192 0 0 0 0, .rload 0 0 0 0 64, .rload 0 0 (2 ^ 64) 0 0,
   .rstore 192 0 0 0 0, .rstore 0 0 0 0 64, .rstore 0 (2 ^ 64) 0 0 0, .ratom 192 0 0 0 0 0 0, .ratom 0 0 0 0 0 0 64, .ratom 0 256 0 0 0 0 0,
   .ratom 0 0 (2 ^ 64) 0 0 0 0, .ratom 0 0 0 32 0 0 0, .ratom 0 0 0 0 32 0 0, .ratom 0 0 0 0 0 32 0, .correctableError 65536 0 0 0,
   .correctableError 0 6 0 0, .correctableError 0 0 0 4, .deviceReset 65536 0 false, .deviceReset 0 6 false, .repairProgram 64, .retireUnit 64 0,
   .retireUnit 0 65536, .startSteeping 64 0, .startSteeping 0 65536, .endSteeping 64 0, .endSteeping 0 65536, .steepingExpiry 65536, .coreBringIn 192,
   .cubeRowBringIn 192, .pseudoChannelCopy 65536, .pseudoChannelCopyDone 65536]
   : List Instr).all (fun c => !c.wf) = true := by decide

/-- Ill-formed commands, one for each check of `Instr.wf`: every other operand is good. Source: the numbers of units, queues, tenancies and registers of the rules that
name them. -/
theorem test_wf_refuses_5 : (
  [.cpCheckpoint 4, .cpFailure 4, .tasteLeg 192 false, .tasteArbitration 192 1, .tasteArbitration 0 0, .tasteArbitration 0 4, .periodicTestDue 192 false,
   .musterEnable 64 0, .musterEnable 0 (2 ^ 64), .heartbeatRx 4096, .beaconRx 4096, .probeRx 4096, .probeAckRx 4096, .probeTimeout 4096, .removeRx 4096 0,
   .removeRx 0 4096, .joinRx 4096 false, .leaveRx 4096, .epochRx 4096 {}, .epochAckRx 4096, .isolateRx 4096, .shadowPageRead 64, .shadowAckRx 4096 0 0 false,
   .shadowAckRx 0 64 0 false, .logHoldTimeout 64, .restoreStart 64 0, .restoreStart 0 (2 ^ 64), .tenancyQuiesce 64 0, .tenancyQuiesce 0 64,
   .tenancyQuiesced 64, .tenancyResume 64 0, .tenancyResume 0 64, .tenancyReset 64 0 false, .tenancyReset 0 64 false, .tenancyResetDone 64,
   .irqGapExpiry 64 0, .irqGapExpiry 0 2048, .dlogEnable 64 0 0, .dlogEnable 0 64 0, .dlogEnable 0 0 (2 ^ 64), .dlogSwap 64 0 0, .dlogSwap 0 64 0,
   .dlogSwap 0 0 (2 ^ 64), .dlogSwapDone 64, .queuePositionStart 64 0, .queuePositionStart 0 (2 ^ 64), .arbAdvance 64, .ownerEnrol 64 0 0,
   .ownerEnrol 0 (2 ^ 64) 0, .ownerEnrol 0 0 3, .fabricKeyImport 64 0 0, .fabricKeyImport 0 (2 ^ 64) 0, .fabricKeyImport 0 0 3, .fabricKeyActivate 64 0,
   .fabricKeyActivate 0 (2 ^ 64), .fabricKeyRetirePrevious 64 0, .fabricKeyRetirePrevious 0 (2 ^ 64), .memoryKeyRoll 64 0, .memoryKeyRoll 0 (2 ^ 64),
   .debugNonce 64 0, .debugNonce 0 (2 ^ 64), .debugUnlock 64 0 0, .debugUnlock 0 (2 ^ 64) 0, .debugUnlock 0 0 3]
   : List Instr).all (fun c => !c.wf) = true := by decide

/-- Ill-formed commands, one for each check of `Instr.wf`: every other operand is good. Source: the numbers of units, queues, tenancies and registers of the rules that
name them. -/
theorem test_wf_refuses_6 : (
  [.debugLock 64 0, .debugLock 0 (2 ^ 64), .recoveryImage 64 0 0, .recoveryImage 0 (2 ^ 64) 0, .recoveryImage 0 0 3, .spdmGetCertificate 65536 0,
   .spdmGetCertificate 0 65536, .spdmChallenge [], .spdmGetMeasurements 256 false (List.replicate 32 0), .spdmGetMeasurements 0 false [], .reqD0 64 0,
   .reqD0 0 (2 ^ 64), .reqIdleHold 64 0, .reqIdleHold 0 (2 ^ 64), .reqDeep 64 0, .reqDeep 0 (2 ^ 64), .idleWake 0, .idleWake 4, .deepWake 3, .deepWake 7,
   .thermalSample 28672 0 0, .thermalSample 0 0 65536, .saveComplete 524289, .saveSnap 64 0, .saveSnap 0 (2 ^ 64), .saveRestore 64 0,
   .saveRestore 0 (2 ^ 64), .saveClear 64 0, .saveClear 0 (2 ^ 64), .frefLoss 4, .mgtReadReg 65536 ⟨0, none⟩ 0 0, .mgtReadReg 0 ⟨(2 ^ 48), none⟩ 0 0,
   .mgtReadReg 0 ⟨0, (some (2 ^ 32))⟩ 0 0, .mgtReadLog 65536 ⟨0, none⟩ 0 0, .mgtReadLog 0 ⟨(2 ^ 48), none⟩ 0 0, .mgtReadLog 0 ⟨0, (some (2 ^ 32))⟩ 0 0,
   .mgtReadTelem 65536 ⟨0, none⟩ 0 0, .mgtReadTelem 0 ⟨(2 ^ 48), none⟩ 0 0, .mgtReadTelem 0 ⟨0, (some (2 ^ 32))⟩ 0 0, .mgtReadSave 65536 ⟨0, none⟩,
   .mgtReadSave 0 ⟨(2 ^ 48), none⟩, .mgtReadSave 0 ⟨0, (some (2 ^ 32))⟩, .mgtWake 65536 ⟨0, none⟩, .mgtWake 0 ⟨(2 ^ 48), none⟩,
   .mgtWake 0 ⟨0, (some (2 ^ 32))⟩, .mgtDeviceReset 65536 ⟨0, none⟩, .mgtDeviceReset 0 ⟨(2 ^ 48), none⟩, .mgtDeviceReset 0 ⟨0, (some (2 ^ 32))⟩,
   .mgtSetPkgLimit 65536 ⟨0, none⟩ 0, .mgtSetPkgLimit 0 ⟨(2 ^ 48), none⟩ 0, .mgtSetPkgLimit 0 ⟨0, none⟩ 65536, .mgtSetPkgLimit 0 ⟨0, (some (2 ^ 32))⟩ 0,
   .mgtBadRequest 65536 ⟨0, none⟩ 0, .mgtBadRequest 0 ⟨(2 ^ 48), none⟩ 0, .mgtBadRequest 0 ⟨0, none⟩ 256, .mgtBadRequest 0 ⟨0, (some (2 ^ 32))⟩ 0,
   .i3cPrivateWrite 65536 .wake, .i3cAddressAssign false 128 0, .i3cAddressAssign false 0 128, .frefReturn 4, .fronthaulLinkChange 4 false,
   .vfEnableChange false 64, .functionPowerStateWrite 64 false, .msixUnmask 64 0]
   : List Instr).all (fun c => !c.wf) = true := by decide

/-- Ill-formed commands, one for each check of `Instr.wf`: every other operand is good. Source: the numbers of units, queues, tenancies and registers of the rules that
name them. -/
theorem test_wf_refuses_7 : (
  [.msixUnmask 0 2048, .translationCompletionRx 64 0 false false 0, .engineInputWatchdogFire 8 0, .engineInputWatchdogFire 0 192, .coreBringInDone 192 false,
   .cubeRowBringInDone 192, .xtEnableDone 64, .dramRowRepairDone 65536, .shadowPageRx 4096 0 0 (.page 0 []), .shadowPageRx 0 64 0 (.page 0 []),
   .logRecordMirrorRx 4096 0 ⟨0, 0, 0, [], 0, 0, 0, []⟩, .logRecordMirrorRx 0 64 ⟨0, 0, 0, [], 0, 0, 0, []⟩, .logMirrorAckRx 64 0]
   : List Instr).all (fun c => !c.wf) = true := by decide

/-- An ill-formed command changes nothing. -/
theorem test_ill_formed_stops : exec (.legStart 192) State.reset = .next State.reset := rfl

/-! ### The manual's worked examples -/

/-- 03_arithmetic.md, Example: aligned accumulation (R86). -/
theorem test_aligned_accumulation :
    alignAdd sat32 false 1000 (-140) 6 (-139) = ⟨506, 0⟩ ∧ alignAdd sat32 false 506 (-139) 7 (-141) = ⟨508, 0⟩ := by decide +kernel

/-- 03_arithmetic.md, Example: one radix-2 FFT stage: SHSET 13, 0, 2 at BEM 15, and at BEM 14 for the stage after it (R90). -/
theorem test_shset : shsetVal 15 13 0 2 = 2 ∧ shsetVal 14 13 0 2 = 1 := by decide

/-- The same example: the product with the twiddle rounds to 16,970 and −5,657 (R95). -/
theorem test_twiddle :
    (cmulVec true false (vec16 [16000, 8000]) (vec16 [23170, -23170])).val.take 8 = toLE 4 16970 ++ toLE 4 (ofSigned 32 (-5657)) := by decide +kernel

/-- Table 3-5: the narrowing store with s = 2 and the largest bit length (R91). -/
theorem test_narrowing_store :
    wStore .i32 .i16 2 120 (toLE 4 36970 ++ toLE 4 (ofSigned 32 (-8657)) ++ toLE 4 3030 ++ toLE 4 2657) = ⟨⟨vec16 [9242, -2164, 758, 664], none, 14⟩, 0⟩ := by
  decide +kernel

/-- Table 3-6: 3,000 / 7,000 (R93, R94). -/
theorem test_q15_quotient : divQ15 ((List.range 16).foldl (fun z _ => divStep z) (divSetup 3000 7000)) = ⟨14043, 0⟩ ∧
    ((List.range 3).foldl (fun z _ => divStep z) (divSetup 3000 7000)).r = 10000 := by decide

/-- 03_arithmetic.md, Example: a SiLU gate in BF16, the fused form (R98). -/
theorem test_silu_gate : (actMulTo .silu (outFmt 1) (fp32.decode 0x3F800000) (fp32.decode 0x3FB40000)).val = 0x3F84 := by decide +kernel

/-- 09_memory_tiers.md, Example: placing a tier-1 line (R265). -/
theorem test_tier1_line : pcOf 0x1234567800 = 220 := by decide

/-- 17_power_startup_management.md, R495: with H5 failed, pc 0x1DC lies in H3, pseudo-channel 28. -/
theorem test_reduced_map : ((({} : Device).wr PWR_START_STAT.t1_stacks 0 0xDF).wr PWR_START_STAT.t1_w 0 4).mappedPc 0x1DC = 3 * 64 + 28 := by decide +kernel

/-- 10_fabric.md, Example: choosing the port (R310). -/
theorem test_path_index : pathOf 0x02A1000020100040 0x02A = 0xA ∧ pathOf 0x02A1000020100140 0x02A = 0xB := by decide

/-- Table 6-15 (R193, R194). -/
theorem test_air_time :
    (({} : Device).setTime (1755000000 * secT + 253700000 * 144)).rd TIM_FRAME_NOW.sfn 0 = 429 ∧
    (({} : Device).setTime (1755000000 * secT + 253700000 * 144)).rd TIM_FRAME_NOW.hsfn 0 = 91 ∧
    (({} : Device).setTime (1755000000 * secT + 253700000 * 144)).rd TIM_SLOT_NOW.slot_count 1 = 2878070362507 := by decide +kernel

/-- Table 6-15, symbol row (R195): symbol 5 of slot 7 starts at 351,744 Tc. -/
theorem test_symbol_start : symStartTc 1 7 5 = 351744 ∧ symStartTc 1 7 6 = 421888 := by decide

/-- 07_radio_service.md, Example: a mixed carrier set (R207). -/
theorem test_carrier_load : ((({} : Device).wr RAD_CAR_CFG.mu 2 3).wr RAD_CAR_CFG.prbs 2 132 |>.wr RAD_CAR_CFG.tx_ant 2 4).carLoad 2 = 1981 ∧
    (((({} : Device).wr RAD_CAR_CFG.mu 2 1).wr RAD_CAR_CFG.prbs 2 273 |>.wr RAD_CAR_CFG.tx_ant 2 64).wr RAD_CAR_CFG.dl_layers 2 16).carLoad 2 = 4096 := by decide +kernel

/-- 07_radio_service.md, Example: straining one uplink stream: a PRB of width 9 takes 28 bytes (R226). -/
theorem test_prb_length : prbLen 1 9 = 28 := by decide

/-- Table 8-10, tokens t0 and t1: gate weights 0.7311 and 0.5 to four places (R249). -/
theorem test_gate_weights : (gates 1 0x3F800000 [⟨1, 0x40400000, 0x40400000, 0x40400000, 0⟩, ⟨3, 0x40000000, 0x40000000, 0x40000000, 0⟩]).map (· >>> 12) = [0x3F3B2, 0x3E89B] ∧
    gates 1 0x3F800000 [⟨0, 0x40200000, 0x40200000, 0x40200000, 0⟩, ⟨1, 0x40200000, 0x40200000, 0x40200000, 0⟩] = [0x3F000000, 0x3F000000] := by decide +kernel

/-- Table 11-7: rank order gives +0, arrival order c1, c2, c0, c3 gives 2^−23. -/
theorem test_order_of_sum :
    (fAdd (fAdd (fAdd 0x3F800000 0x33800000).val 0x33800000).val 0xBF800000).val = 0 ∧
    (fAdd (fAdd (fAdd 0x33800000 0x33800000).val 0x3F800000).val 0xBF800000).val = 0x34000000 := by decide +kernel

/-- 19_register_index.md, Example: finding one carrier's status (R528). -/
theorem test_register_place : regAt 0x0C01978 = some (.RAD_CAR_STAT, 37) ∧ regAt 0x0C02038 = none := by decide +kernel

/-- 06_air_time.md, Example: holdover length, without SyncE: at t = 2 s the estimate is 80 + 1 + 0.0002 ns (R189). -/
theorem test_holdover : (holdoverTick { (({} : Device).wr TIM_STAT.state 0 3 |>.wr TIM_HOLD_CTL.freq_unc_ppt 0 500 |>.wr TIM_HOLD_CTL.ageing_ppt_h 0 360) with
      timing := { holdMs := 1999, holdE0 := 80, holdErr := 80 * 7200000000000 + 500 * 7200000 * 1999 + 360 * 1999 ^ 2 } }).rd TIM_STAT.hold_err_ns 0 = 81 := by
  decide +kernel

/-- Check values of the CRCs of R139, R299 and R335 on the digits 1 to 9, and FIPS 180-4's SHA-512 of "abc", first eight bytes (PRESUMED: from the algorithms' own texts). -/
theorem test_crc : crc16 ("123456789".toList.map fun c => BitVec.ofNat 8 c.toNat) = 0x29B1 ∧
    crc32c ("123456789".toList.map fun c => BitVec.ofNat 8 c.toNat) = 0xE3069283 ∧
    crc64 ("123456789".toList.map fun c => BitVec.ofNat 8 c.toNat) = 0x62EC59E3F1A4F00A := by decide +kernel
theorem test_sha512 : (sha512 [0x61, 0x62, 0x63]).take 8 = toBE 8 0xDDAF35A193617ABA := by decide +kernel

/-- AES-256-GCM on a key, IV and block of zeros (test case 14 of the GCM submission; PRESUMED as above). -/
theorem test_gcm : gcmSeal (List.replicate 32 0) (List.replicate 12 0) [] (List.replicate 16 0) =
    (toBE 16 0xCEA7403D4D606B6E074EC5D3BAF39D18, toBE 16 0xD0D1C8A799996BF0265B98B5D48AB919) := by decide +kernel

/-- Reads (R3, R11; Machine/HostRead.lean): the MTU of a fronthaul port reads 9,600 on a part with radio and 0 on a -X part; a misaligned read answers all ones. -/
theorem test_host_read :
    ((({} : Device).wr PWR_STATE_STAT.state 0 0).bar0Read 0 0xC00000 8).map (bits · 47 32) = some 0x2580 ∧
    ((({} : Device).wr PWR_STATE_STAT.state 0 0).wr GEN_ID.variant 0 2).bar0Read 0 0xC00000 8 = some 0 ∧
    ({} : Device).bar0Read 0 3 4 = some 0xFFFFFFFF := by decide +kernel
theorem wit_StepIdles_1 : ∃ s : State, s.pending = [] ∧ s.dev.unpowered = true := ⟨{ dev := { ({} : Device) with pwr := { gated := true } } }, rfl, by decide +kernel⟩

theorem wit_StepIdles_2 : ∃ s : State, s.pending = [] ∧ s.dev.unpowered = false ∧ s.dev.tick.slotCount 0 = s.dev.slotCount 0 ∧ ∀ c ∈ s.dev.tick.cores, c.2.leg = none := ⟨{ dev := ({} : Device).wr PWR_STATE_STAT.state 0 0 }, rfl, by decide +kernel, by decide +kernel, by decide +kernel⟩

theorem wit_ResetLeaves : ∃ (r : Reg) (f : Fld) (i : Nat), f ∈ r.fields ∧ r.resetIdx i = 0 := ⟨.FTP_PARTNER, FTP_PARTNER.shadow_steps, 0, by decide +kernel, by decide +kernel⟩

theorem wit_ExecAnswers : ∃ c : Instr, c.wf = false := ⟨.legStart 192, by decide +kernel⟩

theorem wit_FedStatesStepOn : ∃ s : State, s.pending ≠ [] ∧ s.fed := ⟨{ pending := [.legStart 191, .holdTick] }, by simp, by intro c h; simp at h; rcases h with rfl | rfl <;> rfl⟩

theorem wit_D3hotBlocks_1 : ∃ (c : Instr) (fn : Nat) (s : State), FromHost fn c ∧ c.wf = true ∧ s.dev.fnAwake fn = false :=
  ⟨.sqDoorbell 63 4095 1, 63, { dev := functionPowerStateWrite 63 true {} }, .sqDoorbell _ _, by decide +kernel, by decide +kernel⟩

theorem wit_D3hotBlocks_2 : ∃ (c : Instr) (fn : Nat) (r : Reg) (s : State), Accesses fn r c ∧ c.wf = true ∧ s.dev.reaches fn r = false :=
  ⟨.arbAdvance 63, 63, .SEC_ARB, { dev := functionPowerStateWrite 63 true {} }, .arbAdvance, by decide +kernel, by decide +kernel⟩

theorem wit_OnlyTenancyZeroOperates : ∃ (c : Instr) (fn off : Nat) (r : Reg) (s : State), OnlyTenancy0 fn r off c ∧ c.wf = true ∧ fn ≠ 0 ∧ s.dev.reaches fn r = true :=
  ⟨.arbAdvance 63, 63, 0x1100008, .SEC_ARB, {}, .arbAdvance, by decide +kernel, by decide, by decide +kernel⟩

theorem wit_MemoryReadsBack : ∃ (off : Nat) (bs : List Byte) (o : Nat), bs ≠ [] ∧ off + bs.length ≤ 2 ^ 64 ∧ o < 2 ^ 64 ∧ (o < off ∨ off + bs.length ≤ o) := ⟨2 ^ 64 - 2, [1, 2], 0, by decide, by decide, by decide, by decide⟩

theorem wit_EventSignals : ∃ (d : Device) (t e v t2 e2 : Nat), v < 2 ^ 64 ∧ e < 65536 ∧ e2 < 65536 ∧ d.evtAddr t2 e2 ≠ d.evtAddr t e := ⟨{}, 0, 65535, 2 ^ 64 - 1, 0, 0, by decide, by decide, by decide, by decide +kernel⟩

theorem wit_DivisionGivesQ15 : ∃ n d : Int, -32768 ≤ n ∧ n < 32768 ∧ -32768 ≤ d ∧ d < 32768 ∧ (divSetup n d).big = false := ⟨-1, -32768, by decide, by decide, by decide, by decide, by decide⟩

theorem wit_DivisionGivesQ15_big : ∃ n d : Int, -32768 ≤ n ∧ n < 32768 ∧ -32768 ≤ d ∧ d < 32768 ∧ d ≠ 0 ∧ (divSetup n d).big = true := ⟨-32768, 32767, by decide, by decide, by decide, by decide, by decide, by decide⟩

theorem wit_DivisionGivesQ15_zero : ∃ n d : Int, -32768 ≤ n ∧ n < 32768 ∧ -32768 ≤ d ∧ d < 32768 ∧ d = 0 := ⟨32767, 0, by decide, by decide, by decide, by decide, rfl⟩

theorem wit_Int8StepSaturates : ∃ (acc : Accu) (a b : Feed) (t : Int), t = ((List.range 16).map fun i => toSigned 8 (leAt a.data i 1) * toSigned 8 (leAt b.data i 1)).sum ∧ t ≠ 0 := ⟨{}, { data := [0x80], scale := 0 }, { data := [0x80], scale := 0 }, _, rfl, by decide +kernel⟩

theorem wit_InterleaveCovers : ∃ p q : Nat, p < 512 ∧ q < 32 := ⟨511, 31, by decide, by decide⟩

theorem wit_QueueControl_queueEnable : ∃ (s : State) (fn : Nat) (q : Nat),
    (fn < 64) ∧
    (q < 4096) ∧
    (s.dev.reaches fn .QUE_CTL = true) ∧
    (s.dev.mayQueue fn q = true) ∧
    (s.dev.rd QUE_STAT.state q = 0) ∧
    (s.dev.qTen q ∉ s.dev.evtFill) ∧
    (s.dev.enableOk q = true) :=
  ⟨{ dev := ((((({} : Device).wr QUE_CFG.sq_log2 3 6).wr QUE_CFG.cq_log2 3 16).wr QUE_CFG.class_mask 3 2).wr QUE_EVT_BASE.valid 0 1) }, 0, 3, by decide +kernel⟩

theorem wit_QueueControl_queueResume : ∃ (s : State) (fn : Nat) (q : Nat),
    (fn < 64) ∧
    (q < 4096) ∧
    (s.dev.reaches fn .QUE_CTL = true) ∧
    (s.dev.mayQueue fn q = true) ∧
    (s.dev.rd QUE_STAT.state q = 2) :=
  ⟨{ dev := ({} : Device).wr QUE_STAT.state 4095 2 }, 0, 4095, by decide +kernel⟩

theorem wit_QueueControl_queueReset : ∃ (s : State) (fn : Nat) (q : Nat) (a : Device),
    (fn < 64) ∧
    (q < 4096) ∧
    (s.dev.reaches fn .QUE_CTL = true) ∧
    (s.dev.mayQueue fn q = true) ∧
    (a = s.dev.discardFetched q) :=
  ⟨{}, 0, 4095, _, by decide +kernel, by decide +kernel, by decide +kernel, by decide +kernel, rfl⟩

theorem wit_QueueControl_queueDrained : ∃ (s : State) (q : Nat),
    (q < 4096) ∧
    (s.dev.rd QUE_STAT.state q = 4) ∧
    (s.dev.rd QUE_STAT.in_flight q = 0) ∧
    ((s.dev.queue q).toPost = []) :=
  ⟨{ dev := ({} : Device).wr QUE_STAT.state 0 4 }, 0, by decide +kernel⟩

theorem wit_QueueControl_eventArrayFillDone : ∃ (s : State) (t : Nat),
    (t < 64) ∧
    (s.dev.evtFill = [t]) :=
  ⟨{ dev := { evtFill := [63] } }, 63, by decide +kernel⟩

theorem wit_QueueControl_eventArraySetup : ∃ (s : State) (t : Nat) (value : Nat),
    (t < 64) ∧
    (value < 2 ^ 64) ∧
    (s.dev.reaches 0 .QUE_EVT_BASE = true) ∧
    (∀ q, q < 4096 → s.dev.qTen q = t → s.dev.rd QUE_STAT.state q = 0) ∧
    (value % 2 = 1) ∧
    (t ∉ s.dev.evtFill) :=
  ⟨{ pending := [] }, 63, 2 ^ 40 - 1, by decide, by decide, by decide, by intro q _ _; rfl, by decide, by decide⟩

theorem wit_QueueControl_queCfgWrite : ∃ (s : State) (q : Nat) (value : Nat),
    (q < 4096) ∧
    (value < 2 ^ 64) ∧
    (s.dev.reaches 0 .QUE_CFG = true) ∧
    (s.dev.rd QUE_STAT.state q = 0) ∧
    (value / 2 ^ 58 = s.dev.qTen q) :=
  ⟨{}, 4095, 2 ^ 58 - 1, by decide +kernel⟩

theorem wit_Doorbells_sqDoorbell : ∃ (s : State) (d : Device) (fn : Nat) (q : Nat) (value : Nat) (T : Nat) (from_ : Nat),
    (fn < 64) ∧
    (q < 4096) ∧
    (value < 2 ^ 64) ∧
    (T = value % 2 ^ 32) ∧
    (s.dev.fnAwake fn = true) ∧
    (d = s.dev.disarmDeep 1) ∧
    (d.fnAwake fn = true) ∧
    (d.qTen q = fn) ∧
    (d.rd QUE_STAT.state q = 1 ∨ d.rd QUE_STAT.state q = 2) ∧
    ((T + 2 ^ 32 - d.rd QUE_STAT.sq_head q) % 2 ^ 32 ≤ 2 ^ d.rd QUE_CFG.sq_log2 q) ∧
    (from_ = if (T + 2 ^ 32 - (d.queue q).tail) % 2 ^ 32 ≤ 2 ^ d.rd QUE_CFG.sq_log2 q then (d.queue q).tail else T) :=
  ⟨{ dev := ({} : Device).wr QUE_STAT.state 4095 1 }, _, 0, 4095, 2 ^ 63 + 1, _, _, by decide, by decide, by decide, rfl, by decide +kernel, rfl, by decide +kernel, by decide +kernel, by decide +kernel, by decide +kernel, rfl⟩

theorem wit_Doorbells_sqDoorbell_ : ∃ (s : State) (d : Device) (fn : Nat) (q : Nat) (value : Nat) (T : Nat),
    (fn < 64) ∧
    (q < 4096) ∧
    (value < 2 ^ 64) ∧
    (T = value % 2 ^ 32) ∧
    (s.dev.fnAwake fn = true) ∧
    (d = s.dev.disarmDeep 1) ∧
    (d.fnAwake fn = true) ∧
    (d.qTen q = fn) ∧
    (d.rd QUE_STAT.state q = 1 ∨ d.rd QUE_STAT.state q = 2) ∧
    (2 ^ d.rd QUE_CFG.sq_log2 q < (T + 2 ^ 32 - d.rd QUE_STAT.sq_head q) % 2 ^ 32) :=
  ⟨{ dev := ({} : Device).wr QUE_STAT.state 4095 1 }, _, 0, 4095, 2 ^ 32 - 1, _, by decide, by decide, by decide, rfl, by decide +kernel, rfl, by decide +kernel, by decide +kernel, by decide +kernel, by decide +kernel⟩

theorem wit_Doorbells_sqDoorbell__ : ∃ (s : State) (d : Device) (fn : Nat) (q : Nat) (value : Nat) (T : Nat),
    (fn < 64) ∧
    (q < 4096) ∧
    (value < 2 ^ 64) ∧
    (T = value % 2 ^ 32) ∧
    (s.dev.fnAwake fn = true) ∧
    (d = s.dev.disarmDeep 1) ∧
    (d.fnAwake fn = true) ∧
    (d.qTen q = fn) ∧
    (d.rd QUE_STAT.state q = 0) :=
  ⟨{}, _, 0, 4095, 7, _, by decide, by decide, by decide, rfl, by decide +kernel, rfl, by decide +kernel, by decide +kernel, by decide +kernel⟩

theorem wit_Doorbells_sqDoorbell___ : ∃ (s : State) (d : Device) (fn : Nat) (q : Nat) (value : Nat) (T : Nat),
    (fn < 64) ∧
    (q < 4096) ∧
    (value < 2 ^ 64) ∧
    (T = value % 2 ^ 32) ∧
    (s.dev.fnAwake fn = true) ∧
    (d = s.dev.disarmDeep 1) ∧
    (d.fnAwake fn = true) ∧
    (d.qTen q ≠ fn) :=
  ⟨{}, _, 63, 4095, 7, _, by decide, by decide, by decide, rfl, by decide +kernel, rfl, by decide +kernel, by decide +kernel⟩

theorem wit_Doorbells_cqDoorbell : ∃ (s : State) (fn : Nat) (q : Nat) (value : Nat) (C : Nat),
    (fn < 64) ∧
    (q < 4096) ∧
    (value < 2 ^ 64) ∧
    (C = value % 2 ^ 32) ∧
    (s.dev.fnAwake fn = true) ∧
    (s.dev.qTen q = fn) ∧
    (s.dev.rd QUE_STAT.state q = 1 ∨ s.dev.rd QUE_STAT.state q = 2) ∧
    (((s.dev.queue q).cqTail + 2 ^ 32 - C) % 2 ^ 32 < 2 ^ s.dev.rd QUE_CFG.cq_log2 q) :=
  ⟨{ dev := ({} : Device).wr QUE_STAT.state 4095 2 }, 0, 4095, 2 ^ 32, _, by decide, by decide, by decide, rfl, by decide +kernel, by decide +kernel, by decide +kernel, by decide +kernel⟩

theorem wit_Doorbells_cqDoorbell_ : ∃ (s : State) (fn : Nat) (q : Nat) (value : Nat) (C : Nat),
    (fn < 64) ∧
    (q < 4096) ∧
    (value < 2 ^ 64) ∧
    (C = value % 2 ^ 32) ∧
    (s.dev.fnAwake fn = true) ∧
    (s.dev.qTen q = fn) ∧
    (s.dev.rd QUE_STAT.state q = 1 ∨ s.dev.rd QUE_STAT.state q = 2) ∧
    (((s.dev.queue q).cqTail + 2 ^ 32 - C) % 2 ^ 32 = 2 ^ s.dev.rd QUE_CFG.cq_log2 q) :=
  ⟨{ dev := ({} : Device).wr QUE_STAT.state 4095 2 }, 0, 4095, 2 ^ 32 - 64, _, by decide, by decide, by decide, rfl, by decide +kernel, by decide +kernel, by decide +kernel, by decide +kernel⟩

theorem wit_Doorbells_cqDoorbell__ : ∃ (s : State) (fn : Nat) (q : Nat) (value : Nat) (C : Nat),
    (fn < 64) ∧
    (q < 4096) ∧
    (value < 2 ^ 64) ∧
    (C = value % 2 ^ 32) ∧
    (s.dev.fnAwake fn = true) ∧
    (s.dev.qTen q = fn) ∧
    (s.dev.rd QUE_STAT.state q = 1 ∨ s.dev.rd QUE_STAT.state q = 2) ∧
    (2 ^ s.dev.rd QUE_CFG.cq_log2 q < ((s.dev.queue q).cqTail + 2 ^ 32 - C) % 2 ^ 32) :=
  ⟨{ dev := ({} : Device).wr QUE_STAT.state 4095 2 }, 0, 4095, 2, _, by decide, by decide, by decide, rfl, by decide +kernel, by decide +kernel, by decide +kernel, by decide +kernel⟩

theorem wit_Doorbells_cqDoorbell___ : ∃ (s : State) (fn : Nat) (q : Nat) (value : Nat) (C : Nat),
    (fn < 64) ∧
    (q < 4096) ∧
    (value < 2 ^ 64) ∧
    (C = value % 2 ^ 32) ∧
    (s.dev.fnAwake fn = true) ∧
    (s.dev.qTen q = fn) ∧
    (s.dev.rd QUE_STAT.state q = 0) :=
  ⟨{}, 0, 4095, 2, _, by decide, by decide, by decide, rfl, by decide +kernel, by decide +kernel, by decide +kernel⟩

theorem wit_Doorbells_cqDoorbell____ : ∃ (s : State) (fn : Nat) (q : Nat) (value : Nat) (C : Nat),
    (fn < 64) ∧
    (q < 4096) ∧
    (value < 2 ^ 64) ∧
    (C = value % 2 ^ 32) ∧
    (s.dev.fnAwake fn = true) ∧
    (s.dev.qTen q ≠ fn) :=
  ⟨{}, 63, 4095, 2, _, by decide, by decide, by decide, rfl, by decide +kernel, by decide +kernel⟩

theorem wit_Doorbells_doorbellBadWrite : ∃ (s : State) (fn : Nat) (off : Nat),
    (fn < 64) ∧
    (off < 0x1000000) ∧
    (s.dev.fnAwake fn = true) :=
  ⟨{}, 63, 0xFFFFFF, by decide +kernel⟩

theorem wit_RingsServed_submissionFetch : ∃ (s : State) (q : Nat) (new : List (Nat × List Byte)),
    (q < 4096) ∧
    (s.dev.rd QUE_STAT.state q = 1) ∧
    (s.dev.rd TEN_STAT.state (s.dev.qTen q) = 1) ∧
    (s.dev.on QUE_STAT.cq_full q = false) ∧
    ((s.dev.queue q).tail ≠ s.dev.rd QUE_STAT.sq_head q) ∧
    (new = (List.range (((s.dev.queue q).tail + 2 ^ 32 - s.dev.rd QUE_STAT.sq_head q) % 2 ^ 32)).map fun i => (s.dev.time, s.dev.sqEntry q ((s.dev.rd QUE_STAT.sq_head q + i) % 2 ^ 32))) :=
  ⟨{ dev := { ({} : Device).wr QUE_STAT.state 4095 1 with queues := [(4095, { tail := 1 })] } }, 4095, [(45498933936 * 1000000000, List.replicate 64 0)], by decide +kernel⟩

theorem wit_RingsServed_submissionFetch_ : ∃ (s : State) (q : Nat),
    (q < 4096) ∧
    (s.dev.rd QUE_STAT.state q = 1) ∧
    (s.dev.rd TEN_STAT.state (s.dev.qTen q) = 1) ∧
    (s.dev.on QUE_STAT.cq_full q = false) ∧
    ((s.dev.queue q).tail ≠ s.dev.rd QUE_STAT.sq_head q) :=
  ⟨{ dev := { ({} : Device).wr QUE_STAT.state 4095 1 with queues := [(4095, { tail := 1 })] } }, 4095, by decide +kernel⟩

theorem wit_RingsServed_completionPost : ∃ (s : State) (q : Nat) (c : Completion) (rest : List Completion) (a : Device),
    (q < 4096) ∧
    ((s.dev.queue q).toPost = c :: rest) ∧
    (c.quiet = false) ∧
    (s.dev.rd TEN_STAT.state (s.dev.qTen q) ≠ 4) ∧
    (((s.dev.queue q).cqTail + 2 ^ 32 - (s.dev.queue q).cqHead) % 2 ^ 32 < 2 ^ s.dev.rd QUE_CFG.cq_log2 q) ∧
    (a = ((s.dev.writeHost (s.dev.qTen q) (s.dev.cqAddr q (s.dev.queue q).cqTail) (s.dev.compBytes q c (s.dev.queue q).phase)).setQueue q { s.dev.queue q with toPost := rest, cqTail := ((s.dev.queue q).cqTail + 1) % 2 ^ 32, phase := if ((s.dev.queue q).cqTail + 1) % 2 ^ 32 % 2 ^ s.dev.rd QUE_CFG.cq_log2 q = 0 then !(s.dev.queue q).phase else (s.dev.queue q).phase }).wr QUE_STAT.cq_full q 0) :=
  ⟨{ dev := { ({} : Device) with queues := [(0, { toPost := [⟨1, 4, 0, 0, 0, true, false⟩] })] } }, 0, ⟨1, 4, 0, 0, 0, true, false⟩, [], _, by decide +kernel, by decide +kernel, by decide +kernel, by decide +kernel, by decide +kernel, rfl⟩

theorem wit_RingsServed_completionPost_ : ∃ (s : State) (q : Nat) (c : Completion) (rest : List Completion),
    (q < 4096) ∧
    ((s.dev.queue q).toPost = c :: rest) ∧
    (c.quiet = false) ∧
    (s.dev.rd TEN_STAT.state (s.dev.qTen q) ≠ 4) ∧
    (s.dev.rd QUE_STAT.state q ≠ 4) ∧
    (2 ^ s.dev.rd QUE_CFG.cq_log2 q ≤ ((s.dev.queue q).cqTail + 2 ^ 32 - (s.dev.queue q).cqHead) % 2 ^ 32) :=
  ⟨{ dev := { ({} : Device) with queues := [(0, { toPost := [⟨1, 4, 0, 0, 0, true, false⟩], cqTail := 65536 })] } }, 0, ⟨1, 4, 0, 0, 0, true, false⟩, [], by decide +kernel⟩

theorem wit_RingsServed_completionPost__ : ∃ (s : State) (q : Nat) (c : Completion) (rest : List Completion),
    (q < 4096) ∧
    ((s.dev.queue q).toPost = c :: rest) ∧
    (c.quiet = true) ∧
    (rest ≠ []) :=
  ⟨{ dev := { ({} : Device) with queues := [(0, { toPost := [⟨1, 4, 0, 0, 0, false, true⟩, ⟨2, 4, 0, 0, 0, true, false⟩] })] } }, 0, ⟨1, 4, 0, 0, 0, false, true⟩, [⟨2, 4, 0, 0, 0, true, false⟩], by decide +kernel⟩

theorem wit_EventCommands_signal : ∃ (s : State) (q : Nat) (x : Nat × List Byte),
    (q < 4096) ∧
    (s.dev.starts q 0x04 x = true) :=
  ⟨queued {} 4095 (entryOf 4 []), 4095, (0, entryOf 4 []), by decide +kernel⟩

theorem wit_EventCommands_wait : ∃ (s : State) (q : Nat) (x : Nat × List Byte),
    (q < 4096) ∧
    (s.dev.starts q 0x05 x = true) :=
  ⟨queued {} 0 (entryOf 5 []), 0, (0, entryOf 5 []), by decide +kernel⟩

theorem wit_EventCommands_fence : ∃ (s : State) (q : Nat) (x : Nat × List Byte),
    (q < 4096) ∧
    (s.dev.starts q 0x06 x = true) ∧
    ((leAt x.2 28 1 = 0 ∧ ∀ c ∈ s.dev.cmds, c.queue ≠ q) ∨ (leAt x.2 28 1 = 1 ∧ ∀ c ∈ s.dev.cmds, c.ten ≠ s.dev.qTen q)) :=
  ⟨queued {} 0 (entryOf 6 [1]), 0, (0, entryOf 6 [1]), by decide +kernel⟩

theorem wit_EventCommands_cfgTxnBegin : ∃ (s : State) (q : Nat) (x : Nat × List Byte),
    (q < 4096) ∧
    (s.dev.starts q 0x09 x = true) ∧
    (leAt x.2 28 1 = 0) ∧
    ((s.dev.startFront q x).1.txState (s.dev.qTen q) = 0) :=
  ⟨queued {} 7 (entryOf 9 [0]), 7, (0, entryOf 9 [0]), by decide +kernel⟩

theorem wit_EventCommands_cfgTxnCommit : ∃ (s : State) (q : Nat) (x : Nat × List Byte),
    (q < 4096) ∧
    (s.dev.starts q 0x09 x = true) ∧
    (leAt x.2 28 1 = 1) ∧
    ((s.dev.startFront q x).1.txState (s.dev.qTen q) = 1) ∧
    ((s.dev.startFront q x).1.on TXN_STAT.overflow (s.dev.qTen q) = false) :=
  ⟨queued (({} : Device).wr TXN_STAT.state 0 1) 7 (entryOf 9 [1]), 7, (0, entryOf 9 [1]), by decide +kernel⟩

theorem wit_EventCommands_cfgTxnRollback : ∃ (s : State) (q : Nat) (x : Nat × List Byte),
    (q < 4096) ∧
    (s.dev.starts q 0x09 x = true) ∧
    (leAt x.2 28 1 = 2) ∧
    ((s.dev.startFront q x).1.txState (s.dev.qTen q) ≠ 0) :=
  ⟨queued (({} : Device).wr TXN_STAT.state 0 1) 7 (entryOf 9 [2]), 7, (0, entryOf 9 [2]), by decide +kernel⟩

theorem wit_EventCommands_txnCommitTimeout : ∃ (s : State) (t : Nat),
    (t < 64) ∧
    (s.dev.txState t = 2) ∧
    ((s.dev.txn t).commit = none) :=
  ⟨{ dev := ({} : Device).wr TXN_STAT.state 63 2 }, 63, by decide +kernel⟩

theorem wit_CrossCommands_crossDeclare : ∃ (s : State) (q : Nat) (x : Nat × List Byte) (d : Device) (c : Cmd) (ps : List Nat),
    (q < 4096) ∧
    (s.dev.starts q 0x02 x = true) ∧
    ((d, c) = s.dev.startFront q x) ∧
    (crossKind s.dev q x.2 = 0) ∧
    (s.dev.crossTier2 (s.dev.qTen q) x.2 = false) ∧
    (xIdx x.2 < d.rd MEM_LAND_CFG.count c.ten) ∧
    (d.landState c.ten (xIdx x.2) = 0) ∧
    (xDest x.2 ≠ 0) ∧
    (1 ≤ xLen x.2) ∧
    (landAligned (xDest x.2) = true) ∧
    (d.isLocal (xDest x.2) = true) ∧
    (gaSp (xDest x.2) ≤ 2 ∨ gaSp (xDest x.2) = 8) ∧
    (gaSp (xDest x.2) = 8 → d.hostCrossing c.ten (gaOff (xDest x.2)) (xLen x.2) 0 = none) ∧
    (d.physPages c.ten (xDest x.2) (xLen x.2) = .inl ps) ∧
    (∀ p ∈ ps, d.sealed p = false ∧ (d.pageState p = 0 ∨ d.pageState p = 4)) ∧
    ((d.setPages ps pgLanded).on MEM_LAND_CFG.hash c.ten = false) :=
  ⟨queued (mapped.wr MEM_LAND_CFG.count 0 1) 9 (entryOf 2 ([0,0,0,0] ++ [0,0,0,0,0,0,8,0] ++ [0,16])), 9, (0, entryOf 2 ([0,0,0,0] ++ [0,0,0,0,0,0,8,0] ++ [0,16])), ((queued (mapped.wr MEM_LAND_CFG.count 0 1) 9 (entryOf 2 ([0,0,0,0] ++ [0,0,0,0,0,0,8,0] ++ [0,16]))).dev.startFront 9 (0, entryOf 2 ([0,0,0,0] ++ [0,0,0,0,0,0,8,0] ++ [0,16]))).1, ((queued (mapped.wr MEM_LAND_CFG.count 0 1) 9 (entryOf 2 ([0,0,0,0] ++ [0,0,0,0,0,0,8,0] ++ [0,16]))).dev.startFront 9 (0, entryOf 2 ([0,0,0,0] ++ [0,0,0,0,0,0,8,0] ++ [0,16]))).2, [], by decide +kernel⟩

theorem wit_CrossCommands_crossCrossing : ∃ (s : State) (q : Nat) (x : Nat × List Byte) (d : Device) (c : Cmd) (ps : List Nat),
    (q < 4096) ∧
    (s.dev.starts q 0x02 x = true) ∧
    ((d, c) = s.dev.startFront q x) ∧
    (crossKind s.dev q x.2 = 1) ∧
    (s.dev.crossTier2 (s.dev.qTen q) x.2 = false) ∧
    (xIdx x.2 < d.rd MEM_LAND_CFG.count c.ten) ∧
    (d.landState c.ten (xIdx x.2) = 1) ∧
    (xDest x.2 ≠ 0) ∧
    (xLen x.2 = d.landLen c.ten (xIdx x.2)) ∧
    (landAligned (xDest x.2) = true) ∧
    (gaSp (xDest x.2) = 8) ∧
    (d.physPages c.ten (d.landHome c.ten (xIdx x.2)) (xLen x.2) = .inl ps) ∧
    (∀ p ∈ ps, d.sealed p = false) :=
  ⟨queued ((mapped.wr MEM_LAND_CFG.count 0 1).store spT1 0 [1, 0, 0, 0, 0, 0, 0, 0, 0, 0, 0, 0, 0, 0, 8, 0, 64]) 9 (entryOf 2 ([0,0,0,0] ++ [0,16,0,0,0,0,8,0] ++ [64])), 9, (0, entryOf 2 ([0,0,0,0] ++ [0,16,0,0,0,0,8,0] ++ [64])), ((queued ((mapped.wr MEM_LAND_CFG.count 0 1).store spT1 0 [1, 0, 0, 0, 0, 0, 0, 0, 0, 0, 0, 0, 0, 0, 8, 0, 64]) 9 (entryOf 2 ([0,0,0,0] ++ [0,16,0,0,0,0,8,0] ++ [64]))).dev.startFront 9 (0, entryOf 2 ([0,0,0,0] ++ [0,16,0,0,0,0,8,0] ++ [64]))).1, ((queued ((mapped.wr MEM_LAND_CFG.count 0 1).store spT1 0 [1, 0, 0, 0, 0, 0, 0, 0, 0, 0, 0, 0, 0, 0, 8, 0, 64]) 9 (entryOf 2 ([0,0,0,0] ++ [0,16,0,0,0,0,8,0] ++ [64]))).dev.startFront 9 (0, entryOf 2 ([0,0,0,0] ++ [0,16,0,0,0,0,8,0] ++ [64]))).2, [], by decide +kernel⟩

theorem wit_CrossCommands_crossRelease : ∃ (s : State) (q : Nat) (x : Nat × List Byte) (d : Device) (c : Cmd) (ps : List Nat),
    (q < 4096) ∧
    (s.dev.starts q 0x02 x = true) ∧
    ((d, c) = s.dev.startFront q x) ∧
    (xDest x.2 = 0) ∧
    (s.dev.crossTier2 (s.dev.qTen q) x.2 = false) ∧
    (xIdx x.2 < d.rd MEM_LAND_CFG.count c.ten) ∧
    (d.landState c.ten (xIdx x.2) = 1) ∧
    (xLen x.2 = 0) ∧
    ((smGet d.det c.ten {}).wlist.contains (xIdx x.2) = false) ∧
    (d.physPages c.ten (d.landHome c.ten (xIdx x.2)) (d.landLen c.ten (xIdx x.2)) = .inl ps) ∧
    (∀ p ∈ ps, d.sealed p = false) :=
  ⟨queued ((mapped.wr MEM_LAND_CFG.count 0 1).store spT1 0 [1, 0, 0, 0, 0, 0, 0, 0, 0, 0, 0, 0, 0, 0, 8, 0, 64]) 9 (entryOf 2 []), 9, (0, entryOf 2 []), ((queued ((mapped.wr MEM_LAND_CFG.count 0 1).store spT1 0 [1, 0, 0, 0, 0, 0, 0, 0, 0, 0, 0, 0, 0, 0, 8, 0, 64]) 9 (entryOf 2 [])).dev.startFront 9 (0, entryOf 2 [])).1, ((queued ((mapped.wr MEM_LAND_CFG.count 0 1).store spT1 0 [1, 0, 0, 0, 0, 0, 0, 0, 0, 0, 0, 0, 0, 0, 8, 0, 64]) 9 (entryOf 2 [])).dev.startFront 9 (0, entryOf 2 [])).2, [], by decide +kernel⟩

theorem wit_CollectiveCommands_collShift : ∃ (s : State) (q : Nat) (x : Nat × List Byte) (d : Device) (c : Cmd) (z : Coll) (xs : List Send),
    (q < 4096) ∧
    (s.dev.starts q 0x03 x = true) ∧
    ((d, c) = s.dev.startFront q x) ∧
    (leAt x.2 28 1 = 1) ∧
    (s.dev.collReady (s.dev.qTen q) x.2 = true) ∧
    (d.markEnd c.ten = none) ∧
    (d.collPrep c.ten x.2 c.sn = .ok (z, xs)) :=
  ⟨queued (grouped) 0 (entryOf 3 ([1, 0, 0, 0] ++ [0,0,0,0,0,0,0,0] ++ [0,2,0,0,0,0,0,0] ++ [0,3,0,0,0,0,0,0] ++ [8, 0, 0, 0, 0, 0, 1, 0])), 0, (0, entryOf 3 ([1, 0, 0, 0] ++ [0,0,0,0,0,0,0,0] ++ [0,2,0,0,0,0,0,0] ++ [0,3,0,0,0,0,0,0] ++ [8, 0, 0, 0, 0, 0, 1, 0])), ((queued (grouped) 0 (entryOf 3 ([1, 0, 0, 0] ++ [0,0,0,0,0,0,0,0] ++ [0,2,0,0,0,0,0,0] ++ [0,3,0,0,0,0,0,0] ++ [8, 0, 0, 0, 0, 0, 1, 0]))).dev.startFront 0 (0, entryOf 3 ([1, 0, 0, 0] ++ [0,0,0,0,0,0,0,0] ++ [0,2,0,0,0,0,0,0] ++ [0,3,0,0,0,0,0,0] ++ [8, 0, 0, 0, 0, 0, 1, 0]))).1, ((queued (grouped) 0 (entryOf 3 ([1, 0, 0, 0] ++ [0,0,0,0,0,0,0,0] ++ [0,2,0,0,0,0,0,0] ++ [0,3,0,0,0,0,0,0] ++ [8, 0, 0, 0, 0, 0, 1, 0]))).dev.startFront 0 (0, entryOf 3 ([1, 0, 0, 0] ++ [0,0,0,0,0,0,0,0] ++ [0,2,0,0,0,0,0,0] ++ [0,3,0,0,0,0,0,0] ++ [8, 0, 0, 0, 0, 0, 1, 0]))).2, collOf 1 ([1, 0, 0, 0] ++ [0,0,0,0,0,0,0,0] ++ [0,2,0,0,0,0,0,0] ++ [0,3,0,0,0,0,0,0] ++ [8, 0, 0, 0, 0, 0, 1, 0]), [⟨1, false, 0, [0, 0, 0, 0, 0, 0, 0, 0]⟩], by decide +kernel⟩

theorem wit_CollectiveCommands_collPermute : ∃ (s : State) (q : Nat) (x : Nat × List Byte) (d : Device) (c : Cmd) (z : Coll) (xs : List Send),
    (q < 4096) ∧
    (s.dev.starts q 0x03 x = true) ∧
    ((d, c) = s.dev.startFront q x) ∧
    (leAt x.2 28 1 = 2) ∧
    (s.dev.collReady (s.dev.qTen q) x.2 = true) ∧
    (d.markEnd c.ten = none) ∧
    (d.collPrep c.ten x.2 c.sn = .ok (z, xs)) :=
  ⟨queued (grouped) 0 (entryOf 3 ([2, 0, 0, 0] ++ [0,0,0,0,0,0,0,0] ++ [0,2,0,0,0,0,0,0] ++ [0,3,0,0,0,0,0,0] ++ [0, 0, 0, 0, 0, 0, 0, 0])), 0, (0, entryOf 3 ([2, 0, 0, 0] ++ [0,0,0,0,0,0,0,0] ++ [0,2,0,0,0,0,0,0] ++ [0,3,0,0,0,0,0,0] ++ [0, 0, 0, 0, 0, 0, 0, 0])), ((queued (grouped) 0 (entryOf 3 ([2, 0, 0, 0] ++ [0,0,0,0,0,0,0,0] ++ [0,2,0,0,0,0,0,0] ++ [0,3,0,0,0,0,0,0] ++ [0, 0, 0, 0, 0, 0, 0, 0]))).dev.startFront 0 (0, entryOf 3 ([2, 0, 0, 0] ++ [0,0,0,0,0,0,0,0] ++ [0,2,0,0,0,0,0,0] ++ [0,3,0,0,0,0,0,0] ++ [0, 0, 0, 0, 0, 0, 0, 0]))).1, ((queued (grouped) 0 (entryOf 3 ([2, 0, 0, 0] ++ [0,0,0,0,0,0,0,0] ++ [0,2,0,0,0,0,0,0] ++ [0,3,0,0,0,0,0,0] ++ [0, 0, 0, 0, 0, 0, 0, 0]))).dev.startFront 0 (0, entryOf 3 ([2, 0, 0, 0] ++ [0,0,0,0,0,0,0,0] ++ [0,2,0,0,0,0,0,0] ++ [0,3,0,0,0,0,0,0] ++ [0, 0, 0, 0, 0, 0, 0, 0]))).2, collOf 2 ([2, 0, 0, 0] ++ [0,0,0,0,0,0,0,0] ++ [0,2,0,0,0,0,0,0] ++ [0,3,0,0,0,0,0,0] ++ [0, 0, 0, 0, 0, 0, 0, 0]), [⟨0, true, 0, List.replicate 12 0⟩, ⟨1, true, 0, List.replicate 12 0⟩], by decide +kernel⟩

theorem wit_CollectiveCommands_collDispatch : ∃ (s : State) (q : Nat) (x : Nat × List Byte) (d : Device) (c : Cmd) (z : Coll) (xs : List Send),
    (q < 4096) ∧
    (s.dev.starts q 0x03 x = true) ∧
    ((d, c) = s.dev.startFront q x) ∧
    (leAt x.2 28 1 = 3) ∧
    (s.dev.collReady (s.dev.qTen q) x.2 = true) ∧
    (d.markEnd c.ten = none) ∧
    (d.collPrep c.ten x.2 c.sn = .ok (z, xs)) :=
  ⟨queued (grouped) 0 (entryOf 3 ([3, 0, 0, 0] ++ [0,0,0,0,0,0,0,0] ++ [128,0,0,0,0,0,0,0])), 0, (0, entryOf 3 ([3, 0, 0, 0] ++ [0,0,0,0,0,0,0,0] ++ [128,0,0,0,0,0,0,0])), ((queued (grouped) 0 (entryOf 3 ([3, 0, 0, 0] ++ [0,0,0,0,0,0,0,0] ++ [128,0,0,0,0,0,0,0]))).dev.startFront 0 (0, entryOf 3 ([3, 0, 0, 0] ++ [0,0,0,0,0,0,0,0] ++ [128,0,0,0,0,0,0,0]))).1, ((queued (grouped) 0 (entryOf 3 ([3, 0, 0, 0] ++ [0,0,0,0,0,0,0,0] ++ [128,0,0,0,0,0,0,0]))).dev.startFront 0 (0, entryOf 3 ([3, 0, 0, 0] ++ [0,0,0,0,0,0,0,0] ++ [128,0,0,0,0,0,0,0]))).2, collOf 3 ([3, 0, 0, 0] ++ [0,0,0,0,0,0,0,0] ++ [128,0,0,0,0,0,0,0]), [⟨0, true, 0, List.replicate 12 0⟩, ⟨1, true, 0, List.replicate 12 0⟩], by decide +kernel⟩

theorem wit_CollectiveCommands_collReturn : ∃ (s : State) (q : Nat) (x : Nat × List Byte) (d : Device) (c : Cmd) (z : Coll) (xs : List Send),
    (q < 4096) ∧
    (s.dev.starts q 0x03 x = true) ∧
    ((d, c) = s.dev.startFront q x) ∧
    (leAt x.2 28 1 = 4) ∧
    (s.dev.collReady (s.dev.qTen q) x.2 = true) ∧
    (d.markEnd c.ten = none) ∧
    (d.collPrep c.ten x.2 c.sn = .ok (z, xs)) :=
  ⟨queued (grouped) 0 (entryOf 3 ([4, 0, 0, 0] ++ [0,0,0,0,0,0,0,0] ++ [128,0,0,0,0,0,0,0])), 0, (0, entryOf 3 ([4, 0, 0, 0] ++ [0,0,0,0,0,0,0,0] ++ [128,0,0,0,0,0,0,0])), ((queued (grouped) 0 (entryOf 3 ([4, 0, 0, 0] ++ [0,0,0,0,0,0,0,0] ++ [128,0,0,0,0,0,0,0]))).dev.startFront 0 (0, entryOf 3 ([4, 0, 0, 0] ++ [0,0,0,0,0,0,0,0] ++ [128,0,0,0,0,0,0,0]))).1, ((queued (grouped) 0 (entryOf 3 ([4, 0, 0, 0] ++ [0,0,0,0,0,0,0,0] ++ [128,0,0,0,0,0,0,0]))).dev.startFront 0 (0, entryOf 3 ([4, 0, 0, 0] ++ [0,0,0,0,0,0,0,0] ++ [128,0,0,0,0,0,0,0]))).2, collOf 4 ([4, 0, 0, 0] ++ [0,0,0,0,0,0,0,0] ++ [128,0,0,0,0,0,0,0]), [⟨0, true, 0, List.replicate 12 0⟩, ⟨1, true, 0, List.replicate 12 0⟩], by decide +kernel⟩

theorem wit_CollectiveCommands_collReduce : ∃ (s : State) (q : Nat) (x : Nat × List Byte) (d : Device) (c : Cmd) (z : Coll) (xs : List Send),
    (q < 4096) ∧
    (s.dev.starts q 0x03 x = true) ∧
    ((d, c) = s.dev.startFront q x) ∧
    (leAt x.2 28 1 = 5) ∧
    (s.dev.collReady (s.dev.qTen q) x.2 = true) ∧
    (d.markEnd c.ten = none) ∧
    (d.collPrep c.ten x.2 c.sn = .ok (z, xs)) :=
  ⟨queued (grouped) 0 (entryOf 3 ([5, 0, 0, 0] ++ [0,0,0,0,0,0,0,0] ++ [0,2,0,0,0,0,0,0] ++ [0,3,0,0,0,0,0,0] ++ [8, 0, 0, 0, 0, 0, 0, 0])), 0, (0, entryOf 3 ([5, 0, 0, 0] ++ [0,0,0,0,0,0,0,0] ++ [0,2,0,0,0,0,0,0] ++ [0,3,0,0,0,0,0,0] ++ [8, 0, 0, 0, 0, 0, 0, 0])), ((queued (grouped) 0 (entryOf 3 ([5, 0, 0, 0] ++ [0,0,0,0,0,0,0,0] ++ [0,2,0,0,0,0,0,0] ++ [0,3,0,0,0,0,0,0] ++ [8, 0, 0, 0, 0, 0, 0, 0]))).dev.startFront 0 (0, entryOf 3 ([5, 0, 0, 0] ++ [0,0,0,0,0,0,0,0] ++ [0,2,0,0,0,0,0,0] ++ [0,3,0,0,0,0,0,0] ++ [8, 0, 0, 0, 0, 0, 0, 0]))).1, ((queued (grouped) 0 (entryOf 3 ([5, 0, 0, 0] ++ [0,0,0,0,0,0,0,0] ++ [0,2,0,0,0,0,0,0] ++ [0,3,0,0,0,0,0,0] ++ [8, 0, 0, 0, 0, 0, 0, 0]))).dev.startFront 0 (0, entryOf 3 ([5, 0, 0, 0] ++ [0,0,0,0,0,0,0,0] ++ [0,2,0,0,0,0,0,0] ++ [0,3,0,0,0,0,0,0] ++ [8, 0, 0, 0, 0, 0, 0, 0]))).2, collOf 5 ([5, 0, 0, 0] ++ [0,0,0,0,0,0,0,0] ++ [0,2,0,0,0,0,0,0] ++ [0,3,0,0,0,0,0,0] ++ [8, 0, 0, 0, 0, 0, 0, 0]), [], by decide +kernel⟩

theorem wit_StepCommands_run : ∃ (s : State) (q : Nat) (x : Nat × List Byte) (d : Device) (c : Cmd) (im : ManImg) (r : RunCtx),
    (q < 4096) ∧
    (s.dev.starts q 0x01 x = true) ∧
    ((d, c) = s.dev.startFront q x) ∧
    (s.dev.runReady q ⟨0, []⟩ ⟨0, []⟩ x.2 = true) ∧
    (eClass x.2 ≠ 0) ∧
    (d.markEnd c.ten = none) ∧
    (d.loadImage c.ten (rnImage x.2) (rnMid x.2) (eClass x.2) ⟨0, []⟩ = .ok im) ∧
    (d.check13 im.res (eClass x.2) = true) ∧
    (r = ({ mid := rnMid x.2, image := rnImage x.2, args := rnArgs x.2, diePref := rnPref x.2, legs := im.legs, forms := im.forms, code := rnImage x.2 + mhCode im.hdr, res := im.res, flags := mhFlags im.hdr, legSt := im.legs.map (fun _ => .waiting), readyAt := x.1, hash := im.hash } : RunCtx)) :=
  ⟨queued ({ ({} : Device) with verified := [⟨0, 5, 8 <<< 48, [], 0, ⟨imageBytes.take 128, (imageBytes.drop 256).take 128, [(imageBytes.drop 128).take 128], [], []⟩⟩] }) 0 (entryOf 1 ([5, 0, 0, 0] ++ [0,0,0,0,0,0,8,0] ++ [0,16,0,0,0,0,8,0] ++ [255])), 0, (0, entryOf 1 ([5, 0, 0, 0] ++ [0,0,0,0,0,0,8,0] ++ [0,16,0,0,0,0,8,0] ++ [255])), ((queued ({ ({} : Device) with verified := [⟨0, 5, 8 <<< 48, [], 0, ⟨imageBytes.take 128, (imageBytes.drop 256).take 128, [(imageBytes.drop 128).take 128], [], []⟩⟩] }) 0 (entryOf 1 ([5, 0, 0, 0] ++ [0,0,0,0,0,0,8,0] ++ [0,16,0,0,0,0,8,0] ++ [255]))).dev.startFront 0 (0, entryOf 1 ([5, 0, 0, 0] ++ [0,0,0,0,0,0,8,0] ++ [0,16,0,0,0,0,8,0] ++ [255]))).1, ((queued ({ ({} : Device) with verified := [⟨0, 5, 8 <<< 48, [], 0, ⟨imageBytes.take 128, (imageBytes.drop 256).take 128, [(imageBytes.drop 128).take 128], [], []⟩⟩] }) 0 (entryOf 1 ([5, 0, 0, 0] ++ [0,0,0,0,0,0,8,0] ++ [0,16,0,0,0,0,8,0] ++ [255]))).dev.startFront 0 (0, entryOf 1 ([5, 0, 0, 0] ++ [0,0,0,0,0,0,8,0] ++ [0,16,0,0,0,0,8,0] ++ [255]))).2, ⟨imageBytes.take 128, (imageBytes.drop 256).take 128, [(imageBytes.drop 128).take 128], [], []⟩, _, by decide +kernel, by decide +kernel, by decide +kernel, by decide +kernel, by decide +kernel, by decide +kernel, by decide +kernel, by decide +kernel, rfl⟩

theorem wit_StepCommands_timetableLoad : ∃ (s : State) (q : Nat) (x : Nat × List Byte) (d : Device) (c : Cmd),
    (q < 4096) ∧
    (s.dev.starts q 0x0A x = true) ∧
    ((d, c) = s.dev.startFront q x) ∧
    (eClass x.2 = 0) ∧
    (d.isX = false) ∧
    (d.radioDown = false) ∧
    (d.sched.loads = []) :=
  ⟨queued ({}) 3 ((entryOf 10 []).set 26 0), 3, (0, (entryOf 10 []).set 26 0), ((queued ({}) 3 ((entryOf 10 []).set 26 0)).dev.startFront 3 (0, (entryOf 10 []).set 26 0)).1, ((queued ({}) 3 ((entryOf 10 []).set 26 0)).dev.startFront 3 (0, (entryOf 10 []).set 26 0)).2, by decide +kernel⟩

theorem wit_StepCommands_logMark : ∃ (s : State) (q : Nat) (x : Nat × List Byte) (d : Device) (c : Cmd),
    (q < 4096) ∧
    (s.dev.starts q 0x0C x = true) ∧
    ((d, c) = s.dev.startFront q x) :=
  ⟨queued ({}) 4095 (entryOf 12 []), 4095, (0, entryOf 12 []), ((queued ({}) 4095 (entryOf 12 [])).dev.startFront 4095 (0, entryOf 12 [])).1, ((queued ({}) 4095 (entryOf 12 [])).dev.startFront 4095 (0, entryOf 12 [])).2, by decide +kernel⟩

theorem wit_StepCommands_stepCommit : ∃ (s : State) (q : Nat) (x : Nat × List Byte) (d : Device) (c : Cmd) (e : Device),
    (q < 4096) ∧
    (s.dev.starts q 0x0B x = true) ∧
    ((d, c) = s.dev.startFront q x) ∧
    (e = d.settle q) ∧
    (s.dev.cmds = []) ∧
    (e.cmds = [c]) :=
  ⟨queued ({}) 0 (entryOf 11 [0]), 0, (0, entryOf 11 [0]), ((queued ({}) 0 (entryOf 11 [0])).dev.startFront 0 (0, entryOf 11 [0])).1, ((queued ({}) 0 (entryOf 11 [0])).dev.startFront 0 (0, entryOf 11 [0])).2, (queued {} 0 (entryOf 11 [0])).dev.startFront 0 (0, entryOf 11 [0]) |>.1 |>.settle 0, by decide +kernel⟩

theorem wit_StepCommands_batchJoin : ∃ (s : State) (q : Nat) (x : Nat × List Byte) (d : Device) (c : Cmd) (y : Seq),
    (q < 4096) ∧
    (s.dev.starts q 0x07 x = true) ∧
    ((d, c) = s.dev.startFront q x) ∧
    (eClass x.2 ≠ 0) ∧
    (d.rd SCH_BATCH_CFG.max_seq c.ten ≠ 0) ∧
    ((d.batch c.ten).seqs.any (fun y => y.id == leAt x.2 28 4) = false) ∧
    ((d.batch c.ten).pending.any (fun p => p.2.id == leAt x.2 28 4) = false) ∧
    (y = ({ id := leAt x.2 28 4, batch := leAt x.2 32 2, prio := leAt x.2 34 1, cls := eClass x.2, client := eClient x.2, area := leAt x.2 40 8, need := leAt x.2 36 4, arrival := (d.batch c.ten).arrivals } : Seq)) :=
  ⟨queued (({} : Device).wr SCH_BATCH_CFG.max_seq 0 1) 3 (entryOf 7 [1]), 3, (0, entryOf 7 [1]), ((queued (({} : Device).wr SCH_BATCH_CFG.max_seq 0 1) 3 (entryOf 7 [1])).dev.startFront 3 (0, entryOf 7 [1])).1, ((queued (({} : Device).wr SCH_BATCH_CFG.max_seq 0 1) 3 (entryOf 7 [1])).dev.startFront 3 (0, entryOf 7 [1])).2, { id := 1, batch := 0, prio := 0, cls := 1, client := 0 }, by decide +kernel⟩

theorem wit_StepCommands_batchLeave : ∃ (s : State) (q : Nat) (x : Nat × List Byte) (d : Device) (c : Cmd),
    (q < 4096) ∧
    (s.dev.starts q 0x08 x = true) ∧
    ((d, c) = s.dev.startFront q x) :=
  ⟨queued ({}) 3 (entryOf 8 [1]), 3, (0, entryOf 8 [1]), ((queued ({}) 3 (entryOf 8 [1])).dev.startFront 3 (0, entryOf 8 [1])).1, ((queued ({}) 3 (entryOf 8 [1])).dev.startFront 3 (0, entryOf 8 [1])).2, by decide +kernel⟩

theorem wit_TransactionsAndBoundaries_txnValidation : ∃ (s : State) (t : Nat) (sn : Nat) (ws : List (Nat × List Nat × List Byte)) (js : List (Nat × List Nat)),
    (t < 64) ∧
    (s.dev.txState t = 2) ∧
    ((s.dev.txn t).commit = some sn) ∧
    ((s.dev.txn t).valid = false) ∧
    (s.dev.ras.cpBusy = none) ∧
    (s.dev.validTxn (s.dev.txn t).staged = true) ∧
    (ws = (touched (s.dev.txn t).staged .DET_WSET).filterMap fun u => (s.dev.weightSet (s.dev.withStaged (s.dev.txn t).staged) u).map fun w => (u, w.1, w.2)) ∧
    (js = (touched (s.dev.txn t).staged .FTP_JOB_CFG).map fun u => (u, if (s.dev.withStaged (s.dev.txn t).staged).on FTP_JOB_CFG.valid u then s.dev.jobBitmap (s.dev.withStaged (s.dev.txn t).staged) u else [])) :=
  ⟨{ dev := { ({} : Device).wr TXN_STAT.state 63 2 with txns := [(63, { commit := some 1 })] } }, 63, 1, [], [], by decide +kernel⟩

theorem wit_TransactionsAndBoundaries_txnTakeEffect : ∃ (s : State) (t : Nat) (sn : Nat),
    (t < 64) ∧
    (s.dev.txState t = 2) ∧
    ((s.dev.txn t).commit = some sn) ∧
    ((s.dev.txn t).valid = true) ∧
    ((s.dev.txn t).staged = []) ∧
    ((s.dev.txn t).jobs = []) ∧
    ((s.dev.txn t).weights = []) ∧
    (s.dev.on TXN_STAT.slot_aligned t = false) ∧
    (∀ c ∈ s.dev.cmds, c.ten = t → eOp c.entry ≠ 1) :=
  ⟨{ dev := { ({} : Device).wr TXN_STAT.state 63 2 with txns := [(63, { commit := some 1, valid := true })] } }, 63, 1, by decide +kernel⟩

theorem wit_TransactionsAndBoundaries_timetablePlacementDone : ∃ (s : State) (k : Nat) (sn : Nat) (S : Nat) (x : TtSlot) (t : Timetable) (c : Cmd) (a : Device),
    (k < 8) ∧
    (x = smGet s.dev.sched.tts k {}) ∧
    (x.load = some (t, sn)) ∧
    (s.dev.sched.loads = [sn]) ∧
    (s.dev.cmd? sn = some c) ∧
    (leAt c.entry 48 8 = 0) ∧
    (S = s.dev.firstSlot t) ∧
    (a = ({ s.dev with sched := { s.dev.sched with tts := smSet s.dev.sched.tts k {} { x with next := (x.next.filter fun (o : Timetable) => decide (o.from_ < S)) ++ [{ t with from_ := S }], load := none }, loads := [] } }.showTt k).finish sn stOk 0 (some S)) :=
  ⟨{ dev := { cmds := [⟨1, 0, 0, [], 0, 0, none, none⟩], sched := { tts := [(7, { load := some ({}, 1) })], loads := [1] } } }, 7, 1, _, { load := some ({}, 1) }, {}, ⟨1, 0, 0, [], 0, 0, none, none⟩, _, by decide, by decide +kernel, by decide +kernel, by decide +kernel, by decide +kernel, by decide +kernel, rfl, rfl⟩

theorem wit_TransactionsAndBoundaries_timetableInForce : ∃ (s : State) (k : Nat) (x : TtSlot) (t : Timetable) (rest : List Timetable),
    (k < 8) ∧
    (x = smGet s.dev.sched.tts k {}) ∧
    (x.next = t :: rest) ∧
    (t.from_ ≤ s.dev.slotCount t.mu) :=
  ⟨{ dev := { sched := { tts := [(0, { next := [{}] })] } } }, 0, { next := [{}] }, {}, [], by decide +kernel⟩

theorem wit_TransactionsAndBoundaries_stepBoundary : ∃ (s : State) (t : Nat) (st : Nat) (detail : Nat) (c : Cmd) (e : Device),
    (t < 64) ∧
    ((s.dev.cmds.find? fun c => c.ten == t && eOp c.entry == 0x0B) = some c) ∧
    (c.note = 3) ∧
    (c.fin = some (st, detail)) ∧
    (e = (s.dev.boundaryWork t st true).shadowPoint t) :=
  ⟨{ dev := { cmds := [⟨1, 0, 63, [11], 3, 0, some (0, 0), none⟩] } }, 63, 0, 0, ⟨1, 0, 63, [11], 3, 0, some (0, 0), none⟩, _, by decide, by decide +kernel, by decide, by decide, rfl⟩

theorem wit_TransactionsAndBoundaries_stepBoundary_ : ∃ (s : State) (t : Nat),
    (t < 64) ∧
    (∀ c ∈ s.dev.cmds, c.ten = t → eOp c.entry ≠ 0x0B ∧ eOp c.entry ≠ 0x01) :=
  ⟨{}, 63, by decide, fun c h => nomatch h⟩

theorem wit_SchedulerCommands_commandBind : ∃ (s : State) (x : Cmd × RunCtx) (cores : List Nat) (es : List (Nat × Nat)) (e : Device),
    (s.dev.firstWaitingCmd 1 s.dev.sched.rrPrompt (fun _ => true) = some x) ∧
    (s.dev.canBind x = true) ∧
    (s.dev.pickCores x.1 x.2 [] = some cores) ∧
    (s.dev.pickEngines (leAt x.2.res 3 1) [] = some es) ∧
    (eClass x.1.entry = 1) ∧
    (e = (es.zipIdx.foldl (fun d p => (d.setRctx p.1.1 p.1.2 { sn := x.1.sn, pos := p.2 }).showEngine p.1.1) s.dev).setCmd { x.1 with run := some { x.2 with cores := cores, engines := es } }) :=
  ⟨{ dev := { cmds := [⟨1, 0, 0, entryOf 1 [], 0, 0, none, some {}⟩] } }, (⟨1, 0, 0, entryOf 1 [], 0, 0, none, some {}⟩, {}), [], [], ({ cmds := [⟨1, 0, 0, entryOf 1 [], 0, 0, none, some {}⟩] } : Device), by decide +kernel⟩

theorem wit_SchedulerCommands_legPlace : ∃ (s : State) (n : Nat) (i : Nat) (c : Cmd) (r : RunCtx) (e : Device),
    (n < 192) ∧
    ((s.dev.core n).mail = []) ∧
    (s.dev.coreSt n = 3) ∧
    (s.dev.boundTo n = some c) ∧
    (c.run = some r) ∧
    (r.fail = none) ∧
    (r.preempted = false) ∧
    (s.dev.placeable n r = some i) ∧
    (s.dev.internalLeg n = none) ∧
    (lgResident (r.legs.getD i []) = true) ∧
    (e = s.dev.putMail n { sn := c.sn, idx := i, desc := legDesc c r i (s.dev.step c.ten) }) :=
  ⟨{ dev := { ({} : Device).wr COR_LMAP.state 0 3 with cmds := [⟨1, 0, 0, entryOf 1 [], 0, 0, none, some ({ legs := [(List.replicate 10 0 ++ [255, 255, 255, 255] ++ List.replicate 12 0 ++ [1] ++ List.replicate 5 0 : List Byte)], legSt := [.waiting], cores := [0] } : RunCtx)⟩] } }, 0, 0, ⟨1, 0, 0, entryOf 1 [], 0, 0, none, some ({ legs := [(List.replicate 10 0 ++ [255, 255, 255, 255] ++ List.replicate 12 0 ++ [1] ++ List.replicate 5 0 : List Byte)], legSt := [.waiting], cores := [0] } : RunCtx)⟩, ({ legs := [(List.replicate 10 0 ++ [255, 255, 255, 255] ++ List.replicate 12 0 ++ [1] ++ List.replicate 5 0 : List Byte)], legSt := [.waiting], cores := [0] } : RunCtx), Device.putMail ({ ({} : Device).wr COR_LMAP.state 0 3 with cmds := [⟨1, 0, 0, entryOf 1 [], 0, 0, none, some ({ legs := [(List.replicate 10 0 ++ [255, 255, 255, 255] ++ List.replicate 12 0 ++ [1] ++ List.replicate 5 0 : List Byte)], legSt := [.waiting], cores := [0] } : RunCtx)⟩] }) 0 { sn := 1, idx := 0, desc := legDesc ⟨1, 0, 0, entryOf 1 [], 0, 0, none, some ({ legs := [(List.replicate 10 0 ++ [255, 255, 255, 255] ++ List.replicate 12 0 ++ [1] ++ List.replicate 5 0 : List Byte)], legSt := [.waiting], cores := [0] } : RunCtx)⟩ ({ legs := [(List.replicate 10 0 ++ [255, 255, 255, 255] ++ List.replicate 12 0 ++ [1] ++ List.replicate 5 0 : List Byte)], legSt := [.waiting], cores := [0] } : RunCtx) 0 0 }, by decide +kernel⟩

theorem wit_SchedulerCommands_preemptWaitExpiry : ∃ (s : State) (sn : Nat) (x : Cmd × RunCtx) (sps : List Nat),
    ((s.dev.waitingCmds 1).find? (fun x => x.1.sn == sn) = some x) ∧
    (sps = ((s.dev.cmds.filter fun c => eClass c.entry == 2 && (match c.run with | some r => !r.cores.isEmpty | none => false)).map fun c => c.sn).reverse) :=
  ⟨{ dev := { cmds := [⟨1, 0, 0, entryOf 1 [], 0, 0, none, some {}⟩] } }, 1, (⟨1, 0, 0, entryOf 1 [], 0, 0, none, some {}⟩, {}), [], by decide +kernel⟩

theorem wit_SchedulerCommands_radioWindowCheck : ∃ (s : State) (k : Nat) (sl : Nat) (w : Nat) (t : Timetable) (j : TtJob) (win : Window) (c : Cmd) (r : RunCtx),
    (k < 8) ∧
    ((smGet s.dev.sched.tts k {}).at sl = some t) ∧
    (t.windows[w]? = some win) ∧
    (t.jobs[win.job]? = some j) ∧
    (j.covers t.period sl = true) ∧
    (s.dev.notIdle win.core = false) ∧
    (s.dev.radioRun k win.job sl = some (c, r)) :=
  ⟨{ dev := { cmds := [⟨1, 0, 0, entryOf 1 [], 0, 0, none, some ({ slot := some 5 } : RunCtx)⟩], sched := { tts := [(0, { cur := some ({ period := 1, jobs := [⟨0, 0, 1, [], [], 0, []⟩], windows := [⟨0, 0, 0, 191, 9⟩] } : Timetable) })] } } }, 0, 5, 0, ({ period := 1, jobs := [⟨0, 0, 1, [], [], 0, []⟩], windows := [⟨0, 0, 0, 191, 9⟩] } : Timetable), ⟨0, 0, 1, [], [], 0, []⟩, ⟨0, 0, 0, 191, 9⟩, ⟨1, 0, 0, entryOf 1 [], 0, 0, none, some ({ slot := some 5 } : RunCtx)⟩, ({ slot := some 5 } : RunCtx), by decide +kernel⟩

theorem wit_SchedulerCommands_reserveCountApply : ∃ (s : State) (n : Nat),
    (n < 192) ∧
    (s.dev.boundTo n = none) :=
  ⟨{ dev := { sched := { reserveNow := [(191, 1)] } } }, 191, by decide +kernel⟩

theorem wit_SchedulerCommands_kvget : ∃ (s : State) (n : Nat) (tok : Nat) (cy : Nat) (p : Nat) (l : Leg) (m : Leg) (e : Device) (b : BatchCtx) (y : Seq),
    (n < 192) ∧
    (tok < 64) ∧
    (max l.count (s.dev.rd COR_TIMING.leg_start n) = cy) ∧
    (s.dev.issues n cy l e m) ∧
    (b = e.batch m.ten) ∧
    ((b.seqs.find? fun x => x.id == y.id) = some y) ∧
    (leastPage b.reserve = some p) ∧
    (y.pages.length < 1024) :=
  ⟨{ dev := { batches := [(0, { seqs := [{ id := 7, batch := 0, prio := 0, cls := 1, client := 0 }], reserve := [3, 2] })], cores := [(191, { leg := some (freshLeg 1 ⟨1, 0, [100, 0, 0, 0], none, false, 0, 0, false, 0⟩) })] } }, 191, 63, 24, 2, freshLeg 1 ⟨1, 0, [100, 0, 0, 0], none, false, 0, 0, false, 0⟩, { freshLeg 1 ⟨1, 0, [100, 0, 0, 0], none, false, 0, 0, false, 0⟩ with count := 24 }, { batches := [(0, { seqs := [{ id := 7, batch := 0, prio := 0, cls := 1, client := 0 }], reserve := [3, 2] })], cores := [(191, { leg := some (freshLeg 1 ⟨1, 0, [100, 0, 0, 0], none, false, 0, 0, false, 0⟩) })] }, { seqs := [{ id := 7, batch := 0, prio := 0, cls := 1, client := 0 }], reserve := [3, 2] }, { id := 7, batch := 0, prio := 0, cls := 1, client := 0 }, by decide +kernel⟩

theorem wit_SchedulerCommands_evictionCrossingDone : ∃ (s : State) (t : Nat) (seq : Nat) (page : Nat) (ch : Nat) (x : Xfer) (a : Device),
    (t < 64) ∧
    ((s.dev.mm.chans.find? fun c => c.2.kind == 3 && c.2.ten == t && c.2.seq == seq && c.2.entry == page && s.dev.rd MEM_CHAN_STAT.state c.1 == chFlipping) = some (ch, x)) ∧
    (x.src = s.dev.devId <<< 52 + page * pageSize) ∧
    (x.arriving = []) ∧
    (a = ((s.dev.setPages x.departing pgVacated).releaseHeld ch fun ga => if inRange ga x.src x.len then x.dst + (ga - x.src) else ga).dropChan ch) :=
  ⟨{ dev := { ({} : Device).wr MEM_CHAN_STAT.state 15 4 with mm := { chans := [(15, ({ kind := 3, sn := 0, queue := 0, ten := 0, cls := 0, client := 0, step := 0, mid := 0, src := 5 * pageSize, dst := 0, len := 0, chunk := 0, entry := 5, seq := 9 } : Xfer))] } } }, 0, 9, 5, 15, ({ kind := 3, sn := 0, queue := 0, ten := 0, cls := 0, client := 0, step := 0, mid := 0, src := 5 * pageSize, dst := 0, len := 0, chunk := 0, entry := 5, seq := 9 } : Xfer), ((Device.setPages ({ ({} : Device).wr MEM_CHAN_STAT.state 15 4 with mm := { chans := [(15, ({ kind := 3, sn := 0, queue := 0, ten := 0, cls := 0, client := 0, step := 0, mid := 0, src := 5 * pageSize, dst := 0, len := 0, chunk := 0, entry := 5, seq := 9 } : Xfer))] } }) [] pgVacated).releaseHeld 15 fun ga => if inRange ga (({ kind := 3, sn := 0, queue := 0, ten := 0, cls := 0, client := 0, step := 0, mid := 0, src := 5 * pageSize, dst := 0, len := 0, chunk := 0, entry := 5, seq := 9 } : Xfer)).src 0 then 0 + (ga - (({ kind := 3, sn := 0, queue := 0, ten := 0, cls := 0, client := 0, step := 0, mid := 0, src := 5 * pageSize, dst := 0, len := 0, chunk := 0, entry := 5, seq := 9 } : Xfer)).src) else ga).dropChan 15, by decide +kernel⟩

theorem wit_LegCommands_legStart : ∃ (s : State) (n : Nat) (m : Mail) (ms : List Mail) (l : Leg) (a : Device) (b : Device) (e : Device),
    (n < 192) ∧
    ((s.dev.core n).mail = m :: ms) ∧
    (s.dev.coreSt n = 3) ∧
    ((s.dev.core n).leg = none) ∧
    ((s.dev.core n).newPart = none) ∧
    (m.start = none) ∧
    (m.internal = 0) ∧
    (m.withheld = false) ∧
    (m.hold ≤ (s.dev.cycle : Int)) ∧
    (∀ p ∈ s.dev.pwr.crit, p.1 ≠ coreDie n) ∧
    (s.dev.gapOk n s.dev.cycle (lgBound m.desc) = true) ∧
    (s.dev.dutyHolds n (tagCls (dsTag m.desc)) = false) ∧
    (l = freshLeg ((s.dev.core n).serials + 1) m) ∧
    (a = (((((((s.dev.popMail n).wr COR_SEQ_STAT.manifest_id n l.mid).wr COR_SEQ_STAT.tenancy n l.ten).wr COR_SEQ_STAT.class_ n (tagCls (dsTag m.desc))).wr COR_SEQ_STAT.leg_index n l.idx).wr COR_SEQ_STAT.overrun n 0).wr COR_SEQ_STAT.running n 1)) ∧
    (b = a.firstStart m l.ten l.client (tagCls (dsTag m.desc))) ∧
    (e = ((b.setCore n { b.core n with leg := some l, serials := (s.dev.core n).serials + 1, banks := (b.core n).banks.map fun k => (k.1, { k.2 with rot := 0 }) }).setCoreSt n 4).showReserve) ∧
    (l.bound ≤ 262144) ∧
    (e.rd COR_TIMING.leg_start n < l.bound) ∧
    (e.ownsMask n l.ten l.granules = true) :=
  ⟨{ dev := { ({} : Device).setCoreSt 191 3 with cores := [(191, { mail := [⟨1, 0, [232, 3, 0, 0] ++ List.replicate 60 0, none, false, 0, 0, false, 0⟩] })] } }, 191, ⟨1, 0, [232, 3, 0, 0] ++ List.replicate 60 0, none, false, 0, 0, false, 0⟩, [], _, _, _, _, by decide +kernel, by decide +kernel, by decide +kernel, by decide +kernel, by decide +kernel, by decide +kernel, by decide +kernel, by decide +kernel, by decide +kernel, by decide +kernel, by decide +kernel, by decide +kernel, rfl, rfl, rfl, rfl, by decide +kernel, by decide +kernel, by decide +kernel⟩

theorem wit_LegCommands_legEnd : ∃ (s : State) (n : Nat) (cyc : Nat) (last : Nat) (l : Leg) (m : Leg) (e : Device),
    (n < 192) ∧
    ((s.dev.core n).leg = some l) ∧
    (l.seqWait = none) ∧
    (l.stall = none) ∧
    (s.dev.rd COR_TIMING.leg_start n ≤ cyc) ∧
    (l.count ≤ cyc) ∧
    (s.dev.withheld n l = false) ∧
    (s.dev.isFenced n 6 = false) ∧
    (l.quiet = true) ∧
    (last = (l.lane.stores.map WPend.due).foldl max cyc) ∧
    (last < l.bound) ∧
    (landStores n last s.dev l = .go e m) ∧
    (m.posts = []) ∧
    (m.internal = 0) ∧
    (m.bound = l.bound) :=
  ⟨{ dev := running 191 aLeg }, 191, 40, 40, aLeg, aLeg, running 191 aLeg, by decide +kernel⟩

theorem wit_LegCommands_legOverrun : ∃ (s : State) (n : Nat) (l : Leg),
    (n < 192) ∧
    ((s.dev.core n).leg = some l) ∧
    (l.overrun = false) ∧
    (l.internal = 0) :=
  ⟨{ dev := running 0 aLeg }, 0, aLeg, by decide +kernel⟩

theorem wit_LegCommands_legDiscard : ∃ (s : State) (n : Nat) (l : Leg) (m : Leg) (a : Device),
    (n < 192) ∧
    ((s.dev.core n).leg = some l) ∧
    (l.overrun = true) ∧
    (l.internal = 0) ∧
    (l.cls ≠ 0) ∧
    (m = { l with count := 4 * l.bound }) ∧
    (a = s.dev.dropLeg n m) :=
  ⟨{ dev := running 0 { aLeg with overrun := true } }, 0, { aLeg with overrun := true }, _, _, by decide +kernel, by decide +kernel, by decide +kernel, by decide +kernel, by decide +kernel, rfl, rfl⟩

theorem wit_LegCommands_coreRecoveryDone : ∃ (s : State) (n : Nat),
    (n < 192) ∧
    (s.dev.coreSt n = 5) ∧
    ((s.dev.core n).bringIn = false) :=
  ⟨{ dev := ({} : Device).setCoreSt 0 5 }, 0, by decide +kernel⟩

theorem wit_LegCommands_tspartAdoption : ∃ (s : State) (n : Nat) (v : Nat) (t : Nat) (old : Nat) (a : Device),
    (n < 192) ∧
    ((s.dev.core n).newPart = some (v, t)) ∧
    ((s.dev.core n).leg = none) ∧
    (old = (s.dev.reg .COR_TSPART n).toNat) ∧
    (a = (List.range 16).foldl (fun d g => if ownerIn old g = ownerIn v g then d else d.zero spTS (tsOff n (131072 * g)) 131072) s.dev) :=
  ⟨{ dev := { cores := [(0, { newPart := some (0xBC00, 0) })] } }, 0, 0xBC00, 0, _, _, by decide +kernel, by decide +kernel, by decide +kernel, rfl, rfl⟩

theorem wit_LegCommands_tileStoreUncorrectable : ∃ (s : State) (n : Nat) (l : Leg),
    (n < 192) ∧
    ((s.dev.core n).leg = some l) :=
  ⟨{ dev := running 0 aLeg }, 0, aLeg, by decide +kernel⟩

theorem wit_SequencerCommands_tokenSet : ∃ (s : State) (n : Nat) (tok : Nat) (cy : Nat) (l : Leg) (m : Leg) (e : Device),
    (n < 192) ∧
    (tok < 64) ∧
    (max l.count (s.dev.rd COR_TIMING.leg_start n) = cy) ∧
    (s.dev.issues n cy l e m) :=
  ⟨{ dev := running 0 aLeg }, 0, 63, 24, aLeg, aLegAt 24, running 0 aLeg, by decide +kernel⟩

theorem wit_SequencerCommands_tokenWait : ∃ (s : State) (n : Nat) (cyc : Nat) (tok : Nat) (l : Leg) (m : Leg) (e : Device),
    (n < 192) ∧
    (tok < 64) ∧
    (s.dev.issues n cyc l e m) ∧
    (m.tokens.find? (fun t => t.1 == tok) = some (tok, { err := false })) :=
  ⟨{ dev := running 0 { aLeg with tokens := [(63, { err := false })] } }, 0, 30, 63, { aLeg with tokens := [(63, { err := false })] }, { aLegAt 30 with tokens := [(63, { err := false })] }, running 0 { aLeg with tokens := [(63, { err := false })] }, by decide +kernel⟩

theorem wit_SequencerCommands_tokenWait_ : ∃ (s : State) (n : Nat) (cyc : Nat) (tok : Nat) (l : Leg) (m : Leg) (e : Device),
    (n < 192) ∧
    (tok < 64) ∧
    (s.dev.issues n cyc l e m) ∧
    (m.tokens.find? (fun t => t.1 == tok) = none) :=
  ⟨{ dev := running 0 aLeg }, 0, 30, 63, aLeg, aLegAt 30, running 0 aLeg, by decide +kernel⟩

theorem wit_SequencerCommands_tokenWait__ : ∃ (s : State) (n : Nat) (cyc : Nat) (tok : Nat) (l : Leg) (m : Leg) (e : Device) (x : Tok),
    (n < 192) ∧
    (tok < 64) ∧
    (s.dev.issues n cyc l e m) ∧
    (m.tokens.find? (fun t => t.1 == tok) = some (tok, x)) ∧
    (x.err = true) :=
  ⟨{ dev := running 0 { aLeg with tokens := [(63, { err := true })] } }, 0, 30, 63, { aLeg with tokens := [(63, { err := true })] }, { aLegAt 30 with tokens := [(63, { err := true })] }, running 0 { aLeg with tokens := [(63, { err := true })] }, { err := true }, by decide +kernel⟩

theorem wit_SequencerCommands_tokenWait___ : ∃ (s : State) (n : Nat) (cyc : Nat) (tok : Nat) (l : Leg) (m : Leg) (e : Device),
    (n < 192) ∧
    (tok < 64) ∧
    (s.dev.laneIssues n cyc l e m) ∧
    (m.tokens.find? (fun t => t.1 == tok) = none) :=
  ⟨{ dev := running 0 aLeg }, 0, 30, 63, aLeg, aLegAt 30, running 0 aLeg, by decide +kernel⟩

theorem wit_SequencerCommands_startSignalLane : ∃ (s : State) (n : Nat) (cy : Nat) (l : Leg) (m : Leg) (e : Device),
    (n < 192) ∧
    (max l.count (s.dev.rd COR_TIMING.leg_start n) = cy) ∧
    (s.dev.issues n cy l e m) :=
  ⟨{ dev := running 0 aLeg }, 0, 24, aLeg, aLegAt 24, running 0 aLeg, by decide +kernel⟩

theorem wit_SequencerCommands_seqMove : ∃ (s : State) (n : Nat) (ts : Nat) (pool : Nat) (len : Nat) (tok : Nat) (cy : Nat) (l : Leg) (m : Leg) (e : Device) (bs : List Byte) (a : Device),
    (n < 192) ∧
    (tok < 64) ∧
    (max l.count (s.dev.rd COR_TIMING.leg_start n) = cy) ∧
    (s.dev.issues n cy l e m) ∧
    (e.isFenced n 28 = false) ∧
    (∀ p ∈ parts (e.devId <<< 52 + 2 <<< 48 + pool) len, (∀ x, e.meet m.ten p.1 false ≠ .waits x) ∧ (∀ k i, e.locate m.ten p.1 false = some (k, i) → e.routeLost (coreDie n) k p.2 = false)) ∧
    (e.readGA m.ten (e.devId <<< 52 + 2 <<< 48 + pool) len = .ok bs) ∧
    (e.ownsRange n m.ten ts bs.length = true) ∧
    (e.poisonWrite spTS (tsOff n ts) bs.length = some a) :=
  ⟨{ dev := running 0 aLeg }, 0, 128, 0, 0, 63, 24, aLeg, aLegAt 24, running 0 aLeg, [], running 0 aLeg, by decide, by decide, by decide +kernel, by decide +kernel, by decide +kernel, (fun p hp => nomatch hp), by decide +kernel, by decide +kernel, by decide +kernel⟩

theorem wit_SequencerCommands_seqMove_ : ∃ (s : State) (n : Nat) (ts : Nat) (pool : Nat) (len : Nat) (cy : Nat) (l : Leg) (m : Leg) (e : Device) (a : Device),
    (n < 192) ∧
    (max l.count (s.dev.rd COR_TIMING.leg_start n) = cy) ∧
    (s.dev.issues n cy l e m) ∧
    (e.isFenced n 28 = false) ∧
    (∀ p ∈ parts (e.devId <<< 52 + 2 <<< 48 + pool) len, (∀ x, e.meet m.ten p.1 true ≠ .waits x) ∧ (∀ k i, e.locate m.ten p.1 true = some (k, i) → e.routeLost (coreDie n) k p.2 = false)) ∧
    (e.ownsRange n m.ten ts len = true) ∧
    (e.poisonIn spTS (tsOff n ts) len = none) ∧
    (e.ownWrite m.ten (e.devId <<< 52 + 2 <<< 48 + pool) (e.peek devKey spTS (tsOff n ts) len) .none = (a, .ok)) :=
  ⟨{ dev := running 0 aLeg }, 0, 128, 0, 0, 24, aLeg, aLegAt 24, running 0 aLeg, running 0 aLeg, by decide, by decide +kernel, by decide +kernel, by decide +kernel, (fun p hp => nomatch hp), by decide +kernel, by decide +kernel, by decide +kernel⟩

theorem wit_SequencerCommands_rsload : ∃ (s : State) (n : Nat) (q : Nat) (ts : Nat) (base : Nat) (count : Nat) (cy : Nat) (l : Leg) (m : Leg) (e : Device) (bs : List Byte),
    (n < 192) ∧
    (q < 4) ∧
    (base < 256) ∧
    (count ≤ 256) ∧
    (max l.count (s.dev.rd COR_TIMING.leg_start n) = cy) ∧
    (s.dev.issues n cy l e m) ∧
    (e.ownsRange n m.ten ts (4 * count) = true) ∧
    (e.poisonIn spTS (tsOff n ts) (4 * count) = none) ∧
    (bs = e.peek devKey spTS (tsOff n ts) (4 * count)) :=
  ⟨{ dev := running 0 aLeg }, 0, 3, 128, 255, 2, 24, aLeg, aLegAt 24, running 0 aLeg, _, by decide +kernel, by decide +kernel, by decide +kernel, by decide +kernel, by decide +kernel, by decide +kernel, by decide +kernel, by decide +kernel, rfl⟩

theorem wit_LaneCommands_signalLaneOp : ∃ (s : State) (n : Nat) (cyc : Nat) (op : LaneOp) (l : Leg) (m : Leg) (e : Device) (r : Nat × Nat × Res (List Byte)),
    (n < 192) ∧
    (op.wf = true) ∧
    (s.dev.laneIssues n cyc l e m) ∧
    (r = laneOp m.lane cyc op) :=
  ⟨{ dev := running 0 aLeg }, 0, 30, .addI16 31 0 1, aLeg, aLegAt 30, running 0 aLeg, _, by decide +kernel, by decide +kernel, by decide +kernel, rfl⟩

theorem wit_LaneCommands_signalLaneLoad : ∃ (s : State) (n : Nat) (cyc : Nat) (bus : Nat) (v : Nat) (addr : Nat) (l : Leg) (m : Leg) (e : Device),
    (n < 192) ∧
    (v < 32) ∧
    (bus < 2) ∧
    (s.dev.laneIssues n cyc l e m) ∧
    (e.isFenced n (8 + bus) = false) ∧
    (e.ownsRange n m.ten addr 128 = true) ∧
    (e.poisonIn spTS (tsOff n addr) 128 = none) :=
  ⟨{ dev := running 0 aLeg }, 0, 30, 1, 31, 256, aLeg, aLegAt 30, running 0 aLeg, by decide +kernel⟩

theorem wit_LaneCommands_signalLaneLoad_ : ∃ (s : State) (n : Nat) (cyc : Nat) (v : Nat) (g : ZGen) (l : Leg) (m : Leg) (e : Device) (z : Lane),
    (n < 192) ∧
    (v < 32) ∧
    (g.wf = true) ∧
    (s.dev.laneIssues n cyc l e m) ∧
    (e.isFenced n 10 = false) ∧
    (e.ownsRange n m.ten (g.base + g.pos) 128 = true) ∧
    (e.poisonIn spTS (tsOff n (g.base + g.pos)) 128 = none) ∧
    (z = { m.lane with z := { g with pos := (g.pos + g.stride) % 2 ^ g.lenLog } }) :=
  ⟨{ dev := running 0 aLeg }, 0, 30, 31, { base := 128, stride := 64, lenLog := 10 }, aLeg, aLegAt 30, running 0 aLeg, _, by decide +kernel, by decide +kernel, by decide +kernel, by decide +kernel, by decide +kernel, by decide +kernel, by decide +kernel, rfl⟩

theorem wit_LaneCommands_wStore : ∃ (s : State) (n : Nat) (cyc : Nat) (srcs : List Nat) (ty : WTy) (dst : WDst) (scaled : Bool) (addr : Nat) (recAddr : Nat) (l : Leg) (m : Leg) (e : Device) (r : Res WOut),
    (n < 192) ∧
    (∀ v ∈ srcs, v < 32) ∧
    (wPair srcs.length ty dst = true) ∧
    (dst.wf = true) ∧
    (s.dev.laneIssues n cyc l e m) ∧
    (r = wStore ty dst (if scaled then m.lane.sh else 0) m.lane.exp (srcs.flatMap (m.lane.read cyc))) ∧
    (e.ownsRange n m.ten addr r.val.data.length = true) ∧
    (∀ x, r.val.rec_ = some x → e.ownsRange n m.ten recAddr 1 = true) ∧
    (e.isFenced n 7 = false) :=
  ⟨{ dev := running 0 aLeg }, 0, 30, [31], .f32, .f32, false, 256, 0, aLeg, aLegAt 30, running 0 aLeg, _, by decide, by decide, by decide, by decide, by decide +kernel, rfl, by decide +kernel, by decide +kernel, by decide +kernel⟩

theorem wit_LaneCommands_repeat_ : ∃ (s : State) (n : Nat) (cyc : Nat) (len : Nat) (count : Nat) (l : Leg) (m : Leg) (e : Device),
    (n < 192) ∧
    (1 ≤ len) ∧
    (len ≤ 256) ∧
    (1 ≤ count) ∧
    (count ≤ 65536) ∧
    (s.dev.laneIssues n cyc l e m) ∧
    (m.lane.reps = []) :=
  ⟨{ dev := running 0 aLeg }, 0, 30, 256, 1, aLeg, aLegAt 30, running 0 aLeg, by decide +kernel⟩

theorem wit_LaneCommands_repeatCacheParityError : ∃ (s : State) (n : Nat) (next : Nat) (l : Leg) (r : Rep) (a : Device),
    (n < 192) ∧
    ((s.dev.core n).leg = some l) ∧
    (l.lane.reps.getLast? = some r) ∧
    (l.lane.cache.contains l.lane.pc = true) ∧
    (next = max l.count l.lane.next + 2 + ((r.body + 8 * r.len + 127) / 128 - r.body / 128)) ∧
    (a = (s.dev.putLeg n { l with perturbed := true, lane := { l.lane with next := next } }).wr COR_TIMING.perturbed n 1) ∧
    ((a.correctable (a.coreUnit n) 4 0).2 = false) :=
  ⟨{ dev := running 0 { aLeg with lane := { running := true, reps := [⟨0, 1, 1, 8⟩], cache := [0] } } }, 0, _, { aLeg with lane := { running := true, reps := [⟨0, 1, 1, 8⟩], cache := [0] } }, ⟨0, 1, 1, 8⟩, _, by decide, by decide +kernel, by decide +kernel, by decide +kernel, rfl, rfl, by decide +kernel⟩

theorem wit_LaneCommands_shset : ∃ (s : State) (n : Nat) (cyc : Nat) (l : Leg) (m : Leg) (e : Device),
    (n < 192) ∧
    (s.dev.laneIssues n cyc l e m) :=
  ⟨{ dev := running 0 aLeg }, 0, 30, aLeg, aLegAt 30, running 0 aLeg, by decide +kernel⟩

theorem wit_LaneCommands_expset : ∃ (s : State) (n : Nat) (cyc : Nat) (sreg : Nat) (value : Nat) (l : Leg) (m : Leg) (e : Device),
    (n < 192) ∧
    (sreg < 32) ∧
    (value < 2 ^ 64) ∧
    (s.dev.laneIssues n cyc l e m) :=
  ⟨{ dev := running 0 aLeg }, 0, 30, 31, 5, aLeg, aLegAt 30, running 0 aLeg, by decide +kernel⟩

theorem wit_LaneCommands_beclr : ∃ (s : State) (n : Nat) (cyc : Nat) (l : Leg) (m : Leg) (e : Device),
    (n < 192) ∧
    (s.dev.laneIssues n cyc l e m) :=
  ⟨{ dev := running 0 aLeg }, 0, 30, aLeg, aLegAt 30, running 0 aLeg, by decide +kernel⟩

theorem wit_DivisionCommands_divsetup : ∃ (s : State) (n : Nat) (cyc : Nat) (a : Nat) (b : Nat) (l : Leg) (m : Leg) (e : Device),
    (n < 192) ∧
    (a < 32) ∧
    (b < 32) ∧
    (s.dev.laneIssues n cyc l e m) :=
  ⟨{ dev := running 0 aLeg }, 0, 30, 0, 31, aLeg, aLegAt 30, running 0 aLeg, by decide +kernel⟩

theorem wit_DivisionCommands_divsetupF : ∃ (s : State) (n : Nat) (cyc : Nat) (a : Nat) (b : Nat) (l : Leg) (m : Leg) (e : Device),
    (n < 192) ∧
    (a < 32) ∧
    (b < 32) ∧
    (s.dev.laneIssues n cyc l e m) :=
  ⟨{ dev := running 0 aLeg }, 0, 30, 0, 31, aLeg, aLegAt 30, running 0 aLeg, by decide +kernel⟩

theorem wit_DivisionCommands_divisionStep : ∃ (s : State) (n : Nat) (cyc : Nat) (l : Leg) (m : Leg) (e : Device),
    (n < 192) ∧
    (s.dev.laneIssues n cyc l e m) :=
  ⟨{ dev := running 0 aLeg }, 0, 30, aLeg, aLegAt 30, running 0 aLeg, by decide +kernel⟩

theorem wit_DivisionCommands_divq15 : ∃ (s : State) (n : Nat) (cyc : Nat) (v : Nat) (l : Leg) (m : Leg) (e : Device) (r : Res (List Int)),
    (n < 192) ∧
    (v < 32) ∧
    (s.dev.laneIssues n cyc l e m) ∧
    (r = Res.gather (m.lane.div.map divQ15)) :=
  ⟨{ dev := running 0 aLeg }, 0, 30, 31, aLeg, aLegAt 30, running 0 aLeg, _, by decide +kernel, by decide +kernel, by decide +kernel, rfl⟩

theorem wit_DivisionCommands_divrnd : ∃ (s : State) (n : Nat) (cyc : Nat) (v : Nat) (l : Leg) (m : Leg) (e : Device) (r : Res (List Nat)),
    (n < 192) ∧
    (v < 32) ∧
    (s.dev.laneIssues n cyc l e m) ∧
    (r = Res.gather (m.lane.div.map divRnd)) :=
  ⟨{ dev := running 0 aLeg }, 0, 30, 31, aLeg, aLegAt 30, running 0 aLeg, _, by decide +kernel, by decide +kernel, by decide +kernel, rfl⟩

theorem wit_PassCommands_passDescriptorIssue : ∃ (s : State) (n : Nat) (cyc : Nat) (q : Nat) (parts : List PassDesc) (ps : List PassDesc) (l : Leg) (m : Leg) (e : Device),
    (n < 192) ∧
    (q < 4) ∧
    (∀ p ∈ parts, p.cube / 4 = q) ∧
    (s.dev.issues n cyc l e m) ∧
    (m.cmdqLen q < 32) ∧
    (∀ p ∈ parts, formTrap parts p (e.formOf m p.form) = false) ∧
    (ps = (List.range 4).filterMap fun i => parts.find? fun p => p.cube == 4 * q + i) :=
  ⟨{ dev := running 0 aLeg }, 0, 30, 3, [], _, aLeg, aLegAt 30, running 0 aLeg, by decide +kernel, by decide +kernel, by decide +kernel, by decide +kernel, by decide +kernel, by decide +kernel, rfl⟩

theorem wit_PassCommands_passDescriptorIssue_ : ∃ (s : State) (n : Nat) (cyc : Nat) (q : Nat) (parts : List PassDesc) (p : PassDesc) (l : Leg) (m : Leg) (e : Device),
    (n < 192) ∧
    (q < 4) ∧
    (∀ p ∈ parts, p.cube / 4 = q) ∧
    (s.dev.issues n cyc l e m) ∧
    (m.cmdqLen q < 32) ∧
    (p ∈ parts) ∧
    (formTrap parts p (e.formOf m p.form) = true) :=
  ⟨{ dev := running 0 aLeg }, 0, 30, 3, [aPass 12], aPass 12, aLeg, aLegAt 30, running 0 aLeg, by decide +kernel⟩

theorem wit_PassCommands_feederPop : ∃ (s : State) (n : Nat) (cyc : Nat) (u : Nat) (k : Nat) (l : Leg) (m : Leg) (e : Device) (c : Cube) (p : Pass) (p2 : Pass) (ps : List Pass) (a : List Feed) (b : List Feed) (as : List (List Feed)) (bs : List (List Feed)) (r : Res (List Accu)),
    (n < 192) ∧
    (u < 16) ∧
    (s.dev.acts n 24 cyc l e m) ∧
    (c = m.cube u) ∧
    (c.free ≤ cyc) ∧
    (c.queue = p :: ps) ∧
    (c.aq = a :: as) ∧
    (c.bq = b :: bs) ∧
    (k = if p.done = 0 then c.nextBank else p.bank) ∧
    (p.done ≠ 0 ∨ (if k = 0 then c.full0 else c.full1) = none) ∧
    (r = kStepTile p.desc.fmt (p.done = 0) (if k = 0 then c.bank0 else c.bank1) a b) ∧
    (p2 = { p with done := p.done + 1, bank := k, pops := p.pops ++ [(a, b)] }) ∧
    (p.done + 1 < p.desc.n) :=
  ⟨{ dev := running 0 (aLeg.setCube 5 { queue := [{ desc := aPass 5, num := 0, cube := 5, done := 1 }], aq := [[]], bq := [[]] }) }, 0, 24, 5, _, aLeg.setCube 5 { queue := [{ desc := aPass 5, num := 0, cube := 5, done := 1 }], aq := [[]], bq := [[]] }, (aLegAt 24).setCube 5 { queue := [{ desc := aPass 5, num := 0, cube := 5, done := 1 }], aq := [[]], bq := [[]] }, running 0 (aLeg.setCube 5 { queue := [{ desc := aPass 5, num := 0, cube := 5, done := 1 }], aq := [[]], bq := [[]] }), _, { desc := aPass 5, num := 0, cube := 5, done := 1 }, _, [], [], [], [], [], _, by decide +kernel, by decide +kernel, by decide +kernel, rfl, by decide +kernel, by decide +kernel, by decide +kernel, by decide +kernel, rfl, by decide +kernel, rfl, rfl, by decide +kernel⟩

theorem wit_PassCommands_feederPop_ : ∃ (s : State) (n : Nat) (cyc : Nat) (u : Nat) (k : Nat) (l : Leg) (m : Leg) (e : Device) (c : Cube) (p : Pass) (p2 : Pass) (ps : List Pass) (a : List Feed) (b : List Feed) (as : List (List Feed)) (bs : List (List Feed)) (r : Res (List Accu)),
    (n < 192) ∧
    (u < 16) ∧
    (s.dev.acts n 24 cyc l e m) ∧
    (c = m.cube u) ∧
    (c.free ≤ cyc) ∧
    (c.queue = p :: ps) ∧
    (c.aq = a :: as) ∧
    (c.bq = b :: bs) ∧
    (k = if p.done = 0 then c.nextBank else p.bank) ∧
    (p.done ≠ 0 ∨ (if k = 0 then c.full0 else c.full1) = none) ∧
    (r = kStepTile p.desc.fmt (p.done = 0) (if k = 0 then c.bank0 else c.bank1) a b) ∧
    (p2 = { p with done := p.done + 1, bank := k, pops := p.pops ++ [(a, b)] }) ∧
    (p.desc.n ≤ p.done + 1) :=
  ⟨{ dev := running 0 (aLeg.setCube 5 { queue := [{ desc := aPass 5, num := 0, cube := 5, done := 3 }], aq := [[]], bq := [[]] }) }, 0, 24, 5, _, aLeg.setCube 5 { queue := [{ desc := aPass 5, num := 0, cube := 5, done := 3 }], aq := [[]], bq := [[]] }, (aLegAt 24).setCube 5 { queue := [{ desc := aPass 5, num := 0, cube := 5, done := 3 }], aq := [[]], bq := [[]] }, running 0 (aLeg.setCube 5 { queue := [{ desc := aPass 5, num := 0, cube := 5, done := 3 }], aq := [[]], bq := [[]] }), _, { desc := aPass 5, num := 0, cube := 5, done := 3 }, _, [], [], [], [], [], _, by decide +kernel, by decide +kernel, by decide +kernel, rfl, by decide +kernel, by decide +kernel, by decide +kernel, by decide +kernel, rfl, by decide +kernel, rfl, rfl, by decide +kernel⟩

theorem wit_PassCommands_feederFill : ∃ (s : State) (n : Nat) (u : Nat) (k : Nat) (isB : Bool) (l : Leg) (m : Leg) (e : Device) (c : Cube) (p : Pass) (line : List Byte),
    (n < 192) ∧
    (u < 16) ∧
    (s.dev.acts n 12 (max l.count 12) l e m) ∧
    (e.isFenced n (11 + u) = false) ∧
    (c = m.cube u) ∧
    (c.wants isB = some (p, k)) ∧
    (e.ownsRange n m.ten ((if isB then p.desc.b else p.desc.a) + 128 * k) 128 = true) ∧
    (e.poisonIn spTS (tsOff n ((if isB then p.desc.b else p.desc.a) + 128 * k)) 128 = none) ∧
    (line = e.peek devKey spTS (tsOff n ((if isB then p.desc.b else p.desc.a) + 128 * k)) 128) ∧
    (p.desc.fmt.scaleBytes = 0) :=
  ⟨{ dev := running 0 (aLeg.setCube 5 { queue := [{ desc := aPass 5, num := 0, cube := 5 }] }) }, 0, 5, 0, true, aLeg.setCube 5 { queue := [{ desc := aPass 5, num := 0, cube := 5 }] }, (aLegAt 12).setCube 5 { queue := [{ desc := aPass 5, num := 0, cube := 5 }] }, running 0 (aLeg.setCube 5 { queue := [{ desc := aPass 5, num := 0, cube := 5 }] }), _, { desc := aPass 5, num := 0, cube := 5 }, _, by decide +kernel, by decide +kernel, by decide +kernel, by decide +kernel, rfl, by decide +kernel, by decide +kernel, by decide +kernel, rfl, by decide +kernel⟩

theorem wit_PassCommands_feederFill_ : ∃ (s : State) (n : Nat) (u : Nat) (k : Nat) (isB : Bool) (l : Leg) (m : Leg) (e : Device) (c : Cube) (p : Pass) (line : List Byte) (scales : List Byte) (x : Nat),
    (n < 192) ∧
    (u < 16) ∧
    (s.dev.acts n 12 (max l.count 12) l e m) ∧
    (e.isFenced n (11 + u) = false) ∧
    (c = m.cube u) ∧
    (c.wants isB = some (p, k)) ∧
    (e.ownsRange n m.ten ((if isB then p.desc.b else p.desc.a) + 128 * k) 128 = true) ∧
    (e.poisonIn spTS (tsOff n ((if isB then p.desc.b else p.desc.a) + 128 * k)) 128 = none) ∧
    (line = e.peek devKey spTS (tsOff n ((if isB then p.desc.b else p.desc.a) + 128 * k)) 128) ∧
    (x = (if isB then p.desc.bScale else p.desc.aScale) + p.desc.fmt.scaleBytes * k) ∧
    (p.desc.fmt.scaleBytes ≠ 0) ∧
    (e.ownsRange n m.ten x p.desc.fmt.scaleBytes = true) ∧
    (e.poisonIn spTS (tsOff n x) p.desc.fmt.scaleBytes = none) ∧
    (scales = e.peek devKey spTS (tsOff n x) p.desc.fmt.scaleBytes) :=
  ⟨{ dev := running 0 (aLeg.setCube 5 { queue := [{ desc := { aPass 5 with fmt := .mxfp8e4m3 }, num := 0, cube := 5 }] }) }, 0, 5, 0, true, aLeg.setCube 5 { queue := [{ desc := { aPass 5 with fmt := .mxfp8e4m3 }, num := 0, cube := 5 }] }, (aLegAt 12).setCube 5 { queue := [{ desc := { aPass 5 with fmt := .mxfp8e4m3 }, num := 0, cube := 5 }] }, running 0 (aLeg.setCube 5 { queue := [{ desc := { aPass 5 with fmt := .mxfp8e4m3 }, num := 0, cube := 5 }] }), _, { desc := { aPass 5 with fmt := .mxfp8e4m3 }, num := 0, cube := 5 }, _, _, _, by decide +kernel, by decide +kernel, by decide +kernel, by decide +kernel, rfl, by decide +kernel, by decide +kernel, by decide +kernel, rfl, rfl, by decide +kernel, by decide +kernel, by decide +kernel, rfl⟩

theorem wit_PassCommands_epiloguePass : ∃ (s : State) (n : Nat) (u : Nat) (l : Leg) (k : Leg) (m : Leg) (p : Pass) (bank : List Accu) (form : List Byte) (r : Res (List Nat × List Accu) × Option (List Accu)) (x : Res EpiOut) (d : Device) (e : Device),
    (n < 192) ∧
    (u < 16) ∧
    (s.dev.acts n 24 (max l.count 24) l d k) ∧
    (d.isFenced n (2 + u / 4) = false) ∧
    ((k.cube u).ready = some (p, bank)) ∧
    (d.formOf k p.desc.form = some form) ∧
    (formGate form = 0) ∧
    (formColscale form = false) ∧
    (formBias form = false) ∧
    (formTow form = false) ∧
    (formRowstat form = 0) ∧
    (r = epi15 form p bank (k.cube u).partialT (fun j => smGet (k.quad (u / 4)).rowScale ((p.desc.rowBase + j) % 256) 0) [] []) ∧
    (m = k.setCube u ((k.cube u).drain p r.2)) ∧
    (x = epi69 p.desc.fmt form r.1.val none) ∧
    (x.val.exp = none) ∧
    (d.ownsRange n m.ten p.desc.dest x.val.data.length = true) ∧
    (d.poisonWrite spTS (tsOff n p.desc.dest) x.val.data.length = some e) ∧
    ((e.store spTS (tsOff n p.desc.dest) x.val.data).tasted n m p.num = false) ∧
    (p.desc.token = none) :=
  ⟨{ dev := { running 0 (aLeg.setCube 5 { full0 := some { desc := aPass 5, num := 0, cube := 5, done := 4 } }) with cmds := [⟨1, 0, 0, [], 0, 0, none, some { forms := [[]] }⟩] } }, 0, 5, aLeg.setCube 5 { full0 := some { desc := aPass 5, num := 0, cube := 5, done := 4 } }, (aLegAt 24).setCube 5 { full0 := some { desc := aPass 5, num := 0, cube := 5, done := 4 } }, _, { desc := aPass 5, num := 0, cube := 5, done := 4 }, [], [], _, _, { running 0 (aLeg.setCube 5 { full0 := some { desc := aPass 5, num := 0, cube := 5, done := 4 } }) with cmds := [⟨1, 0, 0, [], 0, 0, none, some { forms := [[]] }⟩] }, { running 0 (aLeg.setCube 5 { full0 := some { desc := aPass 5, num := 0, cube := 5, done := 4 } }) with cmds := [⟨1, 0, 0, [], 0, 0, none, some { forms := [[]] }⟩] }, by decide +kernel, by decide +kernel, by decide +kernel, by decide +kernel, by decide +kernel, by decide +kernel, by decide +kernel, by decide +kernel, by decide +kernel, by decide +kernel, by decide +kernel, rfl, rfl, rfl, by decide +kernel, by decide +kernel, by decide +kernel, by decide +kernel, by decide +kernel⟩

theorem wit_PassCommands_towedTileArrival : ∃ (s : State) (n : Nat) (addr : Nat) (tag : List Byte) (data : List Byte) (e : Device) (a : Device),
    (n < 192) ∧
    (tag.length = 16) ∧
    (tagOk tag = true) ∧
    (s.dev.isFenced n 1 = false) ∧
    (s.dev.ownsRange n (tagTen tag) addr data.length = true) ∧
    (s.dev.poisonWrite spTS (tsOff n addr) data.length = some e) ∧
    (a = (e.store spTS (tsOff n addr) data).landTok n (some 63) false) ∧
    (a.tows = s.dev.tows) ∧
    (s.dev.tows.findIdx? (fun w => w.dst == n && w.addr == addr && w.data == data) = none) :=
  ⟨{ dev := running 0 aLeg }, 0, 128, mkTag 0 1 0 2 0 0, [7], running 0 aLeg, _, by decide, by decide, by decide +kernel, by decide, by decide +kernel, by decide +kernel, rfl, by decide +kernel, by decide⟩

theorem wit_PassCommands_towedTileArrival_ : ∃ (s : State) (n : Nat) (addr : Nat) (tag : List Byte) (data : List Byte) (tok : Option Nat),
    (n < 192) ∧
    (tag.length = 16) ∧
    (tok.all (fun k => decide (k < 64)) = true) ∧
    (tagOk tag = true) ∧
    (s.dev.isFenced n 1 = false) ∧
    (s.dev.ownsRange n (tagTen tag) addr data.length = false) ∧
    (s.dev.tows.findIdx? (fun w => w.dst == n && w.addr == addr && w.data == data) = none) :=
  ⟨{ dev := running 0 aLeg }, 0, 2097152, mkTag 0 1 0 2 0 0, [7], none, by decide +kernel⟩

theorem wit_BankCommands_tileStoreBankGrant : ∃ (s : State) (n : Nat) (b : Nat) (reqs : List (Nat × Nat)) (c : Nat) (w : Nat) (rot : Nat) (k : Bank) (l : Leg) (asked : List Nat) (lost : List Nat),
    (n < 192) ∧
    (b < 32) ∧
    (∀ r ∈ reqs, r.1 < 29 ∧ r.1 ≠ 0 ∧ tsBank r.2 = b) ∧
    (s.dev.coreSt n = 3 ∨ s.dev.coreSt n = 4) ∧
    ((s.dev.core n).leg = some l) ∧
    (s.dev.withheld n l = false) ∧
    (k = smGet (s.dev.core n).banks b {}) ∧
    (k.locked = false) ∧
    (asked = (reqs.map fun r => r.1).filter fun r => !(s.dev.core n).fenced.contains r) ∧
    (bankWinner asked true (some (c % 8 == b % 8)) k.rot = some w) ∧
    (w ≠ 0) ∧
    (rot = if 11 ≤ w ∧ w ≤ 26 then (w - 11 + 1) % 16 else k.rot) ∧
    (lost = (asked.filter fun r => decide (11 ≤ r) && decide (r ≤ 26) && r != w).map fun r => r - 11) :=
  ⟨{ dev := running 0 aLeg }, 0, 31, [(28, 0xF80), (11, 0x1FFF), (5, 0x2F80)], 8, 5, 0, _, aLeg, _, _, by decide, by decide, by decide, by decide +kernel, by decide +kernel, by decide +kernel, rfl, by decide, rfl, by decide, by decide, by decide, rfl⟩

theorem wit_BankCommands_bankWatchdogFire : ∃ (s : State) (n : Nat) (b : Nat) (r : Nat) (k : Bank) (a : Device) (c : Device),
    (n < 192) ∧
    (b < 32) ∧
    (k = smGet (s.dev.core n).banks b {}) ∧
    (k.holder = some r) ∧
    (r ≠ 1) ∧
    (a = ((s.dev.log { unit := s.dev.reqUnit n r, sev := 4, op := 0x08, detail := s.dev.reqUnit n r }).incSat COR_BANKSTAT.wdt_fires n 1).wr COR_BANKSTAT.last_wdt_bank n b) ∧
    (c = (a.setCore n { a.core n with banks := smSet (a.core n).banks b {} { k with holder := none, locked := false, grant := none, period := none }, fenced := r :: (a.core n).fenced.filter fun f => f != r }).perturb n) ∧
    (r = 0 ∨ (c.core n).leg = none) :=
  ⟨{ dev := { cores := [(0, { banks := [(31, { holder := some 11 })] })] } }, 0, 31, 11, { holder := some 11 }, _, _, by decide +kernel, by decide +kernel, by decide +kernel, by decide +kernel, by decide +kernel, rfl, rfl, by decide +kernel⟩

theorem wit_BankCommands_bankWatchdogFire_ : ∃ (s : State) (n : Nat) (b : Nat) (r : Nat) (k : Bank) (a : Device) (c : Device) (l : Leg),
    (n < 192) ∧
    (b < 32) ∧
    (k = smGet (s.dev.core n).banks b {}) ∧
    (k.holder = some r) ∧
    (2 ≤ r) ∧
    (a = ((s.dev.log { unit := s.dev.reqUnit n r, sev := 4, op := 0x08, detail := s.dev.reqUnit n r }).incSat COR_BANKSTAT.wdt_fires n 1).wr COR_BANKSTAT.last_wdt_bank n b) ∧
    (c = (a.setCore n { a.core n with banks := smSet (a.core n).banks b {} { k with holder := none, locked := false, grant := none, period := none }, fenced := r :: (a.core n).fenced.filter fun f => f != r }).perturb n) ∧
    ((c.core n).leg = some l) ∧
    (l.internal = 0) :=
  ⟨{ dev := { cores := [(0, { leg := some aLeg, banks := [(31, { holder := some 11 })] })] } }, 0, 31, 11, { holder := some 11 }, _, _, { aLeg with perturbed := true }, by decide +kernel, by decide +kernel, by decide +kernel, by decide +kernel, by decide +kernel, rfl, rfl, by decide +kernel, by decide +kernel⟩

theorem wit_BankCommands_bankWatchdogFire__ : ∃ (s : State) (n : Nat) (b : Nat) (r : Nat) (k : Bank) (a : Device) (c : Device),
    (n < 192) ∧
    (b < 32) ∧
    (k = smGet (s.dev.core n).banks b {}) ∧
    (k.holder = some r) ∧
    (r = 1) ∧
    (a = ((s.dev.log { unit := s.dev.reqUnit n r, sev := 4, op := 0x08, detail := s.dev.reqUnit n r }).incSat COR_BANKSTAT.wdt_fires n 1).wr COR_BANKSTAT.last_wdt_bank n b) ∧
    (c = (a.setCore n { a.core n with banks := smSet (a.core n).banks b {} { k with holder := none, locked := false, grant := none, period := none }, fenced := r :: (a.core n).fenced.filter fun f => f != r }).perturb n) :=
  ⟨{ dev := { cores := [(0, { leg := some aLeg, banks := [(31, { holder := some 1 })] })] } }, 0, 31, 1, { holder := some 1 }, _, _, by decide +kernel, by decide +kernel, by decide +kernel, by decide +kernel, by decide +kernel, rfl, rfl⟩

theorem wit_BankCommands_debugAccess : ∃ (s : State) (off : Nat) (bs : List Byte) (a : Device) (e : Device),
    (bs.length ≤ 128) ∧
    (s.dev.fnAwake 0 = true) ∧
    (s.dev.debugOpen = true) ∧
    (off < 0x18000000) ∧
    (a = s.dev.perturb (off / 2097152)) ∧
    (a.poisonWrite spTS off bs.length = some e) :=
  ⟨{ dev := ({} : Device).wr SEC_BOOT_STAT.dbg_scope 0 1 }, 5, [1, 2], _, (({} : Device).wr SEC_BOOT_STAT.dbg_scope 0 1).perturb 0, by decide, by decide +kernel, by decide +kernel, by decide, rfl, by decide +kernel⟩

theorem wit_BankCommands_debugAccess_ : ∃ (s : State) (off : Nat) (len : Nat) (a : Device),
    (len ≤ 128) ∧
    (s.dev.fnAwake 0 = true) ∧
    (s.dev.debugOpen = true) ∧
    (off < 0x18000000) ∧
    (a = s.dev.perturb (off / 2097152)) ∧
    (a.poisonIn spTS off len = none) :=
  ⟨{ dev := ({} : Device).wr SEC_BOOT_STAT.dbg_scope 0 1 }, 5, 128, _, by decide, by decide +kernel, by decide +kernel, by decide, rfl, by decide +kernel⟩

theorem wit_BankCommands_debugAccess__ : ∃ (s : State) (off : Nat) (len : Nat),
    (len ≤ 128) ∧
    (s.dev.fnAwake 0 = true) ∧
    (s.dev.debugOpen = false) ∧
    (off < 2 ^ 29) :=
  ⟨{}, 5, 128, by decide +kernel⟩

theorem wit_BankCommands_dutyFrame : ∃ (s : State) (die : Nat) (n : Nat) (k : Nat) (l : Leg) (a : Device),
    (die < 4) ∧
    (n < 192) ∧
    (n / 48 = die) ∧
    (∀ j, j / 48 = die → j ≠ n → (s.dev.core j).leg = none ∧ (s.dev.core j).mail = []) ∧
    ((s.dev.core n).leg = some l) ∧
    (l.internal = 0) ∧
    (k = s.dev.withholdable n l (if l.cls = 1 ∧ s.dev.spareExempt die = true then 0 else s.dev.duty die l.cls)) ∧
    (k ≠ 0) ∧
    (a = s.dev.putLeg n { l with withheld := l.withheld + k }) :=
  ⟨{ dev := (running 5 { aLeg with cls := 2 }).wr SCH_THR_STAT.spare_duty 0 10 }, 0, 5, 10, { aLeg with cls := 2 }, _, by decide, by decide, by decide, by intro j _ hj; simp [running, Device.core, smGet, Ne.symm hj], by decide +kernel, by decide, by decide +kernel, by decide, rfl⟩

theorem wit_BankCommands_dutyFrame_ : ∃ (s : State) (die : Nat) (n : Nat) (m : Mail) (ms : List Mail),
    (die < 4) ∧
    (n < 192) ∧
    (n / 48 = die) ∧
    (∀ j, j / 48 = die → j ≠ n → (s.dev.core j).leg = none ∧ (s.dev.core j).mail = []) ∧
    ((s.dev.core n).leg = none) ∧
    ((s.dev.core n).mail = m :: ms) ∧
    (s.dev.coreSt n = 3) ∧
    ((s.dev.core n).newPart = none) ∧
    (m.start = none) ∧
    (m.hold ≤ (s.dev.cycle : Int)) ∧
    (tagCls (dsTag m.desc) ≠ 1 ∨ s.dev.spareExempt die = false) ∧
    (s.dev.duty die (tagCls (dsTag m.desc)) ≠ 0) ∧
    (s.dev.gapOk n s.dev.cycle (lgBound m.desc) = true) :=
  ⟨{ dev := ({ ({} : Device).setCoreSt 5 3 with cores := [(5, { mail := [⟨1, 0, [232, 3, 0, 0] ++ List.replicate 28 0 ++ mkTag 0 2 0 0 0 0, none, false, 0, 0, false, 0⟩] })] }).wr SCH_THR_STAT.spare_duty 0 10 }, 0, 5, ⟨1, 0, [232, 3, 0, 0] ++ List.replicate 28 0 ++ mkTag 0 2 0 0 0 0, none, false, 0, 0, false, 0⟩, [], by decide, by decide, by decide, by intro j _ hj; simp [Device.core, smGet, Ne.symm hj], by decide +kernel, by decide +kernel, by decide +kernel, by decide +kernel, by decide, by decide +kernel, by decide +kernel, by decide +kernel, by decide +kernel⟩

theorem wit_HostAccess_registerWrite : ∃ (s : State) (fn : Nat) (off : Nat) (size : Nat) (value : Nat) (i : Nat) (r : Reg) (a : RegAcc) (e : Device),
    (fn < 64) ∧
    (off < 0x3800000) ∧
    (size = 4 ∨ size = 8) ∧
    (off % size = 0) ∧
    (value < 2 ^ (8 * size)) ∧
    (regAt (off / 8 * 8) = some (r, i)) ∧
    (s.dev.reaches fn r = true) ∧
    (s.dev.mayWrite fn r i = true) ∧
    (a = regAcc off size value) ∧
    (regAction fn r i (s.dev.effective r i a) a s.dev = none) ∧
    (e = (((s.dev.writeFields fn r i a r.fields).afterWrite s.dev r i a).keepOperands r i (s.dev.effective r i a)).holdLow r i a) :=
  ⟨{}, 0, 1055232, 8, 5, 0, .TEN_QPOS0, _, _, by decide +kernel, by decide +kernel, by decide +kernel, by decide +kernel, by decide +kernel, by decide +kernel, by decide +kernel, by decide +kernel, rfl, by decide +kernel, rfl⟩

theorem wit_HostAccess_registerWrite_ : ∃ (s : State) (fn : Nat) (off : Nat) (size : Nat) (value : Nat) (i : Nat) (r : Reg) (a : RegAcc) (e : Device),
    (fn < 64) ∧
    (off < 0x3800000) ∧
    (size = 4 ∨ size = 8) ∧
    (off % size = 0) ∧
    (value < 2 ^ (8 * size)) ∧
    (regAt (off / 8 * 8) = some (r, i)) ∧
    (s.dev.reaches fn r = true) ∧
    (a = regAcc off size value) ∧
    (s.dev.mayWrite fn r i = true) ∧
    (regAction fn r i (s.dev.effective r i a) a s.dev = some e) :=
  ⟨{}, 0, 1055240, 8, 0, 0, .TEN_QPOS1, _, queuePositionStart 0 0 {}, by decide +kernel, by decide +kernel, by decide +kernel, by decide +kernel, by decide +kernel, by decide +kernel, by decide +kernel, rfl, by decide +kernel, by decide +kernel⟩

theorem wit_HostAccess_registerWrite__ : ∃ (s : State) (fn : Nat) (off : Nat) (size : Nat) (value : Nat) (i : Nat) (r : Reg) (a : RegAcc),
    (fn < 64) ∧
    (off < 0x3800000) ∧
    (size = 4 ∨ size = 8) ∧
    (off % size = 0) ∧
    (value < 2 ^ (8 * size)) ∧
    (regAt (off / 8 * 8) = some (r, i)) ∧
    (s.dev.reaches fn r = true) ∧
    (a = regAcc off size value) ∧
    (s.dev.mayWrite fn r i = false) ∧
    ((r.fields.filter fun f => f.acc == .RWT && f.covered a) = []) :=
  ⟨{}, 1, 1055232, 8, 5, 0, .TEN_QPOS0, _, by decide +kernel, by decide +kernel, by decide +kernel, by decide +kernel, by decide +kernel, by decide +kernel, by decide +kernel, rfl, by decide +kernel, by decide +kernel⟩

theorem wit_HostAccess_bar0BadAccess : ∃ (s : State) (fn : Nat) (off : Nat) (size : Nat),
    (fn < 64) ∧
    (off < 0x4000000) ∧
    (1 ≤ size) ∧
    (size ≤ 64) ∧
    (size ∉ [4, 8] ∨ off % size ≠ 0) ∧
    (s.dev.fnAwake fn = true) :=
  ⟨{}, 63, 0x3FFFFFF, 1, by decide +kernel⟩

theorem wit_HostAccess_bar0BadAccess_ : ∃ (s : State) (fn : Nat) (off : Nat) (size : Nat),
    (fn < 64) ∧
    (off < 0x4000000) ∧
    (1 ≤ size) ∧
    (size ≤ 64) ∧
    (size ∉ [4, 8] ∨ off % size ≠ 0) ∧
    (s.dev.fnAwake fn = true) :=
  ⟨{}, 63, 0x3FFFFFF, 1, by decide +kernel⟩

theorem wit_HostAccess_serviceEvaluation : ∃ (s : State),
    (s.dev.unserviceable = false) ∧
    (s.dev.on GEN_SVC.eval_done 0 = false) ∧
    (s.dev.svcLevel.1 ≠ 0) :=
  ⟨{}, by decide +kernel⟩

theorem wit_HostAccess_serviceEvaluation_ : ∃ (s : State) (old : Nat) (new : Nat),
    (s.dev.unserviceable = false) ∧
    (s.dev.on GEN_SVC.eval_done 0 = true) ∧
    (old = s.dev.rd GEN_SVC.svc_level 0) ∧
    (new = s.dev.svcLevel.1) ∧
    (old ≠ new) :=
  ⟨{ dev := (({} : Device).wr GEN_SVC.eval_done 0 1).wr GEN_SVC.svc_level 0 1 }, 1, _, by decide +kernel, by decide +kernel, by decide +kernel, rfl, by decide +kernel⟩

theorem wit_HostAccess_serviceEvaluation__ : ∃ (s : State),
    (s.dev.unserviceable = true) :=
  ⟨{ dev := ({} : Device).wr GEN_SVC.eval_done 0 1 }, by decide +kernel⟩

theorem wit_TenancyCommands_tenancyQuiesce : ∃ (s : State) (t : Nat),
    (t < 64) ∧
    (s.dev.reaches 0 .TEN_CTL = true) ∧
    (s.dev.rd TEN_STAT.state t = 1) :=
  ⟨{}, 0, by decide +kernel⟩

theorem wit_TenancyCommands_tenancyQuiesced : ∃ (s : State) (t : Nat),
    (t < 64) ∧
    (s.dev.rd TEN_STAT.state t = 2) ∧
    (s.dev.tenIdle t = true) :=
  ⟨{ dev := ({} : Device).wr TEN_STAT.state 63 2 }, 63, by decide +kernel⟩

theorem wit_TenancyCommands_tenancyResume : ∃ (s : State) (t : Nat),
    (t < 64) ∧
    (s.dev.reaches 0 .TEN_CTL = true) ∧
    (s.dev.rd TEN_STAT.state t = 2 ∨ s.dev.rd TEN_STAT.state t = 3) :=
  ⟨{ dev := ({} : Device).wr TEN_STAT.state 63 3 }, 63, by decide +kernel⟩

theorem wit_TenancyCommands_tenancyReset : ∃ (s : State) (t : Nat),
    (t < 64) ∧
    (s.dev.reaches 0 .TEN_CTL = true) :=
  ⟨{}, 63, by decide +kernel⟩

theorem wit_TenancyCommands_tenancyReset_ : ∃ (t : Nat),
    (t < 64) ∧
    (t ≠ 0) :=
  ⟨63, by decide +kernel⟩

theorem wit_TenancyCommands_tenancyResetDone : ∃ (s : State) (t : Nat),
    (t < 64) ∧
    (s.dev.rd TEN_STAT.state t = 4) :=
  ⟨{ dev := ({} : Device).wr TEN_STAT.state 63 4 }, 63, by decide +kernel⟩

theorem wit_TenancyCommands_irqGapExpiry : ∃ (s : State) (fn : Nat) (v : Nat) (e : Vec),
    (fn < 64) ∧
    (v < 2048) ∧
    (e = smGet s.dev.msix (fn * 4096 + v) {}) ∧
    (e.gap = true) ∧
    (e.again = true) :=
  ⟨{ dev := { msix := [(2047, { gap := true, again := true })] } }, 0, 2047, _, by decide +kernel, by decide +kernel, rfl, by decide +kernel, by decide +kernel⟩

theorem wit_TenancyCommands_msixUnmask : ∃ (s : State) (fn : Nat) (v : Nat) (e : Vec),
    (fn < 64) ∧
    (v < 2048) ∧
    (s.dev.reaches fn .TEN_IRQ_CFG = true) ∧
    (v < s.dev.vectors fn) ∧
    (e = smGet s.dev.msix (fn * 4096 + v) {}) ∧
    (e.pending = true) ∧
    (e.gap = false) ∧
    (s.dev.mute fn = false) :=
  ⟨{ dev := { msix := [(2047, { pending := true })] } }, 0, 2047, _, by decide +kernel, by decide +kernel, by decide +kernel, by decide +kernel, rfl, by decide +kernel, by decide +kernel, by decide +kernel⟩

theorem wit_TenancyCommands_queuePositionStart : ∃ (s : State) (value : Nat) (a : Device),
    (value < 2 ^ 64) ∧
    (s.dev.reaches 0 .TEN_QPOS1 = true) ∧
    (bit value 62 = false) ∧
    (bit value 63 = true) ∧
    (a = (s.dev.wr TEN_QPOS1.phase 0 (bits value 61 61)).wr TEN_QPOS1.queue 0 (bits value 11 0)) ∧
    (a.rd QUE_STAT.state (bits value 11 0) = qDisabled) ∧
    (a.enableOk (bits value 11 0) = true) :=
  ⟨{ dev := ((((({} : Device).wr QUE_CFG.sq_log2 3 6).wr QUE_CFG.cq_log2 3 16).wr QUE_CFG.class_mask 3 2).wr QUE_EVT_BASE.valid 0 1) }, 2 ^ 63 + 3, _, by decide +kernel, by decide +kernel, by decide +kernel, by decide +kernel, rfl, by decide +kernel, by decide +kernel⟩

theorem wit_LogAndFunctionCommands_dlogEnable : ∃ (s : State) (t : Nat) (value : Nat),
    (t < 64) ∧
    (value < 2 ^ 64) ∧
    (s.dev.reaches 0 .TEN_DLOG_CTL = true) ∧
    (bit value 4 = false) ∧
    (bit value 0 = true) ∧
    (bit value 1 = false) ∧
    (s.dev.on TEN_DLOG_CTL.enable t = false) :=
  ⟨{}, 63, 1, by decide +kernel⟩

theorem wit_LogAndFunctionCommands_dlogSwap : ∃ (s : State) (t : Nat) (value : Nat) (b : Bool),
    (t < 64) ∧
    (value < 2 ^ 64) ∧
    (s.dev.reaches 0 .TEN_DLOG_CTL = true) ∧
    (bit value 4 = false) ∧
    (bit value 0 = true) ∧
    (bit value 1 = true) ∧
    (s.dev.on TEN_DLOG_CTL.enable t = true) ∧
    (s.dev.on TEN_DLOG_CTL.busy t = false) ∧
    (b = !s.dev.on TEN_DLOG_CTL.b_active t) :=
  ⟨{ dev := ({} : Device).wr TEN_DLOG_CTL.enable 63 1 }, 63, 3, _, by decide +kernel, by decide +kernel, by decide +kernel, by decide +kernel, by decide +kernel, by decide +kernel, by decide +kernel, by decide +kernel, rfl⟩

theorem wit_LogAndFunctionCommands_dlogSwapDone : ∃ (s : State) (t : Nat),
    (t < 64) ∧
    (s.dev.on TEN_DLOG_CTL.busy t = true) :=
  ⟨{ dev := ({} : Device).wr TEN_DLOG_CTL.busy 63 1 }, 63, by decide +kernel⟩

theorem wit_LogAndFunctionCommands_vfEnableChange : ∃ (s : State) (e : Bool) (n : Nat) (a : Device),
    (n < 64) ∧
    (a = { s.dev with vfEnable := e, numVfs := n }) :=
  ⟨{}, true, 63, _, by decide +kernel, rfl⟩

theorem wit_LogAndFunctionCommands_functionPowerStateWrite : ∃ (fn : Nat),
    (fn < 64) :=
  ⟨63, by decide +kernel⟩

theorem wit_PowerStates_reqD0 : ∃ (s : State) (value : Nat) (b : Device),
    (value < 2 ^ 64) ∧
    (s.dev.reaches 0 .PWR_STATE_CTL = true) ∧
    (bits value 1 0 = 1) ∧
    (b = ((s.dev.wr PWR_STATE_CTL.deep_port 0 (bits value 35 32)).wr PWR_STATE_CTL.idle_ms 0 (bits value 31 16)).wr PWR_STATE_CTL.auto_idle 0 (bits value 8 8)) ∧
    (b.on PWR_STATE_STAT.deep_armed 0 = false) ∧
    (b.ps = psIdle) :=
  ⟨{ dev := ({} : Device).wr PWR_STATE_STAT.state 0 1 }, 1, _, by decide +kernel, by decide +kernel, by decide +kernel, rfl, by decide +kernel, by decide +kernel⟩

theorem wit_PowerStates_reqIdleHold : ∃ (s : State) (value : Nat) (b : Device),
    (value < 2 ^ 64) ∧
    (s.dev.reaches 0 .PWR_STATE_CTL = true) ∧
    (bits value 1 0 = 2) ∧
    (b = ((s.dev.wr PWR_STATE_CTL.deep_port 0 (bits value 35 32)).wr PWR_STATE_CTL.idle_ms 0 (bits value 31 16)).wr PWR_STATE_CTL.auto_idle 0 (bits value 8 8)) ∧
    (b.ps = psD0) ∧
    (b.idleDeny = 0) :=
  ⟨{ dev := ({} : Device).wr PWR_STATE_STAT.state 0 0 }, 2, _, by decide +kernel, by decide +kernel, by decide +kernel, rfl, by decide +kernel, by decide +kernel⟩

theorem wit_PowerStates_reqIdleHold_ : ∃ (s : State) (value : Nat) (b : Device),
    (value < 2 ^ 64) ∧
    (s.dev.reaches 0 .PWR_STATE_CTL = true) ∧
    (bits value 1 0 = 2) ∧
    (b = ((s.dev.wr PWR_STATE_CTL.deep_port 0 (bits value 35 32)).wr PWR_STATE_CTL.idle_ms 0 (bits value 31 16)).wr PWR_STATE_CTL.auto_idle 0 (bits value 8 8)) ∧
    (b.ps = psD0) ∧
    (b.idleDeny ≠ 0) :=
  ⟨{ dev := { ({} : Device).wr PWR_STATE_STAT.state 0 0 with cmds := [⟨1, 0, 0, [], 0, 0, none, none⟩] } }, 2, _, by decide +kernel, by decide +kernel, by decide +kernel, rfl, by decide +kernel, by decide +kernel⟩

theorem wit_PowerStates_reqDeep : ∃ (s : State) (value : Nat) (b : Device),
    (value < 2 ^ 64) ∧
    (s.dev.reaches 0 .PWR_STATE_CTL = true) ∧
    (bits value 1 0 = 3) ∧
    (b = ((s.dev.wr PWR_STATE_CTL.deep_port 0 (bits value 35 32)).wr PWR_STATE_CTL.idle_ms 0 (bits value 31 16)).wr PWR_STATE_CTL.auto_idle 0 (bits value 8 8)) ∧
    (b.ps = psD0 ∨ b.ps = psIdle) ∧
    (b.deepDeny = 0) :=
  ⟨{ dev := ({} : Device).wr PWR_STATE_STAT.state 0 0 }, 3, _, by decide +kernel, by decide +kernel, by decide +kernel, rfl, by decide +kernel, by decide +kernel⟩

theorem wit_PowerStates_reqDeep_ : ∃ (s : State) (value : Nat) (b : Device),
    (value < 2 ^ 64) ∧
    (s.dev.reaches 0 .PWR_STATE_CTL = true) ∧
    (bits value 1 0 = 3) ∧
    (b = ((s.dev.wr PWR_STATE_CTL.deep_port 0 (bits value 35 32)).wr PWR_STATE_CTL.idle_ms 0 (bits value 31 16)).wr PWR_STATE_CTL.auto_idle 0 (bits value 8 8)) ∧
    (b.ps = psD0 ∨ b.ps = psIdle) ∧
    (b.deepDeny ≠ 0) :=
  ⟨{ dev := { ({} : Device).wr PWR_STATE_STAT.state 0 0 with cmds := [⟨1, 0, 0, [], 0, 0, none, none⟩] } }, 3, _, by decide +kernel, by decide +kernel, by decide +kernel, rfl, by decide +kernel, by decide +kernel⟩

theorem wit_PowerStates_autoIdleExpiry : ∃ (s : State),
    (s.dev.on PWR_STATE_CTL.auto_idle 0 = true) ∧
    (s.dev.ps = psD0) ∧
    (s.dev.idleDeny = 0) :=
  ⟨{ dev := (({} : Device).wr PWR_STATE_CTL.auto_idle 0 1).wr PWR_STATE_STAT.state 0 0 }, by decide +kernel⟩

theorem wit_PowerStates_idleWake : ∃ (s : State) (src : Nat),
    (1 ≤ src) ∧
    (src ≤ 3) ∧
    (s.dev.ps = psIdle) :=
  ⟨{ dev := ({} : Device).wr PWR_STATE_STAT.state 0 1 }, 3, by decide +kernel⟩

theorem wit_PowerStates_deepWake : ∃ (s : State) (src : Nat),
    (4 ≤ src) ∧
    (src ≤ 6) ∧
    (s.dev.ps = psDeep) :=
  ⟨{ dev := ({} : Device).wr PWR_STATE_STAT.state 0 2 }, 6, by decide +kernel⟩

theorem wit_PowerStates_pmeTurnOffRx : ∃ (s : State),
    (s.dev.hostDown = false) :=
  ⟨{}, by decide +kernel⟩

theorem wit_RemovalAndSave_linkDown : ∃ (s : State),
    (s.dev.hostDown = false) ∧
    (s.dev.on PWR_STATE_STAT.deep_armed 0 = false) :=
  ⟨{}, by decide +kernel⟩

theorem wit_RemovalAndSave_linkDown_ : ∃ (s : State),
    (s.dev.on PWR_STATE_STAT.deep_armed 0 = true) :=
  ⟨{ dev := ({} : Device).wr PWR_STATE_STAT.deep_armed 0 1 }, by decide +kernel⟩

theorem wit_RemovalAndSave_removalResetTimeout : ∃ (s : State),
    (s.dev.pwr.removing = true) :=
  ⟨{ dev := { pwr := { removing := true } } }, by decide +kernel⟩

theorem wit_RemovalAndSave_perstAssert : ∃ (s : State) (a : Device) (b : Device),
    (s.dev.pwr.perst = false) ∧
    (s.dev.pwr.saveAct = false) ∧
    (s.dev.ps ≠ psSaved) ∧
    (s.dev.pwr.gated = false) ∧
    (s.dev.on PWR_STATE_STAT.deep_armed 0 = false) ∧
    (a = s.dev.removeHost) ∧
    (b = (if a.on FTP_CFG.enable 0 then a.sendLeave else a).deviceReset 3 unitNone) :=
  ⟨{}, _, _, by decide +kernel, by decide +kernel, by decide +kernel, by decide +kernel, by decide +kernel, rfl, rfl⟩

theorem wit_RemovalAndSave_perstAssert_ : ∃ (s : State),
    (s.dev.pwr.perst = false) ∧
    (s.dev.pwr.saveAct = false) ∧
    (s.dev.ps ≠ psSaved) ∧
    (s.dev.pwr.gated = false) ∧
    (s.dev.on PWR_STATE_STAT.deep_armed 0 = true) :=
  ⟨{ dev := ({} : Device).wr PWR_STATE_STAT.deep_armed 0 1 }, by decide +kernel⟩

theorem wit_RemovalAndSave_perstAssert__ : ∃ (s : State),
    (s.dev.pwr.perst = false) ∧
    (s.dev.pwr.saveAct = true ∨ s.dev.ps = psSaved ∨ s.dev.pwr.gated = true) :=
  ⟨{ dev := { pwr := { saveAct := true } } }, by decide +kernel⟩

theorem wit_RemovalAndSave_powerFail_ : ∃ (s : State),
    (s.dev.on PWR_SAVE_STAT.armed 0 = false) :=
  ⟨{}, by decide +kernel⟩

theorem wit_RemovalAndSave_powerFail : ∃ (s : State) (a : Device),
    (a = { s.dev with pwr := { s.dev.pwr with pwrfail := true } }) ∧
    (a.on PWR_SAVE_STAT.armed 0 = true) :=
  ⟨{ dev := ({} : Device).wr PWR_SAVE_STAT.armed 0 1 }, _, rfl, by decide +kernel⟩

theorem wit_RemovalAndSave_sysclkLoss : ∃ (s : State),
    (s.dev.on PWR_SAVE_STAT.armed 0 = true) :=
  ⟨{ dev := ({} : Device).wr PWR_SAVE_STAT.armed 0 1 }, by decide +kernel⟩

theorem wit_RemovalAndSave_saveComplete : ∃ (s : State) (bad : Nat) (hw : HwSave) (a : Device),
    (bad ≤ 524288) ∧
    (s.dev.pwr.saving = some hw) ∧
    (a = if bad = 0 then s.dev.copySection spStage spSave else ((s.dev.copySection spStage spSave).incSat RAS_ECC_CNT.uncorrectable 5 (bad - 1)).uncorr (unitOf 6 0x016) 5 { unit := 0, sev := 2, op := 0x02 }) :=
  ⟨{ dev := { pwr := { saving := some ⟨[], [], 0, []⟩ } } }, 0, ⟨[], [], 0, []⟩, _, by decide +kernel, by decide +kernel, rfl⟩

theorem wit_RemovalAndSave_saveSnap : ∃ (s : State) (value : Nat) (b : Device) (r : Device × Bool),
    (value < 2 ^ 64) ∧
    (s.dev.reaches 0 .PWR_SAVE_CTL = true) ∧
    (bits value 1 0 = 1) ∧
    (b = s.dev.wr PWR_SAVE_CTL.dest 0 (bits value 39 21)) ∧
    (b.on PWR_SAVE_STAT.busy 0 = false) ∧
    (r = snapCopy (b.rd PWR_SAVE_CFG.count 0) 0 0 b) :=
  ⟨{}, 1, _, _, by decide +kernel, by decide +kernel, by decide +kernel, rfl, by decide +kernel, rfl⟩

theorem wit_RemovalAndSave_autoSnapshot : ∃ (s : State) (r : Device × Bool),
    (s.dev.rd PWR_SAVE_CFG.auto_ms 0 ≠ 0) ∧
    (s.dev.unpowered = false) ∧
    (s.dev.on PWR_SAVE_STAT.busy 0 = false) ∧
    (r = snapCopy (s.dev.rd PWR_SAVE_CFG.count 0) 0 0 s.dev) :=
  ⟨{ dev := ({} : Device).wr PWR_SAVE_CFG.auto_ms 0 5 }, _, by decide +kernel, by decide +kernel, by decide +kernel, rfl⟩

theorem wit_RemovalAndSave_snapshotDone : ∃ (s : State),
    (s.dev.pwr.snapOk = some true) :=
  ⟨{ dev := { pwr := { snapOk := some true } } }, by decide +kernel⟩

theorem wit_RemovalAndSave_snapshotDone_ : ∃ (s : State),
    (s.dev.pwr.snapOk = some false) :=
  ⟨{ dev := { pwr := { snapOk := some false } } }, by decide +kernel⟩

theorem wit_RemovalAndSave_saveRestore : ∃ (s : State) (value : Nat) (b : Device),
    (value < 2 ^ 64) ∧
    (s.dev.reaches 0 .PWR_SAVE_CTL = true) ∧
    (bits value 1 0 = 2) ∧
    (b = s.dev.wr PWR_SAVE_CTL.dest 0 (bits value 39 21)) ∧
    (b.on PWR_SAVE_STAT.busy 0 = false) ∧
    (b.on PWR_SAVE_STAT.valid 0 = true) :=
  ⟨{ dev := ({} : Device).wr PWR_SAVE_STAT.valid 0 1 }, 2, _, by decide +kernel, by decide +kernel, by decide +kernel, rfl, by decide +kernel, by decide +kernel⟩

theorem wit_RemovalAndSave_saveRestoreDone : ∃ (s : State) (dst : Nat) (a : Device),
    (s.dev.pwr.restoring = some dst) ∧
    (s.dev.on MEM_FILL_STAT.t1_done 0 = true) ∧
    (a = (s.dev.mem.filter fun c => inRange c.1 (cellAt spSave swBase) swSize).foldl (fun d c => d.poke devKey spT1 (dst + (c.1 - cellAt spSave 0)) [c.2]) ((s.dev.scramble spT1 dst swBase).zero spT1 (dst + swBase) swSize)) :=
  ⟨{ dev := { ({} : Device).wr MEM_FILL_STAT.t1_done 0 1 with pwr := { restoring := some 0 } } }, 0, _, by decide +kernel, by decide +kernel, rfl⟩

theorem wit_RemovalAndSave_saveClear : ∃ (s : State) (value : Nat) (b : Device),
    (value < 2 ^ 64) ∧
    (s.dev.reaches 0 .PWR_SAVE_CTL = true) ∧
    (bits value 1 0 = 3) ∧
    (b = s.dev.wr PWR_SAVE_CTL.dest 0 (bits value 39 21)) :=
  ⟨{}, 3, _, by decide +kernel, by decide +kernel, by decide +kernel, rfl⟩

theorem wit_SupplyAndStart_trefReturn : ∃ (s : State) (a : Device),
    (s.dev.timing.trefBad = true) ∧
    (a = { s.dev with timing := { s.dev.timing with trefBad := false, trefQual := true } }) :=
  ⟨{ dev := { timing := { trefBad := true } } }, _, by decide +kernel, rfl⟩

theorem wit_SupplyAndStart_frefLoss : ∃ (g : Nat),
    (g < 4) :=
  ⟨3, by decide +kernel⟩

theorem wit_SupplyAndStart_frefReturn : ∃ (s : State) (g : Nat) (a : Device),
    (g < 4) ∧
    (a = { s.dev with pwr := { s.dev.pwr with refDown := s.dev.pwr.refDown.filter fun x => x != g } }) :=
  ⟨{}, 3, _, by decide +kernel, rfl⟩

theorem wit_SupplyAndStart_trefReturn_ : ∃ (s : State),
    (s.dev.timing.trefBad = false) :=
  ⟨{}, by decide +kernel⟩

theorem wit_SupplyAndStart_erefLoss : ∃ (s : State) (a : Device),
    (a = { s.dev with pwr := { s.dev.pwr with refDown := 4 :: s.dev.pwr.refDown.filter fun x => x != 4 } }) :=
  ⟨{}, _, rfl⟩

theorem wit_SupplyAndStart_fronthaulLinkChange : ∃ (s : State) (p : Nat) (a : Device) (b : Device),
    (p < 4) ∧
    (s.dev.isX = false) ∧
    (4 ∉ s.dev.pwr.refDown) ∧
    (a = drainPort p s.dev) ∧
    (b = { a with radio := { a.radio with busy := smSet a.radio.busy p 0 (max (smGet a.radio.busy p 0) a.time) } }) :=
  ⟨{ dev := ({} : Device).wr RAD_PORT_CFG.speed 3 1 }, 3, _, _, by decide +kernel, by decide +kernel, by decide +kernel, rfl, rfl⟩

theorem wit_SupplyAndStart_fronthaulLinkChange_ : ∃ (s : State) (p : Nat),
    (p < 4) ∧
    (s.dev.isX = false) :=
  ⟨{}, 3, by decide +kernel⟩

theorem wit_SupplyAndStart_fronthaulLinkChange__ : ∃ (s : State) (p : Nat),
    (p < 4) ∧
    (s.dev.pwr.refDown.contains 4 = true ∨ s.dev.isX = true) :=
  ⟨{ dev := { pwr := { refDown := [4] } } }, 3, by decide +kernel⟩

theorem wit_SupplyAndStart_startup : ∃ (s : State) (d : Device),
    (s.dev.pwr.saveAct = false) ∧
    (s.dev.pwr.perst = true) ∧
    (d = { s.dev with pwr := { s.dev.pwr with perst := false } }) :=
  ⟨{ dev := { ({} : Device).wr PWR_STATE_STAT.state 0 0 with pwr := { perst := true } } }, _, by decide +kernel, by decide +kernel, rfl⟩

theorem wit_SupplyAndStart_startup_ : ∃ (s : State),
    (s.dev.pwr.saveAct = false) ∧
    (s.dev.pwr.held = true) ∧
    (s.dev.pwr.perst = false) :=
  ⟨{ dev := { pwr := { held := true } } }, by decide +kernel⟩

theorem wit_SupplyAndStart_startup__ : ∃ (s : State),
    (s.dev.pwr.saveAct = true) :=
  ⟨{ dev := { pwr := { saveAct := true } } }, by decide +kernel⟩

theorem wit_SupplyAndStart_imageVerified : ∃ (s : State) (k : Nat) (d : Device),
    (s.dev.booting = true) ∧
    (s.dev.on SEC_BOOT_STAT.recovery 0 = false) ∧
    (k = stageKind (s.dev.rd PWR_START_STAT.step 0)) ∧
    (d = s.dev.incSat SEC_BOOT_STAT.boot_failures 0 1) :=
  ⟨{ dev := { (({} : Device).wr PWR_STATE_STAT.state 0 4).wr PWR_START_STAT.step 0 1 with pwr := { held := false } } }, _, _, by decide +kernel, by decide +kernel, rfl, rfl⟩

theorem wit_SupplyAndStart_builtInTestDone : ∃ (s : State) (us : List Nat) (f : Device) (a : Device) (b : Device),
    (s.dev.rd PWR_STATE_STAT.state 0 = 4) ∧
    (s.dev.rd PWR_START_STAT.step 0 = 4) ∧
    (s.dev.pwr.held = false) ∧
    (f = us.foldl (fun d u => if unitExists u then d.bootRetire true u else d) s.dev) ∧
    (a = (List.range 192).foldl (fun d n => if d.coreSt n = csLost then d else d.setCoreSt n csFill) f) ∧
    (b = (List.range 8).foldl (fun d e => if d.rd RTE_MAP.state e = 5 then d else d.wr RTE_MAP.state e 2) a) :=
  ⟨{ dev := { (({} : Device).wr PWR_STATE_STAT.state 0 4).wr PWR_START_STAT.step 0 4 with pwr := { held := false } } }, [4095], _, _, _, by decide +kernel, by decide +kernel, by decide +kernel, rfl, rfl, rfl⟩

theorem wit_PowerAndTemperature_powerControlUpdate : ∃ (s : State) (w : Nat) (p0 : Nat) (p1 : Nat) (p2 : Nat) (p3 : Nat) (a : Device) (b : Device),
    (s.dev.unpowered = false) ∧
    (a = (((((s.dev.wr PWR_POWER_STAT.pkg_w 0 (wattsIn PWR_POWER_STAT.pkg_w w)).wr PWR_POWER_STAT.cd0_w 0 (wattsIn PWR_POWER_STAT.cd0_w p0)).wr PWR_POWER_STAT.cd1_w 0 (wattsIn PWR_POWER_STAT.cd1_w p1)).wr PWR_POWER_STAT.cd2_w 0 (wattsIn PWR_POWER_STAT.cd2_w p2)).wr PWR_POWER_STAT.cd3_w 0 (wattsIn PWR_POWER_STAT.cd3_w p3))) ∧
    (a.ps = psD0) ∧
    (b = (((a.throttle w p0 0).throttle w p1 1).throttle w p2 2).throttle w p3 3) :=
  ⟨{ dev := ({} : Device).wr PWR_STATE_STAT.state 0 0 }, 1200000, 300000, 300000, 300000, 300000, _, _, by decide +kernel, rfl, by decide +kernel, rfl⟩

theorem wit_PowerAndTemperature_powerControlUpdate_ : ∃ (s : State) (w : Nat) (p0 : Nat) (p1 : Nat) (p2 : Nat) (p3 : Nat) (a : Device),
    (s.dev.unpowered = false) ∧
    (a = (((((s.dev.wr PWR_POWER_STAT.pkg_w 0 (wattsIn PWR_POWER_STAT.pkg_w w)).wr PWR_POWER_STAT.cd0_w 0 (wattsIn PWR_POWER_STAT.cd0_w p0)).wr PWR_POWER_STAT.cd1_w 0 (wattsIn PWR_POWER_STAT.cd1_w p1)).wr PWR_POWER_STAT.cd2_w 0 (wattsIn PWR_POWER_STAT.cd2_w p2)).wr PWR_POWER_STAT.cd3_w 0 (wattsIn PWR_POWER_STAT.cd3_w p3))) ∧
    (a.ps ≠ psD0) :=
  ⟨{ dev := ({} : Device).wr PWR_STATE_STAT.state 0 1 }, 1200000, 300000, 300000, 300000, 300000, _, by decide +kernel, rfl, by decide +kernel⟩

theorem wit_PowerAndTemperature_powerControlUpdate__ : ∃ (s : State),
    (s.dev.unpowered = true) :=
  ⟨{ dev := { pwr := { gated := true } } }, by decide +kernel⟩

theorem wit_PowerAndTemperature_pkgExcessTimeout : ∃ (s : State) (k : Nat) (a : Device),
    (s.dev.unpowered = false) ∧
    (k = (List.range 4).foldl (fun b k => if s.dev.tj b < s.dev.tj k then k else b) 0) ∧
    (s.dev.pwr.crit.any (fun c => c.1 == k) = false) ∧
    (a = { s.dev with pwr := { s.dev.pwr with crit := smIns s.dev.pwr.crit k none } }) :=
  ⟨{}, _, _, by decide, rfl, by decide +kernel, rfl⟩

theorem wit_PowerAndTemperature_pkgExcessTimeout_ : ∃ (s : State),
    (s.dev.unpowered = true) :=
  ⟨{ dev := { pwr := { gated := true } } }, by decide +kernel⟩

theorem wit_PowerAndTemperature_thermalSample : ∃ (s : State) (k : Nat) (mv : Nat) (t : Int) (a : Device),
    (k < 8) ∧
    (mv < 65536) ∧
    (s.dev.pwr.gated = false) ∧
    (s.dev.ps ≠ psDeep) ∧
    (s.dev.ps ≠ psSaved) ∧
    (t < 380) ∧
    (a = { s.dev with ras := { s.dev.ras with temps := smSet s.dev.ras.temps (stackUnit k) 0 t } }) :=
  ⟨{ dev := { ({} : Device).wr PWR_STATE_STAT.state 0 0 with pwr := { gated := false } } }, 7, 750, 370, _, by decide +kernel, by decide +kernel, by decide +kernel, by decide +kernel, by decide +kernel, by decide +kernel, rfl⟩

theorem wit_PowerAndTemperature_thermalSample_ : ∃ (s : State) (k : Nat) (mv : Nat) (t : Int) (a : Device) (b : Device),
    (k < 8) ∧
    (mv < 65536) ∧
    (s.dev.pwr.gated = false) ∧
    (s.dev.ps ≠ psDeep) ∧
    (s.dev.ps ≠ psSaved) ∧
    (380 ≤ t) ∧
    (a = { s.dev with ras := { s.dev.ras with temps := smSet s.dev.ras.temps (stackUnit k) 0 t } }) ∧
    (b = a.perturbLegs) :=
  ⟨{ dev := { ({} : Device).wr PWR_STATE_STAT.state 0 0 with pwr := { gated := false } } }, 7, 750, 380, _, _, by decide +kernel, by decide +kernel, by decide +kernel, by decide +kernel, by decide +kernel, by decide +kernel, rfl, rfl⟩

theorem wit_PowerAndTemperature_thermalSample__ : ∃ (s : State) (u : Nat) (mv : Nat) (t : Int) (a : Device) (b : Device) (c : Device),
    (u / 4096 < 4) ∧
    (mv < 65536) ∧
    (s.dev.pwr.gated = false) ∧
    (s.dev.ps ≠ psDeep) ∧
    (s.dev.ps ≠ psSaved) ∧
    (a = { s.dev with ras := { s.dev.ras with temps := smSet s.dev.ras.temps u 0 t, volts := smSet s.dev.ras.volts (u / 4096) 0 mv } }) ∧
    (b = { a with ras := { a.ras with temps := smSet a.ras.temps (unitOf (u / 4096) 0xFFE) 0 (a.tj (u / 4096)) } }) ∧
    (c = (b.showTherm.moveCut (u / 4096)).moveCrit (u / 4096)) :=
  ⟨{ dev := { ({} : Device).wr PWR_STATE_STAT.state 0 0 with pwr := { gated := false } } }, 5, 750, 480, _, _, _, by decide, by decide, by decide +kernel, by decide +kernel, by decide +kernel, rfl, rfl, rfl⟩

theorem wit_PowerAndTemperature_thermalSample___ : ∃ (s : State) (die : Nat) (mv : Nat) (t : Int) (a : Device) (c : Device),
    (4 ≤ die) ∧
    (die < 7) ∧
    (mv < 65536) ∧
    (s.dev.pwr.gated = false) ∧
    (s.dev.ps ≠ psDeep) ∧
    (s.dev.ps ≠ psSaved) ∧
    (a = { s.dev with ras := { s.dev.ras with temps := smSet s.dev.ras.temps (unitOf die 0xFFE) 0 t } }) ∧
    (c = a.showTherm) :=
  ⟨{ dev := { ({} : Device).wr PWR_STATE_STAT.state 0 0 with pwr := { gated := false } } }, 6, 750, 480, _, _, by decide, by decide, by decide, by decide +kernel, by decide +kernel, by decide +kernel, rfl, rfl⟩

theorem wit_Translation_xtEnable : ∃ (s : State) (t : Nat),
    (t < 64) ∧
    (s.dev.reaches 0 .MEM_XT_BASE = true) ∧
    (s.dev.on MEM_XT_BASE.enable t = false) ∧
    (t ∉ s.dev.mm.xtFill) :=
  ⟨{}, 63, by decide +kernel⟩

theorem wit_Translation_xtEnableDone : ∃ (s : State) (t : Nat) (a : Device),
    (t < 64) ∧
    (t ∈ s.dev.mm.xtFill) ∧
    (a = { s.dev with mm := { s.dev.mm with xtFill := s.dev.mm.xtFill.filter fun x => x != t } }) :=
  ⟨{ dev := { mm := { xtFill := [63] } } }, 63, _, by decide +kernel, by decide +kernel, rfl⟩

theorem wit_Translation_xtDisable : ∃ (s : State) (t : Nat),
    (t < 64) ∧
    (s.dev.reaches 0 .MEM_XT_BASE = true) ∧
    (s.dev.on MEM_XT_BASE.enable t = true) ∧
    (s.dev.tenBusy t = false) :=
  ⟨{ dev := mapped }, 0, by decide +kernel⟩

theorem wit_Translation_xtMap : ∃ (s : State) (write : Bool) (ppn : Nat) (t : Nat) (sp : Nat) (n : Nat) (v : Nat) (k : Nat) (olds : List Nat) (ps : List Nat) (a : Device) (b : Device),
    (ppn < 2 ^ 19) ∧
    (s.dev.reaches 0 .MEM_XT_OP1 = true) ∧
    (t = s.dev.rd MEM_XT_OP0.tenancy 0) ∧
    (sp = s.dev.rd MEM_XT_OP0.space 0) ∧
    (n = s.dev.rd MEM_XT_OP0.count 0) ∧
    (v = s.dev.rd MEM_XT_OP0.page 0) ∧
    (s.dev.on MEM_XT_OP1.busy 0 = false) ∧
    (sp ≠ 3) ∧
    (n ≠ 0) ∧
    (s.dev.on MEM_XT_BASE.enable t = true) ∧
    (v + n ≤ s.dev.xtCount t sp) ∧
    (olds = (List.range n).map fun i => s.dev.xtEntry t sp (v + i)) ∧
    (k = s.dev.rd (mappedFld sp) t - (olds.filter fun e => bit e 63).length + n) ∧
    (k ≤ s.dev.rd (quotaFld sp) t) ∧
    (ps = (olds.filter fun e => bit e 63).map fun e => pageKey sp (bits e 18 0)) ∧
    (a = (List.range n).foldl (fun d i => d.pokeN spT1 (d.xtBase t + 8 * d.xtIndex t sp (v + i)) 8 (2 ^ 63 + b2n write <<< 62 + (ppn + i) % 2 ^ 19)) s.dev) ∧
    (b = (a.wr (mappedFld sp) t k).wr MEM_XT_OP1.busy 0 1) :=
  ⟨{ dev := (mapped.wr MEM_XT_OP0.count 0 1).wr TEN_QUOTA.t1_max 0 5 }, true, 7, _, _, _, _, _, _, _, _, _, by decide +kernel, by decide +kernel, rfl, rfl, rfl, rfl, by decide +kernel, by decide +kernel, by decide +kernel, by decide +kernel, by decide +kernel, rfl, rfl, by decide +kernel, rfl, rfl, rfl⟩

theorem wit_Translation_xtUnmap : ∃ (s : State) (t : Nat) (sp : Nat) (n : Nat) (v : Nat) (k : Nat) (olds : List Nat) (ps : List Nat) (a : Device) (b : Device),
    (s.dev.reaches 0 .MEM_XT_OP1 = true) ∧
    (t = s.dev.rd MEM_XT_OP0.tenancy 0) ∧
    (sp = s.dev.rd MEM_XT_OP0.space 0) ∧
    (n = s.dev.rd MEM_XT_OP0.count 0) ∧
    (v = s.dev.rd MEM_XT_OP0.page 0) ∧
    (s.dev.on MEM_XT_OP1.busy 0 = false) ∧
    (sp ≠ 3) ∧
    (n ≠ 0) ∧
    (s.dev.on MEM_XT_BASE.enable t = true) ∧
    (v + n ≤ s.dev.xtCount t sp) ∧
    (olds = (List.range n).map fun i => s.dev.xtEntry t sp (v + i)) ∧
    (k = s.dev.rd (mappedFld sp) t - (olds.filter fun e => bit e 63).length) ∧
    (ps = (olds.filter fun e => bit e 63).map fun e => pageKey sp (bits e 18 0)) ∧
    (a = (List.range n).foldl (fun d i => d.pokeN spT1 (d.xtBase t + 8 * d.xtIndex t sp (v + i)) 8 (0)) s.dev) ∧
    (b = (a.wr (mappedFld sp) t k).wr MEM_XT_OP1.busy 0 1) :=
  ⟨{ dev := (mapped.wr MEM_XT_OP0.count 0 1).wr TEN_QUOTA.t1_max 0 5 }, _, _, _, _, _, _, _, _, _, by decide +kernel, rfl, rfl, rfl, rfl, by decide +kernel, by decide +kernel, by decide +kernel, by decide +kernel, by decide +kernel, rfl, rfl, rfl, rfl, rfl⟩

theorem wit_Translation_xtReclaim : ∃ (s : State) (t : Nat) (sp : Nat) (n : Nat) (v : Nat) (k : Nat) (olds : List Nat) (ps : List Nat) (a : Device) (b : Device),
    (s.dev.reaches 0 .MEM_XT_OP1 = true) ∧
    (t = s.dev.rd MEM_XT_OP0.tenancy 0) ∧
    (sp = s.dev.rd MEM_XT_OP0.space 0) ∧
    (n = s.dev.rd MEM_XT_OP0.count 0) ∧
    (v = s.dev.rd MEM_XT_OP0.page 0) ∧
    (s.dev.on MEM_XT_OP1.busy 0 = false) ∧
    (sp ≠ 3) ∧
    (n ≠ 0) ∧
    (s.dev.on MEM_XT_BASE.enable t = true) ∧
    (v + n ≤ s.dev.xtCount t sp) ∧
    (olds = (List.range n).map fun i => s.dev.xtEntry t sp (v + i)) ∧
    (k = s.dev.rd (mappedFld sp) t - (olds.filter fun e => bit e 63).length) ∧
    (ps = (olds.filter fun e => bit e 63).map fun e => pageKey sp (bits e 18 0)) ∧
    (a = (List.range n).foldl (fun d i => d.pokeN spT1 (d.xtBase t + 8 * d.xtIndex t sp (v + i)) 8 (0)) s.dev) ∧
    (b = ((ps.foldl (fun d p => if d.pageState p = pgVacated then d.setPage p pgPlain else d) a).wr (mappedFld sp) t k).wr MEM_XT_OP1.busy 0 1) :=
  ⟨{ dev := (mapped.wr MEM_XT_OP0.count 0 1).wr TEN_QUOTA.t1_max 0 5 }, _, _, _, _, _, _, _, _, _, by decide +kernel, rfl, rfl, rfl, rfl, by decide +kernel, by decide +kernel, by decide +kernel, by decide +kernel, by decide +kernel, rfl, rfl, rfl, rfl, rfl⟩

theorem wit_Translation_xtOpDone : ∃ (s : State) (o : XtOp),
    (s.dev.mm.xtOp = some o) ∧
    (∀ p ∈ o.waits, s.dev.pageState p ≠ pgDeparting ∧ s.dev.pageState p ≠ pgArriving) :=
  ⟨{ dev := { mm := { xtOp := some ⟨0, []⟩ } } }, ⟨0, []⟩, by decide +kernel⟩

theorem wit_Translation_translationCompletionRx : ∃ (s : State) (fn : Nat) (page : Nat) (r : AtsReq) (a : Device),
    (fn < 64) ∧
    ((s.dev.mm.ats.reqs.find? fun r => r.fn == fn && r.page == page && !r.pri) = some r) ∧
    (a = { s.dev with mm := { s.dev.mm with ats := { s.dev.mm.ats with reqs := s.dev.mm.ats.reqs.filter fun q => q != r } } }) :=
  ⟨{ dev := { mm := { ats := { reqs := [⟨63, 5, true, 7, false⟩] } } } }, 63, 5, ⟨63, 5, true, 7, false⟩, _, by decide +kernel, by decide +kernel, rfl⟩

theorem wit_Translation_prgResponseRx : ∃ (s : State) (fn : Nat) (page : Nat) (r : AtsReq) (a : Device),
    (fn < 64) ∧
    ((s.dev.mm.ats.reqs.find? fun r => r.fn == fn && r.page == page && r.pri) = some r) ∧
    (a = { s.dev with mm := { s.dev.mm with ats := { s.dev.mm.ats with reqs := s.dev.mm.ats.reqs.filter fun q => q != r } } }) ∧
    (s.dev.rd MEM_CHAN_STAT.state r.ch = chPri) :=
  ⟨{ dev := { ({} : Device).wr MEM_CHAN_STAT.state 7 3 with mm := { ats := { reqs := [⟨63, 5, true, 7, true⟩] } } } }, 63, 5, ⟨63, 5, true, 7, true⟩, _, by decide +kernel, by decide +kernel, rfl, by decide +kernel⟩

theorem wit_Translation_priTimeout : ∃ (s : State) (fn : Nat) (page : Nat) (r : AtsReq) (a : Device),
    (fn < 64) ∧
    ((s.dev.mm.ats.reqs.find? fun r => r.fn == fn && r.page == page && r.pri) = some r) ∧
    (a = { s.dev with mm := { s.dev.mm with ats := { s.dev.mm.ats with reqs := s.dev.mm.ats.reqs.filter fun q => q != r } } }) ∧
    (s.dev.rd MEM_CHAN_STAT.state r.ch = chPri) :=
  ⟨{ dev := { ({} : Device).wr MEM_CHAN_STAT.state 7 3 with mm := { ats := { reqs := [⟨63, 5, true, 7, true⟩] } } } }, 63, 5, ⟨63, 5, true, 7, true⟩, _, by decide +kernel, by decide +kernel, rfl, by decide +kernel⟩

theorem wit_Translation_atsInvalidationRx : ∃ (fn : Nat),
    (fn < 64) :=
  ⟨63, by decide +kernel⟩

theorem wit_TransferChannels_channelGrant : ∃ (s : State) (x : Xfer) (rest : List Xfer) (ch : Nat) (a : Device),
    (s.dev.mm.waiting = x :: rest) ∧
    (leastBelow 192 (fun ch => !(s.dev.mm.chans.any fun c => c.1 == ch) && !(s.dev.mm.fenced.contains (unitOf 6 (0x100 + ch)))) = some ch) ∧
    (x.kind = 1) ∧
    (a = Device.setChan { s.dev with mm := { s.dev.mm with waiting := rest } } ch { x with departing := [] }) :=
  ⟨{ dev := { mm := { waiting := [aXfer 1] } } }, aXfer 1, [], 0, _, by decide +kernel, by decide +kernel, by decide +kernel, rfl⟩

theorem wit_TransferChannels_chunkLanded : ∃ (s : State) (ch : Nat) (k : Nat) (src : Nat) (dst : Nat) (len : Nat) (done : Nat) (bs : List Byte) (x : Xfer) (a : Device) (e : Device),
    (ch < 256) ∧
    (s.dev.chan? ch = some x) ∧
    (x.kind = 1) ∧
    (s.dev.rd MEM_CHAN_STAT.done ch ≤ k) ∧
    (k < x.issued) ∧
    (k ∉ x.landed) ∧
    (s.dev.rd MEM_CHAN_STAT.state ch ≠ chHalted) ∧
    (chunkOf x.chunk x.pieces k = some (src, dst, len)) ∧
    (s.dev.isLocal src = true) ∧
    (s.dev.hostSrc x src = false) ∧
    (s.dev.readGA x.ten src len = .ok bs) ∧
    (a = s.dev.touchTS src len) ∧
    (a.isLocal dst = true) ∧
    (a.writeWaits x.ten dst bs.length = false) ∧
    (a.ownWrite x.ten dst bs .none = (e, .ok)) ∧
    (e.isLocal dst = true) ∧
    (done = advanceDone (k :: x.landed) 4096 (s.dev.rd MEM_CHAN_STAT.done ch)) ∧
    (done ≠ x.chunks) :=
  ⟨{ dev := moving 5 1 (aXfer 1) }, 5, 0, 0, 65536, 64, _, List.replicate 64 0, aXfer 1, _, ((moving 5 1 (aXfer 1)).ownWrite 0 65536 (List.replicate 64 0) .none).1, by decide +kernel, by decide +kernel, by decide +kernel, by decide +kernel, by decide +kernel, by decide +kernel, by decide +kernel, by decide +kernel, by decide +kernel, by decide +kernel, by decide +kernel, rfl, by decide +kernel, by decide +kernel, by decide +kernel, by decide +kernel, rfl, by decide +kernel⟩

theorem wit_TransferChannels_crossingFlip : ∃ (s : State) (ch : Nat) (x : Xfer),
    (ch < 256) ∧
    (s.dev.chan? ch = some x) ∧
    (x.kind = 0) ∧
    (s.dev.rd MEM_CHAN_STAT.state ch = chFlipping) ∧
    (s.dev.isLocal x.dst = true) ∧
    (∀ f ∈ (s.dev.flip ch x).fab.flips, f.ch ≠ ch) :=
  ⟨{ dev := moving 5 4 (aXfer 0) }, 5, aXfer 0, by decide +kernel⟩

theorem wit_TransferChannels_dmago : ∃ (s : State) (n : Nat) (src : Nat) (dst : Nat) (len : Nat) (tok : Nat) (q : Nat) (cy : Nat) (l : Leg) (m : Leg) (e : Device) (x : Xfer),
    (n < 192) ∧
    (tok < 64) ∧
    (src < 2 ^ 64) ∧
    (dst < 2 ^ 64) ∧
    (max l.count (s.dev.rd COR_TIMING.leg_start n) = cy) ∧
    (s.dev.issues n cy l e m) ∧
    (e.mm.waiting = []) ∧
    ((leastBelow 192 fun ch => !(e.mm.chans.any fun c => c.1 == ch) && !e.mm.fenced.contains (chanUnit ch)).isSome = true) ∧
    (e.isLocal src = true) ∧
    (e.isLocal dst = true) ∧
    (src + len ≤ dst ∨ dst + len ≤ src) ∧
    (q = ((e.cmd? m.sn).map fun c => c.queue).getD 0) ∧
    (x = { kind := 1, sn := m.sn, queue := q, ten := m.ten, cls := m.cls, client := m.client, step := m.step, mid := m.mid, src := src, dst := dst, len := len, chunk := chunkSize src dst, notify := .token n m.serial tok, leg := m.idx, ord := m.dmas }) :=
  ⟨{ dev := running 0 aLeg }, 0, 0, 65536, 4096, 63, _, 24, aLeg, aLegAt 24, running 0 aLeg, _, by decide +kernel, by decide +kernel, by decide +kernel, by decide +kernel, by decide +kernel, by decide +kernel, by decide +kernel, by decide +kernel, by decide +kernel, by decide +kernel, by decide +kernel, rfl, rfl⟩

theorem wit_TransferChannels_dmago_ : ∃ (s : State) (n : Nat) (src : Nat) (dst : Nat) (tok : Nat) (cy : Nat) (l : Leg) (m : Leg) (e : Device),
    (n < 192) ∧
    (tok < 64) ∧
    (src < 2 ^ 64) ∧
    (dst < 2 ^ 64) ∧
    (max l.count (s.dev.rd COR_TIMING.leg_start n) = cy) ∧
    (s.dev.issues n cy l e m) ∧
    (e.mm.waiting ≠ [] ∨ (leastBelow 192 fun ch => !(e.mm.chans.any fun c => c.1 == ch) && !e.mm.fenced.contains (chanUnit ch)) = none) :=
  ⟨{ dev := { running 0 aLeg with mm := { waiting := [aXfer 1] } } }, 0, 0, 65536, 63, 24, aLeg, aLegAt 24, { running 0 aLeg with mm := { waiting := [aXfer 1] } }, by decide, by decide, by decide, by decide, by decide +kernel, by decide +kernel, Or.inl (by decide)⟩

theorem wit_TransferChannels_chunkFault : ∃ (s : State) (ch : Nat) (ga : Nat) (x : Xfer) (a : Device),
    (ch < 256) ∧
    (s.dev.chan? ch = some x) ∧
    (s.dev.rd MEM_CHAN_STAT.state ch = chActive) ∧
    (s.dev.faultOf ch x = some (false, ga)) ∧
    (s.dev.beyondService ga = false) ∧
    (s.dev.regionRefuses x.ten ga = false) ∧
    (s.dev.rd MEM_CHAN_ADDR.fault_addr ch / pageSize ≠ ga / pageSize) ∧
    (a = (((s.dev.wr MEM_CHAN_STAT.fault_repeat ch 1).wr MEM_CHAN_ADDR.fault_addr ch ga).log { unit := chanUnit ch, sev := 0, op := 0x09, detail := ga, ten := x.ten, addr := ga }).wr MEM_CHAN_STAT.state ch 2) :=
  ⟨{ dev := moving 5 1 { aXfer 1 with src := 4 * pageSize, issued := 0 } }, 5, 4 * pageSize, { aXfer 1 with src := 4 * pageSize, issued := 0 }, _, by decide +kernel, by decide +kernel, by decide +kernel, by decide +kernel, by decide +kernel, by decide +kernel, by decide +kernel, rfl⟩

theorem wit_TransferChannels_chanResume : ∃ (s : State) (fn : Nat) (ch : Nat),
    (fn < 64) ∧
    (ch < 256) ∧
    (s.dev.reaches fn .MEM_CHAN_CTL = true) ∧
    (s.dev.rd MEM_CHAN_STAT.tenancy ch = fn) ∧
    (s.dev.rd MEM_CHAN_STAT.state ch = chDevice) :=
  ⟨{ dev := moving 5 2 (aXfer 1) }, 0, 5, by decide +kernel⟩

theorem wit_TransferChannels_chanAbort : ∃ (s : State) (fn : Nat) (ch : Nat),
    (fn < 64) ∧
    (ch < 256) ∧
    (s.dev.reaches fn .MEM_CHAN_CTL = true) ∧
    (s.dev.rd MEM_CHAN_STAT.tenancy ch = fn) ∧
    (s.dev.rd MEM_CHAN_STAT.state ch = chDevice) :=
  ⟨{ dev := moving 5 2 (aXfer 1) }, 0, 5, by decide +kernel⟩

theorem wit_TransferChannels_chanServiceTimeout : ∃ (s : State) (ch : Nat),
    (ch < 256) ∧
    (s.dev.rd MEM_CHAN_STAT.state ch = chDevice) :=
  ⟨{ dev := moving 255 2 (aXfer 1) }, 255, by decide +kernel⟩

theorem wit_TransferChannels_channelUncorrectable : ∃ (s : State) (ch : Nat) (kind : Nat) (ga : Nat) (x : Xfer) (a : Device),
    (ch < 192) ∧
    (kind < 6) ∧
    (s.dev.chan? ch = some x) ∧
    (a = s.dev.poisonGA x.ten ga) :=
  ⟨{ dev := moving 5 1 (aXfer 1) }, 5, 2, 64, aXfer 1, _, by decide +kernel, by decide +kernel, by decide +kernel, rfl⟩

theorem wit_TransferChannels_channelUncorrectable_ : ∃ (s : State) (e : Nat) (x : Nat) (kind : Nat) (r : Route),
    (e < 8) ∧
    (x < 8) ∧
    (kind < 6) ∧
    ((s.dev.rctx e x).route = some r) :=
  ⟨{ dev := { engines := [(63, { route := some { desc := [], core := 0, serial := 0, tok := 0, leg := 0, ten := 0, mid := 0, sn := 1, fixed := false, started := 0 } })] } }, 7, 7, 2, { desc := [], core := 0, serial := 0, tok := 0, leg := 0, ten := 0, mid := 0, sn := 1, fixed := false, started := 0 }, by decide +kernel⟩

theorem wit_TransferChannels_declarationDigestDone : ∃ (s : State) (t : Nat) (i : Nat) (sn : Nat) (rest : List (Nat × Nat × Nat)) (bs : List Byte) (a : Device) (b : Device),
    (s.dev.mm.hashing = (t, i, sn) :: rest) ∧
    (s.dev.readGA t (s.dev.landHome t i) (s.dev.landLen t i) = .ok bs) ∧
    (a = { s.dev with mm := { s.dev.mm with hashing := rest } }) ∧
    (b = (a.poke devKey spT1 (a.landAt t i + 64) (sha512 bs))) :=
  ⟨{ dev := { mm := { hashing := [(0, 0, 1)] } } }, 0, 0, 1, [], [], _, _, by decide +kernel, by decide +kernel, rfl, rfl⟩

theorem wit_MemoryServices_memArbiterGrant : ∃ (s : State) (u : Nat) (reqs : List MReq) (w : Nat),
    (u < 65536) ∧
    (u ∉ s.dev.mm.refreshing) ∧
    (memWinner (isPoolBank u) (smGet s.dev.mm.arbs u {}).holder (reqs.filter fun r => !s.dev.mm.fenced.contains r.unit && (!r.debug || s.dev.debugOpen)) = some w) :=
  ⟨{}, 0x4100, [⟨5, false, false⟩], 5, by decide +kernel⟩

theorem wit_MemoryServices_memArbWatchdogFire : ∃ (s : State) (u : Nat) (a : Device),
    (u < 65536) ∧
    (¬(u / 4096 = 6 ∧ 0x100 ≤ u % 4096 ∧ u % 4096 < 0x200)) ∧
    (a = ((s.dev.log { unit := u, sev := 4, op := 0x08, detail := u }).incSat MEM_ARB_STAT.wdt_fires 0 1).wr MEM_ARB_STAT.last_unit 0 u) ∧
    (Device.logicalOf { a with mm := { a.mm with fenced := u :: a.mm.fenced.filter fun f => f != u } } (coreOfUnit u) = none) :=
  ⟨{}, 0x6010, _, by decide +kernel, by decide +kernel, rfl, by decide +kernel⟩

theorem wit_MemoryServices_refresh : ∃ (u : Nat),
    (u < 65536) :=
  ⟨0x4100, by decide +kernel⟩

theorem wit_MemoryServices_scrubRead : ∃ (s : State) (sp : Nat) (off : Nat) (row : Nat) (u : Nat × Nat),
    (sp < 5) ∧
    (s.dev.on MEM_SCRUB_CFG.enable 0 = true) ∧
    (u = s.dev.placeUnit sp off) ∧
    ((s.dev.correctable u.1 u.2 row).2 = false) :=
  ⟨{ dev := ({} : Device).wr MEM_SCRUB_CFG.enable 0 1 }, 0, 4096, 7, _, by decide +kernel, by decide +kernel, rfl, by decide +kernel⟩

theorem wit_MemoryServices_correctedWriteBack : ∃ (u : Nat),
    (u < 65536) :=
  ⟨0, by decide +kernel⟩

theorem wit_MemoryServices_tier1FillDone : ∃ (s : State) (a : Device) (b : Device) (c : Device),
    (s.dev.rd PWR_STATE_STAT.state 0 = 4) ∧
    (s.dev.rd PWR_START_STAT.step 0 = 5) ∧
    (s.dev.pwr.held = false) ∧
    (a = ((s.dev.wr MEM_FILL_STAT.ts_done 0 1).wr MEM_FILL_STAT.dp_done 0 1).wr MEM_FILL_STAT.t1_done 0 1) ∧
    (b = (List.range 192).foldl (fun d n => if d.coreSt n = csFill then d.setCoreSt n csIdle else d) a) ∧
    (c = Machine.serviceEvaluation (((b.wr PWR_START_STAT.step 0 8).wr PWR_START_STAT.start_ms 0 (min ((b.cycle - b.pwr.startAt) / 1800000) (2 ^ 32 - 1))).wr PWR_STATE_STAT.state 0 0)) :=
  ⟨{ dev := { (({} : Device).wr PWR_STATE_STAT.state 0 4).wr PWR_START_STAT.step 0 5 with pwr := { held := false } } }, _, _, _, by decide +kernel, by decide +kernel, by decide +kernel, rfl, rfl, rfl⟩

theorem wit_MemoryServices_tier2FillDone : ∃ (s : State) (a : Device) (b : Device),
    (s.dev.on MEM_FILL_STAT.t1_done 0 = true) ∧
    (s.dev.on MEM_FILL_STAT.t2_done 0 = false) ∧
    (a = (s.dev.wr MEM_FILL_STAT.t2_done 0 1).releaseHeld chNone id) ∧
    (b = (a.mm.chans.map fun c => c.1).foldl (fun d ch => issueMore 16 ch d) a) :=
  ⟨{ dev := ({} : Device).wr MEM_FILL_STAT.t1_done 0 1 }, _, _, by decide +kernel, by decide +kernel, rfl, rfl⟩

theorem wit_ErrorsAndRepair_correctableError : ∃ (s : State) (u : Nat) (kind : Nat) (row : Nat) (place : Nat) (r : Device × Bool),
    (u < 65536) ∧
    (kind < 6) ∧
    (place < 4) ∧
    (r = s.dev.correctable u kind row) ∧
    (∀ b ∈ r.1.ras.cores, unitOf (b.spare / 52) (b.spare % 52) ≠ coreOfUnit u) ∧
    (r.2 = false) :=
  ⟨{}, 5, 0, 7, 0, _, by decide, by decide, by decide, rfl, by decide +kernel, by decide +kernel⟩

theorem wit_ErrorsAndRepair_correctableError_ : ∃ (s : State) (u : Nat) (kind : Nat) (row : Nat) (place : Nat) (r : Device × Bool),
    (u < 65536) ∧
    (kind < 6) ∧
    (place < 4) ∧
    (r = s.dev.correctable u kind row) ∧
    (∀ b ∈ r.1.ras.cores, unitOf (b.spare / 52) (b.spare % 52) ≠ coreOfUnit u) ∧
    (r.2 = true) ∧
    (place = 1 ∨ place = 2) :=
  ⟨{ dev := { ras := { corr := [5] } } }, 5, 0, 7, 1, _, by decide, by decide, by decide, rfl, by decide +kernel, by decide +kernel, Or.inl rfl⟩

theorem wit_ErrorsAndRepair_correctableError__ : ∃ (s : State) (u : Nat) (kind : Nat) (row : Nat) (place : Nat) (n : Nat) (l : Leg) (r : Device × Bool),
    (u < 65536) ∧
    (kind < 6) ∧
    (place < 4) ∧
    (r = s.dev.correctable u kind row) ∧
    (∀ b ∈ r.1.ras.cores, unitOf (b.spare / 52) (b.spare % 52) ≠ coreOfUnit u) ∧
    (r.2 = true) ∧
    (place = 0) ∧
    (r.1.logicalOf (coreOfUnit u) = some n) ∧
    ((r.1.core n).leg = some l) ∧
    (l.internal = 0) :=
  ⟨{ dev := { running 5 aLeg with ras := { corr := [5] } } }, 5, 0, 7, 0, 5, aLeg, _, by decide, by decide, by decide, rfl, by decide +kernel, by decide +kernel, rfl, by decide +kernel, by decide +kernel, by decide⟩

theorem wit_ErrorsAndRepair_correctableError___ : ∃ (s : State) (u : Nat) (kind : Nat) (row : Nat) (place : Nat) (b : BringIn) (r : Device × Bool),
    (u < 65536) ∧
    (kind < 6) ∧
    (place < 4) ∧
    (r = s.dev.correctable u kind row) ∧
    ((r.1.ras.cores.find? fun b => unitOf (b.spare / 52) (b.spare % 52) == coreOfUnit u) = some b) :=
  ⟨{ dev := { ras := { cores := [⟨5, 5, 48, 5⟩] } } }, 48, 0, 7, 0, ⟨5, 5, 48, 5⟩, _, by decide, by decide, by decide, rfl, by decide +kernel⟩

theorem wit_ErrorsAndRepair_faultRecordLogged : ∃ (s : State) (k : Nat) (r : FaultRec) (a : Device),
    (s.dev.ras.cpBusy = none) ∧
    (s.dev.ras.inflight[k]? = some r) ∧
    ((r.index + 2 ^ 32 - s.dev.rd RAS_LOG_STAT.consumed 0) % 2 ^ 32 < 4096) ∧
    (a = { s.dev with ras := { s.dev.ras with inflight := s.dev.ras.inflight.eraseIdx k, ring := smIns s.dev.ras.ring (r.index % 4096) r } }) :=
  ⟨{ dev := { ras := { inflight := [{ unit := 0, sev := 2, op := 2 }] } } }, 0, { unit := 0, sev := 2, op := 2 }, _, by decide +kernel, by decide +kernel, by decide +kernel, rfl⟩

theorem wit_ErrorsAndRepair_deviceReset : ∃ (s : State) (unit : Nat) (kind : Nat) (f : Nat × Device),
    (unit < 65536) ∧
    (kind < 6) ∧
    (f = s.dev.fresh (2 ^ 56)) :=
  ⟨{}, 5, 2, _, by decide +kernel, by decide +kernel, rfl⟩

theorem wit_ErrorsAndRepair_repairProgram : ∃ (s : State),
    (s.dev.reaches 0 .RAS_REPAIR_STAT = true) ∧
    (s.dev.on RAS_REPAIR_STAT.busy 0 = false) ∧
    (s.dev.rd RAS_REPAIR_STAT.free 0 ≠ 0) :=
  ⟨{}, by decide +kernel⟩

theorem wit_ErrorsAndRepair_repairProgramDone : ∃ (s : State) (e : Nat) (a : Device) (b : Device) (c : Device),
    (s.dev.ras.repairing = some e) ∧
    (s.dev.rd RAS_REPAIR_STAT.free 0 ≠ 0) ∧
    (s.dev.ras.pendingRepair = []) ∧
    (a = { s.dev with ras := { s.dev.ras with repairing := none, array := s.dev.ras.array ++ [e] } }) ∧
    (b = (a.wr RAS_REPAIR_STAT.busy 0 0).wr RAS_REPAIR_STAT.free 0 (a.rd RAS_REPAIR_STAT.free 0 - 1)) ∧
    (c = (b.wr RAS_REPAIR_STAT.ok 0 1).log { unit := reUnit e, sev := 0, op := 0x0F, detail := e }) ∧
    ((if crc12 e = e % 4096 then c.applyRepair e else c).ras.pendingRepair = []) :=
  ⟨{ dev := { ras := { repairing := some 0 } } }, 0, _, _, _, by decide +kernel, by decide +kernel, by decide +kernel, rfl, rfl, rfl, by decide +kernel⟩

theorem wit_ErrorsAndRepair_repairProgramDone_ : ∃ (s : State) (e : Nat) (a : Device) (b : Device),
    (s.dev.ras.repairing = some e) ∧
    (s.dev.rd RAS_REPAIR_STAT.free 0 ≠ 0) ∧
    (s.dev.ras.pendingRepair = []) ∧
    (a = { s.dev with ras := { s.dev.ras with repairing := none, array := s.dev.ras.array ++ [0] } }) ∧
    (b = (a.wr RAS_REPAIR_STAT.busy 0 0).wr RAS_REPAIR_STAT.free 0 (a.rd RAS_REPAIR_STAT.free 0 - 1)) :=
  ⟨{ dev := { ras := { repairing := some 0 } } }, 0, _, _, by decide +kernel, by decide +kernel, by decide +kernel, rfl, rfl⟩

theorem wit_ErrorsAndRepair_dramRowRepairDone : ∃ (s : State) (u : Nat),
    (u < 65536) ∧
    (u ∈ s.dev.ras.rowMove) :=
  ⟨{ dev := { ras := { rowMove := [0x4100] } } }, 0x4100, by decide +kernel⟩

theorem wit_ErrorsAndRepair_retireUnit : ∃ (s : State) (u : Nat),
    (u < 65536) ∧
    (s.dev.reaches 0 .RAS_RETIRE = true) :=
  ⟨{}, 5, by decide +kernel⟩

theorem wit_ErrorsAndRepair_startSteeping : ∃ (s : State) (u : Nat),
    (u < 65536) ∧
    (s.dev.reaches 0 .RAS_RETIRE = true) :=
  ⟨{}, 5, by decide +kernel⟩

theorem wit_ErrorsAndRepair_endSteeping : ∃ (s : State) (u : Nat),
    (u < 65536) ∧
    (s.dev.reaches 0 .RAS_RETIRE = true) :=
  ⟨{}, 5, by decide +kernel⟩

theorem wit_ErrorsAndRepair_steepingExpiry : ∃ (s : State) (u : Nat) (e : Nat × Nat),
    (u < 65536) ∧
    ((s.dev.ras.steeping.find? fun e => e.1 == u) = some e) ∧
    (e.2 + s.dev.rd RAS_POLICY.steep_hours 0 * 3600 * secCycles ≤ s.dev.cycle) :=
  ⟨{ dev := { ras := { steeping := [(5, 0)] }, cycle := 200 * 3600 * 1800000000 } }, 5, (5, 0), by decide +kernel⟩

theorem wit_SparesAndTasting_coreBringIn : ∃ (s : State) (n : Nat) (r : Nat × Nat),
    (n < 192) ∧
    ((s.dev.ras.retiring.find? fun r => r.1 == s.dev.coreUnit n) = some r) ∧
    (∀ b ∈ s.dev.ras.cores, b.logical ≠ n) :=
  ⟨{ dev := { ras := { retiring := [(5, 9)] } } }, 5, (5, 9), by decide +kernel⟩

theorem wit_SparesAndTasting_coreBringInDone : ∃ (s : State) (n : Nat) (b : BringIn),
    (n < 192) ∧
    ((s.dev.ras.cores.find? fun b => b.logical == n) = some b) :=
  ⟨{ dev := { ras := { cores := [⟨5, 5, 48, 5⟩] } } }, 5, ⟨5, 5, 48, 5⟩, by decide +kernel⟩

theorem wit_SparesAndTasting_coreBringInDone_ : ∃ (s : State) (n : Nat) (b : BringIn) (a : Device) (e : Device) (f : Device) (g : Device),
    (n < 192) ∧
    ((s.dev.ras.cores.find? fun b => b.logical == n) = some b) ∧
    (a = s.dev.setCore n { s.dev.core n with bringIn := false, fenced := [], banks := [] }) ∧
    (e = Device.zero { a with ras := { a.ras with cores := a.ras.cores.filter (fun c => c.logical != n), retiring := a.ras.retiring.filter (fun r => r.1 != b.unit), lost := b.unit :: a.ras.lost } } spTS (tsOff n 0) 2097152) ∧
    (f = ((e.wr COR_LMAP.phys n b.spare).wr COR_LMAP.remapped n 1).describeCore n) ∧
    (g = (f.incWrap COR_TIMING.generation n 1).showSpares (n / 48)) :=
  ⟨{ dev := { ras := { cores := [⟨5, 5, 48, 5⟩] } } }, 5, ⟨5, 5, 48, 5⟩, _, _, _, _, by decide +kernel, by decide +kernel, rfl, rfl, rfl, rfl⟩

theorem wit_SparesAndTasting_cubeRowBringIn : ∃ (s : State) (n : Nat) (c : Nat) (r : Nat),
    (n < 192) ∧
    ((s.dev.ras.rows.find? fun r => r.1 == s.dev.coreUnit n) = some (s.dev.coreUnit n, c, r)) ∧
    ((s.dev.core n).leg = none) ∧
    (s.dev.coreSt n = csIdle) ∧
    (∀ w, s.dev.nextWindow n s.dev.cycle = some w → (s.dev.cycle : Int) + 198000 ≤ w) ∧
    (cubeField (s.dev.reg .COR_CUBE_REPAIR n).toNat c < 8) :=
  ⟨{ dev := { ({} : Device).setCoreSt 5 csIdle with ras := { rows := [(5, 3, 2)] } } }, 5, 3, 2, by decide +kernel, by decide +kernel, by decide +kernel, by decide +kernel, (fun w h => nomatch (show (none : Option Int) = some w from h)), by decide +kernel⟩

theorem wit_SparesAndTasting_cubeRowBringIn_ : ∃ (s : State) (n : Nat) (c : Nat) (r : Nat),
    (n < 192) ∧
    ((s.dev.ras.rows.find? fun r => r.1 == s.dev.coreUnit n) = some (s.dev.coreUnit n, c, r)) ∧
    ((s.dev.core n).leg = none) ∧
    (s.dev.coreSt n = csIdle) ∧
    (∀ w, s.dev.nextWindow n s.dev.cycle = some w → (s.dev.cycle : Int) + 198000 ≤ w) ∧
    (8 ≤ cubeField (s.dev.reg .COR_CUBE_REPAIR n).toNat c) :=
  ⟨{ dev := { (({} : Device).setCoreSt 5 csIdle).setReg .COR_CUBE_REPAIR 5 0x8000 with ras := { rows := [(5, 3, 2)] } } }, 5, 3, 2, by decide +kernel, by decide +kernel, by decide +kernel, by decide +kernel, (fun w h => nomatch (show (none : Option Int) = some w from h)), by decide +kernel⟩

theorem wit_SparesAndTasting_cubeRowBringInDone : ∃ (s : State) (n : Nat) (c : Nat) (r : Nat) (a : Device) (b : Device),
    (n < 192) ∧
    ((s.dev.ras.rows.find? fun r => r.1 == s.dev.coreUnit n) = some (s.dev.coreUnit n, c, r)) ∧
    ((s.dev.core n).bringIn = true) ∧
    (s.dev.coreSt n = csRecovery) ∧
    (∀ b ∈ s.dev.ras.cores, b.logical ≠ n) ∧
    (a = (s.dev.setCore n { s.dev.core n with bringIn := false, fenced := [], banks := [] }).setReg .COR_CUBE_REPAIR n (BitVec.ofNat 64 (repairRow (s.dev.reg .COR_CUBE_REPAIR n).toNat c r))) ∧
    (b = (((a.wr COR_TIMING.cube_depth n 5).wr COR_TIMING.leg_start n 25).incWrap COR_TIMING.generation n 1).setCoreSt n csIdle) :=
  ⟨{ dev := { ({} : Device).setCoreSt 5 csRecovery with ras := { rows := [(5, 3, 2)] }, cores := [(5, { bringIn := true })] } }, 5, 3, 2, _, _, by decide +kernel, by decide +kernel, by decide +kernel, by decide +kernel, by decide +kernel, rfl, rfl⟩

theorem wit_SparesAndTasting_pseudoChannelCopy : ∃ (s : State) (u : Nat) (p : Nat),
    (u < 65536) ∧
    (s.dev.isRetiring u = true) ∧
    (isPcUnit u = true) ∧
    (∀ c ∈ s.dev.ras.psCopies, c.1 ≠ u) ∧
    (s.dev.sparePc u = some p) :=
  ⟨{ dev := { ras := { retiring := [(0x4100, 3)] } } }, 0x4100, 0x4140, by decide +kernel⟩

theorem wit_SparesAndTasting_pseudoChannelCopy_ : ∃ (s : State) (u : Nat),
    (u < 65536) ∧
    (s.dev.isRetiring u = true) ∧
    (isPcUnit u = true) ∧
    (∀ c ∈ s.dev.ras.psCopies, c.1 ≠ u) ∧
    (s.dev.sparePc u = none) :=
  ⟨{ dev := { ras := { retiring := [(0x4100, 3)], lost := [0x4140, 0x4141] } } }, 0x4100, by decide +kernel⟩

theorem wit_SparesAndTasting_pseudoChannelCopyDone : ∃ (s : State) (u : Nat) (p : Nat),
    (u < 65536) ∧
    ((s.dev.ras.psCopies.find? fun c => c.1 == u) = some (u, p)) :=
  ⟨{ dev := { ras := { psCopies := [(0x4100, 0x4140)] } } }, 0x4100, 0x4140, by decide +kernel⟩

theorem wit_SparesAndTasting_engineBringIn : ∃ (s : State) (e : Nat) (u : Nat) (p : Nat) (a : Device) (b : Device),
    (e < 8) ∧
    (u = s.dev.engineUnit e) ∧
    (s.dev.isRetiring u = true) ∧
    (a = s.dev.sweepEngines) ∧
    (p = spareEngine e) ∧
    (a.engineSpareFree e = true) ∧
    (b = (a.wr RTE_MAP.phys e p).wr RTE_MAP.remapped e 1) :=
  ⟨{ dev := { ras := { retiring := [(0x4020, 3)] } } }, 0, _, _, _, _, by decide +kernel, rfl, by decide +kernel, rfl, rfl, by decide +kernel, rfl⟩

theorem wit_SparesAndTasting_engineInputWatchdogFire : ∃ (s : State) (e : Nat) (src : Nat) (u : Nat),
    (e < 8) ∧
    (src < 192) ∧
    (u = s.dev.reqUnit src 27) ∧
    ((e, u) ∉ s.dev.rteFenced) :=
  ⟨{}, 7, 191, _, by decide +kernel, by decide +kernel, rfl, by decide +kernel⟩

theorem wit_SparesAndTasting_cpCheckpoint : ∃ (s : State) (k : Nat),
    (k < 4) ∧
    (bit (s.dev.rd RAS_CP_STAT.active 0) k = true) :=
  ⟨{}, 0, by decide +kernel⟩

theorem wit_SparesAndTasting_cpFailure : ∃ (s : State) (k : Nat) (a : Device),
    (k < 4) ∧
    (bit (s.dev.rd RAS_CP_STAT.working 0) k = true) ∧
    (s.dev.rd RAS_CP_STAT.working 0 &&& (15 - 2 ^ k) ≠ 0) ∧
    (a = (s.dev.wr RAS_CP_STAT.working 0 (s.dev.rd RAS_CP_STAT.working 0 &&& (15 - 2 ^ k))).wr RAS_CP_STAT.active 0 (s.dev.rd RAS_CP_STAT.active 0 &&& (15 - 2 ^ k))) ∧
    (a.ras.cpBusy = none) ∧
    (s.dev.on RAS_CP_STAT.no_spare 0 = false) ∧
    (s.dev.rd RAS_CP_STAT.spare 0 ≠ k) :=
  ⟨{}, 0, _, by decide +kernel, by decide +kernel, by decide +kernel, rfl, by decide +kernel, by decide +kernel, by decide +kernel⟩

theorem wit_SparesAndTasting_cpFailure_ : ∃ (s : State) (k : Nat) (a : Device),
    (k < 4) ∧
    (bit (s.dev.rd RAS_CP_STAT.working 0) k = true) ∧
    (s.dev.rd RAS_CP_STAT.working 0 &&& (15 - 2 ^ k) ≠ 0) ∧
    (a = (s.dev.wr RAS_CP_STAT.working 0 (s.dev.rd RAS_CP_STAT.working 0 &&& (15 - 2 ^ k))).wr RAS_CP_STAT.active 0 (s.dev.rd RAS_CP_STAT.active 0 &&& (15 - 2 ^ k))) ∧
    (a.ras.cpBusy = none) ∧
    (s.dev.on RAS_CP_STAT.no_spare 0 = false) ∧
    (s.dev.rd RAS_CP_STAT.spare 0 = k) :=
  ⟨{}, 3, _, by decide +kernel, by decide +kernel, by decide +kernel, rfl, by decide +kernel, by decide +kernel, by decide +kernel⟩

theorem wit_SparesAndTasting_cpFailure__ : ∃ (s : State) (k : Nat) (a : Device),
    (k < 4) ∧
    (bit (s.dev.rd RAS_CP_STAT.working 0) k = true) ∧
    (s.dev.rd RAS_CP_STAT.working 0 &&& (15 - 2 ^ k) ≠ 0) ∧
    (a = (s.dev.wr RAS_CP_STAT.working 0 (s.dev.rd RAS_CP_STAT.working 0 &&& (15 - 2 ^ k))).wr RAS_CP_STAT.active 0 (s.dev.rd RAS_CP_STAT.active 0 &&& (15 - 2 ^ k))) ∧
    (a.ras.cpBusy = none) ∧
    (s.dev.on RAS_CP_STAT.no_spare 0 = true) :=
  ⟨{ dev := ({} : Device).wr RAS_CP_STAT.no_spare 0 1 }, 0, _, by decide +kernel, by decide +kernel, by decide +kernel, rfl, by decide +kernel, by decide +kernel⟩

theorem wit_SparesAndTasting_cpTakeoverDone : ∃ (s : State) (k : Nat) (w : Nat) (act : Nat) (a : Device),
    (s.dev.ras.cpBusy = some (k, w)) ∧
    (act = s.dev.rd RAS_CP_STAT.active 0 ||| w) ∧
    (a = (Device.incSat { s.dev with ras := { s.dev.ras with cpBusy := s.dev.ras.cpNext.head?.map fun j => (j, act), cpNext := s.dev.ras.cpNext.drop 1 } } RAS_CP_STAT.takeovers 0 1).wr RAS_CP_STAT.no_spare 0 1) :=
  ⟨{ dev := { ras := { cpBusy := some (0, 8) } } }, 0, 8, _, _, by decide +kernel, rfl, rfl⟩

theorem wit_SparesAndTasting_cpSpareRotation : ∃ (s : State) (p : Nat) (k : Nat),
    (s.dev.on RAS_CP_STAT.no_spare 0 = false) ∧
    (s.dev.ras.cpBusy = none) ∧
    (p = s.dev.rd RAS_CP_STAT.spare 0) ∧
    ((([1, 2, 3].map fun i => (p + i) % 4).find? fun k => bit (s.dev.rd RAS_CP_STAT.active 0) k) = some k) :=
  ⟨{}, _, 0, by decide +kernel, by decide +kernel, rfl, by decide +kernel⟩

theorem wit_SparesAndTasting_tasteLeg : ∃ (s : State) (n : Nat) (t : Taste),
    (n < 192) ∧
    (s.dev.tasteOn n = some t) ∧
    (t.placed = true) ∧
    (t.phase = 0) :=
  ⟨{ dev := { running 5 { aLeg with internal := 2 } with ras := { tastes := [aTaste] } } }, 5, aTaste, by decide +kernel⟩

theorem wit_SparesAndTasting_tasteLeg_ : ∃ (s : State) (n : Nat) (t : Taste) (a : Device),
    (n < 192) ∧
    (s.dev.tasteOn n = some t) ∧
    (t.placed = true) ∧
    (t.phase = 0) ∧
    (a = (s.dev.incWrap RAS_TASTE_CNT.tasted t.core 1).binAdd t.core (tbinOf (toSigned 16 t.temp)) (vbinOf t.volt) t.fmt.binRow 1) :=
  ⟨{ dev := { running 5 { aLeg with internal := 2 } with ras := { tastes := [aTaste] } } }, 5, aTaste, _, by decide +kernel, by decide +kernel, by decide +kernel, by decide +kernel, rfl⟩

theorem wit_SparesAndTasting_tasteArbitration : ∃ (s : State) (n : Nat) (t : Taste) (a : Device),
    (n < 192) ∧
    (s.dev.tasteOn n = some t) ∧
    (t.placed = true) ∧
    (t.phase = 1) ∧
    (n ≠ t.other) ∧
    (a = s.dev.log { unit := s.dev.coreUnit t.core, sev := 2, op := 0x0A, flags := 4, temp := t.temp, volt := t.volt, ten := t.ten, mid := t.mid, leg := t.leg, detail := t.cube + (t.cube / 4) <<< 4 + 2 <<< 8 + s.dev.coreUnit t.other <<< 32 }) :=
  ⟨{ dev := { running 5 { aLeg with internal := 2 } with ras := { tastes := [{ aTaste with phase := 1, other := 7 }] } } }, 5, { aTaste with phase := 1, other := 7 }, _, by decide +kernel, by decide +kernel, by decide +kernel, by decide +kernel, by decide +kernel, rfl⟩

theorem wit_SparesAndTasting_tasteArbitration_ : ∃ (s : State) (n : Nat) (v : Nat) (t : Taste) (a : Device) (b : Device),
    (n < 192) ∧
    (s.dev.tasteOn n = some t) ∧
    (t.placed = true) ∧
    (t.phase = 1) ∧
    (n ≠ t.other) ∧
    (v = 1 ∨ v = 3) ∧
    (a = (((s.dev.log { unit := s.dev.coreUnit t.core, sev := 2, op := 0x0A, flags := 4, temp := t.temp, volt := t.volt, ten := t.ten, mid := t.mid, leg := t.leg, detail := t.cube + (t.cube / 4) <<< 4 + v <<< 8 + s.dev.coreUnit t.other <<< 32 }).incSat RAS_CORE_HEALTH.as_original t.core 1).steep (s.dev.coreUnit t.core))) ∧
    (b = if v = 1 then (a.binAdd t.core (tbinOf (toSigned 16 t.temp)) (vbinOf t.volt) t.fmt.binRow 0).addEvent (s.dev.coreUnit t.core) evVerdict 0 0x0A 0 else (a.incSat RAS_CORE_HEALTH.as_taster t.other 1).steep (s.dev.coreUnit t.other)) :=
  ⟨{ dev := { running 5 { aLeg with internal := 2 } with ras := { tastes := [{ aTaste with phase := 1, other := 7 }] } } }, 5, 1, { aTaste with phase := 1, other := 7 }, _, _, by decide, by decide +kernel, by decide, by decide, by decide, Or.inl rfl, rfl, rfl⟩

theorem wit_SparesAndTasting_periodicTestDue : ∃ (n : Nat),
    (n < 192) :=
  ⟨191, by decide +kernel⟩

theorem wit_SparesAndTasting_periodicTestDue_ : ∃ (n : Nat),
    (n < 192) :=
  ⟨191, by decide +kernel⟩

theorem wit_TimingUnit_timNowSRead : ∃ (s : State) (fn : Nat),
    (fn < 64) ∧
    (s.dev.reaches fn .TIM_NOW_S = true) :=
  ⟨{}, 63, by decide +kernel⟩

theorem wit_TimingUnit_ptpFrameRx : ∃ (s : State) (port : Nat) (data : List Byte),
    (port < 5) ∧
    (s.dev.isX = false ∨ port = 4) ∧
    ((ptpAt data).isSome = true) :=
  ⟨{}, 4, List.replicate 12 0 ++ [0x88, 0xF7], by decide +kernel⟩

theorem wit_TimingUnit_syncTx : ∃ (s : State) (port : Nat) (tr : Nat) (o : Nat) (ty : Nat) (f : List Byte) (out : List Byte),
    (port < 5) ∧
    (ptpAt f = some (tr, o)) ∧
    (ty = beAt f o 1 % 16) ∧
    (ty ≤ 3) ∧
    (port = 4 ∨ (s.dev.isX = false ∧ s.dev.outputsSafe = false)) ∧
    (ty = 0) ∧
    (bit (beAt f (o + 6) 1) 1 = false) ∧
    (o + 44 ≤ f.length) ∧
    (out = fixUdp f (insertStamp f o ((s.dev.time : Int) + toSigned 16 (s.dev.rd TIM_PORT_LAT.tx_adj_ps port) * 144 / 1000).toNat) tr o) :=
  ⟨{}, 4, 0, 14, _, List.replicate 12 0 ++ [0x88, 0xF7] ++ List.replicate 50 0, _, by decide, by decide +kernel, by decide +kernel, by decide, Or.inl rfl, rfl, by decide +kernel, by decide, rfl⟩

theorem wit_TimingUnit_syncTx_ : ∃ (s : State) (port : Nat) (tr : Nat) (o : Nat) (ty : Nat) (f : List Byte),
    (port < 5) ∧
    (ptpAt f = some (tr, o)) ∧
    (ty = beAt f o 1 % 16) ∧
    (ty ≤ 3) ∧
    (port = 4 ∨ (s.dev.isX = false ∧ s.dev.outputsSafe = false)) ∧
    (ty ≠ 0 ∨ bit (beAt f (o + 6) 1) 1 = true ∨ f.length < o + 44) :=
  ⟨{}, 4, 0, 14, _, List.replicate 12 0 ++ [0x88, 0xF7, 1] ++ List.replicate 50 0, by decide, by decide +kernel, rfl, by decide +kernel, Or.inl rfl, by decide +kernel⟩

theorem wit_TimingUnit_domainUpdate : ∃ (s : State) (k : Nat) (cls : Nat) (off : Int) (a : Device) (b : Device) (c : Device) (j : Bool),
    (k < 2) ∧
    (cls < 256) ∧
    (1 ≤ s.dev.rd TIM_DOM_CFG.source k) ∧
    (s.dev.rd TIM_DOM_CFG.source k ≤ 4) ∧
    (s.dev.ras.cpBusy = none) ∧
    (a = s.dev.wr TIM_DOM_STAT.gm_class k (if s.dev.rd TIM_DOM_CFG.source k = 4 then 0 else cls)) ∧
    (s.dev.rd TIM_DOM_CFG.source k = 4 ∨ cls ≤ a.rd TIM_DOM_CFG.max_class k) ∧
    (b = { a.setOff k off with timing := if (a.setOff k off).selected == some k then { (a.setOff k off).timing with slewFrac := 0 } else (a.setOff k off).timing }) ∧
    (b.domState k = 2) ∧
    (c = b.setDom k { b.dom k with hist := (off :: (b.dom k).hist).take 16, last := off.natAbs }) ∧
    (j = (c.selected == some k && c.domLocked k && !c.on TIM_STAT.doubt 0 && decide (c.rd TIM_SEL_CTL.max_delta_ns 0 < off.natAbs))) :=
  ⟨{ dev := ((({} : Device).wr TIM_DOM_CFG.source 1 2).wr TIM_DOM_CFG.max_class 1 7).wr TIM_DOM_STAT.state 1 2 }, 1, 6, -300, _, _, _, _, by decide, by decide, by decide +kernel, by decide +kernel, by decide, rfl, by decide +kernel, rfl, by decide +kernel, rfl, rfl⟩

theorem wit_TimingUnit_domainUpdate__ : ∃ (s : State) (k : Nat) (cls : Nat) (off : Int) (a : Device) (b : Device) (c : Device) (e : Device) (h : List Int) (j : Bool),
    (k < 2) ∧
    (cls < 256) ∧
    (1 ≤ s.dev.rd TIM_DOM_CFG.source k) ∧
    (s.dev.rd TIM_DOM_CFG.source k ≤ 4) ∧
    (s.dev.ras.cpBusy = none) ∧
    (a = s.dev.wr TIM_DOM_STAT.gm_class k (if s.dev.rd TIM_DOM_CFG.source k = 4 then 0 else cls)) ∧
    (s.dev.rd TIM_DOM_CFG.source k = 4 ∨ cls ≤ a.rd TIM_DOM_CFG.max_class k) ∧
    (b = { a.setOff k off with timing := if (a.setOff k off).selected == some k then { (a.setOff k off).timing with slewFrac := 0 } else (a.setOff k off).timing }) ∧
    (b.domState k = 1) ∧
    (h = (off :: (b.dom k).hist).take 16) ∧
    (c = b.setDom k { b.dom k with hist := h, last := off.natAbs }) ∧
    (e = if h.length = 16 ∧ h.foldl max off - h.foldl min off < 50 then c.wr TIM_DOM_STAT.state k 2 else c) ∧
    (j = (e.selected == some k && e.domLocked k && !e.on TIM_STAT.doubt 0 && decide (e.rd TIM_SEL_CTL.max_delta_ns 0 < off.natAbs))) :=
  ⟨{ dev := ((({} : Device).wr TIM_DOM_CFG.source 1 2).wr TIM_DOM_CFG.max_class 1 7).wr TIM_DOM_STAT.state 1 1 }, 1, 6, -300, _, _, _, _, _, _, by decide, by decide, by decide +kernel, by decide +kernel, by decide, rfl, by decide +kernel, rfl, by decide +kernel, rfl, rfl, rfl, rfl⟩

theorem wit_TimingUnit_domainUpdate___ : ∃ (s : State) (k : Nat) (cls : Nat) (off : Int) (a : Device) (b : Device) (e : Device) (j : Bool),
    (k < 2) ∧
    (cls < 256) ∧
    (1 ≤ s.dev.rd TIM_DOM_CFG.source k) ∧
    (s.dev.rd TIM_DOM_CFG.source k ≤ 4) ∧
    (s.dev.ras.cpBusy = none) ∧
    (a = s.dev.wr TIM_DOM_STAT.gm_class k (if s.dev.rd TIM_DOM_CFG.source k = 4 then 0 else cls)) ∧
    (s.dev.rd TIM_DOM_CFG.source k = 4 ∨ cls ≤ a.rd TIM_DOM_CFG.max_class k) ∧
    (b = { a.setOff k off with timing := if (a.setOff k off).selected == some k then { (a.setOff k off).timing with slewFrac := 0 } else (a.setOff k off).timing }) ∧
    (b.domState k ≠ 1) ∧
    (b.domState k ≠ 2) ∧
    (e = (b.wr TIM_DOM_STAT.state k 1).setDom k { (b.wr TIM_DOM_STAT.state k 1).dom k with hist := [off], last := off.natAbs }) ∧
    (j = (e.selected == some k && e.domLocked k && !e.on TIM_STAT.doubt 0 && decide (e.rd TIM_SEL_CTL.max_delta_ns 0 < off.natAbs))) :=
  ⟨{ dev := ((({} : Device).wr TIM_DOM_CFG.source 1 2).wr TIM_DOM_CFG.max_class 1 7).wr TIM_DOM_STAT.state 1 3 }, 1, 6, -300, _, _, _, _, by decide, by decide, by decide +kernel, by decide +kernel, by decide, rfl, by decide +kernel, rfl, by decide +kernel, by decide +kernel, rfl, rfl⟩

theorem wit_TimingUnit_domainUpdate_ : ∃ (s : State) (k : Nat) (cls : Nat) (a : Device),
    (k < 2) ∧
    (cls < 256) ∧
    (1 ≤ s.dev.rd TIM_DOM_CFG.source k) ∧
    (s.dev.rd TIM_DOM_CFG.source k ≤ 4) ∧
    (s.dev.ras.cpBusy = none) ∧
    (a = s.dev.wr TIM_DOM_STAT.gm_class k (if s.dev.rd TIM_DOM_CFG.source k = 4 then 0 else cls)) ∧
    (s.dev.rd TIM_DOM_CFG.source k ≠ 4) ∧
    (a.rd TIM_DOM_CFG.max_class k < cls) :=
  ⟨{ dev := ((({} : Device).wr TIM_DOM_CFG.source 1 2).wr TIM_DOM_CFG.max_class 1 7).wr TIM_DOM_STAT.state 1 2 }, 1, 8, _, by decide, by decide, by decide +kernel, by decide +kernel, by decide, rfl, by decide +kernel, by decide +kernel⟩

theorem wit_TimingUnit_domainLossTimeout : ∃ (k : Nat),
    (k < 2) :=
  ⟨1, by decide +kernel⟩

theorem wit_TimingUnit_domainSwitchover : ∃ (s : State) (k : Nat),
    (s.dev.selected = some k) ∧
    (s.dev.domLocked k = false) ∧
    (s.dev.domLocked (1 - k) = true) ∧
    (s.dev.domAbs (1 - k) ≤ s.dev.rd TIM_SEL_CTL.max_delta_ns 0) :=
  ⟨{ dev := (({} : Device).wr TIM_STAT.selected 0 1).wr TIM_DOM_STAT.state 0 2 }, 1, by decide +kernel⟩

theorem wit_TimingUnit_domainSwitchover_ : ∃ (s : State) (k : Nat),
    (s.dev.selected = some k) ∧
    (s.dev.domLocked k = false) ∧
    (s.dev.domLocked (1 - k) = false ∨ s.dev.rd TIM_SEL_CTL.max_delta_ns 0 < s.dev.domAbs (1 - k)) :=
  ⟨{ dev := ({} : Device).wr TIM_STAT.selected 0 1 }, 1, by decide +kernel⟩

theorem wit_TimingUnit_domainSwitchover__ : ∃ (s : State) (k : Nat) (j : Nat),
    (s.dev.selected = some k) ∧
    (s.dev.revertTo = some j) ∧
    (s.dev.domLocked (1 - k) = true) ∧
    (s.dev.domAbs (1 - k) ≤ s.dev.rd TIM_SEL_CTL.max_delta_ns 0) :=
  ⟨{ dev := (((({} : Device).wr TIM_STAT.selected 0 1).wr TIM_DOM_STAT.state 0 2).wr TIM_DOM_STAT.state 1 2).wr TIM_SEL_CTL.revertive 0 1 }, 1, 0, by decide +kernel⟩

theorem wit_TimingUnit_holdoverTick : ∃ (s : State) (k : Nat) (e : Nat) (a : Device),
    (s.dev.rd TIM_STAT.state 0 = 3) ∧
    (k = s.dev.timing.holdMs + 1) ∧
    (e = if s.dev.on TIM_STAT.synce_locked 0 then s.dev.timing.holdE0 * 7200000000000 + s.dev.rd TIM_HOLD_CTL.synce_unc_ppt 0 * 7200000 * k else s.dev.timing.holdErr + s.dev.rd TIM_HOLD_CTL.freq_unc_ppt 0 * 7200000 + s.dev.rd TIM_HOLD_CTL.ageing_ppt_h 0 * (2 * k - 1)) ∧
    (a = { s.dev with timing := { s.dev.timing with holdMs := k, holdErr := e } }) :=
  ⟨{ dev := ({} : Device).wr TIM_STAT.state 0 3 }, _, _, _, by decide +kernel, rfl, rfl, rfl⟩

theorem wit_TimingUnit_requalifyExpiry : ∃ (s : State) (k : Nat),
    (k < 2) ∧
    (s.dev.domLocked k = true) :=
  ⟨{ dev := ({} : Device).wr TIM_DOM_STAT.state 1 2 }, 1, by decide +kernel⟩

theorem wit_TimingUnit_esmcRx : ∃ (s : State) (p : Nat) (ssm : Nat),
    (p < 4) ∧
    (ssm < 15) ∧
    (s.dev.isX = false) ∧
    (s.dev.on TIM_SYNCE_CTL.enable 0 = true) ∧
    (s.dev.rd TIM_SYNCE_CTL.ref_port 0 = p) :=
  ⟨{ dev := ({} : Device).wr TIM_SYNCE_CTL.enable 0 1 }, 0, 2, by decide +kernel⟩

theorem wit_TimingUnit_synceQualTimeout : ∃ (s : State),
    (s.dev.rd TIM_SYNCE_CTL.state 0 = 2) :=
  ⟨{ dev := ({} : Device).wr TIM_SYNCE_CTL.state 0 2 }, by decide +kernel⟩

theorem wit_SlotsPulsesCaptures_slotBoundary : ∃ (s : State) (mu : Nat) (a : Device),
    (mu < 4) ∧
    (a = s.dev.toSlot mu) ∧
    (a.slotCount mu % 2 ^ mu = 0) :=
  ⟨{}, 0, _, by decide +kernel, rfl, by decide +kernel⟩

theorem wit_SlotsPulsesCaptures_slotBoundary_ : ∃ (s : State) (mu : Nat),
    (mu < 4) ∧
    ((s.dev.toSlot mu).slotCount mu % 2 ^ mu ≠ 0) :=
  ⟨{}, 3, by decide +kernel⟩

theorem wit_SlotsPulsesCaptures_ppsEnable : ∃ (s : State) (k : Nat) (value : Nat) (p : Pulse),
    (k < 4) ∧
    (value < 2 ^ 64) ∧
    (s.dev.reaches 0 .TIM_PPS_CTL = true) ∧
    (bit value 0 = false) ∧
    (s.dev.on TIM_PPS_CTL.enable k = true) ∧
    (p = smGet s.dev.timing.pulses k {}) :=
  ⟨{ dev := ({} : Device).wr TIM_PPS_CTL.enable 3 1 }, 3, 0, _, by decide +kernel, by decide +kernel, by decide +kernel, by decide +kernel, by decide +kernel, rfl⟩

theorem wit_SlotsPulsesCaptures_ppsEnable_ : ∃ (s : State) (k : Nat) (value : Nat) (a : Device),
    (k < 4) ∧
    (value < 2 ^ 64) ∧
    (s.dev.reaches 0 .TIM_PPS_CTL = true) ∧
    (bit value 0 = true) ∧
    (s.dev.on TIM_PPS_CTL.enable k = false) ∧
    (a = s.dev.setReg .TIM_PPS_CTL k (BitVec.ofNat 64 (value - value % 256 - (bits value 11 8) <<< 8 + (b2n (s.dev.on TIM_PPS_CTL.missed k && !bit value 7)) <<< 7 + (bits value 6 5) <<< 5 + (bits value 1 1) <<< 1))) ∧
    (a.rd TIM_PPS_CTL.width_ns k ≠ 0) ∧
    (a.on TIM_PPS_CTL.periodic k = false) ∧
    (((a.wr TIM_PPS_CTL.enable k 1).time : Int) + usT ≤ (a.wr TIM_PPS_CTL.enable k 1).pulseStart k) :=
  ⟨{ dev := { ({} : Device).wr TIM_PPS_START.start_ns 3 5000 with time := 0 } }, 3, 100 * 65536 + 1, _, by decide +kernel, by decide +kernel, by decide +kernel, by decide +kernel, by decide +kernel, rfl, by decide +kernel, by decide +kernel, by decide +kernel⟩

theorem wit_SlotsPulsesCaptures_ppsEnable__ : ∃ (s : State) (k : Nat) (value : Nat) (a : Device),
    (k < 4) ∧
    (value < 2 ^ 64) ∧
    (s.dev.reaches 0 .TIM_PPS_CTL = true) ∧
    (bit value 0 = true) ∧
    (s.dev.on TIM_PPS_CTL.enable k = false) ∧
    (a = s.dev.setReg .TIM_PPS_CTL k (BitVec.ofNat 64 (value - value % 256 - (bits value 11 8) <<< 8 + (b2n (s.dev.on TIM_PPS_CTL.missed k && !bit value 7)) <<< 7 + (bits value 6 5) <<< 5 + (bits value 1 1) <<< 1))) ∧
    (a.rd TIM_PPS_CTL.width_ns k ≠ 0) ∧
    (a.on TIM_PPS_CTL.periodic k = true) ∧
    (a.rd TIM_PPS_CTL.width_ns k < a.rd TIM_PPS_CTL.period_ns k) :=
  ⟨{ dev := { ({} : Device).wr TIM_PPS_CTL.period_ns 3 5000 with time := 0 } }, 3, 5000 * 2 ^ 32 + 100 * 65536 + 3, _, by decide, by decide, by decide +kernel, by decide, by decide +kernel, rfl, by decide +kernel, by decide +kernel, by decide +kernel⟩

theorem wit_SlotsPulsesCaptures_pulseEdge : ∃ (s : State) (k : Nat) (p : Pulse),
    (k < 4) ∧
    (p = smGet s.dev.timing.pulses k {}) ∧
    (p.high = false) ∧
    (p.armed = true) ∧
    (p.next ≤ s.dev.time) ∧
    (s.dev.pulseHeld k = false) :=
  ⟨{ dev := { timing := { pulses := [(3, { armed := true })] }, pwr := { gated := false, perst := false } } }, 3, _, by decide +kernel, rfl, by decide +kernel, by decide +kernel, by decide +kernel, by decide +kernel⟩

theorem wit_SlotsPulsesCaptures_pulseEdge__ : ∃ (s : State) (k : Nat) (p : Pulse),
    (k < 4) ∧
    (p = smGet s.dev.timing.pulses k {}) ∧
    (p.high = false) ∧
    (p.armed = true) ∧
    (p.next ≤ s.dev.time) ∧
    (s.dev.pulseHeld k = true) :=
  ⟨{ dev := { timing := { pulses := [(3, { armed := true })] }, pwr := { linkDown := true } } }, 3, _, by decide +kernel, rfl, by decide +kernel, by decide +kernel, by decide +kernel, by decide +kernel⟩

theorem wit_SlotsPulsesCaptures_pulseEdge_ : ∃ (s : State) (k : Nat) (p : Pulse),
    (k < 4) ∧
    (p = smGet s.dev.timing.pulses k {}) ∧
    (p.high = true) ∧
    (p.fall ≤ s.dev.time) ∧
    (p.level = true) :=
  ⟨{ dev := { timing := { pulses := [(3, { high := true, level := true })] } } }, 3, _, by decide +kernel, rfl, by decide +kernel, by decide +kernel, by decide +kernel⟩

theorem wit_SlotsPulsesCaptures_captureEdge : ∃ (s : State) (k : Nat) (fall : Bool) (a : Device),
    (k < 4) ∧
    ((if fall then bit (s.dev.rd TIM_CAP_CTL.edges k) 1 else bit (s.dev.rd TIM_CAP_CTL.edges k) 0) = true) ∧
    (∀ x, (s.dev.timing.capLast.find? fun x => x.1 == k) = some x → x.2 + 180 ≤ s.dev.cycle) ∧
    ((smGet s.dev.timing.fifos k []).length < 16) ∧
    (a = { s.dev with timing := { s.dev.timing with capLast := smIns s.dev.timing.capLast k s.dev.cycle } }) :=
  ⟨{ dev := ({} : Device).wr TIM_CAP_CTL.edges 3 3 }, 3, true, _, by decide, by decide +kernel, (fun x h => nomatch h), by decide +kernel, rfl⟩

theorem wit_SlotsPulsesCaptures_captureEdge_ : ∃ (s : State) (k : Nat) (fall : Bool) (a : Device),
    (k < 4) ∧
    ((if fall then bit (s.dev.rd TIM_CAP_CTL.edges k) 1 else bit (s.dev.rd TIM_CAP_CTL.edges k) 0) = true) ∧
    (∀ x, (s.dev.timing.capLast.find? fun x => x.1 == k) = some x → x.2 + 180 ≤ s.dev.cycle) ∧
    (16 ≤ (smGet s.dev.timing.fifos k []).length) ∧
    (a = { s.dev with timing := { s.dev.timing with capLast := smIns s.dev.timing.capLast k s.dev.cycle } }) :=
  ⟨{ dev := { ({} : Device).wr TIM_CAP_CTL.edges 3 3 with timing := { fifos := [(3, List.replicate 16 ⟨true, 0, 0⟩)] } } }, 3, true, _, by decide, by decide +kernel, (fun x h => nomatch h), by decide +kernel, rfl⟩

theorem wit_SlotsPulsesCaptures_captureEdge__ : ∃ (s : State) (k : Nat) (fall : Bool) (x : Nat × Nat),
    (k < 4) ∧
    ((if fall then bit (s.dev.rd TIM_CAP_CTL.edges k) 1 else bit (s.dev.rd TIM_CAP_CTL.edges k) 0) = true) ∧
    ((s.dev.timing.capLast.find? fun x => x.1 == k) = some x) ∧
    (s.dev.cycle < x.2 + 180) :=
  ⟨{ dev := { ({} : Device).wr TIM_CAP_CTL.edges 3 3 with timing := { capLast := [(3, 0)] } } }, 3, true, (3, 0), by decide +kernel⟩

theorem wit_SlotsPulsesCaptures_captureEdge___ : ∃ (s : State) (k : Nat) (fall : Bool),
    (k < 4) ∧
    ((if fall then bit (s.dev.rd TIM_CAP_CTL.edges k) 1 else bit (s.dev.rd TIM_CAP_CTL.edges k) 0) = false) :=
  ⟨{}, 3, true, by decide +kernel⟩

theorem wit_SlotsPulsesCaptures_capNsRead : ∃ (s : State) (fn : Nat) (k : Nat),
    (fn < 64) ∧
    (k < 4) ∧
    (s.dev.reaches fn .TIM_CAP_NS = true) :=
  ⟨{}, 63, 3, by decide +kernel⟩

theorem wit_SlotsPulsesCaptures_ppsInEdge_ : ∃ (s : State) (t : Nat),
    (s.dev.timing.ppsLast = some t) ∧
    (s.dev.cycle < t + 900000000) :=
  ⟨{ dev := { timing := { ppsLast := some 0 } } }, 0, by decide +kernel⟩

theorem wit_SlotsPulsesCaptures_ppsInEdge__ : ∃ (s : State),
    (∀ t, s.dev.timing.ppsLast = some t → t + 900000000 ≤ s.dev.cycle) ∧
    (s.dev.rd TIM_DOM_CFG.source 0 ≠ 4) ∧
    (s.dev.rd TIM_DOM_CFG.source 1 ≠ 4) :=
  ⟨{}, (fun t h => nomatch h), by decide +kernel, by decide +kernel⟩

theorem wit_SlotsPulsesCaptures_ppsInEdge___ : ∃ (s : State) (sec : Nat) (a : Device) (b : Device),
    (∀ t, s.dev.timing.ppsLast = some t → t + 900000000 ≤ s.dev.cycle) ∧
    (s.dev.rd TIM_DOM_CFG.source 0 = 4 ∨ s.dev.rd TIM_DOM_CFG.source 1 = 4) ∧
    (a = { s.dev with timing := { s.dev.timing with ppsLast := some s.dev.cycle } }) ∧
    (sec = if s.dev.timing.todFresh then s.dev.rd TIM_TOD_NEXT.seconds 0 else s.dev.timing.todPrev + 1) ∧
    (b = if s.dev.timing.todFresh then a else a.incSat TIM_PPSIN_STAT.tod_assumed 0 1) :=
  ⟨{ dev := { (({} : Device).wr TIM_DOM_CFG.source 1 4) with timing := { todFresh := true } } }, _, _, _, (fun t h => nomatch h), by decide +kernel, rfl, rfl, rfl⟩

theorem wit_FronthaulOut_fhpost : ∃ (s : State) (n : Nat) (dir : Nat) (c : Nat) (l : Leg),
    (n < 192) ∧
    (c < 64) ∧
    (dir < 2) ∧
    ((s.dev.core n).leg = some l) ∧
    (s.dev.isX = false) ∧
    (s.dev.rd RAD_CAR_CFG.owner c = l.ten) :=
  ⟨{ dev := running 3 aLeg }, 3, 1, 63, aLeg, by decide +kernel⟩

theorem wit_FronthaulOut_slotDeadline : ∃ (s : State) (c : Nat) (sl : Nat) (a : Device) (b : Device),
    (c < 64) ∧
    (s.dev.carrierOn c = true) ∧
    (s.dev.slotDec c sl = none) ∧
    (s.dev.slotDeadline c sl ≤ (s.dev.time : Int)) ∧
    (((s.dev.radio.posts.any fun p => p.car == c && p.dir == 0 && p.slot == sl) && s.dev.peekN spDP (s.dev.slotBuf c 0 sl) 8 == sl) = true) ∧
    (((s.dev.radio.posts.any fun p => p.car == c && p.dir == 1 && p.slot == sl) && s.dev.peekN spDP (s.dev.slotBuf c 1 sl) 8 == sl) = true) ∧
    (bit (s.dev.rd RAD_MUTE_CTL.host_mute 0) c = false) ∧
    (a = { s.dev with radio := { s.dev.radio with posts := s.dev.radio.posts.filter fun p => !(p.car == c && decide (p.slot ≤ sl)) } }) ∧
    (b = a.setDec ⟨c, sl, true, true, false, false⟩) ∧
    (b.byDoubt b.time (b.slotStart (b.carMu c) sl) = false) ∧
    (b.bySvc b.time (b.slotStart (b.carMu c) sl) = false) :=
  ⟨{ dev := { aCarrier 0 with radio := { posts := [⟨0, 0, 0, 1⟩, ⟨0, 1, 0, 1⟩] } } }, 0, 0, _, _, by decide +kernel, by decide +kernel, by decide +kernel, by decide +kernel, by decide +kernel, by decide +kernel, by decide +kernel, rfl, rfl, by decide +kernel, by decide +kernel⟩

theorem wit_FronthaulOut_slotDeadline_ : ∃ (s : State) (c : Nat) (sl : Nat) (host : Bool) (a : Device),
    (c < 64) ∧
    (s.dev.carrierOn c = true) ∧
    (s.dev.slotDec c sl = none) ∧
    (s.dev.slotDeadline c sl ≤ (s.dev.time : Int)) ∧
    (s.dev.radio.posts = []) ∧
    (host = bit (s.dev.rd RAD_MUTE_CTL.host_mute 0) c) ∧
    (a = { s.dev with radio := { s.dev.radio with posts := s.dev.radio.posts.filter fun p => !(p.car == c && decide (p.slot ≤ sl)) } }) :=
  ⟨{ dev := aCarrier 0 }, 0, 0, _, _, by decide +kernel, by decide +kernel, by decide +kernel, by decide +kernel, by decide +kernel, rfl, rfl⟩

theorem wit_FronthaulOut_cplaneTx : ∃ (s : State) (c : Nat) (dir : Nat) (sl : Nat) (k : Nat) (b : Nat) (l : Nat) (x : SlotDec) (r : List Byte) (ext : List Byte),
    (c < 64) ∧
    (s.dev.carrierOn c = true) ∧
    (s.dev.slotDec c sl = some x) ∧
    ((if dir = 0 then x.dl else x.ul) = true) ∧
    (b = s.dev.slotBuf c dir sl) ∧
    (k < s.dev.bufSections b) ∧
    (r = s.dev.bufRec b k) ∧
    (l = rcStart r) ∧
    (s.dev.cpTime c dir sl l ≤ (s.dev.time : Int)) ∧
    (s.dev.symMuted x dir l (s.dev.cpTime c dir sl l) = false) ∧
    (ext = (if rcExt r = 0 then [] else s.dev.peek devKey spDP (b + rcExt r) (rcExtLen r))) ∧
    (dir < 2) :=
  ⟨{ dev := { (aCarrier 0).store spDP 8 [1] with radio := { decs := [⟨0, 0, true, true, false, false⟩] } } }, 0, 0, 0, 0, _, _, ⟨0, 0, true, true, false, false⟩, _, _, by decide +kernel, by decide +kernel, by decide +kernel, by decide +kernel, rfl, by decide +kernel, rfl, rfl, by decide +kernel, by decide +kernel, rfl, by decide +kernel⟩

theorem wit_FronthaulOut_cplaneTx_ : ∃ (s : State) (c : Nat) (sl : Nat) (k : Nat) (l : Nat) (x : SlotDec) (ls : List Nat),
    (c < 64) ∧
    (s.dev.carrierOn c = true) ∧
    (s.dev.slotDec c sl = some x) ∧
    (x.car = c) ∧
    (x.slot = sl) ∧
    (s.dev.mutedSyms x = l :: ls) ∧
    (k < s.dev.carStreams c 0) ∧
    (s.dev.cpTime c 0 sl l ≤ (s.dev.time : Int)) :=
  ⟨{ dev := { aCarrier 0 with radio := { decs := [⟨0, 0, false, true, false, false⟩] } } }, 0, 0, 3, 0, ⟨0, 0, false, true, false, false⟩, [1, 2, 3, 4, 5, 6, 7, 8, 9, 10, 11, 12, 13], by decide +kernel⟩

theorem wit_FronthaulOut_uplaneTx : ∃ (s : State) (c : Nat) (sl : Nat) (k : Nat) (l : Nat) (part : Nat) (b : Nat) (x : SlotDec) (r : List Byte) (bs : List Byte) (piece : List Byte),
    (c < 64) ∧
    (l < 14) ∧
    (s.dev.carrierOn c = true) ∧
    (s.dev.slotDec c sl = some x) ∧
    (s.dev.dlOpen c sl l ≤ (s.dev.time : Int)) ∧
    (s.dev.symMuted x 0 l (s.dev.dlOpen c sl l) = false) ∧
    (b = s.dev.slotBuf c 0 sl) ∧
    (k < s.dev.bufSections b) ∧
    (r = s.dev.bufRec b k) ∧
    (rcCovers r l = true) ∧
    (rcNoU r = false) ∧
    (s.dev.on RAD_CAR_CFG.td_mode c = false) ∧
    (bs = s.dev.peek devKey spDP (s.dev.bufIq b + rcIq r + (l - rcStart r) * rcStride r) (s.dev.payloadLen c 0 sl l (rcPrbs r))) ∧
    (piece = ((bs).drop ((s.dev.rd RAD_PORT_CFG.mtu (s.dev.rd RAD_CAR_CFG.port c) - 64) * part)).take (s.dev.rd RAD_PORT_CFG.mtu (s.dev.rd RAD_CAR_CFG.port c) - 64)) ∧
    (piece.isEmpty = false) :=
  ⟨{ dev := { ((aCarrier 0).store spDP 8 [1]).store spDP 64 [0, 0, 1, 0, 0, 0, 1, 0] with radio := { decs := [⟨0, 0, true, true, false, false⟩] } } }, 0, 0, 0, 0, 0, _, ⟨0, 0, true, true, false, false⟩, _, _, _, by decide +kernel, by decide +kernel, by decide +kernel, by decide +kernel, by decide +kernel, by decide +kernel, rfl, by decide +kernel, rfl, by decide +kernel, by decide +kernel, by decide +kernel, rfl, rfl, by decide +kernel⟩

theorem wit_FronthaulOut_uplaneTx_ : ∃ (s : State) (c : Nat) (sl : Nat) (k : Nat) (l : Nat) (part : Nat) (x : SlotDec) (a : Device) (piece : List Byte),
    (c < 64) ∧
    (l < 14) ∧
    (s.dev.carrierOn c = true) ∧
    (s.dev.slotDec c sl = some x) ∧
    (x.dl = false) ∧
    (k < s.dev.carStreams c 0) ∧
    (s.dev.dlOpen c sl l ≤ (s.dev.time : Int)) ∧
    (piece = ((List.replicate (s.dev.payloadLen c 0 sl l (s.dev.rd RAD_CAR_CFG.prbs c)) (0 : Byte)).drop ((s.dev.rd RAD_PORT_CFG.mtu (s.dev.rd RAD_CAR_CFG.port c) - 64) * part)).take (s.dev.rd RAD_PORT_CFG.mtu (s.dev.rd RAD_CAR_CFG.port c) - 64)) ∧
    (piece.isEmpty = false) ∧
    (a = s.dev.countMute x) :=
  ⟨{ dev := { aCarrier 0 with radio := { decs := [⟨0, 0, false, true, false, false⟩] } } }, 0, 0, 3, 0, 0, ⟨0, 0, false, true, false, false⟩, _, _, by decide +kernel, by decide +kernel, by decide +kernel, by decide +kernel, by decide +kernel, by decide +kernel, by decide +kernel, rfl, by decide +kernel, rfl⟩

theorem wit_FronthaulOut_muteCtlWrite : ∃ (s : State) (value : Nat),
    (value < 2 ^ 64) ∧
    (s.dev.reaches 0 .RAD_MUTE_CTL = true) ∧
    (s.dev.isX = false) :=
  ⟨{}, 5, by decide +kernel⟩

theorem wit_FronthaulOut_qsampTick : ∃ (s : State) (a : Device),
    (s.dev.isX = false) ∧
    (s.dev.on RAD_QSAMP_CFG.enable 0 = true) ∧
    (a = s.dev.drainPorts) :=
  ⟨{ dev := ({} : Device).wr RAD_QSAMP_CFG.enable 0 1 }, _, by decide +kernel, by decide +kernel, rfl⟩

theorem wit_FronthaulIn_fronthaulFrameRx : ∃ (s : State) (p : Nat) (k : Nat) (c : Nat) (cost : Nat) (f : FhFrame) (x : SlotDec) (a : Device) (b : Device) (e : Device) (stream : Nat),
    (p < 4) ∧
    (s.dev.isX = false) ∧
    (s.dev.rd RAD_PORT_CFG.speed p ≠ 0) ∧
    (s.dev.on RAD_PORT_STAT.link_up p = true) ∧
    (f.isPtp = false) ∧
    (f.etherType = 0xAEFE) ∧
    (f.mt = 0) ∧
    (s.dev.findFlow true p false f.eaxc = some k) ∧
    (c = s.dev.rd RAD_FLOW_CFG.carrier k) ∧
    (f.vid = s.dev.carVid c) ∧
    ((s.dev.radio.seqs.find? fun x => x.1 == k) = none) ∧
    (a = { s.dev with radio := { s.dev.radio with seqs := smIns s.dev.radio.seqs k f.seq } }) ∧
    (cost = f.len + a.rd RAD_PORT_CFG.ovh_bytes p) ∧
    (cost * 1024 ≤ a.tokensAt k a.time) ∧
    (b = (a.setTokens k (a.tokensAt k a.time - cost * 1024) a.time).incWrap RAD_FLOW_STAT.passed k 1) ∧
    (b.carrierOn c = true) ∧
    (b.slotDec c f.slot = some x) ∧
    (b.symMuted x 1 f.sym (b.ulOpen c f.slot f.sym) = false) ∧
    (b.ulOpen c f.slot f.sym ≤ (b.time : Int)) ∧
    ((b.time : Int) ≤ b.ulClose c f.slot f.sym) ∧
    (f.eaxc - b.rd RAD_CAR_FH.eaxc_base c < 64) ∧
    (stream = f.eaxc - b.rd RAD_CAR_FH.eaxc_base c) ∧
    ((smGet b.radio.ingress p []).length = 0) ∧
    (e = { b with radio := { b.radio with ingress := smSet b.radio.ingress p [] [⟨f.len, b.time, ⟨c, f.slot, f.sym, stream, false, f.startPrb, f.numPrb, mkTag (b.rd RAD_CAR_CFG.owner c) 0 0 6 f.slot 0⟩, f.payload⟩] } }) :=
  ⟨{ dev := { ((aCarrier 60000).wr RAD_FLOW_CFG.valid 0 1).wr RAD_FLOW_CFG.ingress 0 1 with radio := { decs := [⟨0, 0, true, true, false, false⟩] } } }, 0, 0, _, _, aFrame, ⟨0, 0, true, true, false, false⟩, _, _, _, _, by decide +kernel, by decide +kernel, by decide +kernel, by decide +kernel, by decide +kernel, by decide +kernel, by decide +kernel, by decide +kernel, rfl, by decide +kernel, by decide +kernel, rfl, rfl, by decide +kernel, rfl, by decide +kernel, by decide +kernel, by decide +kernel, by decide +kernel, by decide +kernel, by decide +kernel, rfl, by decide +kernel, rfl⟩

theorem wit_FronthaulIn_fronthaulFrameRx_ : ∃ (s : State) (p : Nat) (k : Nat) (f : FhFrame) (a : Device),
    (p < 4) ∧
    (s.dev.isX = false) ∧
    (s.dev.rd RAD_PORT_CFG.speed p ≠ 0) ∧
    (s.dev.on RAD_PORT_STAT.link_up p = true) ∧
    (f.isPtp = false) ∧
    (f.etherType = 0xAEFE) ∧
    (f.mt = 2) ∧
    (s.dev.findFlow true p true f.eaxc = some k) ∧
    (f.vid = s.dev.carVid (s.dev.rd RAD_FLOW_CFG.carrier k)) ∧
    ((s.dev.radio.seqs.find? fun x => x.1 == k) = none) ∧
    (a = { s.dev with radio := { s.dev.radio with seqs := smIns s.dev.radio.seqs k f.seq } }) ∧
    ((f.len + a.rd RAD_PORT_CFG.ovh_bytes p) * 1024 ≤ a.tokensAt k a.time) :=
  ⟨{ dev := (((aCarrier 60000).wr RAD_FLOW_CFG.valid 0 1).wr RAD_FLOW_CFG.ingress 0 1).wr RAD_FLOW_CFG.cplane 0 1 }, 0, 0, { aFrame with mt := 2 }, _, by decide +kernel, by decide +kernel, by decide +kernel, by decide +kernel, by decide +kernel, by decide +kernel, by decide +kernel, by decide +kernel, by decide +kernel, by decide +kernel, rfl, by decide +kernel⟩

theorem wit_FronthaulIn_fronthaulFrameRx__ : ∃ (s : State) (p : Nat) (f : FhFrame),
    (p < 4) ∧
    (s.dev.isX = false) ∧
    (s.dev.rd RAD_PORT_CFG.speed p ≠ 0) ∧
    (s.dev.on RAD_PORT_STAT.link_up p = true) ∧
    (f.isPtp = false) ∧
    (f.etherType = 0xAEFE) ∧
    (f.mt = 5) :=
  ⟨{ dev := aCarrier 0 }, 0, { aFrame with mt := 5 }, by decide +kernel⟩

theorem wit_FronthaulIn_fronthaulFrameRx___ : ∃ (s : State) (p : Nat) (f : FhFrame),
    (p < 4) ∧
    (s.dev.isX = false) ∧
    (s.dev.rd RAD_PORT_CFG.speed p ≠ 0) ∧
    (s.dev.on RAD_PORT_STAT.link_up p = true) ∧
    (f.isPtp = true) :=
  ⟨{ dev := aCarrier 0 }, 0, { aFrame with etherType := 0x88F7 }, by decide +kernel⟩

theorem wit_FronthaulIn_fronthaulFrameRx____ : ∃ (s : State) (p : Nat) (f : FhFrame),
    (p < 4) ∧
    (s.dev.isX = false) ∧
    (s.dev.rd RAD_PORT_CFG.speed p ≠ 0) ∧
    (s.dev.on RAD_PORT_STAT.link_up p = true) ∧
    (f.isPtp = false) ∧
    (f.etherType ≠ 0xAEFE) :=
  ⟨{ dev := aCarrier 0 }, 0, { aFrame with etherType := 0x0800 }, by decide +kernel⟩

theorem wit_FronthaulIn_ulWindowOpen : ∃ (s : State) (c : Nat) (sl : Nat) (l : Nat) (b : Nat),
    (c < 64) ∧
    (l < 14) ∧
    (s.dev.carrierOn c = true) ∧
    (b = s.dev.slotBuf c 1 sl) ∧
    (s.dev.ulPosted c sl = true) :=
  ⟨{ dev := { aCarrier 0 with radio := { decs := [⟨0, 0, true, true, false, false⟩] } } }, 0, 0, 0, _, by decide +kernel, by decide +kernel, by decide +kernel, rfl, by decide +kernel⟩

theorem wit_FronthaulIn_ulWindowClose : ∃ (s : State) (c : Nat) (sl : Nat) (l : Nat) (b : Nat) (e : Nat × Nat × Nat × Nat × Nat) (a : Device),
    (c < 64) ∧
    (l < 14) ∧
    (s.dev.carrierOn c = true) ∧
    (b = s.dev.slotBuf c 1 sl) ∧
    ((s.dev.slotDec c sl).isNone = false) ∧
    (e = (s.dev.radio.frames.find? fun f => f.1 == c && f.2.1 == sl && f.2.2.1 == l).getD (c, sl, l, 0, 0)) ∧
    (a = s.dev.store spDP (b + 64 + 32 * s.dev.bufSections b + 16 * l) (toLE 8 (((List.range 64).map fun i => b2n (s.dev.streamWhole c sl l i) <<< i).foldl (· + ·) 0) ++ toLE 4 e.2.2.2.1 ++ toLE 4 e.2.2.2.2)) :=
  ⟨{ dev := { aCarrier 0 with radio := { decs := [⟨0, 0, true, true, false, false⟩] } } }, 0, 0, 0, _, _, _, by decide +kernel, by decide +kernel, by decide +kernel, rfl, by decide +kernel, rfl, rfl⟩

theorem wit_FronthaulIn_softMove : ∃ (s : State) (n : Nat) (c : Nat) (ga : Nat) (ts : Nat) (len : Nat) (l : Leg) (l2 : Leg) (d : Device) (e : Device) (loc : Loc) (idx : Option Nat) (r : Device × List Byte × Bool),
    (n < 192) ∧
    (ga < 2 ^ 64) ∧
    (s.dev.issues n c l d l2) ∧
    (max l.count (s.dev.rd COR_TIMING.leg_start n) = c) ∧
    (parts ga len = [(ga, len)]) ∧
    (d.meet l2.ten ga false = .proceeds loc idx) ∧
    (r = (blocks64 (len / 64 + 2) ga len).foldl (softBlock l2) (d, [], false)) ∧
    (r.1.ownsRange n l2.ten ts r.2.1.length = true) ∧
    (r.1.poisonWrite spTS (tsOff n ts) r.2.1.length = some e) :=
  ⟨{ dev := { ((holding 0 [1, 2, 3]).setReg .COR_TSPART 0 0xBC00).setCoreSt 0 4 with cores := [(0, { leg := some aLeg })] } }, 0, 24, 0, 4096, 64, aLeg, aLegAt 24, { ((holding 0 [1, 2, 3]).setReg .COR_TSPART 0 0xBC00).setCoreSt 0 4 with cores := [(0, { leg := some aLeg })] }, { ((holding 0 [1, 2, 3]).setReg .COR_TSPART 0 0xBC00).setCoreSt 0 4 with cores := [(0, { leg := some aLeg })] }, ⟨0, pageSize⟩, some 0, _, by decide +kernel, by decide +kernel, by decide +kernel, by decide +kernel, by decide +kernel, by decide +kernel, rfl, by decide +kernel, by decide +kernel⟩

theorem wit_RoutingEngines_rtsubmit : ∃ (s : State) (n : Nat) (pos : Nat) (desc : Nat) (tok : Nat) (eg : Nat) (x : Nat) (qn : Nat) (cy : Nat) (l : Leg) (m : Leg) (d : Device) (a : Device) (f : Device) (engs : List (Nat × Nat)) (b : List Byte) (r : Route),
    (n < 192) ∧
    (tok < 64) ∧
    (max l.count (s.dev.rd COR_TIMING.leg_start n) = cy) ∧
    (s.dev.issues n cy l d m) ∧
    (((d.cmd? m.sn).bind fun c => c.run.map fun q => q.engines) = some engs) ∧
    (engs[pos]? = some (eg, x)) ∧
    ((d.rctx eg x).route = none) ∧
    (d.rd RTE_MAP.state eg ≠ 4) ∧
    (desc % 128 = 0) ∧
    (d.ownsRange n m.ten desc 128 = true) ∧
    (d.poisonIn spTS (tsOff n desc) 128 = none) ∧
    (b = d.peek devKey spTS (tsOff n desc) 128) ∧
    ((rdOp b = 1 ∧ d.routeOk b = true) ∨ (rdOp b = 2 ∧ d.blendOk b = true)) ∧
    (r = { desc := b, core := n, serial := m.serial, tok := tok, leg := m.idx, ten := m.ten, mid := m.mid, sn := m.sn, fixed := d.fixedOrder m.ten, started := d.cycle }) ∧
    (qn = ((d.cmd? m.sn).map fun c => c.queue).getD 0) ∧
    (a = ((((((d.setRctx eg x { d.rctx eg x with route := some r }).wr MEM_CHAN_STAT.tenancy (routeChan eg x) m.ten).wr MEM_CHAN_STAT.kind (routeChan eg x) 4).wr MEM_CHAN_STAT.queue (routeChan eg x) qn).wr MEM_CHAN_STAT.state (routeChan eg x) chActive).modRun m.sn fun q => { q with movers := q.movers + 1 }).putLeg n m) ∧
    (a.rd RTE_MAP.state eg ≠ 5) ∧
    (f = (a.showEngine eg).loadBias eg x) :=
  ⟨{ dev := { (running 0 aLeg).store spTS (tsOff 0 0) [2, 0, 1, 0, 32, 0, 0, 0, 1, 0, 0, 0, 1] with cmds := [⟨1, 0, 0, entryOf 1 [], 0, 0, none, some { engines := [(0, 0)] }⟩] } }, 0, 0, 0, 63, 0, 0, _, 24, aLeg, aLegAt 24, { (running 0 aLeg).store spTS (tsOff 0 0) [2, 0, 1, 0, 32, 0, 0, 0, 1, 0, 0, 0, 1] with cmds := [⟨1, 0, 0, entryOf 1 [], 0, 0, none, some { engines := [(0, 0)] }⟩] }, _, _, [(0, 0)], _, _, by decide +kernel, by decide +kernel, by decide +kernel, by decide +kernel, by decide +kernel, by decide +kernel, by decide +kernel, by decide +kernel, by decide +kernel, by decide +kernel, by decide +kernel, rfl, by decide +kernel, rfl, rfl, rfl, by decide +kernel, rfl⟩

theorem wit_RoutingEngines_logitTileArrival : ∃ (s : State) (e : Nat) (x : Nat) (src : Nat) (fmt : Nat) (tag : List Byte),
    (e < 8) ∧
    (x < 8) ∧
    (src < 192) ∧
    (tag.length = 16) ∧
    (fmt < 8) ∧
    ((e, s.dev.reqUnit src 27) ∉ s.dev.rteFenced) :=
  ⟨{}, 0, 0, 191, 0, mkTag 0 1 0 0 0 1, by decide +kernel⟩

theorem wit_RoutingEngines_takeTile : ∃ (d : Device) (t : RIn) (r : Route),
    (tagOk t.tag = true) ∧
    ((d.rctx t.e t.x).route = some r) ∧
    (tagTen t.tag = r.ten) ∧
    (tagMid t.tag = r.mid) ∧
    (r.bad t = false) :=
  ⟨routing (aRoute [1, 0, 1, 1, 1, 0, 1, 0, 1]), { e := 0, x := 0, src := 0, tag := mkTag 0 1 0 0 0 1, band := 0, col := 0, fmt := 0, data := [] }, aRoute [1, 0, 1, 1, 1, 0, 1, 0, 1], by decide +kernel⟩

theorem wit_RoutingEngines_routeSort : ∃ (s : State) (e : Nat) (x : Nat) (first : Nat) (nDrop : Nat) (nKept : Nat) (r : Route) (home : List Byte) (ds : List Dest) (sels : List (List Pair × Bool)) (all : List Pair) (pairs : List Pair) (nans : List Pair) (outs : List DestOut) (rows : List (DestOut × Nat)) (drops : List Pair) (fr : Nat × Device) (combine : List Byte) (w : Device × Wr) (scr : Device × Option Nat) (a : Device) (b : Device),
    (e < 8) ∧
    (x < 8) ∧
    ((s.dev.rctx e x).route = some r) ∧
    (s.dev.rd MEM_CHAN_STAT.state (routeChan e x) = chActive) ∧
    (rdOp r.desc = 1) ∧
    (r.full = true) ∧
    (∀ y < 8, y ≠ x → ((s.dev.rctx e y).route.map fun o => rdOp o.desc == 1 && o.full && decide ((o.tiles.map fun t => t.order).foldl max 0 < (r.tiles.map fun t => t.order).foldl max 0) && s.dev.rd MEM_CHAN_STAT.state (routeChan e y) == chActive).getD false = false) ∧
    (r.dup = 0) ∧
    (first = rdFirst r.desc) ∧
    (s.dev.readGA r.ten (rdHome r.desc) (64 * ceilDiv (rdE r.desc) 8 + 8 * rdD r.desc) = .ok home) ∧
    (ds = (List.range (rdD r.desc)).map fun i => ⟨i, bits (leAt home (64 * ceilDiv (rdE r.desc) 8 + 8 * i) 8) 11 0, bits (leAt home (64 * ceilDiv (rdE r.desc) 8 + 8 * i) 8) 27 12, bits (leAt home (64 * ceilDiv (rdE r.desc) 8 + 8 * i) 8) 43 28⟩) ∧
    (homeOk (rdE r.desc) (rdD r.desc) home ds = true) ∧
    (sels = (List.range (rdT r.desc)).map r.select) ∧
    (all = sels.flatMap fun q => q.1) ∧
    (pairs = (all.filter fun p => !p.nan).map fun p => { p with dest := destOf home first p.t p.e }) ∧
    (nans = all.filter fun p => p.nan) ∧
    (outs = (sortBy (fun (a b : Dest) => decide (a.dev * 65536 + a.slot < b.dev * 65536 + b.slot)) ds).map (destOut (rdOrder r.desc) pairs)) ∧
    (rows = firstRows outs 0) ∧
    (drops = nans ++ outs.flatMap fun o => o.dropped) ∧
    (nDrop = (outs.map fun o => o.dropped.length).foldl (· + ·) 0) ∧
    (nKept = (outs.map fun o => o.kept.length).foldl (· + ·) 0) ∧
    (fr = s.dev.fresh (2 ^ 32)) ∧
    (combine = all.flatMap fun p => if p.nan then toLE 4 0xFFFFFFFF ++ toLE 4 fr.1 else toLE 4 (rowOf rows { p with dest := destOf home first p.t p.e }) ++ toLE 4 p.gate) ∧
    (w = fr.2.writeAll r.ten ([(rdDispatch r.desc, dispatchBytes (rdD r.desc) first rows), (rdCombine r.desc, combine)] ++ (if rdDrops r.desc = 0 then [] else [(rdDrops r.desc, (drops.take (rdDropCap r.desc)).flatMap (dropEntry first))]))) ∧
    (w.2 = .ok) ∧
    (scr = (parts (rdScratch r.desc) (16 * rdT r.desc * rdK r.desc)).foldl (scratchPart r.ten) (w.1, none)) ∧
    (scr.2 = none) ∧
    (a = (scr.1.incSat RTE_STAT.pairs_dropped e nDrop).incWrap RTE_TEN_DROP.pairs_dropped r.ten nDrop) ∧
    (b = if (pairs.any fun p => isNan32 p.gate) || !nans.isEmpty then a.log { unit := a.engineUnit e, sev := 0, op := 0x19, ten := r.ten, mid := r.mid } else a) :=
  ⟨{ dev := sorting }, 0, 0, _, _, _, aSorted, ([0, 0, 1] ++ List.replicate 64 0 ++ [16] ++ List.replicate 4 0 : List Nat).map (BitVec.ofNat 8), _, _, _, _, _, _, _, _, _, _, _, _, _, _, by decide +kernel, by decide +kernel, by decide +kernel, by decide +kernel, by decide +kernel, by decide +kernel, by decide +kernel, by decide +kernel, rfl, by decide +kernel, rfl, by decide +kernel, rfl, rfl, rfl, rfl, rfl, rfl, rfl, rfl, rfl, rfl, rfl, rfl, by decide +kernel, rfl, by decide +kernel, rfl, rfl⟩

theorem wit_RoutingEngines_blend : ∃ (s : State) (e : Nat) (x : Nat) (T : Nat) (k : Nat) (H : Nat) (r : Route) (comb : List Byte) (used : List Nat) (rd : Rd × List (Nat × List Byte)) (bs : List Byte) (w : Device × Wr),
    (e < 8) ∧
    (x < 8) ∧
    ((s.dev.rctx e x).route = some r) ∧
    (s.dev.rd MEM_CHAN_STAT.state (routeChan e x) = chActive) ∧
    (rdOp r.desc = 2) ∧
    (T = bdT r.desc) ∧
    (k = rdK r.desc) ∧
    (H = bdH r.desc) ∧
    (s.dev.readGA r.ten (bdCombine r.desc) (8 * T * k) = .ok comb) ∧
    (used = (List.range (T * k)).map fun j => leAt comb (8 * j) 4) ∧
    ((used.any fun v => v != 0xFFFFFFFF && decide (bdR r.desc ≤ v)) = false) ∧
    (rd = ((used.filter fun v => v != 0xFFFFFFFF).eraseDups).foldl (blendRow s.dev r.ten (bdReturns r.desc) (H * if bdIn r.desc then 2 else 4)) (.ok [], [])) ∧
    (rd.1 = .ok bs) ∧
    (w = s.dev.writeAll r.ten ((List.range T).map fun t => (bdOutput r.desc + t * H * (if bdOut r.desc then 2 else 4), (List.range H).flatMap fun j => blendOut (bdOut r.desc) (blendElem ((List.range k).filterMap fun i =>
      if leAt comb (8 * (k * t + i)) 4 = 0xFFFFFFFF then none else some (leAt comb (8 * (k * t + i) + 4) 4,
        if bdIn r.desc then leAt (smGet rd.2 (leAt comb (8 * (k * t + i)) 4) []) (2 * j) 2 * 65536 else leAt (smGet rd.2 (leAt comb (8 * (k * t + i)) 4) []) (4 * j) 4)))))) ∧
    (w.2 = .ok) :=
  ⟨{ dev := routing aBlend }, 0, 0, _, _, _, aBlend, List.replicate 8 0, _, _, [], _, by decide +kernel, by decide +kernel, by decide +kernel, by decide +kernel, by decide +kernel, rfl, rfl, rfl, by decide +kernel, rfl, by decide +kernel, rfl, by decide +kernel, rfl, by decide +kernel⟩

theorem wit_FabricLinks_laneFail : ∃ (s : State) (p : Nat) (lane : Nat) (a : Device) (b : Device),
    (p < 16) ∧
    (s.dev.rd FAB_PORT_STAT.state p = ptUp ∨ s.dev.rd FAB_PORT_STAT.state p = ptRetraining) ∧
    (lane < 4) ∧
    (bit (s.dev.rd FAB_PORT_STAT.lanes_ok p) lane = true) ∧
    (a = s.dev.wr FAB_PORT_STAT.lanes_ok p (s.dev.rd FAB_PORT_STAT.lanes_ok p &&& (15 - 2 ^ lane))) ∧
    (b = if s.dev.spareFree p then (((a.wr FAB_LANE_SPARE.in_use (p / 4) 1).wr FAB_LANE_SPARE.port (p / 4) (p % 4)).wr FAB_LANE_SPARE.lane (p / 4) lane).wr FAB_PORT_STAT.spare_in p 1 else a) :=
  ⟨{ dev := (({} : Device).wr FAB_PORT_STAT.lanes_ok 15 15).wr FAB_PORT_STAT.state 15 2 }, 15, 3, _, _, by decide +kernel, by decide +kernel, by decide, by decide +kernel, rfl, rfl⟩

theorem wit_FabricLinks_laneFail_ : ∃ (s : State) (p : Nat) (a : Device),
    (p < 16) ∧
    (s.dev.rd FAB_PORT_STAT.state p = ptUp ∨ s.dev.rd FAB_PORT_STAT.state p = ptRetraining) ∧
    (s.dev.on FAB_PORT_STAT.spare_in p = true) ∧
    (a = (s.dev.wr FAB_LANE_SPARE.avail (p / 4) 0).wr FAB_PORT_STAT.spare_in p 0) :=
  ⟨{ dev := (({} : Device).wr FAB_PORT_STAT.spare_in 15 1).wr FAB_PORT_STAT.state 15 2 }, 15, _, by decide +kernel, by decide +kernel, by decide +kernel, rfl⟩

theorem wit_FabricLinks_portTrained : ∃ (s : State) (p : Nat) (k : Nat) (w : Nat) (a : Device) (b : Device),
    (p < 16) ∧
    (k < 32) ∧
    (s.dev.pwr.refDown.contains (p / 4) = false) ∧
    (s.dev.unpowered = false) ∧
    (s.dev.serves (unitOf 6 (0x20 + p)) = true) ∧
    (s.dev.on FAB_PORT_CFG.enable p = true) ∧
    (s.dev.rd FAB_PORT_STAT.state p = ptTraining ∨ s.dev.rd FAB_PORT_STAT.state p = ptRetraining ∨ s.dev.rd FAB_PORT_STAT.state p = ptDown) ∧
    (s.dev.failedIn p k = []) ∧
    (a = s.dev.wr FAB_PORT_STAT.lanes_ok p (k % 16)) ∧
    (w = a.widthNow p) ∧
    (w ≠ 3) ∧
    ((a.link p).unacked = []) ∧
    (b = ((a.setLink p { a.link p with replays := 0, nakOut := false, told := [] }).wr FAB_PORT_STAT.width p w).wr FAB_PORT_STAT.state p ptUp) :=
  ⟨{ dev := { ((({} : Device).wr FAB_PORT_CFG.enable 15 1).wr FAB_PORT_STAT.state 15 1).wr PWR_STATE_STAT.state 0 0 with pwr := { gated := false, perst := false } } }, 15, 15, _, _, _, by decide +kernel, by decide +kernel, by decide +kernel, by decide +kernel, by decide +kernel, by decide +kernel, by decide +kernel, by decide +kernel, rfl, rfl, by decide +kernel, by decide +kernel, rfl⟩

theorem wit_FabricLinks_portTrained_ : ∃ (s : State) (p : Nat) (k : Nat),
    (p < 16) ∧
    (k < 32) ∧
    (s.dev.pwr.refDown.contains (p / 4) = false) ∧
    (s.dev.unpowered = false) ∧
    (s.dev.serves (unitOf 6 (0x20 + p)) = true) ∧
    (s.dev.on FAB_PORT_CFG.enable p = true) ∧
    (s.dev.rd FAB_PORT_STAT.state p = ptTraining ∨ s.dev.rd FAB_PORT_STAT.state p = ptRetraining ∨ s.dev.rd FAB_PORT_STAT.state p = ptDown) ∧
    (s.dev.failedIn p k ≠ []) ∧
    (s.dev.spareFree p = true) :=
  ⟨{ dev := { ((({} : Device).wr FAB_PORT_CFG.enable 15 1).wr FAB_PORT_STAT.state 15 1).wr PWR_STATE_STAT.state 0 0 with pwr := { gated := false, perst := false } } }, 15, 7, by decide +kernel⟩

theorem wit_FabricLinks_portDown : ∃ (s : State) (p : Nat),
    (p < 16) ∧
    (s.dev.rd FAB_PORT_STAT.state p ≠ ptOff) ∧
    (s.dev.rd FAB_PORT_STAT.state p ≠ ptDown) :=
  ⟨{ dev := ({} : Device).wr FAB_PORT_STAT.state 15 2 }, 15, by decide +kernel⟩

theorem wit_FabricLinks_flitRx : ∃ (s : State) (p : Nat) (hdr : Nat) (crc : Nat) (pl : List Byte) (l : Link) (a : Device),
    (p < 16) ∧
    (hdr < 2 ^ 64) ∧
    (crc < 2 ^ 64) ∧
    (s.dev.rd FAB_PORT_STAT.state p ≠ ptOff) ∧
    (s.dev.rd FAB_PORT_STAT.state p ≠ ptDown) ∧
    (l = s.dev.link p) ∧
    (crc = crc64 (toLE 8 hdr ++ (pl ++ List.replicate 240 0).take 240)) ∧
    (bits hdr 37 36 = 1) ∧
    (bits hdr 63 52 = l.rx) ∧
    (a = (s.dev.setLink p { l with rx := (l.rx + 1) % 4096, seen := true, nakOut := false }).takeData p hdr pl) :=
  ⟨{ dev := ({} : Device).wr FAB_PORT_STAT.state 15 2 }, 15, 2 ^ 36 + 2 ^ 33 + 2 ^ 32 + 5 * 2 ^ 24, _, [1, 2, 3, 4, 5], _, _, by decide +kernel, by decide +kernel, crc64_lt _, by decide +kernel, by decide +kernel, rfl, rfl, by decide +kernel, by decide +kernel, rfl⟩

theorem wit_FabricLinks_flitRx_ : ∃ (s : State) (p : Nat) (hdr : Nat) (crc : Nat) (pl : List Byte) (ctl : Ctl) (l : Link) (a : Device),
    (p < 16) ∧
    (hdr < 2 ^ 64) ∧
    (crc < 2 ^ 64) ∧
    (s.dev.rd FAB_PORT_STAT.state p ≠ ptOff) ∧
    (s.dev.rd FAB_PORT_STAT.state p ≠ ptDown) ∧
    (l = s.dev.link p) ∧
    (crc = crc64 (toLE 8 hdr ++ (pl ++ List.replicate 240 0).take 240)) ∧
    (bits hdr 37 36 = 2) ∧
    (bits hdr 63 52 = l.rx) ∧
    (a = s.dev.setLink p { l with rx := (l.rx + 1) % 4096, seen := true, nakOut := false, granted := ctl.credits }) :=
  ⟨{ dev := ({} : Device).wr FAB_PORT_STAT.state 15 2 }, 15, 2 ^ 37, _, [1, 2, 3, 4, 5], ⟨[0, 0, 0, 0], 15, 1, 0⟩, _, _, by decide +kernel, by decide +kernel, crc64_lt _, by decide +kernel, by decide +kernel, rfl, rfl, by decide +kernel, by decide +kernel, rfl⟩

theorem wit_FabricLinks_flitRx__ : ∃ (s : State) (p : Nat) (hdr : Nat) (crc : Nat) (pl : List Byte),
    (p < 16) ∧
    (hdr < 2 ^ 64) ∧
    (crc < 2 ^ 64) ∧
    (s.dev.rd FAB_PORT_STAT.state p ≠ ptOff) ∧
    (s.dev.rd FAB_PORT_STAT.state p ≠ ptDown) ∧
    (crc64 (toLE 8 hdr ++ (pl ++ List.replicate 240 0).take 240) ≠ crc) :=
  ⟨{ dev := ({} : Device).wr FAB_PORT_STAT.state 15 2 }, 15, 2 ^ 37, (crc64 (toLE 8 (2 ^ 37) ++ (List.replicate 240 (0 : Byte)).take 240) + 1) % 2 ^ 64, [], by decide +kernel, by decide +kernel, Nat.mod_lt _ (by decide), by decide +kernel, by decide +kernel, fun h => by have := crc64_lt (toLE 8 (2 ^ 37) ++ (List.replicate 240 (0 : Byte)).take 240); simp only [List.nil_append] at h; omega⟩

theorem wit_FabricLinks_replayTimeout : ∃ (s : State) (p : Nat) (f : TxFlit) (rest : List TxFlit),
    (p < 16) ∧
    ((s.dev.link p).unacked = f :: rest) ∧
    (s.dev.portUp p = true) :=
  ⟨{ dev := { ({} : Device).wr FAB_PORT_STAT.state 15 2 with fab := { links := [(15, { unacked := [⟨0, true, true, [], false, 0, 0⟩] })] } } }, 15, ⟨0, true, true, [], false, 0, 0⟩, [], by decide +kernel⟩

theorem wit_FabricLinks_pathReturn : ∃ (s : State) (p : Nat),
    (p < 16) ∧
    (s.dev.portUp p = true) ∧
    (s.dev.pathPort p ≠ p) :=
  ⟨{ dev := (({} : Device).wr FAB_PORT_STAT.state 15 2).setPath 15 3 }, 15, by decide +kernel⟩

theorem wit_RemoteRequests_rload : ∃ (s : State) (n : Nat) (ga : Nat) (ts : Nat) (len : Nat) (tok : Nat) (cy : Nat) (l : Leg) (q : Leg) (m : Leg) (d : Device) (e : Device),
    (n < 192) ∧
    (tok < 64) ∧
    (ga < 2 ^ 64) ∧
    (max l.count (s.dev.rd COR_TIMING.leg_start n) = cy) ∧
    (s.dev.issues n cy l d q) ∧
    (d.remoteOk q ga len 8 = none) ∧
    (d.ownsRange n q.ten ts len = true) ∧
    (q.ops < 256) ∧
    (m = { q with ops := q.ops + 1 }) ∧
    (e = (d.putLeg n m).issueAny 1 (ftClass q.cls) ((d.putLeg n m).coreUnit n) ga len 0 q.sn q.remoteTag [] (.rload n q.serial ts tok)) :=
  ⟨{ dev := { ((holding 0 [1, 2, 3]).setReg .COR_TSPART 0 0xBC00).setCoreSt 0 4 with cores := [(0, { leg := some aLeg })] } }, 0, 64, 8192, 8, 63, 24, aLeg, aLegAt 24, _, { ((holding 0 [1, 2, 3]).setReg .COR_TSPART 0 0xBC00).setCoreSt 0 4 with cores := [(0, { leg := some aLeg })] }, _, by decide +kernel, by decide +kernel, by decide +kernel, by decide +kernel, by decide +kernel, by decide +kernel, by decide +kernel, by decide +kernel, rfl, rfl⟩

theorem wit_RemoteRequests_rstore : ∃ (s : State) (n : Nat) (ga : Nat) (ts : Nat) (len : Nat) (tok : Nat) (cy : Nat) (l : Leg) (q : Leg) (m : Leg) (d : Device) (e : Device) (bs : List Byte),
    (n < 192) ∧
    (tok < 64) ∧
    (ga < 2 ^ 64) ∧
    (max l.count (s.dev.rd COR_TIMING.leg_start n) = cy) ∧
    (s.dev.issues n cy l d q) ∧
    (d.remoteOk q ga len 8 = none) ∧
    (d.ownsRange n q.ten ts len = true) ∧
    (q.ops < 256) ∧
    (m = { q with ops := q.ops + 1 }) ∧
    (d.poisonIn spTS (tsOff n ts) len = none) ∧
    (bs = d.peek devKey spTS (tsOff n ts) len) ∧
    (e = (d.putLeg n m).issueAny 3 (ftClass q.cls) ((d.putLeg n m).coreUnit n) ga len 0 q.sn q.remoteTag bs (.rstore n q.serial tok)) :=
  ⟨{ dev := { ((holding 0 [1, 2, 3]).setReg .COR_TSPART 0 0xBC00).setCoreSt 0 4 with cores := [(0, { leg := some aLeg })] } }, 0, 64, 8192, 8, 63, 24, aLeg, aLegAt 24, _, { ((holding 0 [1, 2, 3]).setReg .COR_TSPART 0 0xBC00).setCoreSt 0 4 with cores := [(0, { leg := some aLeg })] }, _, _, by decide +kernel, by decide +kernel, by decide +kernel, by decide +kernel, by decide +kernel, by decide +kernel, by decide +kernel, by decide +kernel, rfl, by decide +kernel, rfl, rfl⟩

theorem wit_RemoteRequests_ratom : ∃ (s : State) (n : Nat) (op : Nat) (ga : Nat) (sv : Nat) (sc : Nat) (sd : Nat) (tok : Nat) (cy : Nat) (l : Leg) (q : Leg) (m : Leg) (d : Device) (e : Device),
    (n < 192) ∧
    (tok < 64) ∧
    (op < 6) ∧
    (sv < 32) ∧
    (sc < 32) ∧
    (sd < 32) ∧
    (ga < 2 ^ 64) ∧
    (max l.count (s.dev.rd COR_TIMING.leg_start n) = cy) ∧
    (s.dev.issues n cy l d q) ∧
    (d.remoteOk q ga (if op = 5 then 4 else 8) (if op = 5 then 4 else 8) = none) ∧
    (gaSp ga ≠ 8) ∧
    (op = 5 → d.fixedOrder q.ten = false) ∧
    (q.ops < 256) ∧
    (m = { q with ops := q.ops + 1 }) ∧
    (e = (d.putLeg n m).issueAny 5 (ftClass q.cls) ((d.putLeg n m).coreUnit n) ga 16 op q.sn q.remoteTag (toLE 8 (smGet q.s sv 0) ++ toLE 8 (smGet q.s sc 0)) (.ratom n q.serial sd tok)) :=
  ⟨{ dev := { ((holding 0 [1, 2, 3]).setReg .COR_TSPART 0 0xBC00).setCoreSt 0 4 with cores := [(0, { leg := some aLeg })] } }, 0, 5, 64, 1, 2, 31, 63, 24, aLeg, aLegAt 24, _, { ((holding 0 [1, 2, 3]).setReg .COR_TSPART 0 0xBC00).setCoreSt 0 4 with cores := [(0, { leg := some aLeg })] }, _, by decide +kernel, by decide +kernel, by decide +kernel, by decide +kernel, by decide +kernel, by decide +kernel, by decide +kernel, by decide +kernel, by decide +kernel, by decide +kernel, by decide +kernel, by decide +kernel, by decide +kernel, rfl, rfl⟩

theorem wit_RemoteRequests_readRx : ∃ (s : State) (b : List Byte) (p : Pkt) (a : Device) (e : Device),
    (leAt b 4 1 = 1) ∧
    ((s.dev.disarmDeep 2).rd PWR_STATE_STAT.state 0 ≠ 2) ∧
    ((s.dev.disarmDeep 2).checkPkt b = (a, some p)) ∧
    (p.seq < 2 ^ 32) ∧
    ((a.inn (streamKey p.src p.path p.cls)).expect % 2 ^ 32 = p.seq) ∧
    (e = a.setIn (streamKey p.src p.path p.cls) { a.inn (streamKey p.src p.path p.cls) with expect := ((a.inn (streamKey p.src p.path p.cls)).expect + 1) % 2 ^ 32 }) ∧
    (e.on FAB_TEN_CFG.remote_en (tagTen p.tag) = true) :=
  ⟨{ dev := { (mapped.wr FAB_TEN_CFG.remote_en 0 1).wr PWR_STATE_STAT.state 0 0 with fab := { members := [1] } } }, aPacket 1 0 0 8 [], aPkt 1 0 0 8 [], { (mapped.wr FAB_TEN_CFG.remote_en 0 1).wr PWR_STATE_STAT.state 0 0 with fab := { members := [1] } }, _, by decide +kernel, by decide +kernel, by decide +kernel, by decide +kernel, by decide +kernel, rfl, by decide +kernel⟩

theorem wit_RemoteRequests_writeRx : ∃ (s : State) (b : List Byte) (p : Pkt) (a : Device) (e : Device),
    (leAt b 4 1 = 3) ∧
    ((s.dev.disarmDeep 2).rd PWR_STATE_STAT.state 0 ≠ 2) ∧
    ((s.dev.disarmDeep 2).checkPkt b = (a, some p)) ∧
    (p.seq < 2 ^ 32) ∧
    ((a.inn (streamKey p.src p.path p.cls)).expect % 2 ^ 32 = p.seq) ∧
    (e = a.setIn (streamKey p.src p.path p.cls) { a.inn (streamKey p.src p.path p.cls) with expect := ((a.inn (streamKey p.src p.path p.cls)).expect + 1) % 2 ^ 32 }) ∧
    (e.on FAB_TEN_CFG.remote_en (tagTen p.tag) = true) :=
  ⟨{ dev := { (mapped.wr FAB_TEN_CFG.remote_en 0 1).wr PWR_STATE_STAT.state 0 0 with fab := { members := [1] } } }, aPacket 3 0 0 8 (List.replicate 8 0), aPkt 3 0 0 8 (List.replicate 8 0), { (mapped.wr FAB_TEN_CFG.remote_en 0 1).wr PWR_STATE_STAT.state 0 0 with fab := { members := [1] } }, _, by decide +kernel, by decide +kernel, by decide +kernel, by decide +kernel, by decide +kernel, rfl, by decide +kernel⟩

theorem wit_RemoteRequests_atomicRx : ∃ (s : State) (b : List Byte) (p : Pkt) (a : Device) (e : Device),
    (leAt b 4 1 = 5) ∧
    ((s.dev.disarmDeep 2).rd PWR_STATE_STAT.state 0 ≠ 2) ∧
    ((s.dev.disarmDeep 2).checkPkt b = (a, some p)) ∧
    (p.seq < 2 ^ 32) ∧
    ((a.inn (streamKey p.src p.path p.cls)).expect % 2 ^ 32 = p.seq) ∧
    (e = a.setIn (streamKey p.src p.path p.cls) { a.inn (streamKey p.src p.path p.cls) with expect := ((a.inn (streamKey p.src p.path p.cls)).expect + 1) % 2 ^ 32 }) ∧
    (e.on FAB_TEN_CFG.remote_en (tagTen p.tag) = true) :=
  ⟨{ dev := { (mapped.wr FAB_TEN_CFG.remote_en 0 1).wr PWR_STATE_STAT.state 0 0 with fab := { members := [1] } } }, aPacket 5 0 0 16 (List.replicate 16 0), aPkt 5 0 0 16 (List.replicate 16 0), { (mapped.wr FAB_TEN_CFG.remote_en 0 1).wr PWR_STATE_STAT.state 0 0 with fab := { members := [1] } }, _, by decide +kernel, by decide +kernel, by decide +kernel, by decide +kernel, by decide +kernel, rfl, by decide +kernel⟩

theorem wit_RemoteRequests_lineSerialiserAccess : ∃ (s : State) (k : Nat) (t : TReq),
    (s.dev.fab.intake[k]? = some t) ∧
    ((s.dev.fab.intake.take k).any (s.dev.behind t) = false) ∧
    (s.dev.targetCheck t = .run) ∧
    (s.dev.cacheFull t = false) :=
  ⟨{ dev := { mapped with fab := { intake := [aTReq] } } }, 0, aTReq, by decide +kernel⟩

theorem wit_RemoteRequests_receiptTimer : ∃ (s : State) (k : Nat) (t : TReq) (a : Device),
    (s.dev.fab.intake[k]? = some t) ∧
    (t.receipt = false) ∧
    (t.src ≠ s.dev.devId) ∧
    (a = { s.dev with fab := { s.dev.fab with intake := s.dev.fab.intake.set k { t with receipt := true } } }) :=
  ⟨{ dev := { fab := { intake := [aTReq] } } }, 0, aTReq, _, by decide +kernel, by decide +kernel, by decide +kernel, rfl⟩

theorem wit_RemoteRequests_replyAckRx : ∃ (s : State) (b : List Byte) (p : Pkt) (a : Device),
    (leAt b 4 1 = 0x07) ∧
    (s.dev.checkPkt b = (a, some p)) :=
  ⟨{ dev := (asking 1) }, aPacket 7 0 0 0 [], aPkt 7 0 0 0 [], ({ asking 1 with fab := { members := [1], reqs := [{ aReq 1 with clock := (asking 1).time }] } } : Device), by decide +kernel⟩

theorem wit_RemoteAnswers_readRspRx : ∃ (s : State) (b : List Byte) (p : Pkt) (a : Device) (r : Req),
    (leAt b 4 1 = 0x02) ∧
    (s.dev.checkPkt b = (a, some p)) ∧
    (a.reqOf p = some r) ∧
    (r.op = 1) :=
  ⟨{ dev := (asking 1) }, aPacket 0x02 0 (2 ^ 52) 8 (List.replicate 8 0), aPkt 0x02 0 (2 ^ 52) 8 (List.replicate 8 0), ({ asking 1 with fab := { members := [1], reqs := [{ aReq 1 with clock := (asking 1).time }] } } : Device), { aReq 1 with clock := (asking 1).time }, by decide +kernel⟩

theorem wit_RemoteAnswers_writeAckRx : ∃ (s : State) (b : List Byte) (p : Pkt) (a : Device) (r : Req),
    (leAt b 4 1 = 0x04) ∧
    (s.dev.checkPkt b = (a, some p)) ∧
    (a.reqOf p = some r) ∧
    (r.op = 3 ∨ r.op = 0x10) :=
  ⟨{ dev := (asking 3) }, aPacket 0x04 0 (2 ^ 52) 0 [], aPkt 0x04 0 (2 ^ 52) 0 [], ({ asking 3 with fab := { members := [1], reqs := [{ aReq 3 with clock := (asking 3).time }] } } : Device), { aReq 3 with clock := (asking 3).time }, by decide +kernel⟩

theorem wit_RemoteAnswers_atomicRspRx : ∃ (s : State) (b : List Byte) (p : Pkt) (a : Device) (r : Req),
    (leAt b 4 1 = 0x06) ∧
    (s.dev.checkPkt b = (a, some p)) ∧
    (a.reqOf p = some r) ∧
    (r.op = 5) :=
  ⟨{ dev := (asking 5) }, aPacket 0x06 0 (2 ^ 52) 8 (List.replicate 8 0), aPkt 0x06 0 (2 ^ 52) 8 (List.replicate 8 0), ({ asking 5 with fab := { members := [1], reqs := [{ aReq 5 with clock := (asking 5).time }] } } : Device), { aReq 5 with clock := (asking 5).time }, by decide +kernel⟩

theorem wit_RemoteAnswers_errorRspRx : ∃ (s : State) (b : List Byte) (p : Pkt) (a : Device) (r : Req),
    (leAt b 4 1 = 0x08) ∧
    (s.dev.checkPkt b = (a, some p)) ∧
    (a.reqOf p = some r) ∧
    (r.op = 1 ∨ r.op = 3 ∨ r.op = 5 ∨ r.op = 0x10) :=
  ⟨{ dev := (asking 3) }, aPacket 0x08 0 (2 ^ 52) 0 [], aPkt 0x08 0 (2 ^ 52) 0 [], ({ asking 3 with fab := { members := [1], reqs := [{ aReq 3 with clock := (asking 3).time }] } } : Device), { aReq 3 with clock := (asking 3).time }, by decide +kernel⟩

theorem wit_RemoteAnswers_receiptRx : ∃ (s : State) (b : List Byte) (p : Pkt) (a : Device) (r : Req),
    (leAt b 4 1 = 0x09) ∧
    (s.dev.checkPkt b = (a, some p)) ∧
    (a.reqOf p = some r) ∧
    (r.op = 1 ∨ r.op = 3 ∨ r.op = 5 ∨ r.op = 0x10) :=
  ⟨{ dev := (asking 3) }, aPacket 0x09 0 (2 ^ 52) 0 [], aPkt 0x09 0 (2 ^ 52) 0 [], ({ asking 3 with fab := { members := [1], reqs := [{ aReq 3 with clock := (asking 3).time }] } } : Device), { aReq 3 with clock := (asking 3).time }, by decide +kernel⟩

theorem wit_RemoteAnswers_xnakRx : ∃ (s : State) (b : List Byte) (p : Pkt) (a : Device) (x : Req),
    (leAt b 4 1 = 0x0A) ∧
    (s.dev.checkPkt b = (a, some p)) ∧
    ((a.fab.reqs.find? fun r => r.dst == p.src && r.unit == p.unit && r.reqId == p.reqId) = some x) :=
  ⟨{ dev := asking 1 }, aPacket 0x0A 0 (2 ^ 52) 0 [], aPkt 0x0A 0 (2 ^ 52) 0 [], ({ asking 1 with fab := { members := [1], reqs := [{ aReq 1 with clock := (asking 1).time }] } } : Device), { aReq 1 with clock := (asking 1).time }, by decide +kernel⟩

theorem wit_RemoteAnswers_holdRx : ∃ (s : State) (b : List Byte) (a : Device) (p : Option Pkt),
    (leAt b 4 1 = 0x0B) ∧
    (s.dev.checkPkt b = (a, p)) :=
  ⟨{ dev := asking 1 }, aPacket 0x0B 0 0 0 [], ({ asking 1 with fab := { members := [1], reqs := [{ aReq 1 with clock := (asking 1).time }] } } : Device), some (aPkt 0x0B 0 0 0 []), by decide +kernel⟩

theorem wit_RemoteAnswers_creditRx : ∃ (s : State) (b : List Byte) (p : Pkt) (a : Device) (k : Nat),
    (leAt b 4 1 = 0x0C) ∧
    (s.dev.checkPkt b = (a, some p)) ∧
    (k = streamKey p.src (leAt p.payload 0 1 % 16) (leAt p.payload 1 1 % 4)) :=
  ⟨{ dev := asking 1 }, aPacket 0x0C 0 0 8 (List.replicate 8 0), aPkt 0x0C 0 0 8 (List.replicate 8 0), ({ asking 1 with fab := { members := [1], reqs := [{ aReq 1 with clock := (asking 1).time }] } } : Device), _, by decide +kernel, by decide +kernel, rfl⟩

theorem wit_RemoteAnswers_resendTimeout : ∃ (s : State) (k : Nat) (r : Req),
    (s.dev.fab.reqs[k]? = some r) ∧
    (r.seq.isSome = true) ∧
    (r.dst ≠ s.dev.devId) :=
  ⟨{ dev := asking 1 }, 0, aReq 1, by decide +kernel⟩

theorem wit_RemoteAnswers_remoteRequestTimeout : ∃ (s : State) (k : Nat) (r : Req),
    (s.dev.fab.reqs[k]? = some r) ∧
    (r.dst ≠ s.dev.devId) :=
  ⟨{ dev := asking 1 }, 0, aReq 1, by decide +kernel⟩

theorem wit_PeerCrossings_prepareRx : ∃ (s : State) (b : List Byte) (p : Pkt) (a : Device),
    (leAt b 4 1 = 0x20) ∧
    (s.dev.checkPkt b = (a, some p)) :=
  ⟨{ dev := asking 1 }, aPacket 0x20 0 0 16 (List.replicate 16 0), aPkt 0x20 0 0 16 (List.replicate 16 0), asking 1, by decide +kernel⟩

theorem wit_PeerCrossings_prepareAckRx : ∃ (s : State) (b : List Byte) (p : Pkt) (a : Device) (f : PeerFlip) (x : Xfer),
    (leAt b 4 1 = 0x21) ∧
    (s.dev.checkPkt b = (a, some p)) ∧
    (a.flipOf p 0 = some f) ∧
    (a.chan? f.ch = some x) :=
  ⟨{ dev := ({ asking 1 with mm := { chans := [(5, aXfer 0)] }, fab := { members := [1], flips := [⟨5, 1, 0, 0, 0, 0, []⟩] } } : Device) }, aPacket 0x21 0 0 16 (List.replicate 16 0), aPkt 0x21 0 0 16 (List.replicate 16 0), ({ asking 1 with mm := { chans := [(5, aXfer 0)] }, fab := { members := [1], flips := [⟨5, 1, 0, 0, 0, 0, []⟩] } } : Device), ⟨5, 1, 0, 0, 0, 0, []⟩, aXfer 0, by decide +kernel⟩

theorem wit_PeerCrossings_openRx : ∃ (s : State) (b : List Byte) (p : Pkt) (a : Device) (ps : List Nat) (e : Device),
    (leAt b 4 1 = 0x22) ∧
    (s.dev.checkPkt b = (a, some p)) ∧
    (ps = (((parts (leAt p.payload 0 8) (leAt p.payload 8 8)).filterMap fun q => (a.locate (tagTen p.tag) q.1 false).map fun l => l.1.page).filter fun q => a.pageState q == pgArriving && smGet a.fab.arriving q 4096 == p.src)) ∧
    (e = a.setPages ps pgLanded) :=
  ⟨{ dev := asking 1 }, aPacket 0x22 0 0 16 (List.replicate 16 0), aPkt 0x22 0 0 16 (List.replicate 16 0), asking 1, _, _, by decide +kernel, by decide +kernel, rfl, rfl⟩

theorem wit_PeerCrossings_openAckRx : ∃ (s : State) (b : List Byte) (p : Pkt) (a : Device) (f : PeerFlip),
    (leAt b 4 1 = 0x23) ∧
    (s.dev.checkPkt b = (a, some p)) ∧
    (a.flipOf p 1 = some f) :=
  ⟨{ dev := ({ asking 1 with mm := { chans := [(5, aXfer 0)] }, fab := { members := [1], flips := [⟨5, 1, 0, 0, 1, 0, []⟩] } } : Device) }, aPacket 0x23 0 0 16 (List.replicate 16 0), aPkt 0x23 0 0 16 (List.replicate 16 0), ({ asking 1 with mm := { chans := [(5, aXfer 0)] }, fab := { members := [1], flips := [⟨5, 1, 0, 0, 1, 0, []⟩] } } : Device), ⟨5, 1, 0, 0, 1, 0, []⟩, by decide +kernel⟩

theorem wit_PeerCrossings_peerFlipResend : ∃ (s : State) (k : Nat) (f : PeerFlip),
    (s.dev.fab.flips[k]? = some f) ∧
    (f.phase = 0 ∨ s.dev.isMember f.dst = true) :=
  ⟨{ dev := ({ asking 1 with mm := { chans := [(5, aXfer 0)] }, fab := { members := [1], flips := [⟨5, 1, 0, 0, 0, 0, []⟩] } } : Device) }, 0, ⟨5, 1, 0, 0, 0, 0, []⟩, by decide +kernel⟩

theorem wit_PeerCrossings_prepareTimeout : ∃ (s : State) (k : Nat) (f : PeerFlip) (x : Xfer) (a : Device),
    (s.dev.fab.flips[k]? = some f) ∧
    (f.phase = 0) ∧
    (a = { s.dev with fab := { s.dev.fab with flips := s.dev.fab.flips.eraseIdx k } }) ∧
    (a.chan? f.ch = some x) ∧
    (x.peerPhase ≠ 2) :=
  ⟨{ dev := ({ asking 1 with mm := { chans := [(5, aXfer 0)] }, fab := { members := [1], flips := [⟨5, 1, 0, 0, 0, 0, []⟩] } } : Device) }, 0, ⟨5, 1, 0, 0, 0, 0, []⟩, aXfer 0, _, by decide +kernel, by decide +kernel, rfl, by decide +kernel, by decide +kernel⟩

theorem wit_CollectiveAnswers_collDataRx : ∃ (s : State) (b : List Byte) (p : Pkt) (a : Device) (e : Device),
    (leAt b 4 1 = 0x10) ∧
    ((s.dev.disarmDeep 2).rd PWR_STATE_STAT.state 0 ≠ 2) ∧
    ((s.dev.disarmDeep 2).checkPkt b = (a, some p)) ∧
    (crc32c (p.payload.drop 16) = leAt p.payload 4 4) ∧
    (p.seq < 2 ^ 32) ∧
    ((a.inn (streamKey p.src p.path p.cls)).expect % 2 ^ 32 = p.seq) ∧
    (e = a.setIn (streamKey p.src p.path p.cls) { a.inn (streamKey p.src p.path p.cls) with expect := ((a.inn (streamKey p.src p.path p.cls)).expect + 1) % 2 ^ 32 }) ∧
    (e.on FAB_TEN_CFG.remote_en (tagTen p.tag) = true) :=
  ⟨{ dev := { (mapped.wr FAB_TEN_CFG.remote_en 0 1).wr PWR_STATE_STAT.state 0 0 with fab := { members := [1] } } }, aPacket 0x10 0 (2 ^ 48) 16 (List.replicate 16 0), aPkt 0x10 0 (2 ^ 48) 16 (List.replicate 16 0), { (mapped.wr FAB_TEN_CFG.remote_en 0 1).wr PWR_STATE_STAT.state 0 0 with fab := { members := [1] } }, _, by decide +kernel, by decide +kernel, by decide +kernel, by decide +kernel, by decide +kernel, by decide +kernel, rfl, by decide +kernel⟩

theorem wit_CollectiveAnswers_redGrantRx : ∃ (s : State) (b : List Byte) (p : Pkt) (a : Device) (c : Coll) (e : Coll),
    (leAt b 4 1 = 0x12) ∧
    (s.dev.checkPkt b = (a, some p)) ∧
    (a.collOf p.ga = some c) ∧
    (c.kind = 5) ∧
    (c.phase = 0) ∧
    (e = { c with heard := a.time }) :=
  ⟨{ dev := ({ grouped with colls := [{ collOf 5 ([5, 0, 0, 0] ++ [0,0,0,0,0,0,0,0] ++ [0,2,0,0,0,0,0,0] ++ [0,3,0,0,0,0,0,0] ++ [8, 0, 0, 0, 0, 0, 0, 0]) with phase := 0 }], fab := { members := [1] } } : Device) }, aPacket 0x12 0 (2 ^ 48) 1 [4], aPkt 0x12 0 (2 ^ 48) 1 [4], ({ grouped with colls := [{ collOf 5 ([5, 0, 0, 0] ++ [0,0,0,0,0,0,0,0] ++ [0,2,0,0,0,0,0,0] ++ [0,3,0,0,0,0,0,0] ++ [8, 0, 0, 0, 0, 0, 0, 0]) with phase := 0 }], fab := { members := [1] } } : Device), { collOf 5 ([5, 0, 0, 0] ++ [0,0,0,0,0,0,0,0] ++ [0,2,0,0,0,0,0,0] ++ [0,3,0,0,0,0,0,0] ++ [8, 0, 0, 0, 0, 0, 0, 0]) with phase := 0 }, _, by decide +kernel, by decide +kernel, by decide +kernel, by decide +kernel, by decide +kernel, rfl⟩

theorem wit_CollectiveAnswers_redDeclinedRx : ∃ (s : State) (b : List Byte) (p : Pkt) (a : Device) (c : Coll) (e : Coll),
    (leAt b 4 1 = 0x13) ∧
    (s.dev.checkPkt b = (a, some p)) ∧
    (a.collOf p.ga = some c) ∧
    (c.kind = 5) ∧
    (c.phase = 0) ∧
    (e = { c with heard := a.time }) :=
  ⟨{ dev := ({ grouped with colls := [{ collOf 5 ([5, 0, 0, 0] ++ [0,0,0,0,0,0,0,0] ++ [0,2,0,0,0,0,0,0] ++ [0,3,0,0,0,0,0,0] ++ [8, 0, 0, 0, 0, 0, 0, 0]) with phase := 0 }], fab := { members := [1] } } : Device) }, aPacket 0x13 0 (2 ^ 48) 0 [], aPkt 0x13 0 (2 ^ 48) 0 [], ({ grouped with colls := [{ collOf 5 ([5, 0, 0, 0] ++ [0,0,0,0,0,0,0,0] ++ [0,2,0,0,0,0,0,0] ++ [0,3,0,0,0,0,0,0] ++ [8, 0, 0, 0, 0, 0, 0, 0]) with phase := 0 }], fab := { members := [1] } } : Device), { collOf 5 ([5, 0, 0, 0] ++ [0,0,0,0,0,0,0,0] ++ [0,2,0,0,0,0,0,0] ++ [0,3,0,0,0,0,0,0] ++ [8, 0, 0, 0, 0, 0, 0, 0]) with phase := 0 }, _, by decide +kernel, by decide +kernel, by decide +kernel, by decide +kernel, by decide +kernel, rfl⟩

theorem wit_CollectiveAnswers_redResultRx : ∃ (s : State) (b : List Byte) (p : Pkt) (a : Device) (c : Coll) (e : Coll) (h : List Byte) (i : Nat) (g : Device),
    (leAt b 4 1 = 0x15) ∧
    (s.dev.checkPkt b = (a, some p)) ∧
    (a.collOf p.ga = some c) ∧
    (c.kind = 5) ∧
    (c.phase = 1) ∧
    (e = { c with heard := a.time }) ∧
    (h = p.payload.take 16) ∧
    (i = leAt h 0 4) ∧
    (e.landed.contains i = false) ∧
    (i < e.chunks) ∧
    (crc32c (p.payload.drop 16) = leAt h 4 4) ∧
    (e.agrees h = true) ∧
    (e.fixed = true → bit (leAt h 10 1) 0 = true) ∧
    (((a.setColl e).logRec e.ten 3 p.src (cdDst e.desc + 4096 * i) p.tag p.payload).landResult e i (p.payload.drop 16) = (g, .done)) ∧
    ((p.payload.drop 16).length = e.chunkLen i) :=
  ⟨{ dev := ({ grouped with colls := [{ collOf 5 ([5, 0, 0, 0] ++ [0,0,0,0,0,0,0,0] ++ [0,2,0,0,0,0,0,0] ++ [0,3,0,0,0,0,0,0] ++ [8, 0, 0, 0, 0, 0, 0, 0]) with phase := 1 }], fab := { members := [1] } } : Device) }, aPacket 0x15 0 (2 ^ 48) 24 (toLE 4 0 ++ toLE 4 (crc32c (List.replicate 8 0)) ++ [5, 0, 0, 0, 8, 0, 0, 0] ++ List.replicate 8 0), aPkt 0x15 0 (2 ^ 48) 24 (toLE 4 0 ++ toLE 4 (crc32c (List.replicate 8 0)) ++ [5, 0, 0, 0, 8, 0, 0, 0] ++ List.replicate 8 0), ({ grouped with colls := [{ collOf 5 ([5, 0, 0, 0] ++ [0,0,0,0,0,0,0,0] ++ [0,2,0,0,0,0,0,0] ++ [0,3,0,0,0,0,0,0] ++ [8, 0, 0, 0, 0, 0, 0, 0]) with phase := 1 }], fab := { members := [1] } } : Device), { collOf 5 ([5, 0, 0, 0] ++ [0,0,0,0,0,0,0,0] ++ [0,2,0,0,0,0,0,0] ++ [0,3,0,0,0,0,0,0] ++ [8, 0, 0, 0, 0, 0, 0, 0]) with phase := 1 }, _, _, _, ((({ grouped with colls := [{ collOf 5 ([5, 0, 0, 0] ++ [0,0,0,0,0,0,0,0] ++ [0,2,0,0,0,0,0,0] ++ [0,3,0,0,0,0,0,0] ++ [8, 0, 0, 0, 0, 0, 0, 0]) with phase := 1 }], fab := { members := [1] } } : Device).setColl ({ { collOf 5 ([5, 0, 0, 0] ++ [0,0,0,0,0,0,0,0] ++ [0,2,0,0,0,0,0,0] ++ [0,3,0,0,0,0,0,0] ++ [8, 0, 0, 0, 0, 0, 0, 0]) with phase := 1 } with heard := ({ grouped with colls := [{ collOf 5 ([5, 0, 0, 0] ++ [0,0,0,0,0,0,0,0] ++ [0,2,0,0,0,0,0,0] ++ [0,3,0,0,0,0,0,0] ++ [8, 0, 0, 0, 0, 0, 0, 0]) with phase := 1 }], fab := { members := [1] } } : Device).time } : Coll)).landResult ({ { collOf 5 ([5, 0, 0, 0] ++ [0,0,0,0,0,0,0,0] ++ [0,2,0,0,0,0,0,0] ++ [0,3,0,0,0,0,0,0] ++ [8, 0, 0, 0, 0, 0, 0, 0]) with phase := 1 } with heard := ({ grouped with colls := [{ collOf 5 ([5, 0, 0, 0] ++ [0,0,0,0,0,0,0,0] ++ [0,2,0,0,0,0,0,0] ++ [0,3,0,0,0,0,0,0] ++ [8, 0, 0, 0, 0, 0, 0, 0]) with phase := 1 }], fab := { members := [1] } } : Device).time } : Coll) 0 (List.replicate 8 0)).1, by decide +kernel, by decide +kernel, by decide +kernel, by decide +kernel, by decide +kernel, rfl, rfl, rfl, by decide +kernel, by decide +kernel, by decide +kernel, by decide +kernel, by decide +kernel, by decide +kernel, by decide +kernel⟩

theorem wit_CollectiveAnswers_redDoneRx : ∃ (s : State) (b : List Byte) (p : Pkt) (a : Device) (c : Coll) (e : Coll),
    (leAt b 4 1 = 0x16) ∧
    (s.dev.checkPkt b = (a, some p)) ∧
    (a.collOf p.ga = some c) ∧
    (c.kind = 5) ∧
    (c.phase = 2) ∧
    (e = { c with heard := a.time }) :=
  ⟨{ dev := ({ grouped with colls := [{ collOf 5 ([5, 0, 0, 0] ++ [0,0,0,0,0,0,0,0] ++ [0,2,0,0,0,0,0,0] ++ [0,3,0,0,0,0,0,0] ++ [8, 0, 0, 0, 0, 0, 0, 0]) with phase := 2 }], fab := { members := [1] } } : Device) }, aPacket 0x16 0 (2 ^ 48) 1 [1], aPkt 0x16 0 (2 ^ 48) 1 [1], ({ grouped with colls := [{ collOf 5 ([5, 0, 0, 0] ++ [0,0,0,0,0,0,0,0] ++ [0,2,0,0,0,0,0,0] ++ [0,3,0,0,0,0,0,0] ++ [8, 0, 0, 0, 0, 0, 0, 0]) with phase := 2 }], fab := { members := [1] } } : Device), { collOf 5 ([5, 0, 0, 0] ++ [0,0,0,0,0,0,0,0] ++ [0,2,0,0,0,0,0,0] ++ [0,3,0,0,0,0,0,0] ++ [8, 0, 0, 0, 0, 0, 0, 0]) with phase := 2 }, _, by decide +kernel, by decide +kernel, by decide +kernel, by decide +kernel, by decide +kernel, rfl⟩

theorem wit_CollectiveAnswers_redWaitRx : ∃ (s : State) (b : List Byte) (p : Pkt) (a : Device) (c : Coll) (e : Coll),
    (leAt b 48 1 = 0) ∧
    (leAt b 4 1 = 0x17) ∧
    (s.dev.checkPkt b = (a, some p)) ∧
    (a.collOf p.ga = some c) ∧
    (c.kind = 5) ∧
    (c.phase ≤ 2) ∧
    (e = { c with heard := a.time }) :=
  ⟨{ dev := ({ grouped with colls := [{ collOf 5 ([5, 0, 0, 0] ++ [0,0,0,0,0,0,0,0] ++ [0,2,0,0,0,0,0,0] ++ [0,3,0,0,0,0,0,0] ++ [8, 0, 0, 0, 0, 0, 0, 0]) with phase := 1 }], fab := { members := [1] } } : Device) }, aPacket 0x17 0 (2 ^ 48) 1 [0], aPkt 0x17 0 (2 ^ 48) 1 [0], ({ grouped with colls := [{ collOf 5 ([5, 0, 0, 0] ++ [0,0,0,0,0,0,0,0] ++ [0,2,0,0,0,0,0,0] ++ [0,3,0,0,0,0,0,0] ++ [8, 0, 0, 0, 0, 0, 0, 0]) with phase := 1 }], fab := { members := [1] } } : Device), { collOf 5 ([5, 0, 0, 0] ++ [0,0,0,0,0,0,0,0] ++ [0,2,0,0,0,0,0,0] ++ [0,3,0,0,0,0,0,0] ++ [8, 0, 0, 0, 0, 0, 0, 0]) with phase := 1 }, _, by decide +kernel, by decide +kernel, by decide +kernel, by decide +kernel, by decide +kernel, by decide +kernel, rfl⟩

theorem wit_CollectiveAnswers_redAbortRx : ∃ (s : State) (b : List Byte) (p : Pkt) (a : Device) (c : Coll) (e : Coll),
    (leAt b 48 1 = 1) ∧
    (leAt b 4 1 = 0x17) ∧
    (s.dev.checkPkt b = (a, some p)) ∧
    (a.collOf p.ga = some c) ∧
    (c.kind = 5) ∧
    (c.phase ≤ 2) ∧
    (e = { c with heard := a.time }) :=
  ⟨{ dev := ({ grouped with colls := [{ collOf 5 ([5, 0, 0, 0] ++ [0,0,0,0,0,0,0,0] ++ [0,2,0,0,0,0,0,0] ++ [0,3,0,0,0,0,0,0] ++ [8, 0, 0, 0, 0, 0, 0, 0]) with phase := 1 }], fab := { members := [1] } } : Device) }, aPacket 0x17 0 (2 ^ 48) 1 [1], aPkt 0x17 0 (2 ^ 48) 1 [1], ({ grouped with colls := [{ collOf 5 ([5, 0, 0, 0] ++ [0,0,0,0,0,0,0,0] ++ [0,2,0,0,0,0,0,0] ++ [0,3,0,0,0,0,0,0] ++ [8, 0, 0, 0, 0, 0, 0, 0]) with phase := 1 }], fab := { members := [1] } } : Device), { collOf 5 ([5, 0, 0, 0] ++ [0,0,0,0,0,0,0,0] ++ [0,2,0,0,0,0,0,0] ++ [0,3,0,0,0,0,0,0] ++ [8, 0, 0, 0, 0, 0, 0, 0]) with phase := 1 }, _, by decide +kernel, by decide +kernel, by decide +kernel, by decide +kernel, by decide +kernel, by decide +kernel, rfl⟩

theorem wit_CollectiveAnswers_redOpenTimeout : ∃ (s : State) (k : Nat) (c : Coll),
    (s.dev.colls[k]? = some c) ∧
    (c.kind = 5) ∧
    (c.phase = 0) :=
  ⟨{ dev := ({ grouped with colls := [{ collOf 5 ([5, 0, 0, 0] ++ [0,0,0,0,0,0,0,0] ++ [0,2,0,0,0,0,0,0] ++ [0,3,0,0,0,0,0,0] ++ [8, 0, 0, 0, 0, 0, 0, 0]) with phase := 0 }], fab := { members := [1] } } : Device) }, 0, { collOf 5 ([5, 0, 0, 0] ++ [0,0,0,0,0,0,0,0] ++ [0,2,0,0,0,0,0,0] ++ [0,3,0,0,0,0,0,0] ++ [8, 0, 0, 0, 0, 0, 0, 0]) with phase := 0 }, by decide +kernel⟩

theorem wit_CollectiveAnswers_redWaitTimeout : ∃ (s : State) (k : Nat) (c : Coll),
    (s.dev.colls[k]? = some c) ∧
    (c.kind = 5) ∧
    (c.phase = 1 ∨ c.phase = 2) :=
  ⟨{ dev := ({ grouped with colls := [{ collOf 5 ([5, 0, 0, 0] ++ [0,0,0,0,0,0,0,0] ++ [0,2,0,0,0,0,0,0] ++ [0,3,0,0,0,0,0,0] ++ [8, 0, 0, 0, 0, 0, 0, 0]) with phase := 2 }], fab := { members := [1] } } : Device) }, 0, { collOf 5 ([5, 0, 0, 0] ++ [0,0,0,0,0,0,0,0] ++ [0,2,0,0,0,0,0,0] ++ [0,3,0,0,0,0,0,0] ++ [8, 0, 0, 0, 0, 0, 0, 0]) with phase := 2 }, by decide +kernel⟩

theorem wit_MembershipCommands_musterEnable : ∃ (s : State) (value : Nat) (a : Device),
    (value < 2 ^ 64) ∧
    (s.dev.reaches 0 .FTP_CFG = true) ∧
    (bit value 0 = true) ∧
    (a = ((s.dev.wr FTP_CFG.isolate_ms 0 (bits value 31 24)).wr FTP_CFG.mgr_capable 0 (bits value 1 1)).wr FTP_CFG.enable 0 (bits value 0 0)) ∧
    (s.dev.on FTP_CFG.enable 0 = false) ∧
    (s.dev.isMemberNow = false) :=
  ⟨{}, 1, _, by decide +kernel, by decide +kernel, by decide +kernel, rfl, by decide +kernel, by decide +kernel⟩

theorem wit_MembershipCommands_musterEnable_ : ∃ (s : State) (value : Nat) (a : Device),
    (value < 2 ^ 64) ∧
    (s.dev.reaches 0 .FTP_CFG = true) ∧
    (bit value 0 = s.dev.on FTP_CFG.enable 0) ∧
    (a = ((s.dev.wr FTP_CFG.isolate_ms 0 (bits value 31 24)).wr FTP_CFG.mgr_capable 0 (bits value 1 1)).wr FTP_CFG.enable 0 (bits value 0 0)) :=
  ⟨{}, 2, _, by decide +kernel, by decide +kernel, by decide +kernel, rfl⟩

theorem wit_MembershipCommands_musterEnable__ : ∃ (s : State) (value : Nat) (a : Device),
    (value < 2 ^ 64) ∧
    (s.dev.reaches 0 .FTP_CFG = true) ∧
    (bit value 0 = false) ∧
    (a = ((s.dev.wr FTP_CFG.isolate_ms 0 (bits value 31 24)).wr FTP_CFG.mgr_capable 0 (bits value 1 1)).wr FTP_CFG.enable 0 (bits value 0 0)) ∧
    (s.dev.on FTP_CFG.enable 0 = true) ∧
    (s.dev.isMemberNow = false) :=
  ⟨{ dev := ({} : Device).wr FTP_CFG.enable 0 1 }, 2, _, by decide +kernel, by decide +kernel, by decide +kernel, rfl, by decide +kernel, by decide +kernel⟩

theorem wit_MembershipCommands_musterEnable___ : ∃ (s : State) (value : Nat) (a : Device),
    (value < 2 ^ 64) ∧
    (s.dev.reaches 0 .FTP_CFG = true) ∧
    (bit value 0 = false) ∧
    (a = ((s.dev.wr FTP_CFG.isolate_ms 0 (bits value 31 24)).wr FTP_CFG.mgr_capable 0 (bits value 1 1)).wr FTP_CFG.enable 0 (bits value 0 0)) ∧
    (s.dev.on FTP_CFG.enable 0 = true) ∧
    (s.dev.isMemberNow = true) :=
  ⟨{ dev := (({} : Device).wr FTP_CFG.enable 0 1).wr FTP_STAT.state 0 2 }, 2, _, by decide +kernel, by decide +kernel, by decide +kernel, rfl, by decide +kernel, by decide +kernel⟩

theorem wit_MembershipCommands_joinTick : ∃ (s : State),
    (s.dev.rd FTP_STAT.state 0 = 1) :=
  ⟨{ dev := ({} : Device).wr FTP_STAT.state 0 1 }, by decide +kernel⟩

theorem wit_MembershipCommands_heartbeatTick : ∃ (s : State) (a : Device),
    (s.dev.isMemberNow = true) ∧
    (a = s.dev.sendBeats.countMisses) :=
  ⟨{ dev := ({ ({} : Device).wr FTP_STAT.state 0 2 with fab := { members := [0, 4095] } } : Device) }, _, by decide +kernel, rfl⟩

theorem wit_MembershipCommands_heartbeatRx : ∃ (s : State) (src : Nat),
    (src < 4096) ∧
    (s.dev.isMember src = true) ∧
    (s.dev.isMemberNow = true) :=
  ⟨{ dev := ({ ({} : Device).wr FTP_STAT.state 0 2 with fab := { members := [0, 4095] } } : Device) }, 4095, by decide +kernel⟩

theorem wit_MembershipCommands_beaconRx : ∃ (s : State) (src : Nat),
    (src < 4096) ∧
    (s.dev.isMember src = true) ∧
    (s.dev.isMemberNow = true) :=
  ⟨{ dev := ({ ({} : Device).wr FTP_STAT.state 0 2 with fab := { members := [0, 4095] } } : Device) }, 4095, by decide +kernel⟩

theorem wit_MembershipCommands_probeRx : ∃ (s : State) (src : Nat),
    (src < 4096) ∧
    (s.dev.isMember src = true) ∧
    (s.dev.rd FTP_STAT.state 0 ≠ 0) :=
  ⟨{ dev := ({ ({} : Device).wr FTP_STAT.state 0 2 with fab := { members := [0, 4095] } } : Device) }, 4095, by decide +kernel⟩

theorem wit_MembershipCommands_probeAckRx : ∃ (s : State) (src : Nat),
    (src < 4096) ∧
    (s.dev.ftp.suspected.contains src = true) :=
  ⟨{ dev := ({ (({} : Device).wr FTP_MGR.valid 0 1).wr FTP_STAT.state 0 2 with fab := { members := [0, 4095] }, ftp := { suspected := [4095], capable := [0] } } : Device) }, 4095, by decide +kernel⟩

theorem wit_MembershipCommands_probeTimeout : ∃ (s : State) (dev : Nat),
    (dev < 4096) ∧
    (s.dev.isSpanMgr = true) ∧
    (s.dev.ftp.suspected.contains dev = true) :=
  ⟨{ dev := ({ (({} : Device).wr FTP_MGR.valid 0 1).wr FTP_STAT.state 0 2 with fab := { members := [0, 4095] }, ftp := { suspected := [4095], capable := [0] } } : Device) }, 4095, by decide +kernel⟩

theorem wit_MembershipCommands_removeRx : ∃ (s : State) (src : Nat) (dev : Nat),
    (src < 4096) ∧
    (dev < 4096) ∧
    (s.dev.isMember src = true) ∧
    (s.dev.isSysMgr = true) :=
  ⟨{ dev := ({ (({} : Device).wr FTP_STAT.sys_manager 0 1).wr FTP_STAT.state 0 2 with fab := { members := [0, 5, 4095] }, ftp := { capable := [0], gatherAt := some 0, remove := [4095] } } : Device) }, 4095, 0, by decide +kernel⟩

theorem wit_MembershipCommands_joinRx : ∃ (s : State) (dev : Nat),
    (dev < 4096) ∧
    (s.dev.isSysMgr = true) ∧
    (s.dev.isMember dev = false) ∧
    (∀ j ∈ s.dev.ftp.join, j.1 ≠ dev) :=
  ⟨{ dev := ({ (({} : Device).wr FTP_STAT.sys_manager 0 1).wr FTP_STAT.state 0 2 with fab := { members := [0, 5, 4095] }, ftp := { capable := [0], gatherAt := some 0, remove := [4095] } } : Device) }, 4094, by decide +kernel⟩

theorem wit_MembershipCommands_joinRx_ : ∃ (s : State) (dev : Nat),
    (dev < 4096) ∧
    (s.dev.isSysMgr = false) ∧
    (s.dev.isSpanMgr = true) ∧
    (s.dev.isMember dev = false) :=
  ⟨{ dev := ({ (({} : Device).wr FTP_MGR.valid 0 1).wr FTP_STAT.state 0 2 with fab := { members := [0, 4095] }, ftp := { suspected := [4095], capable := [0] } } : Device) }, 4094, by decide +kernel⟩

theorem wit_MembershipCommands_joinRx__ : ∃ (s : State) (dev : Nat),
    (dev < 4096) ∧
    (s.dev.isSysMgr = true ∨ s.dev.isSpanMgr = true) ∧
    (s.dev.isMember dev = true) :=
  ⟨{ dev := ({ (({} : Device).wr FTP_MGR.valid 0 1).wr FTP_STAT.state 0 2 with fab := { members := [0, 4095] }, ftp := { suspected := [4095], capable := [0] } } : Device) }, 4095, by decide +kernel⟩

theorem wit_MembershipCommands_leaveRx : ∃ (s : State) (src : Nat),
    (src < 4096) ∧
    (s.dev.isMember src = true) ∧
    (s.dev.isSpanMgr = true ∨ s.dev.isSysMgr = true) :=
  ⟨{ dev := ({ (({} : Device).wr FTP_STAT.sys_manager 0 1).wr FTP_STAT.state 0 2 with fab := { members := [0, 5, 4095] }, ftp := { capable := [0], gatherAt := some 0, remove := [4095] } } : Device) }, 4095, by decide +kernel⟩

theorem wit_EpochCommands_epochIssue : ∃ (s : State) (lossy : List Nat) (joins : List Nat) (members : List Nat) (cap : List Nat) (m : Muster) (a : Device) (b : Device),
    (s.dev.isSysMgr = true) ∧
    (s.dev.ftp.gatherAt.isSome = true) ∧
    (∀ t, s.dev.ftp.lastIssue = some t → t + 1800000 ≤ s.dev.cycle) ∧
    (s.dev.majority = true) ∧
    (joins = s.dev.ftp.join.map fun j => j.1) ∧
    (members = sortNat ((s.dev.fab.members.filter fun x => !s.dev.ftp.remove.contains x) ++ joins)) ∧
    (cap = (s.dev.ftp.capable ++ (s.dev.ftp.join.filter fun j => j.2).map fun j => j.1).filter members.contains) ∧
    (m = { dev := s.dev.devId, epoch := (s.dev.epoch + 1) % 2 ^ 32, members := members, capable := cap, joins := joins, lossy := lossy }) ∧
    (a = { s.dev with ftp := { s.dev.ftp with remove := [], join := [], gatherAt := none, lastIssue := some s.dev.cycle, acks := [] } }) ∧
    (b = (((managers members cap ++ managers s.dev.fab.members s.dev.ftp.capable).eraseDups.filter fun x => spanOf x != spanOf s.dev.devId) ++ a.spanTargets m).foldl (fun d x => d.muster x muEpoch m) a) :=
  ⟨{ dev := ({ (({} : Device).wr FTP_STAT.sys_manager 0 1).wr FTP_STAT.state 0 2 with fab := { members := [0, 5, 4095] }, ftp := { capable := [0], gatherAt := some 0, remove := [4095] } } : Device) }, [4095], _, _, _, _, _, _, by decide +kernel, by decide +kernel, (by intro t h; cases h), by decide +kernel, rfl, rfl, rfl, rfl, rfl, rfl⟩

theorem wit_EpochCommands_epochRx : ∃ (s : State) (src : Nat) (m : Muster) (a : Device) (e : Device),
    (src < 4096) ∧
    ((s.dev.rd FTP_STAT.state 0 = 1 ∧ m.joins.contains s.dev.devId = true) ∨ (s.dev.rd FTP_STAT.state 0 = 2 ∧ s.dev.isMember src = true ∧ s.dev.newer m.epoch = true)) ∧
    (a = if s.dev.isSpanMgr || (rankOrder m.members m.capable (spanOf s.dev.devId)).head? == some s.dev.devId then (s.dev.spanTargets m).foldl (fun d x => if x = src then d else d.muster x muEpoch m) s.dev else s.dev) ∧
    (e = a.applyEpoch src m) :=
  ⟨{ dev := ({ ({} : Device).wr FTP_STAT.state 0 2 with fab := { members := [0, 4095] } } : Device) }, 4095, { dev := 0, epoch := 1, members := [0, 4095], capable := [0], joins := [0], lossy := [] }, _, _, by decide +kernel, by decide +kernel, rfl, rfl⟩

theorem wit_EpochCommands_epochAckRx : ∃ (s : State) (src : Nat),
    (src < 4096) ∧
    (s.dev.isMember src = true) :=
  ⟨{ dev := ({ ({} : Device).wr FTP_STAT.state 0 2 with fab := { members := [0, 4095] } } : Device) }, 4095, by decide +kernel⟩

theorem wit_EpochCommands_managerTakeover : ∃ (s : State) (sys : Bool) (order : List Nat) (k : Nat) (alone : Bool) (e : Device) (a : Device),
    (s.dev.isMemberNow = true) ∧
    (order = if sys then managers s.dev.fab.members s.dev.ftp.capable else rankOrder s.dev.fab.members s.dev.ftp.capable (spanOf s.dev.devId)) ∧
    (findIdxFrom (fun x => x == s.dev.devId) order 0 = some k) ∧
    (0 < k) ∧
    ((if sys then s.dev.isSysMgr else s.dev.isSpanMgr) = false) ∧
    ((order.take k).any (fun x => s.dev.heardIn s.dev.ftp.beacons x (3 * k)) = false) ∧
    (alone = (!sys && (managers s.dev.fab.members s.dev.ftp.capable).all fun x => spanOf x == spanOf s.dev.devId)) ∧
    (e = if sys then s.dev else s.dev.wr FTP_MGR.span_manager 0 s.dev.devId) ∧
    (a = (if sys || alone then (e.wr FTP_MGR.sys_manager 0 e.devId).wr FTP_STAT.sys_manager 0 1 else e).incSat FTP_CNT.takeovers 0 1) :=
  ⟨{ dev := ({ ((({} : Device).wr FTP_STAT.state 0 2).wr FTP_MGR.span_manager 0 4).wr FAB_DEV_CFG.dev_id 0 9 with fab := { members := [4, 9] }, ftp := { capable := [4, 9] } } : Device) }, false, _, 1, _, _, _, by decide +kernel, rfl, by decide +kernel, by decide +kernel, by decide +kernel, by decide +kernel, rfl, rfl, rfl⟩

theorem wit_EpochCommands_isolateRx : ∃ (s : State) (src : Nat),
    (src < 4096) ∧
    (s.dev.isMember src = true) ∧
    (s.dev.isMemberNow = true) :=
  ⟨{ dev := ({ ({} : Device).wr FTP_STAT.state 0 2 with fab := { members := [0, 4095] } } : Device) }, 4095, by decide +kernel⟩

theorem wit_EpochCommands_isolateTimeout : ∃ (s : State),
    (s.dev.isMemberNow = true) ∧
    (s.dev.connected = false) :=
  ⟨{ dev := ({ ({} : Device).wr FTP_STAT.state 0 2 with fab := { members := [0, 4095] } } : Device) }, by decide +kernel⟩

theorem wit_EpochCommands_newer_ : ∃ (d : Device) (e : Device),
    (d.newer e.epoch = true) :=
  ⟨({} : Device).wr FTP_STAT.epoch 0 (2 ^ 32 - 1), {}, by decide +kernel⟩

theorem wit_ShadowCommands_shadowPageRead : ∃ (s : State) (t : Nat) (u : Nat) (g : ShadowGen) (idx : Nat) (pg : Nat) (rest : List (Nat × Nat)) (data : List Byte) (a : Device),
    (t < 64) ∧
    (s.dev.ftp.gens.find? (fun x => x.1 == t) = some (u, g)) ∧
    (g.left = (idx, pg) :: rest) ∧
    (data = s.dev.peek (if encrypted (pg / 2 ^ 20) then s.dev.tenKey t else devKey) (pg / 2 ^ 20) (pg % 2 ^ 20 * pageSize) pageSize) ∧
    (a = ({ s.dev with ftp := { s.dev.ftp with gens := smIns s.dev.ftp.gens t ({ g with left := rest } : ShadowGen) }, sent := .shadow s.dev.partner t g.step (.page idx data) :: s.dev.sent } : Device).unshadow [pg]) :=
  ⟨{ dev := shadowing [(5, 9)] }, 0, 0, ⟨3, [5], [(5, 9)], 1, anInfo⟩, 5, 9, [], _, _, by decide +kernel, by decide +kernel, by decide +kernel, rfl, rfl⟩

theorem wit_ShadowCommands_shadowPageRead_ : ∃ (s : State) (t : Nat) (u : Nat) (g : ShadowGen),
    (t < 64) ∧
    (s.dev.ftp.gens.find? (fun x => x.1 == t) = some (u, g)) ∧
    (g.left = []) ∧
    (g.count = 0) :=
  ⟨{ dev := shadowing [] }, 0, 0, ⟨3, [], [], 0, anInfo⟩, by decide +kernel⟩

theorem wit_ShadowCommands_shadowAckRx : ∃ (s : State) (src : Nat) (t : Nat) (u : Nat) (g : ShadowGen) (full : List Nat) (a : Device) (b : Device) (c : Device) (e : Device),
    (src < 4096) ∧
    (t < 64) ∧
    (s.dev.ftp.gens.find? (fun x => x.1 == t) = some (u, g)) ∧
    (src = s.dev.partner) ∧
    (g.left = []) ∧
    (full = t :: s.dev.ftp.full.filter fun x => x != t) ∧
    (a = { s.dev with ftp := { s.dev.ftp with gens := smDel s.dev.ftp.gens t, full := full } }) ∧
    (b = (a.wr FTP_TEN_STAT.gen_step t g.step).wr FTP_TEN_STAT.unprotected t 0) ∧
    (c = if (List.range 64).all fun x => !b.isProtected x || full.contains x then b.wr FTP_PARTNER.state 0 2 else b) ∧
    (e = c.setInLog t { c.inLog t with gen := some g.step }) :=
  ⟨{ dev := shadowing [] }, 1, 0, 0, ⟨3, [], [], 0, anInfo⟩, _, _, _, _, _, by decide +kernel, by decide +kernel, by decide +kernel, by decide +kernel, by decide +kernel, rfl, rfl, rfl, rfl, rfl⟩

theorem wit_ShadowCommands_shadowAckRx_ : ∃ (s : State) (src : Nat) (t : Nat) (u : Nat) (g : ShadowGen),
    (src < 4096) ∧
    (t < 64) ∧
    (s.dev.ftp.gens.find? (fun x => x.1 == t) = some (u, g)) ∧
    (src = s.dev.partner) :=
  ⟨{ dev := shadowing [(5, 9)] }, 1, 0, 0, ⟨3, [5], [(5, 9)], 1, anInfo⟩, by decide +kernel⟩

theorem wit_ShadowCommands_logHoldTimeout : ∃ (s : State) (t : Nat) (a : Device) (b : Device),
    (t < 64) ∧
    (s.dev.logHolds t = true) ∧
    (a = (s.dev.setInLog t { s.dev.inLog t with kept := [] }).drainLogs t) ∧
    (b = (a.wr FTP_TEN_STAT.log_state t 2).wr FTP_TEN_STAT.unprotected t 1) :=
  ⟨{ dev := { ftp := { logs := [(5, { waiting := [⟨1, 0, 0, [], 0, 0, 0, []⟩] })] } } }, 5, _, _, by decide +kernel, by decide +kernel, rfl, rfl⟩

theorem wit_ShadowCommands_restoreStart : ∃ (s : State) (value : Nat) (a : Device) (b : Device),
    (value < 2 ^ 64) ∧
    (s.dev.reaches 0 .FTP_RESTORE = true) ∧
    (a = ((s.dev.wr FTP_RESTORE.tenancy 0 (bits value 60 55)).wr FTP_RESTORE.guest 0 (bits value 54 43)).wr FTP_RESTORE.source 0 (bits value 42 31)) ∧
    (b = if bit value 61 then a.wr FTP_RESTORE.err 0 0 else a) ∧
    (bit value 63 = true) ∧
    (b.ftp.restore = none) :=
  ⟨{}, 2 ^ 63 + 2 ^ 61, _, _, by decide +kernel, by decide +kernel, rfl, rfl, by decide +kernel, by decide +kernel⟩

theorem wit_ShadowCommands_restoreStart_ : ∃ (s : State) (value : Nat) (a : Device) (b : Device),
    (value < 2 ^ 64) ∧
    (s.dev.reaches 0 .FTP_RESTORE = true) ∧
    (a = ((s.dev.wr FTP_RESTORE.tenancy 0 (bits value 60 55)).wr FTP_RESTORE.guest 0 (bits value 54 43)).wr FTP_RESTORE.source 0 (bits value 42 31)) ∧
    (b = if bit value 61 then a.wr FTP_RESTORE.err 0 0 else a) ∧
    (bit value 63 = false ∨ b.ftp.restore.isSome = true) :=
  ⟨{}, 2 ^ 61, _, _, by decide +kernel, by decide +kernel, rfl, rfl, Or.inl (by decide +kernel)⟩

theorem wit_ShadowCommands_restoreDone : ∃ (s : State) (ok : Bool) (img : Restored) (im : Restored) (t : Nat) (guest : Nat) (source : Nat) (ps : List (Nat × List Byte)) (b : Device),
    (s.dev.ftp.restore = some (t, guest, source)) ∧
    ((if source = s.dev.devId then s.dev.hostedImage guest t else if ok then some img else none) = some im) ∧
    (ps = s.dev.restorePages t (guest == s.dev.devId) im) ∧
    (∀ p ∈ ps, (s.dev.indexPage t p.1).isSome = true) ∧
    (b = (ps.foldl (Device.restorePage t) (s.dev.restoreEnds true)).restoreTables t im.info) :=
  ⟨{ dev := { mapped with ftp := { restore := some (0, 1, 2) } } }, true, { pages := [(0, [7, 7])], info := anInfo, recs := [] }, { pages := [(0, [7, 7])], info := anInfo, recs := [] }, 0, 1, 2, _, _, by decide +kernel, by decide +kernel, rfl, by decide +kernel, rfl⟩

theorem wit_ShadowCommands_restoreDone_ : ∃ (s : State) (ok : Bool) (img : Restored) (im : Restored) (t : Nat) (guest : Nat) (source : Nat) (ps : List (Nat × List Byte)),
    (s.dev.ftp.restore = some (t, guest, source)) ∧
    ((if source = s.dev.devId then s.dev.hostedImage guest t else if ok then some img else none) = some im) ∧
    (ps = s.dev.restorePages t (guest == s.dev.devId) im) ∧
    (∃ p ∈ ps, s.dev.indexPage t p.1 = none) :=
  ⟨{ dev := { mapped with ftp := { restore := some (0, 1, 2) } } }, true, { pages := [(9, [])], info := anInfo, recs := [] }, { pages := [(9, [])], info := anInfo, recs := [] }, 0, 1, 2, _, by decide +kernel, by decide +kernel, rfl, ⟨(9, []), by decide +kernel, by decide +kernel⟩⟩

theorem wit_ShadowCommands_restoreDone__ : ∃ (s : State) (t : Nat) (guest : Nat) (source : Nat),
    (s.dev.ftp.restore = some (t, guest, source)) ∧
    (source ≠ s.dev.devId) :=
  ⟨{ dev := { mapped with ftp := { restore := some (0, 1, 2) } } }, 0, 1, 2, by decide +kernel⟩

theorem wit_ShadowCommands_shadowPageRx : ∃ (s : State) (guest : Nat) (t : Nat) (step : Nat) (i : Nat) (idx : Nat) (p : Nat) (h : HostGen) (g : HostGen) (a : Device),
    (guest < 4096) ∧
    (t < 64) ∧
    (s.dev.hostArea guest = some i) ∧
    (s.dev.hostFree i = some p) ∧
    (h = s.dev.hostGen guest t step) ∧
    (g = { h with pages := h.pages.filter (fun x => x.1 != idx) ++ [(idx, p)] }) ∧
    (a = { s.dev with ftp := { s.dev.ftp with hosted := s.dev.ftp.hosted.filter fun h => !(h.freed && h.pages.any fun x => x.2 == p) } }) :=
  ⟨{ dev := hosting }, 2, 0, 3, 3, 5, 7, _, _, _, by decide +kernel, by decide +kernel, by decide +kernel, by decide +kernel, rfl, rfl, rfl⟩

theorem wit_ShadowCommands_shadowPageRx____ : ∃ (s : State) (guest : Nat) (t : Nat),
    (guest < 4096) ∧
    (t < 64) ∧
    (s.dev.hostArea guest = none) :=
  ⟨{}, 2, 0, by decide +kernel⟩

theorem wit_ShadowCommands_shadowPageRx_ : ∃ (s : State) (guest : Nat) (t : Nat) (i : Nat),
    (guest < 4096) ∧
    (t < 64) ∧
    (s.dev.hostArea guest = some i) ∧
    (s.dev.hostFree i = none) :=
  ⟨{ dev := hosting.wr FTP_SHADOW_HOST.pages 3 0 }, 2, 0, 3, by decide +kernel⟩

theorem wit_ShadowCommands_shadowPageRx__ : ∃ (s : State) (guest : Nat) (t : Nat) (step : Nat) (i : Nat) (n : Nat) (m : ShadowMeta) (g : HostGen),
    (guest < 4096) ∧
    (t < 64) ∧
    (s.dev.hostArea guest = some i) ∧
    (g = { s.dev.hostGen guest t step with info := some (n, m) }) :=
  ⟨{ dev := hosting }, 2, 0, 3, 3, 0, anInfo, _, by decide +kernel, by decide +kernel, by decide +kernel, rfl⟩

theorem wit_ShadowCommands_logRecordMirrorRx : ∃ (guest : Nat) (t : Nat),
    (guest < 4096) ∧
    (t < 64) :=
  ⟨4095, 63, by decide +kernel⟩

theorem wit_ShadowCommands_logMirrorAckRx : ∃ (t : Nat),
    (t < 64) :=
  ⟨63, by decide +kernel⟩

theorem wit_SecurityOperations_ownerEnrol : ∃ (s : State) (value : Nat) (resp : Nat) (t : Nat) (a : Device) (b : Device) (w : List Byte) (os : List (List Byte × List Byte)),
    (value < 2 ^ 64) ∧
    (s.dev.reaches 0 .SEC_OP_CTL = true) ∧
    (bits value 3 0 = 1) ∧
    (b = s.dev.secAck value) ∧
    (b.on SEC_OP_CTL.busy 0 = false) ∧
    (t = bits value 13 8) ∧
    (a = b.wr SEC_OP_CTL.tenancy 0 t) ∧
    (resp < 3) ∧
    (a.secBlob resp 1088 = some w) ∧
    (leAt w 0 4 = 0x09604F57) ∧
    (allZero w 4 28 = true) ∧
    (a.pwr.owners.length < 4) ∧
    (∀ x, a.owner = some x → rsaPssVerify x.1 (bmSigned w) (bmSig w) = true) ∧
    (os = a.pwr.owners ++ [(bmModulus w, (w.drop 32).take 32)]) :=
  ⟨{ dev := told anOwner }, 1, 0, _, _, _, anOwner, _, by decide +kernel, by decide +kernel, by decide +kernel, rfl, by decide +kernel, rfl, rfl, by decide +kernel, secBlob_told _ _ _ anOwner (by decide +kernel) rfl (told_junk _) (by decide +kernel), by decide +kernel, by decide +kernel, by decide +kernel, (by intro x h; cases h), rfl⟩

theorem wit_SecurityOperations_fabricKeyImport : ∃ (s : State) (value : Nat) (resp : Nat) (g : Nat) (t : Nat) (a : Device) (b : Device) (w : List Byte) (x : List Byte × List Byte) (r : List Byte × List Byte),
    (value < 2 ^ 64) ∧
    (s.dev.reaches 0 .SEC_OP_CTL = true) ∧
    (bits value 3 0 = 2) ∧
    (b = s.dev.secAck value) ∧
    (b.on SEC_OP_CTL.busy 0 = false) ∧
    (t = bits value 13 8) ∧
    (a = b.wr SEC_OP_CTL.tenancy 0 t) ∧
    (resp < 3) ∧
    (a.secBlob resp 72 = some w) ∧
    (a.owner = some x) ∧
    (r = gcmUnseal x.2 ((w.drop 12).take 12) (w.take 12) ((w.drop 24).take 32)) ∧
    (g = leAt w 8 4) ∧
    (leAt w 0 4 = 0x0960464B) ∧
    (allZero w 5 3 = true) ∧
    (leAt w 4 1 = t) ∧
    (r.2 = (w.drop 56).take 16) ∧
    (newerGen g (a.fabKeys t).cur = true) :=
  ⟨{ dev := { told aWrap with pwr := { owners := [([], List.replicate 32 0)] } } }, 2 + 5 * 2 ^ 8, 0, 1, 5, _, _, aWrap, ([], List.replicate 32 0), _, by decide +kernel, by decide +kernel, by decide +kernel, rfl, by decide +kernel, by decide +kernel, rfl, by decide +kernel, by decide +kernel, by decide +kernel, rfl, by decide +kernel, by decide +kernel, by decide +kernel, by decide +kernel, by decide +kernel, by decide +kernel⟩

theorem wit_SecurityOperations_fabricKeyActivate : ∃ (s : State) (value : Nat) (t : Nat) (a : Device) (b : Device),
    (value < 2 ^ 64) ∧
    (s.dev.reaches 0 .SEC_OP_CTL = true) ∧
    (bits value 3 0 = 3) ∧
    (b = s.dev.secAck value) ∧
    (b.on SEC_OP_CTL.busy 0 = false) ∧
    (t = bits value 13 8) ∧
    (a = b.wr SEC_OP_CTL.tenancy 0 t) ∧
    ((a.fabKeys t).next.isSome = true) :=
  ⟨{ dev := { fab := { keys := [(5, { next := some (1, []) })] } } }, 3 + 5 * 2 ^ 8, 5, _, _, by decide +kernel, by decide +kernel, by decide +kernel, rfl, by decide +kernel, by decide +kernel, rfl, by decide +kernel⟩

theorem wit_SecurityOperations_fabricKeyRetirePrevious : ∃ (s : State) (value : Nat) (t : Nat) (a : Device) (b : Device),
    (value < 2 ^ 64) ∧
    (s.dev.reaches 0 .SEC_OP_CTL = true) ∧
    (bits value 3 0 = 4) ∧
    (b = s.dev.secAck value) ∧
    (b.on SEC_OP_CTL.busy 0 = false) ∧
    (t = bits value 13 8) ∧
    (a = b.wr SEC_OP_CTL.tenancy 0 t) :=
  ⟨{}, 4 + 63 * 2 ^ 8, _, _, _, by decide +kernel, by decide +kernel, by decide +kernel, rfl, by decide +kernel, rfl, rfl⟩

theorem wit_SecurityOperations_memoryKeyRoll : ∃ (s : State) (value : Nat) (t : Nat) (a : Device) (b : Device),
    (value < 2 ^ 64) ∧
    (s.dev.reaches 0 .SEC_OP_CTL = true) ∧
    (bits value 3 0 = 5) ∧
    (b = s.dev.secAck value) ∧
    (b.on SEC_OP_CTL.busy 0 = false) ∧
    (t = bits value 13 8) ∧
    (a = b.wr SEC_OP_CTL.tenancy 0 t) ∧
    (a.rd TEN_STAT.t1_mapped t = 0) ∧
    (a.rd TEN_STAT.t2_mapped t = 0) ∧
    (∀ i, i < a.rd MEM_LAND_CFG.count t → a.landState t i = 0) ∧
    (a.rd SCH_KV_POOL.pages t = 0) ∧
    (a.rd FTP_TEN_CFG.mode t = 0) :=
  ⟨{}, 5 + 63 * 2 ^ 8, _, _, _, by decide +kernel, by decide +kernel, by decide +kernel, rfl, by decide +kernel, rfl, rfl, by decide +kernel, by decide +kernel, by decide +kernel, by decide +kernel, by decide +kernel⟩

theorem wit_SecurityOperations_debugNonce : ∃ (s : State) (value : Nat) (t : Nat) (a : Device) (b : Device),
    (value < 2 ^ 64) ∧
    (s.dev.reaches 0 .SEC_OP_CTL = true) ∧
    (bits value 3 0 = 6) ∧
    (b = s.dev.secAck value) ∧
    (b.on SEC_OP_CTL.busy 0 = false) ∧
    (t = bits value 13 8) ∧
    (a = b.wr SEC_OP_CTL.tenancy 0 t) :=
  ⟨{}, 6, _, _, _, by decide +kernel, by decide +kernel, by decide +kernel, rfl, by decide +kernel, rfl, rfl⟩

theorem wit_SecurityOperations_debugUnlock : ∃ (s : State) (value : Nat) (resp : Nat) (t : Nat) (a : Device) (b : Device) (w : List Byte),
    (value < 2 ^ 64) ∧
    (s.dev.reaches 0 .SEC_OP_CTL = true) ∧
    (bits value 3 0 = 7) ∧
    (b = s.dev.secAck value) ∧
    (b.on SEC_OP_CTL.busy 0 = false) ∧
    (t = bits value 13 8) ∧
    (a = b.wr SEC_OP_CTL.tenancy 0 t) ∧
    (resp < 3) ∧
    (a.secBlob resp 1088 = some w) ∧
    (leAt w 0 4 = 0x09604454) ∧
    (leAt w 4 1 < 4) ∧
    (allZero w 6 2 = true) ∧
    (allZero w 48 16 = true) ∧
    (leAt w 8 8 = a.rd SEC_SERIAL.serial 0) ∧
    ((w.drop 16).take 32 = a.nonce) ∧
    (allZero a.nonce 0 32 = false) ∧
    (a.tokenKey w = true) ∧
    (rsaPssVerify (bmModulus w) (bmSigned w) (bmSig w) = true) :=
  ⟨{ dev := owned (told aToken) }, 7, 0, _, _, _, aToken, by decide +kernel, by decide +kernel, by decide +kernel, rfl, by decide +kernel, rfl, rfl, by decide +kernel, secBlob_told _ _ _ aToken (by decide +kernel) (owned_mem _).1 (owned_mem _).2 (by decide +kernel), by decide +kernel, by decide +kernel, by decide +kernel, by decide +kernel, by decide +kernel, by decide +kernel, by decide +kernel, by decide +kernel, by decide +kernel⟩

theorem wit_SecurityOperations_debugLock : ∃ (s : State) (value : Nat) (t : Nat) (a : Device) (b : Device),
    (value < 2 ^ 64) ∧
    (s.dev.reaches 0 .SEC_OP_CTL = true) ∧
    (bits value 3 0 = 8) ∧
    (b = s.dev.secAck value) ∧
    (b.on SEC_OP_CTL.busy 0 = false) ∧
    (t = bits value 13 8) ∧
    (a = b.wr SEC_OP_CTL.tenancy 0 t) :=
  ⟨{}, 8, _, _, _, by decide +kernel, by decide +kernel, by decide +kernel, rfl, by decide +kernel, rfl, rfl⟩

theorem wit_SecurityOperations_recoveryImage : ∃ (s : State) (value : Nat) (resp : Nat) (k : Nat) (t : Nat) (a : Device) (b : Device) (w : List Byte) (img : List Byte),
    (value < 2 ^ 64) ∧
    (s.dev.reaches 0 .SEC_OP_CTL = true) ∧
    (bits value 3 0 = 9) ∧
    (b = s.dev.secAck value) ∧
    (b.on SEC_OP_CTL.busy 0 = false) ∧
    (t = bits value 13 8) ∧
    (a = b.wr SEC_OP_CTL.tenancy 0 t) ∧
    (resp < 3) ∧
    (a.on SEC_BOOT_STAT.recovery 0 = true) ∧
    (a.booting = true) ∧
    (a.secBlob resp 1088 = some w) ∧
    (img = w ++ a.peek devKey (spHost 0) (a.rd SEC_OP_ADDR.addr 0 * 64 + 1088) (if leAt w 12 4 ≤ 8388608 then leAt w 12 4 else 0)) ∧
    (k = stageKind (a.rd PWR_START_STAT.step 0)) :=
  ⟨{ dev := inRecovery (told anOwner) }, 9, 0, _, _, _, _, anOwner, _, by decide +kernel, by decide +kernel, by decide +kernel, rfl, by decide +kernel, rfl, rfl, by decide +kernel, by decide +kernel, by decide +kernel, secBlob_told _ _ _ anOwner (by decide +kernel) (inRecovery_mem _).1 (inRecovery_mem _).2 (by decide +kernel), rfl, rfl⟩

theorem wit_SecurityOperations_secOperationDone : ∃ (s : State) (x : SecOp) (a : Device),
    (s.dev.pwr.secOp = some x) ∧
    (x.code = 0) ∧
    (a = ((({ s.dev with pwr := { s.dev.pwr with secOp := none } }.wr SEC_OP_CTL.busy 0 0).wr SEC_OP_CTL.code 0 0).wr SEC_OP_CTL.ok 0 1)) :=
  ⟨{ dev := ({} : Device).secPend ⟨8, 0, 0, 0⟩ }, ⟨8, 0, 0, 0⟩, _, by decide +kernel, by decide +kernel, rfl⟩

theorem wit_SecurityOperations_secOperationDone_ : ∃ (s : State) (x : SecOp),
    (s.dev.pwr.secOp = some x) ∧
    (x.code ≠ 0) :=
  ⟨{ dev := ({} : Device).secPend ⟨8, 0, 6, 0⟩ }, ⟨8, 0, 6, 0⟩, by decide +kernel⟩

theorem wit_SecurityOperations_arbAdvance : ∃ (s : State),
    (s.dev.reaches 0 .SEC_ARB = true) ∧
    (s.dev.on SEC_ARB.busy 0 = false) :=
  ⟨{}, by decide +kernel⟩

theorem wit_SecurityOperations_arbProgramDone : ∃ (s : State) (a : Device) (b : Device),
    (s.dev.on SEC_ARB.busy 0 = true) ∧
    (a = s.dev.wr SEC_ARB.srf_count 0 (max (s.dev.rd SEC_ARB.srf_count 0) (s.dev.rd SEC_BOOT_STAT.srf_svn 0))) ∧
    (b = a.wr SEC_ARB.cpf_count 0 (max (a.rd SEC_ARB.cpf_count 0) (a.rd SEC_BOOT_STAT.cpf_svn 0))) :=
  ⟨{ dev := ({} : Device).wr SEC_ARB.busy 0 1 }, _, _, by decide +kernel, rfl, rfl⟩

theorem wit_Attestation_spdmGetCertificate : ∃ (off : Nat) (len : Nat),
    (off < 65536) ∧
    (len < 65536) :=
  ⟨65535, 1, by decide +kernel⟩

theorem wit_Attestation_spdmChallenge : ∃ (s : State) (nonce : List Byte) (chain : List Byte) (ms : List Byte) (r : List Byte × Device),
    (nonce.length = 32) ∧
    (r = s.dev.freshBytes 32) ∧
    (chain = sha512 Config.certChain) ∧
    (ms = sha512 (s.dev.pwr.meas.flatMap fun m => m.2)) :=
  ⟨{}, List.replicate 32 7, _, _, _, by decide +kernel, rfl, rfl, rfl⟩

theorem wit_Attestation_spdmGetMeasurements : ∃ (index : Nat) (nonce : List Byte),
    (index < 256) ∧
    (nonce.length = 32) :=
  ⟨255, List.replicate 32 7, by decide +kernel⟩

theorem wit_Attestation_spdmGetMeasurements_ : ∃ (s : State) (index : Nat) (nonce : List Byte) (m : List Byte) (r : List Byte × Device),
    (index < 256) ∧
    (nonce.length = 32) ∧
    (r = s.dev.freshBytes 32) ∧
    (m = nonce ++ r.1 ++ (s.dev.measured index).flatMap fun m => m.2) :=
  ⟨{}, 255, List.replicate 32 7, _, _, by decide +kernel, by decide +kernel, rfl, rfl⟩

theorem wit_Attestation_jtagInstruction : ∃ (s : State) (isPublic : Bool),
    (isPublic = true ∨ bit (s.dev.rd SEC_BOOT_STAT.dbg_scope 0) 1 = true) :=
  ⟨{}, true, by decide +kernel⟩

theorem wit_Attestation_jtagInstruction_ : ∃ (s : State),
    (bit (s.dev.rd SEC_BOOT_STAT.dbg_scope 0) 1 = false) :=
  ⟨{}, by decide +kernel⟩

theorem wit_ManagementPort_mgtReadReg : ∃ (s : State) (seq : Nat) (mac : Nat) (off : Nat) (count : Nat) (ip : Option Nat) (a : Device),
    (seq < 65536) ∧
    (mac < 2 ^ 48) ∧
    (s.dev.on MGT_CFG.m0_en 0 = true) ∧
    (s.dev.aofUp = true ∧ s.dev.mgtAddressed ip = true ∧ (ip.all fun a => decide (a < 2 ^ 32)) = true) ∧
    ((s.dev.inWindow s.dev.pwr.mgtWin).2 = false) ∧
    (a = { s.dev with pwr := { s.dev.pwr with mgtWin := (s.dev.inWindow s.dev.pwr.mgtWin).1 } }) ∧
    (count ≤ 128) ∧
    (off % 8 = 0) ∧
    (∀ i, i < count → mgtBlock (off + 8 * i) = true) :=
  ⟨{ dev := managed }, 65535, 7, 0, 2, none, _, by decide +kernel, by decide +kernel, by decide +kernel, by decide +kernel, by decide +kernel, rfl, by decide +kernel, by decide +kernel, by decide +kernel⟩

theorem wit_ManagementPort_mgtReadReg_ : ∃ (s : State) (seq : Nat) (mac : Nat) (off : Nat) (count : Nat) (ip : Option Nat) (a : Device),
    (seq < 65536) ∧
    (mac < 2 ^ 48) ∧
    (s.dev.on MGT_CFG.m0_en 0 = true) ∧
    (s.dev.aofUp = true ∧ s.dev.mgtAddressed ip = true ∧ (ip.all fun a => decide (a < 2 ^ 32)) = true) ∧
    ((s.dev.inWindow s.dev.pwr.mgtWin).2 = false) ∧
    (a = { s.dev with pwr := { s.dev.pwr with mgtWin := (s.dev.inWindow s.dev.pwr.mgtWin).1 } }) ∧
    (128 < count ∨ off % 8 ≠ 0 ∨ ∃ i, i < count ∧ mgtBlock (off + 8 * i) = false) :=
  ⟨{ dev := managed }, 65535, 7, 0, 129, none, _, by decide +kernel, by decide +kernel, by decide +kernel, by decide +kernel, by decide +kernel, rfl, by decide +kernel⟩

theorem wit_ManagementPort_mgtReadLog : ∃ (s : State) (seq : Nat) (mac : Nat) (count : Nat) (ip : Option Nat) (a : Device),
    (seq < 65536) ∧
    (mac < 2 ^ 48) ∧
    (s.dev.on MGT_CFG.m0_en 0 = true) ∧
    (s.dev.aofUp = true ∧ s.dev.mgtAddressed ip = true ∧ (ip.all fun a => decide (a < 2 ^ 32)) = true) ∧
    ((s.dev.inWindow s.dev.pwr.mgtWin).2 = false) ∧
    (a = { s.dev with pwr := { s.dev.pwr with mgtWin := (s.dev.inWindow s.dev.pwr.mgtWin).1 } }) ∧
    (count ≤ 16) :=
  ⟨{ dev := managed }, 65535, 7, 16, none, _, by decide +kernel, by decide +kernel, by decide +kernel, by decide +kernel, by decide +kernel, rfl, by decide +kernel⟩

theorem wit_ManagementPort_mgtReadTelem : ∃ (s : State) (seq : Nat) (mac : Nat) (count : Nat) (ip : Option Nat) (a : Device),
    (seq < 65536) ∧
    (mac < 2 ^ 48) ∧
    (s.dev.on MGT_CFG.m0_en 0 = true) ∧
    (s.dev.aofUp = true ∧ s.dev.mgtAddressed ip = true ∧ (ip.all fun a => decide (a < 2 ^ 32)) = true) ∧
    ((s.dev.inWindow s.dev.pwr.mgtWin).2 = false) ∧
    (a = { s.dev with pwr := { s.dev.pwr with mgtWin := (s.dev.inWindow s.dev.pwr.mgtWin).1 } }) ∧
    (count ≤ 8) :=
  ⟨{ dev := managed }, 65535, 7, 8, none, _, by decide +kernel, by decide +kernel, by decide +kernel, by decide +kernel, by decide +kernel, rfl, by decide +kernel⟩

theorem wit_ManagementPort_mgtReadSave : ∃ (s : State) (seq : Nat) (mac : Nat) (ip : Option Nat) (a : Device),
    (seq < 65536) ∧
    (mac < 2 ^ 48) ∧
    (s.dev.on MGT_CFG.m0_en 0 = true) ∧
    (s.dev.aofUp = true ∧ s.dev.mgtAddressed ip = true ∧ (ip.all fun a => decide (a < 2 ^ 32)) = true) ∧
    ((s.dev.inWindow s.dev.pwr.mgtWin).2 = false) ∧
    (a = { s.dev with pwr := { s.dev.pwr with mgtWin := (s.dev.inWindow s.dev.pwr.mgtWin).1 } }) :=
  ⟨{ dev := managed }, 65535, 7, none, _, by decide +kernel, by decide +kernel, by decide +kernel, by decide +kernel, by decide +kernel, rfl⟩

theorem wit_ManagementPort_mgtWake : ∃ (s : State) (seq : Nat) (mac : Nat) (ip : Option Nat) (a : Device),
    (seq < 65536) ∧
    (mac < 2 ^ 48) ∧
    (s.dev.on MGT_CFG.m0_en 0 = true) ∧
    (s.dev.aofUp = true ∧ s.dev.mgtAddressed ip = true ∧ (ip.all fun a => decide (a < 2 ^ 32)) = true) ∧
    ((s.dev.inWindow s.dev.pwr.mgtWin).2 = false) ∧
    (a = { s.dev with pwr := { s.dev.pwr with mgtWin := (s.dev.inWindow s.dev.pwr.mgtWin).1 } }) ∧
    (a.mgtAllowed (some mac) = true) :=
  ⟨{ dev := managed }, 65535, 7, none, _, by decide +kernel, by decide +kernel, by decide +kernel, by decide +kernel, by decide +kernel, rfl, by decide +kernel⟩

theorem wit_ManagementPort_mgtDeviceReset : ∃ (s : State) (seq : Nat) (mac : Nat) (ip : Option Nat) (a : Device),
    (seq < 65536) ∧
    (mac < 2 ^ 48) ∧
    (s.dev.on MGT_CFG.m0_en 0 = true) ∧
    (s.dev.aofUp = true ∧ s.dev.mgtAddressed ip = true ∧ (ip.all fun a => decide (a < 2 ^ 32)) = true) ∧
    ((s.dev.inWindow s.dev.pwr.mgtWin).2 = false) ∧
    (a = { s.dev with pwr := { s.dev.pwr with mgtWin := (s.dev.inWindow s.dev.pwr.mgtWin).1 } }) ∧
    (a.mgtAllowed (some mac) = true) ∧
    (a.asleep = false) :=
  ⟨{ dev := managed }, 65535, 7, none, _, by decide +kernel, by decide +kernel, by decide +kernel, by decide +kernel, by decide +kernel, rfl, by decide +kernel, by decide +kernel⟩

theorem wit_ManagementPort_mgtDeviceReset_ : ∃ (s : State) (seq : Nat) (mac : Nat) (ip : Option Nat) (a : Device),
    (seq < 65536) ∧
    (mac < 2 ^ 48) ∧
    (s.dev.on MGT_CFG.m0_en 0 = true) ∧
    (s.dev.aofUp = true ∧ s.dev.mgtAddressed ip = true ∧ (ip.all fun a => decide (a < 2 ^ 32)) = true) ∧
    ((s.dev.inWindow s.dev.pwr.mgtWin).2 = false) ∧
    (a = { s.dev with pwr := { s.dev.pwr with mgtWin := (s.dev.inWindow s.dev.pwr.mgtWin).1 } }) ∧
    (a.mgtAllowed (some mac) = true) ∧
    (a.asleep = true) :=
  ⟨{ dev := managed.wr PWR_STATE_STAT.state 0 2 }, 65535, 7, none, _, by decide +kernel, by decide +kernel, by decide +kernel, by decide +kernel, by decide +kernel, rfl, by decide +kernel, by decide +kernel⟩

theorem wit_ManagementPort_mgtSetPkgLimit : ∃ (s : State) (seq : Nat) (mac : Nat) (w : Nat) (ip : Option Nat) (a : Device),
    (seq < 65536) ∧
    (mac < 2 ^ 48) ∧
    (s.dev.on MGT_CFG.m0_en 0 = true) ∧
    (s.dev.aofUp = true ∧ s.dev.mgtAddressed ip = true ∧ (ip.all fun a => decide (a < 2 ^ 32)) = true) ∧
    ((s.dev.inWindow s.dev.pwr.mgtWin).2 = false) ∧
    (a = { s.dev with pwr := { s.dev.pwr with mgtWin := (s.dev.inWindow s.dev.pwr.mgtWin).1 } }) ∧
    (a.mgtAllowed (some mac) = true) ∧
    (300 ≤ w) ∧
    (w ≤ 1400) :=
  ⟨{ dev := managed }, 65535, 7, 300, none, _, by decide +kernel, by decide +kernel, by decide +kernel, by decide +kernel, by decide +kernel, rfl, by decide +kernel, by decide +kernel, by decide +kernel⟩

theorem wit_ManagementPort_mgtSetPkgLimit_ : ∃ (s : State) (seq : Nat) (mac : Nat) (w : Nat) (ip : Option Nat) (a : Device),
    (seq < 65536) ∧
    (mac < 2 ^ 48) ∧
    (s.dev.on MGT_CFG.m0_en 0 = true) ∧
    (s.dev.aofUp = true ∧ s.dev.mgtAddressed ip = true ∧ (ip.all fun a => decide (a < 2 ^ 32)) = true) ∧
    ((s.dev.inWindow s.dev.pwr.mgtWin).2 = false) ∧
    (a = { s.dev with pwr := { s.dev.pwr with mgtWin := (s.dev.inWindow s.dev.pwr.mgtWin).1 } }) ∧
    (w < 65536) ∧
    (a.mgtAllowed (some mac) = false) :=
  ⟨{ dev := managed }, 65535, 8, 300, none, _, by decide +kernel, by decide +kernel, by decide +kernel, by decide +kernel, by decide +kernel, rfl, by decide +kernel, by decide +kernel⟩

theorem wit_ManagementPort_mgtBadRequest : ∃ (s : State) (seq : Nat) (mac : Nat) (op : Nat) (ip : Option Nat) (a : Device),
    (seq < 65536) ∧
    (mac < 2 ^ 48) ∧
    (s.dev.on MGT_CFG.m0_en 0 = true) ∧
    (s.dev.aofUp = true ∧ s.dev.mgtAddressed ip = true ∧ (ip.all fun a => decide (a < 2 ^ 32)) = true) ∧
    ((s.dev.inWindow s.dev.pwr.mgtWin).2 = false) ∧
    (a = { s.dev with pwr := { s.dev.pwr with mgtWin := (s.dev.inWindow s.dev.pwr.mgtWin).1 } }) ∧
    (op < 256) ∧
    (op < 0x10 ∨ 0x12 < op) :=
  ⟨{ dev := managed }, 65535, 7, 0, none, _, by decide +kernel, by decide +kernel, by decide +kernel, by decide +kernel, by decide +kernel, rfl, by decide +kernel, by decide +kernel⟩

theorem wit_ManagementPort_i3cPrivateWrite : ∃ (s : State) (seq : Nat) (r : MgtReq) (a : Device) (x : Device × Nat × List Byte) (z : MgtAns),
    (seq < 65536) ∧
    (s.dev.on MGT_CFG.i3c_en 0 = true) ∧
    (s.dev.pwr.i3cDyn.isSome = true) ∧
    (s.dev.aofUp = true) ∧
    ((s.dev.inWindow s.dev.pwr.i3cWin).2 = false) ∧
    (a = { s.dev with pwr := { s.dev.pwr with i3cWin := (s.dev.inWindow s.dev.pwr.i3cWin).1 } }) ∧
    (x = a.mgtServe none r) ∧
    (z = r.answer x.1 seq x.2.1 x.2.2) :=
  ⟨{ dev := managed }, 1, .wake, _, _, _, by decide +kernel, by decide +kernel, by decide +kernel, by decide +kernel, by decide +kernel, rfl, rfl, rfl⟩

theorem wit_ManagementPort_i3cAddressAssign : ∃ (s : State) (static : Nat) (dyn : Nat),
    (static < 128) ∧
    (dyn < 128) ∧
    (s.dev.on MGT_CFG.i3c_en 0 = true) ∧
    (s.dev.pwr.i3cDyn = none) :=
  ⟨{ dev := { managed with pwr := {} } }, 0, 9, by decide +kernel⟩

theorem wit_ManagementPort_i3cAddressAssign_ : ∃ (s : State) (static : Nat) (dyn : Nat),
    (static < 128) ∧
    (dyn < 128) ∧
    (s.dev.on MGT_CFG.i3c_en 0 = true) ∧
    (static = s.dev.rd MGT_CFG.i3c_addr 0) :=
  ⟨{ dev := { managed with pwr := {} } }, 0x4A, 9, by decide +kernel⟩

theorem wit_ManagementPort_telemetryTick : ∃ (s : State) (md0 : Nat) (md1 : Nat) (iod : Nat) (n : Nat) (a : Device),
    (s.dev.aofUp = true) ∧
    (n = s.dev.rd MGT_TELEM_STAT.head 0) ∧
    (a = { s.dev with pwr := { s.dev.pwr with telem := (n, s.dev.telemRecord md0 md1 iod) :: s.dev.pwr.telem.filter (fun r => r.1 % 6000 != n % 6000), spareMax := s.dev.topDuty SCH_THR_STAT.spare_duty, promptMax := s.dev.topDuty SCH_THR_STAT.prompt_duty } }) :=
  ⟨{ dev := managed }, 1, 2, 3, _, _, by decide +kernel, rfl, rfl⟩

theorem wit_TagsReadBack : ∃ ten cls client kind step mid : Nat, ten < 64 ∧ cls < 3 ∧ client < 2 ^ 20 ∧ kind ≤ 6 ∧ step < 2 ^ 40 ∧ mid < 2 ^ 24 :=
  ⟨63, 2, 2 ^ 20 - 1, 6, 2 ^ 40 - 1, 2 ^ 24 - 1, by decide, by decide, by decide, by decide, by decide, by decide⟩

theorem wit_FlitsCarryPackets_1 : ∃ (cls ten i : Nat) (bs : List Byte) (f : TxFlit), (flitsOf cls ten bs)[i]? = some f := ⟨3, 5, 1, List.replicate 241 7, ⟨3, false, true, [7], false, 0, 5⟩, by decide +kernel⟩

theorem wit_FlitsCarryPackets_2 : ∃ (l : Link) (f : TxFlit), f.seq < 4096 ∧ f.cls < 4 ∧ f.data.length < 256 ∧ l.seen = true := ⟨{ seen := true }, ⟨3, true, true, [0], false, 4095, 0⟩, by decide, by decide, by decide, rfl⟩

theorem wit_PacketsArrive : ∃ (d e : Device) (g g2 path cls : Nat) (tag key : List Byte), tag.length = 16 ∧ key.length = 32 ∧ (d.fabKeys (tagTen tag)).cur = some (g, key) ∧
    (e.fabKeys (tagTen tag)).cur = some (g2, key) ∧ d.epoch ≤ e.epoch + 1 ∧ e.epoch ≤ d.epoch + 1 ∧ (e.inn (streamKey d.devId path cls)).resetEpoch ≤ d.epoch :=
  ⟨{ fab := { keys := [(9, { cur := some (41, List.replicate 32 5) })] } }, { fab := { keys := [(9, { cur := some (41, List.replicate 32 5) })] } }, 41, 41, 15, 3,
    9 :: List.replicate 15 0, List.replicate 32 5, by decide, by decide, by decide, by decide, by decide +kernel, by decide +kernel, by decide +kernel⟩

end Sys2Proof.Tests
end

section
/-! PROOFS. The scope of the model (chapter 0): steps and runs of the queue, accesses that are blocked, and the host's accesses to BAR0. -/

namespace Sys2Proof.Machine

/-! ### What a command can do -/

/-- Every command has one change of the device for its effect, made where the command is well formed; the queue of waiting commands is not its matter. -/
theorem exec_eq_actIf_wf (c : Instr) : ∃ f : Device → Device, ∀ s, exec c s = s.actIf c.wf f := by
  cases c <;> exact ⟨_, fun _ => rfl⟩

/-- A guarded change whose body leaves the device alone does nothing, whatever the check says. -/
theorem State.actIf_of_unchanged {s : State} {f : Device → Device} (ok : Bool) (h : f s.dev = s.dev) : s.actIf ok f = .next s := by
  cases ok with
  | false => rfl
  | true => rw [State.actIf_true, h]

/-- Every command answers a next state in which the same commands wait. -/
theorem exec_leads (c : Instr) (s : State) : ∃ d, exec c s = .next (s.leads d) := by
  obtain ⟨f, hf⟩ := exec_eq_actIf_wf c
  rw [hf]
  cases c.wf with
  | false => exact ⟨s.dev, rfl⟩
  | true => exact ⟨f s.dev, rfl⟩

/-! ### Steps -/

theorem step_nil (d : Device) : step { dev := d, pending := [] } = .next { dev := d.idle, pending := [] } := rfl

theorem step_cons (d : Device) (c : Instr) (p : List Instr) : step { dev := d, pending := c :: p } = exec c { dev := d, pending := p } := rfl

/-- A step answers a next state and takes exactly the front command off the queue. -/
theorem step_drops_front (s : State) : ∃ t, step s = .next t ∧ t.pending = s.pending.drop 1 := by
  obtain ⟨d, p⟩ := s
  cases p with
  | nil => exact ⟨_, step_nil d, rfl⟩
  | cons c p =>
    obtain ⟨e, he⟩ := exec_leads c { dev := d, pending := p }
    exact ⟨_, (step_cons d c p).trans he, rfl⟩

/-- What waits of a fed queue once some commands have gone is fed. -/
theorem State.fed_of_drop {s t : State} {k : Nat} (h : s.fed) (ht : t.pending = s.pending.drop k) : t.fed := by
  intro c hc
  rw [ht] at hc
  exact h c (List.mem_of_mem_drop hc)

/-- Settles O1: the queue of waiting commands and the order in which it is served are the model's own choice (log 1). -/
theorem stepRunsFront : Obligations.StepRunsFront := fun c s => step_cons s.dev c s.pending

/-- Settles O5, an invariant of every step: the queue, and one command a step, are the model's own choice (log 1). -/
theorem fedStatesStepOn : Obligations.FedStatesStepOn := by
  intro s
  obtain ⟨t, hstep, hdrop⟩ := step_drops_front s
  exact ⟨t, hstep, hdrop, fun hfed => State.fed_of_drop hfed hdrop⟩

/-! ### Runs -/

theorem run_succ_of_step {M : Host.Core} {s t : M.State} (h : M.step s = .next t) (k : Nat) : M.run (k + 1) s = M.run k t := by
  simp only [Host.Core.run, h]

/-- A run that goes on from where another ends is one run. -/
theorem run_add_of_run {M : Host.Core} {k : Nat} {s t : M.State} (h : M.run k s = .next t) (m : Nat) : M.run (k + m) s = M.run m t := by
  induction k generalizing s with
  | zero =>
    cases h
    rw [Nat.zero_add]
  | succ k ih =>
    rw [Nat.add_right_comm]
    cases hs : M.step s with
    | next u =>
      rw [run_succ_of_step hs] at h ⊢
      exact ih h
    | fault r => simp [Host.Core.run, hs] at h
    | refused r => simp [Host.Core.run, hs] at h

/-- A run of k steps answers a next state and takes the first k waiting commands off the queue. -/
theorem run_drops (k : Nat) (s : State) : ∃ t, Sys2Proof.core.run k s = .next t ∧ t.pending = s.pending.drop k := by
  induction k generalizing s with
  | zero => exact ⟨s, rfl, rfl⟩
  | succ k ih =>
    obtain ⟨u, hstep, hu⟩ := step_drops_front s
    obtain ⟨t, hrun, ht⟩ := ih u
    refine ⟨t, (run_succ_of_step (M := Sys2Proof.core) hstep k).trans hrun, ?_⟩
    rw [ht, hu, List.drop_drop, Nat.add_comm 1 k]

/-- Settles O6: by induction on the steps of the run, each of which serves one command of the queue (log 1). -/
theorem runsDrainTheQueue : Obligations.RunsDrainTheQueue := by
  intro k m s
  obtain ⟨t, hrun, hdrop⟩ := run_drops k s
  exact ⟨t, hrun, hdrop, run_add_of_run hrun m⟩

/-! ### Accesses that are blocked -/

theorem reaches_of_asleep {d : Device} {fn : Nat} (r : Reg) (h : d.fnAwake fn = false) : d.reaches fn r = false := by
  simp [Device.reaches, h]

theorem awake_of_fnAwake {d : Device} {fn : Nat} {f : Device → Device} (h : d.fnAwake fn = true) : Device.awake fn f d = f d := if_pos h

theorem awake_of_asleep {d : Device} {fn : Nat} {f : Device → Device} (h : d.fnAwake fn = false) : Device.awake fn f d = d := by
  simp [Device.awake, h]

/-- Every access of its own row to a register goes through the guard of that register (R3). -/
theorem exec_of_accesses {fn : Nat} {r : Reg} {c : Instr} (h : Accesses fn r c) :
    ∃ f : Device → Device, ∀ s, exec c s = s.actIf c.wf (Device.via fn r f) := by
  cases h <;> exact ⟨_, fun _ => rfl⟩

/-- Every other access of a function to the device's memory space goes through the guard of that function (R441). -/
theorem exec_of_fromHost {fn : Nat} {c : Instr} (h : FromHost fn c) :
    (∃ r, Accesses fn r c) ∨ ∃ f : Device → Device, ∀ s, exec c s = s.actIf c.wf (Device.awake fn f) := by
  cases h with
  | register r c h => exact .inl ⟨r, h⟩
  | registerWrite | bar0BadAccess | sqDoorbell | cqDoorbell | doorbellBadWrite => exact .inr ⟨_, fun _ => rfl⟩

/-- An access that does not reach its register changes nothing. -/
theorem exec_of_not_reaches {fn : Nat} {r : Reg} {c : Instr} {s : State} (h : Accesses fn r c) (hr : s.dev.reaches fn r = false) : exec c s = .next s := by
  obtain ⟨f, hf⟩ := exec_of_accesses h
  rw [hf]
  exact State.actIf_of_unchanged c.wf (via_of_not_reaches hr)

/-- An access of a function in D3hot changes nothing. -/
theorem exec_of_asleep {fn : Nat} {c : Instr} {s : State} (h : FromHost fn c) (hd : s.dev.fnAwake fn = false) : exec c s = .next s := by
  obtain ⟨r, hr⟩ | ⟨f, hf⟩ := exec_of_fromHost h
  · exact exec_of_not_reaches hr (reaches_of_asleep r hd)
  · rw [hf]
    exact State.actIf_of_unchanged c.wf (awake_of_asleep hd)

/-- Settles O8, from the two guards that every access of the host passes. -/
theorem d3hotBlocks : Obligations.D3hotBlocks :=
  ⟨fun _ _ _ h _ hd => exec_of_asleep h hd, fun _ _ _ _ h _ hr => exec_of_not_reaches h hr⟩

/-! ### Writes of BAR0 -/

/-- A write of a register by an awake function has its effect on the device, then the service level is looked at and what follows at once is done. -/
theorem exec_registerWrite {s : State} {fn off size value : Nat} (hfn : fn < 64) (hoff : off < 0x4000000) (hv : value < 2 ^ (8 * size)) (hsize : size ≤ 8)
    (ha : s.dev.fnAwake fn = true) : exec (.registerWrite fn off size value) s = .next (s.settles ((registerWrite fn off size value s.dev).watchSvc s.dev)) := by
  have hwf : (Instr.registerWrite fn off size value).wf = true := by simp [Instr.wf, hfn, hoff, hv, hsize]
  calc exec (.registerWrite fn off size value) s
    _ = s.actIf (Instr.registerWrite fn off size value).wf (Device.awake fn (Device.settled (Device.svcWatched (registerWrite fn off size value)))) := rfl
    _ = .next (s.settles ((registerWrite fn off size value s.dev).watchSvc s.dev)) := by
      rw [hwf, State.actIf_true, awake_of_fnAwake ha]
      rfl

/-- A naturally aligned write of 4 or 8 bytes below the MSI-X structures writes the register that stands there (R7, R10). -/
theorem registerWrite_of_regAt {d : Device} {fn off size value i : Nat} {r : Reg} (hoff : off < 0x3800000) (hsize : size = 4 ∨ size = 8) (hal : off % size = 0)
    (hat : regAt (off / 8 * 8) = some (r, i)) (ha : d.fnAwake fn = true) : registerWrite fn off size value d = d.regWrite fn off r i (regAcc off size value) := by
  have hrange : inRange off 0x3800000 0x8100 = false := by
    simp only [inRange, Bool.and_eq_false_iff, decide_eq_false_iff_not]
    exact .inl (by omega)
  have hsz : (size == 4 || size == 8) = true := by simpa using hsize
  simp only [registerWrite, ha, hsz, hal, hrange, hat, Bool.not_true, ne_eq, not_true_eq_false, decide_false, Bool.or_self, Bool.false_eq_true, if_false]

/-- The block of a register that is reached is up, and the part has it. -/
theorem up_of_reaches {d : Device} {fn : Nat} {r : Reg} (h : d.reaches fn r = true) : (d.unserviceable && !r.staysUp) = false ∧ (d.isX && r.radio) = false := by
  simp only [Device.reaches, Bool.and_eq_true, Bool.not_eq_true'] at h
  obtain ⟨⟨-, hup⟩, hradio⟩ := h
  exact ⟨hup, hradio⟩

/-- A function that may write a register of plain fields writes them by their access types. -/
theorem regWrite_of_plain {d : Device} {fn off i : Nat} {r : Reg} {a : RegAcc} (hr : d.reaches fn r = true) (hm : d.mayWrite fn r i = true)
    (hact : regAction fn r i (d.effective r i a) a d = none) :
    d.regWrite fn off r i a = (((d.writeFields fn r i a r.fields).afterWrite d r i a).keepOperands r i (d.effective r i a)).holdLow r i a := by
  obtain ⟨hup, hradio⟩ := up_of_reaches hr
  simp [Device.regWrite, hup, hradio, hm, hact]

/-- A function that may write a register that acts as a whole starts its action. -/
theorem regWrite_of_action {d e : Device} {fn off i : Nat} {r : Reg} {a : RegAcc} (hr : d.reaches fn r = true) (hm : d.mayWrite fn r i = true)
    (hact : regAction fn r i (d.effective r i a) a d = some e) : d.regWrite fn off r i a = (e.keepOperands r i (d.effective r i a)).holdLow r i a := by
  obtain ⟨hup, hradio⟩ := up_of_reaches hr
  simp [Device.regWrite, hup, hradio, hm, hact]

/-- A write that the function may not make, and that covers no transactional field, is recorded as a host access error. -/
theorem regWrite_of_denied {d : Device} {fn off i : Nat} {r : Reg} {a : RegAcc} (hr : d.reaches fn r = true) (hm : d.mayWrite fn r i = false)
    (hrwt : (r.fields.filter fun f => f.acc == .RWT && f.covered a) = []) : d.regWrite fn off r i a = d.hostErr off 0 := by
  obtain ⟨hup, hradio⟩ := up_of_reaches hr
  simp only [Device.regWrite, hup, hradio, hm, hrwt, List.isEmpty_nil, Bool.true_or, Bool.not_false, Bool.false_eq_true, if_true, if_false]

/-- A naturally aligned write of a register that it reaches has the effect of that register's write. -/
theorem exec_registerWrite_of_regAt {s : State} {fn off size value i : Nat} {r : Reg} (hfn : fn < 64) (hoff : off < 0x3800000) (hsize : size = 4 ∨ size = 8)
    (hal : off % size = 0) (hv : value < 2 ^ (8 * size)) (hat : regAt (off / 8 * 8) = some (r, i)) (hr : s.dev.reaches fn r = true) :
    exec (.registerWrite fn off size value) s = .next (s.settles ((s.dev.regWrite fn off r i (regAcc off size value)).watchSvc s.dev)) := by
  have ha := fnAwake_of_reaches hr
  rw [exec_registerWrite hfn (by omega) hv (by omega) ha, registerWrite_of_regAt hoff hsize hal hat ha]

/-! ### Bad accesses of BAR0 -/

/-- A bad access of an awake function: a write does nothing, a read answers all ones, and either is a host access error (R11). -/
theorem exec_bar0BadAccess {s : State} {fn : Nat} {a : BadAccess} (hwf : (Instr.bar0BadAccess fn a).wf = true) (ha : s.dev.fnAwake fn = true) :
    exec (.bar0BadAccess fn a) s =
      .next (s.leads ((if a.write then s.dev else { s.dev with sent := .readAnswer fn a.off a.size (2 ^ (8 * a.size) - 1) :: s.dev.sent }).hostErr a.off 0)) :=
  calc exec (.bar0BadAccess fn a) s
    _ = s.actIf (Instr.bar0BadAccess fn a).wf (Device.awake fn (bar0BadAccess fn a.off a.size a.write)) := rfl
    _ = .next (s.leads (bar0BadAccess fn a.off a.size a.write s.dev)) := by
      rw [hwf, State.actIf_true, awake_of_fnAwake ha]
      rfl
    _ = _ := by simp only [bar0BadAccess, ha, Bool.not_true, Bool.false_eq_true, if_false]

theorem wf_bar0BadAccess {fn : Nat} {a : BadAccess} (hfn : fn < 64) (hoff : a.off < 0x4000000) (h1 : 1 ≤ a.size) (h64 : a.size ≤ 64)
    (hbad : a.size ∉ [4, 8] ∨ a.off % a.size ≠ 0) : (Instr.bar0BadAccess fn a).wf = true := by
  simp only [Instr.wf, hfn, hoff, h1, h64, decide_eq_true hbad, decide_true, Bool.and_self]

/-! ### Evaluation of the service level -/

theorem exec_serviceEvaluation (s : State) : exec .serviceEvaluation s = .next (s.settles ((serviceEvaluation s.dev).watchSvc s.dev)) := rfl

/-- On an unserviceable device an evaluation publishes what works, and no more. -/
theorem serviceEvaluation_of_unserviceable {d : Device} (h : d.unserviceable = true) : serviceEvaluation d = d.showSvc := if_pos h

/-- The first evaluation sets the level; a level of service denies only what no longer fits. -/
theorem serviceEvaluation_first {d : Device} (hu : d.unserviceable = false) (hfirst : d.on GEN_SVC.eval_done 0 = false) (hlevel : d.svcLevel.1 ≠ 0) :
    serviceEvaluation d = ((d.showSvc.wr GEN_SVC.svc_level 0 d.svcLevel.1).wr GEN_SVC.eval_done 0 1).denyUnfit := by
  simp [serviceEvaluation, hu, hfirst, hlevel]

/-- A later evaluation that finds another level changes to it. -/
theorem serviceEvaluation_change {d : Device} (hu : d.unserviceable = false) (hlater : d.on GEN_SVC.eval_done 0 = true)
    (hne : d.rd GEN_SVC.svc_level 0 ≠ d.svcLevel.1) :
    serviceEvaluation d = (d.showSvc.changeSvc (d.rd GEN_SVC.svc_level 0) d.svcLevel.1 (d.svcLevel.2.getD unitNone)).denyUnfit := by
  simp [serviceEvaluation, hu, hlater, hne]

/-- Settles O30, clause by clause: a write of plain fields, one that acts as a whole, one that is denied; bad writes and reads; the first evaluation, a
change of level, and an evaluation on an unserviceable device. -/
theorem hostAccess : Obligations.HostAccess := by
  unfold Obligations.HostAccess
  refine ⟨?plain, ?action, ?denied, ?badWrite, ?badRead, ?first, ?change, ?unserviceable⟩
  case plain =>
    rintro s fn off size value i r _ _ hfn hoff hsize hal hv hat hr hm rfl hact rfl
    rw [exec_registerWrite_of_regAt hfn hoff hsize hal hv hat hr, regWrite_of_plain hr hm hact]
  case action =>
    rintro s fn off size value i r _ e hfn hoff hsize hal hv hat hr rfl hm hact
    rw [exec_registerWrite_of_regAt hfn hoff hsize hal hv hat hr, regWrite_of_action hr hm hact]
  case denied =>
    rintro s fn off size value i r _ hfn hoff hsize hal hv hat hr rfl hm hrwt
    rw [exec_registerWrite_of_regAt hfn hoff hsize hal hv hat hr, regWrite_of_denied hr hm hrwt]
  case badWrite =>
    intro s fn off size hfn hoff h1 h64 hbad ha
    exact exec_bar0BadAccess (wf_bar0BadAccess hfn hoff h1 h64 hbad) ha
  case badRead =>
    intro s fn off size hfn hoff h1 h64 hbad ha
    exact exec_bar0BadAccess (wf_bar0BadAccess hfn hoff h1 h64 hbad) ha
  case first =>
    intro s hu hfirst hlevel
    rw [exec_serviceEvaluation, serviceEvaluation_first hu hfirst hlevel]
  case change =>
    rintro s _ _ hu hlater rfl rfl hne
    rw [exec_serviceEvaluation, serviceEvaluation_change hu hlater hne]
  case unserviceable =>
    intro s hu
    rw [exec_serviceEvaluation, serviceEvaluation_of_unserviceable hu]

end Sys2Proof.Machine
end

section
/-! PROOFS. Device overview (chapter 1): a step with nothing waiting, and what every command answers. -/

namespace Sys2Proof.Machine

/-! ### Idle steps -/

theorem step_of_pending_nil {s : State} (h : s.pending = []) : step s = .next (s.leads s.dev.idle) := by
  obtain ⟨d, p⟩ := s
  subst h
  exact step_nil d

theorem idle_of_unpowered {d : Device} (h : d.unpowered = true) : d.idle = d := if_pos h

/-- A cycle in which no leg runs and no subframe boundary is crossed leaves the timer, the fronthaul ports, the routing engines and the waiting loads. -/
theorem idle_of_no_leg {d : Device} (hpow : d.unpowered = false) (hslot : d.tick.slotCount 0 = d.slotCount 0)
    (hleg : ∀ c ∈ d.tick.cores, c.2.leg = none) : d.idle = d.tick.drainPorts.intakeAll.retryLoads ⟨0, []⟩ := by
  have hrunning : (d.tick.cores.filter fun c => c.2.leg.isSome) = [] :=
    List.filter_eq_nil_iff.2 fun c hc => by simp [hleg c hc]
  simp only [Device.idle, hpow, hslot, hrunning, Bool.false_eq_true, if_true, if_false, List.foldl_nil]

/-- Settles O2: that a step with nothing waiting is one ACLK cycle is the model's own choice (log 1). -/
theorem stepIdles : Obligations.StepIdles := by
  unfold Obligations.StepIdles
  refine ⟨?unpowered, ?cycle⟩
  case unpowered =>
    intro s hempty hpow
    rw [step_of_pending_nil hempty, idle_of_unpowered hpow]
    rfl
  case cycle =>
    intro s hempty hpow hslot hleg
    rw [step_of_pending_nil hempty, idle_of_no_leg hpow hslot hleg]

/-! ### What every command answers -/

/-- A command that names what the part does not have changes nothing (log 8). -/
theorem exec_of_not_wf {c : Instr} (h : c.wf = false) (s : State) : exec c s = .next s := by
  obtain ⟨f, hf⟩ := exec_eq_actIf_wf c
  rw [hf, h]
  rfl

/-- The device that a command leaves is the same whatever waits behind it. -/
theorem exec_with_pending (c : Instr) (s : State) :
    ∃ d, ∀ p : List Instr, exec c { s with pending := p } = .next { dev := d, pending := p } := by
  obtain ⟨f, hf⟩ := exec_eq_actIf_wf c
  refine ⟨if c.wf then f s.dev else s.dev, fun p => ?_⟩
  rw [hf]
  cases c.wf <;> rfl

/-- Settles O4: every command is one change of the device, made where its operands are well formed (`exec_eq_actIf_wf`); that an ill-formed one changes
nothing is the model's own choice (log 8). -/
theorem execAnswers : Obligations.ExecAnswers :=
  ⟨exec_leads, fun _ s h => exec_of_not_wf h s, exec_with_pending⟩

end Sys2Proof.Machine
end

section
/-! PROOFS. The tensor core (chapters 2 and 3): what its legs do as they run, its passes, its tile-store banks, and how legs start and end. -/

namespace Sys2Proof.Machine

/-! ### Well-formed commands -/

/-- A well-formed command has its effect on the device. -/
theorem exec_of_wf {c : Instr} {f : Device → Device} (hexec : ∀ s, exec c s = s.actIf c.wf f) (hwf : c.wf = true) (s : State) :
    exec c s = .next (s.leads (f s.dev)) := by
  rw [hexec, hwf]
  rfl

/-- The same of an event, where what follows at once is then done. -/
theorem exec_of_settled {c : Instr} {f : Device → Device} (hexec : ∀ s, exec c s = s.actIf c.wf (Device.settled f)) (hwf : c.wf = true) (s : State) :
    exec c s = .next (s.settles (f s.dev)) := exec_of_wf hexec hwf s

/-! ### Legs that act -/

/-- A sequencer instruction that stops its leg. -/
theorem seqAct_stop {d d' e : Device} {n c st op addr : Nat} {l l' m : Leg} {cyc : Option Nat} {f : Device → Leg → LegRes} (h : d.issues n c l d' l')
    (hc : cyc.getD (max l.count (d.rd COR_TIMING.leg_start n)) = c) (hf : f d' l' = .stop e m st op addr) :
    d.seqAct n cyc f = e.stopLeg n m st op addr := by
  obtain ⟨hacts, hwait, hend, hfence, hstall⟩ := h
  refine legAt_stop hacts hc ?_
  rw [if_neg (by simp [hwait, hend, hfence, hstall])]
  exact hf

/-! ### The tile store as a leg reaches it -/

theorem tsRead_of_owned {d : Device} {n a len : Nat} {l : Leg} {k : List Byte → LegRes} (ho : d.ownsRange n l.ten a len = true)
    (hp : d.poisonIn spTS (tsOff n a) len = none) : d.tsRead n l a len k = k (d.peek devKey spTS (tsOff n a) len) := by
  simp only [Device.tsRead, ho, hp, Bool.not_true, Bool.false_eq_true, if_false]

theorem tsWrite_of_owned {d e : Device} {n a : Nat} {l : Leg} {bs : List Byte} (ho : d.ownsRange n l.ten a bs.length = true)
    (hp : d.poisonWrite spTS (tsOff n a) bs.length = some e) : d.tsWrite n l a bs = .go (e.store spTS (tsOff n a) bs) l := by
  simp only [Device.tsWrite, ho, hp, Bool.not_true, Bool.false_eq_true, if_false]

/-! ### The signal lane -/

/-- A command that is an instruction of the signal lane, where the lane issues: what the instruction answers, and the lane at its next instruction. -/
theorem exec_of_laneAct {c : Instr} {s : State} {n cyc : Nat} {f : Device → Leg → LegRes} {l m k : Leg} {e a : Device}
    (hexec : ∀ s, exec c s = s.actIf c.wf (Device.settled (Device.laneAct n cyc f))) (hwf : c.wf = true) (h : s.dev.laneIssues n cyc l e m)
    (hf : f e m = .go a k) : exec c s = .next (s.settles (a.putLeg n (k.laneOn cyc))) := by
  rw [exec_of_settled hexec hwf, laneAct_go h hf]

/-- Nothing holds up the lane of a leg that issues. -/
theorem lane_free_of_laneIssues {d e : Device} {n c : Nat} {l m : Leg} (h : d.laneIssues n c l e m) :
    (m.laneWait.isSome || !m.lane.running || decide (c < m.lane.next) || (e.isFenced n 6 && !m.lane.cache.contains m.lane.pc)) = false := by
  obtain ⟨-, hwait, hrun, hnext, hfetch⟩ := h
  rw [hwait, hrun, hfetch, decide_eq_false (Nat.not_lt.2 hnext)]
  rfl

/-- A load from X or Y through an open bus (R44). -/
theorem laneLoad_of_bus {d : Device} {n cyc bus v addr : Nat} {l : Leg} (hb : bus < 2) (hfence : d.isFenced n (8 + bus) = false)
    (ho : d.ownsRange n l.ten addr 128 = true) (hp : d.poisonIn spTS (tsOff n addr) 128 = none) :
    laneLoad n cyc bus v addr none d l = .go d { l with lane := l.lane.write cyc 3 v (d.peek devKey spTS (tsOff n addr) 128) } := by
  rw [laneLoad, if_neg (Nat.ne_of_lt hb), if_neg (by simp [hfence]), tsRead_of_owned ho hp]

/-- A load from Z that sets up its generator reads where the generator stands and advances it (R44). -/
theorem laneLoad_of_generator {d : Device} {n cyc v addr : Nat} {g : ZGen} {l : Leg} {z : Lane} (hfence : d.isFenced n 10 = false)
    (ho : d.ownsRange n l.ten (g.base + g.pos) 128 = true) (hp : d.poisonIn spTS (tsOff n (g.base + g.pos)) 128 = none)
    (hz : z = { l.lane with z := { g with pos := (g.pos + g.stride) % 2 ^ g.lenLog } }) :
    laneLoad n cyc 2 v addr (some g) d l = .go d { l with lane := z.write cyc 3 v (d.peek devKey spTS (tsOff n (g.base + g.pos)) 128) } := by
  subst hz
  rw [laneLoad, if_pos rfl, if_neg (by simp [hfence])]
  exact tsRead_of_owned ho hp

/-- A store through W whose vector and exponent record lie in the leg's granules: both wait for cycle +2 (R45, Table 2-6). -/
theorem laneStore_of_owned {d : Device} {n cyc addr recAddr : Nat} {srcs : List Nat} {ty : WTy} {dst : WDst} {scaled : Bool} {l : Leg} {r : Res WOut}
    (hr : r = wStore ty dst (if scaled then l.lane.sh else 0) l.lane.exp (srcs.flatMap (l.lane.read cyc)))
    (ho : d.ownsRange n l.ten addr r.val.data.length = true) (hrec : ∀ x, r.val.rec_ = some x → d.ownsRange n l.ten recAddr 1 = true)
    (hfence : d.isFenced n 7 = false) :
    laneStore n cyc srcs ty dst scaled addr recAddr d l = goFl d n { l with lane := { l.lane with
      be := r.val.be, bem := max l.lane.bem r.val.be, stores := l.lane.stores ++ ⟨cyc + 2, addr, r.val.data⟩ ::
        r.val.rec_.toList.map fun x => ⟨cyc + 2, recAddr, [BitVec.ofNat 8 x]⟩ } } r.fl := by
  have hrecord : (!(r.val.rec_.toList.map fun x => [BitVec.ofNat 8 x]).isEmpty && !d.ownsRange n l.ten recAddr 1) = false := by
    cases hx : r.val.rec_ with
    | none => rfl
    | some x => rw [hrec x hx]; rfl
  subst hr
  simp only [laneStore, ho, hrecord, hfence, Bool.not_true, Bool.false_eq_true, if_false, List.map_map]
  rfl

/-- A REPEAT outside every other goes on at its body with an empty cache (R47). -/
theorem repeatAct_of_outer {d : Device} {l : Leg} {cyc body len count : Nat} (h : l.lane.reps = []) :
    repeatAct cyc body len count d l = .go d { l with lane := { l.lane with
      reps := [⟨body, len, count, if body = l.lane.pc + 8 then body + 8 * len else l.lane.pc + 8⟩], pc := body, cache := [], next := cyc + 1 } } := by
  simp [repeatAct, h]

theorem repeatOp_of_outer {d e : Device} {n cyc body len count : Nat} {l m : Leg} (h : d.laneIssues n cyc l e m) (hreps : m.lane.reps = []) :
    repeatOp n cyc body len count d = e.putLeg n { m with lane := { m.lane with
      reps := [⟨body, len, count, if body = m.lane.pc + 8 then body + 8 * len else m.lane.pc + 8⟩], pc := body, cache := [], next := cyc + 1 } } := by
  refine legAt_go h.1 rfl ?_
  rw [lane_free_of_laneIssues h, if_neg Bool.false_ne_true, repeatAct_of_outer hreps]

/-- A parity error of the repeat cache that empties no bucket of its core delays the lane and no more (R49, R366). -/
theorem repeatCacheParityError_of_cached {d a : Device} {n next : Nat} {l : Leg} {r : Rep} (hleg : (d.core n).leg = some l)
    (hrep : l.lane.reps.getLast? = some r) (hcache : l.lane.cache.contains l.lane.pc = true)
    (hnext : next = max l.count l.lane.next + 2 + ((r.body + 8 * r.len + 127) / 128 - r.body / 128))
    (ha : a = (d.putLeg n { l with perturbed := true, lane := { l.lane with next := next } }).wr COR_TIMING.perturbed n 1)
    (hbucket : (a.correctable (a.coreUnit n) 4 0).2 = false) : repeatCacheParityError n d = (a.correctable (a.coreUnit n) 4 0).1 := by
  subst hnext ha
  simp only [repeatCacheParityError, hleg, hrep, hcache, Bool.not_true, Bool.false_eq_true, if_false]
  exact if_neg (by rw [← Device.putLeg, hbucket]; exact Bool.false_ne_true)

/-- Settles O26, instruction by instruction of a lane that issues. That issue after a REPEAT goes on after its body where that follows the REPEAT itself is the
model's own choice (log 141), as is the width of EXP (log 32) and which of two late results of one register is read (log 136). -/
theorem laneCommands : Obligations.LaneCommands := by
  unfold Obligations.LaneCommands
  refine ⟨?arith, ?load, ?loadZ, ?store, ?repeat_, ?parity, ?shset, ?expset, ?beclr⟩
  case arith =>
    rintro s n cyc op l m e _ hn hop h rfl
    exact exec_of_laneAct (fun _ => rfl) (by simp [Instr.wf, hn, hop]) h rfl
  case load =>
    intro s n cyc bus v addr l m e hn hv hb h hfence ho hp
    exact exec_of_laneAct (fun _ => rfl) (by simp [Instr.wf, hn, hv, Nat.lt_succ_of_lt hb]) h (laneLoad_of_bus hb hfence ho hp)
  case loadZ =>
    intro s n cyc v addr g l m e z hn hv hg h hfence ho hp hz
    exact exec_of_laneAct (fun _ => rfl) (by simp [Instr.wf, hn, hv, hg]) h (laneLoad_of_generator hfence ho hp hz)
  case store =>
    intro s n cyc srcs ty dst scaled addr recAddr l m e r hn hsrcs hpair hdst h hr ho hrec hfence
    exact exec_of_laneAct (fun _ => rfl) (by simpa [Instr.wf, hn, hpair, hdst] using hsrcs) h (laneStore_of_owned hr ho hrec hfence)
  case repeat_ =>
    intro s n cyc body len count l m e hn hlen hlen' hcount hcount' h hreps
    rw [exec_of_settled (fun _ => rfl) (by simp [Instr.wf, hn, hlen, hlen', hcount, hcount']), repeatOp_of_outer h hreps]
  case parity =>
    intro s n next l r a hn hleg hrep hcache hnext ha hbucket
    rw [exec_of_settled (fun _ => rfl) (by simp [Instr.wf, hn]), repeatCacheParityError_of_cached hleg hrep hcache hnext ha hbucket]
  case shset =>
    intro s n cyc t lo hi l m e hn h
    exact exec_of_laneAct (fun _ => rfl) (by simp [Instr.wf, hn]) h rfl
  case expset =>
    intro s n cyc sreg value l m e hn hsreg hvalue h
    exact exec_of_laneAct (fun _ => rfl) (by simp only [Instr.wf, hn, hsreg, hvalue, decide_true, Bool.and_self]) h rfl
  case beclr =>
    intro s n cyc l m e hn h
    exact exec_of_laneAct (fun _ => rfl) (by simp [Instr.wf, hn]) h rfl

/-! ### Division -/

/-- Settles O27, instruction by instruction of a lane that issues. That DIVQ15 and DIVRND have the latency of a division step is the model's own choice (log 137). -/
theorem divisionCommands : Obligations.DivisionCommands := by
  unfold Obligations.DivisionCommands
  refine ⟨?setup, ?setupF, ?step, ?q15, ?rnd⟩
  case setup =>
    intro s n cyc a b l m e hn ha hb h
    exact exec_of_laneAct (fun _ => rfl) (by simp [Instr.wf, hn, ha, hb]) h rfl
  case setupF =>
    intro s n cyc a b l m e hn ha hb h
    exact exec_of_laneAct (fun _ => rfl) (by simp [Instr.wf, hn, ha, hb]) h rfl
  case step =>
    intro s n cyc l m e hn h
    exact exec_of_laneAct (fun _ => rfl) (by simp [Instr.wf, hn]) h rfl
  case q15 =>
    rintro s n cyc v l m e _ hn hv h rfl
    exact exec_of_laneAct (fun _ => rfl) (by simp [Instr.wf, hn, hv]) h rfl
  case rnd =>
    rintro s n cyc v l m e _ hn hv h rfl
    exact exec_of_laneAct (fun _ => rfl) (by simp [Instr.wf, hn, hv]) h rfl

/-! ### Passes -/

/-- Every part of a descriptor whose forms fit joins its cube's queue, numbered in ascending cube number (R33, R380). -/
theorem issueOp_of_room {q : Nat} {parts ps : List PassDesc} {d : Device} {l : Leg} (hroom : l.cmdqLen q < 32)
    (hforms : ∀ p ∈ parts, formTrap parts p (d.formOf l p.form) = false)
    (hps : ps = (List.range 4).filterMap fun i => parts.find? fun p => p.cube == 4 * q + i) :
    issueOp q parts d l = .go d { ps.zipIdx.foldl (fun (k : Leg) p =>
      k.setCube p.1.cube { k.cube p.1.cube with queue := (k.cube p.1.cube).queue ++ [{ desc := p.1, num := l.passes + p.2, cube := p.1.cube }] }) l
        with passes := l.passes + ps.length } := by
  have htrap : (parts.any fun p => formTrap parts p (d.formOf l p.form)) = false := by simpa using hforms
  subst hps
  rw [issueOp, if_neg (Nat.not_le.2 hroom), if_neg (by rw [htrap]; exact Bool.false_ne_true)]

/-- A descriptor with a part whose form does not fit traps (R99). -/
theorem issueOp_of_trap {q : Nat} {parts : List PassDesc} {p : PassDesc} {d : Device} {l : Leg} (hroom : l.cmdqLen q < 32) (hp : p ∈ parts)
    (htrap : formTrap parts p (d.formOf l p.form) = true) : issueOp q parts d l = .stop d l stDenied 0x1A 0x09 := by
  rw [issueOp, if_neg (Nat.not_le.2 hroom), if_pos (List.any_eq_true.2 ⟨p, hp, htrap⟩)]

/-- A pass may pop when it is under way, or its bank is free (R33). -/
theorem bank_ready {c : Cube} {p : Pass} {k : Nat} (h : p.done ≠ 0 ∨ (if k = 0 then c.full0 else c.full1) = none) :
    (decide (p.done = 0) && if k = 0 then c.full0.isSome else c.full1.isSome) = false := by
  rcases h with h | h
  · rw [decide_eq_false h, Bool.false_and]
  · rw [← apply_ite Option.isSome, h, Option.isSome_none, Bool.and_false]

section Pop

variable {d : Device} {n u cyc k : Nat} {l : Leg} {c : Cube} {p p2 : Pass} {ps : List Pass} {a b : List Feed} {as bs : List (List Feed)} {r : Res (List Accu)}
  (hc : c = l.cube u) (hfree : c.free ≤ cyc) (hq : c.queue = p :: ps) (ha : c.aq = a :: as) (hb : c.bq = b :: bs)
  (hk : k = if p.done = 0 then c.nextBank else p.bank) (hbank : p.done ≠ 0 ∨ (if k = 0 then c.full0 else c.full1) = none)
  (hr : r = kStepTile p.desc.fmt (p.done = 0) (if k = 0 then c.bank0 else c.bank1) a b)
  (hp2 : p2 = { p with done := p.done + 1, bank := k, pops := p.pops ++ [(a, b)] })

include hc hfree hq ha hb hk hbank hr hp2

/-- A pop that leaves K-steps of its pass accumulates one, and the pass stays at the front (R35). -/
theorem feederPop_of_more (hmore : p.done + 1 < p.desc.n) : feederPop d n l u cyc = goFl d n (l.setCube u { c with
      aq := as, bq := bs, queue := p2 :: ps, bank0 := if k = 0 then r.val else c.bank0, bank1 := if k = 0 then c.bank1 else r.val,
      nextBank := if p.done = 0 then 1 - k else c.nextBank, free := cyc + 1 }) r.fl := by
  subst hp2 hr
  simp only [feederPop, ← hc, if_neg (Nat.not_lt.2 hfree), hq, ha, hb, ← hk, bank_ready hbank]
  simp [Nat.not_le.2 hmore]

/-- The last pop of a pass leaves its bank to the epilogue, and its cube pops nothing for the rest of the pass's four cycles (R33, R34). -/
theorem feederPop_of_last (hlast : p.desc.n ≤ p.done + 1) : feederPop d n l u cyc = goFl d n (l.setCube u { c with
      aq := as, bq := bs, queue := ps, bank0 := if k = 0 then r.val else c.bank0, bank1 := if k = 0 then c.bank1 else r.val,
      full0 := if k = 0 then some p2 else c.full0, full1 := if k = 0 then c.full1 else some p2,
      nextBank := if p.done = 0 then 1 - k else c.nextBank, free := cyc + 1 + (4 - p.desc.n) }) r.fl := by
  subst hp2 hr
  simp only [feederPop, ← hc, if_neg (Nat.not_lt.2 hfree), hq, ha, hb, ← hk, bank_ready hbank]
  simp [hlast]

end Pop

/-- The leg once a row has landed in the queues of cube u, and in those of its mate where that shares the fill (R37). -/
def Leg.landRow (l : Leg) (u : Nat) (isB : Bool) (p : Pass) (k : Nat) (row : List Feed) : Leg :=
  let w := { l.setCube u ((l.cube u).push isB row) with lostFills := l.lostFills.filter fun x => x != u }
  let v := sharePartner isB u
  if (if isB then p.desc.shareB else p.desc.shareA) && (l.cube v).shares isB p k then w.setCube v ((w.cube v).push isB row) else w

/-- A fill of a readable line lands its row, once the scale bytes that the format has for it are read (R36). -/
theorem feederFill_of_wants {d : Device} {n u k : Nat} {l : Leg} {isB : Bool} {p : Pass} {line : List Byte} (hw : (l.cube u).wants isB = some (p, k))
    (ho : d.ownsRange n l.ten ((if isB then p.desc.b else p.desc.a) + 128 * k) 128 = true)
    (hp : d.poisonIn spTS (tsOff n ((if isB then p.desc.b else p.desc.a) + 128 * k)) 128 = none)
    (hline : line = d.peek devKey spTS (tsOff n ((if isB then p.desc.b else p.desc.a) + 128 * k)) 128) :
    feederFill d n l u isB = if p.desc.fmt.scaleBytes = 0 then .go d (l.landRow u isB p k (feedRow p.desc.fmt line []))
      else d.tsRead n l ((if isB then p.desc.bScale else p.desc.aScale) + p.desc.fmt.scaleBytes * k) p.desc.fmt.scaleBytes
        fun scales => .go d (l.landRow u isB p k (feedRow p.desc.fmt line scales)) := by
  subst hline
  simp only [feederFill, hw, tsRead_of_owned ho hp]
  rfl

/-- A granted fill of a cube whose fill port is not fenced. -/
theorem fillRow_go {d e a : Device} {n u : Nat} {isB : Bool} {l m k : Leg} (h : d.acts n 12 (max l.count 12) l e m) (hfence : e.isFenced n (11 + u) = false)
    (hf : feederFill e n m u isB = .go a k) : fillRow n u isB d = a.putLeg n k :=
  legAt_go h rfl (by rw [if_neg (by simp [hfence]), hf])

/-! ### The epilogue -/

theorem cubeSteps_of_no_vectors {d : Device} {n u : Nat} {form : List Byte} {p : Pass} {bank : List Accu} {l : Leg}
    {k : Res (List Nat × List Accu) × Option (List Accu) → LegRes} (hscale : formColscale form = false) (hbias : formBias form = false) :
    cubeSteps n form u p bank d l k =
      k (epi15 form p bank (l.cube u).partialT (fun j => smGet (l.quad (u / 4)).rowScale ((p.desc.rowBase + j) % 256) 0) [] []) := by
  simp only [cubeSteps, hscale, hbias, Bool.false_eq_true, if_false]

/-- A tile without an exponent byte that stays on its core is written to its leg's granules. -/
theorem putTile_of_local {d e : Device} {n : Nat} {form : List Byte} {p : PassDesc} {o : EpiOut} {l : Leg} (htow : formTow form = false) (hexp : o.exp = none)
    (ho : d.ownsRange n l.ten p.dest o.data.length = true) (hp : d.poisonWrite spTS (tsOff n p.dest) o.data.length = some e) :
    putTile n form p o d l = .go (e.store spTS (tsOff n p.dest) o.data) l := by
  simp only [putTile, htow, hexp, tsWrite_of_owned ho hp, Bool.false_and, Bool.false_eq_true, if_false]

theorem queueTaste_of_not_tasted {d : Device} {n : Nat} {l : Leg} {p : Pass} {form : List Byte} {part : Option (List Accu)} {scales : List Nat}
    {out : List Byte} {sums : List Nat} (h : d.tasted n l p.num = false) : d.queueTaste n l p form part scales out sums = d := by
  rw [Device.queueTaste, if_pos (by rw [h]; rfl)]

/-- A tile put in place, with no row statistic, taste or token, leaves only the flags of its steps. -/
theorem finishTile_of_plain {d e : Device} {n u : Nat} {form : List Byte} {p : Pass} {g : Res (List Nat × List Accu)} {part : Option (List Accu)} {l m : Leg}
    {x : Res EpiOut} (hx : x = epi69 p.desc.fmt form g.val none) (hput : putTile n form p.desc x.val d l = .go e m) (hstat : formRowstat form = 0)
    (htaste : e.tasted n m p.num = false) (htok : p.desc.token = none) :
    finishTile n u form p g none [(p, part)] d l = goFl e n m (g.fl ||| x.fl) := by
  subst hx
  simp [finishTile, hput, hstat, queueTaste_of_not_tasted htaste, htok]

/-- The epilogue of a completed bank whose form has no gate and no vectors: steps 1 to 5, then the rest on that cube's tile (R33, R97). -/
theorem epilogueOp_of_ungated {d : Device} {n u : Nat} {l : Leg} {p : Pass} {bank : List Accu} {form : List Byte}
    {r : Res (List Nat × List Accu) × Option (List Accu)} (hready : (l.cube u).ready = some (p, bank)) (hform : d.formOf l p.desc.form = some form)
    (hgate : formGate form = 0) (hscale : formColscale form = false) (hbias : formBias form = false)
    (hr : r = epi15 form p bank (l.cube u).partialT (fun j => smGet (l.quad (u / 4)).rowScale ((p.desc.rowBase + j) % 256) 0) [] []) :
    epilogueOp n u d l = finishTile n u form p r.1 none [(p, (l.cube u).partialT)] d (l.setCube u ((l.cube u).drain p r.2)) := by
  subst hr
  simp only [epilogueOp, hready, hform, hgate, cubeSteps_of_no_vectors hscale hbias, if_true]

theorem epiloguePass_go {d e a : Device} {n u : Nat} {l m k : Leg} (h : d.acts n 24 (max l.count 24) l e m) (hfence : e.isFenced n (2 + u / 4) = false)
    (hf : epilogueOp n u e m = .go a k) : epiloguePass n u d = a.putLeg n k :=
  legAt_go h rfl (by rw [if_neg (by simp [hfence]), hf])

/-! ### Towed tiles -/

/-- A tile that no towline of this device announces, with a good tag, lands in granules of its tenancy and sets its token (R60, R103). -/
theorem towedTileArrival_of_owned {d e : Device} {n addr : Nat} {tag data : List Byte} {tok : Option Nat} (htag : tagOk tag = true)
    (hfence : d.isFenced n 1 = false) (ho : d.ownsRange n (tagTen tag) addr data.length = true)
    (hp : d.poisonWrite spTS (tsOff n addr) data.length = some e)
    (hnone : d.tows.findIdx? (fun w => w.dst == n && w.addr == addr && w.data == data) = none) :
    towedTileArrival n tag addr tok none data d = (e.store spTS (tsOff n addr) data).landTok n tok false := by
  simp [towedTileArrival, htag, hfence, ho, hp, hnone]

/-- One that reaches outside its tenancy's granules is recorded, and does not land (R60). -/
theorem towedTileArrival_of_not_owned {d : Device} {n addr : Nat} {tag data : List Byte} {tok : Option Nat} (htag : tagOk tag = true)
    (hfence : d.isFenced n 1 = false) (ho : d.ownsRange n (tagTen tag) addr data.length = false)
    (hnone : d.tows.findIdx? (fun w => w.dst == n && w.addr == addr && w.data == data) = none) :
    towedTileArrival n tag addr tok none data d = d.log
      { unit := d.coreUnit n, sev := 2, op := 0x09, detail := addr, ten := tagTen tag, cls := tagCls tag, mid := tagMid tag,
        client := tagClient tag, addr := addr, step := tagStep tag } := by
  simp [towedTileArrival, htag, hfence, ho, hnone]

/-- Settles O28, command by command. Where the scale bytes of a line stand is the model's reading (log 19); the epilogue's clause is about a form with no gate,
scale, bias, tow, statistic or token, and the towed tile's about landing token 63. -/
theorem passCommands : Obligations.PassCommands := by
  unfold Obligations.PassCommands
  refine ⟨?issue, ?trap, ?pop, ?lastPop, ?fill, ?fillScaled, ?epilogue, ?tow, ?towOutside⟩
  case issue =>
    intro s n cyc q parts ps l m e hn hq hparts h hroom hforms hps
    rw [exec_of_settled (fun _ => rfl) (by simpa [Instr.wf, hn, hq] using hparts), passDescriptorIssue, seqAct_go h rfl (issueOp_of_room hroom hforms hps)]
  case trap =>
    intro s n cyc q parts p l m e hn hq hparts h hroom hp htrap
    rw [exec_of_settled (fun _ => rfl) (by simpa [Instr.wf, hn, hq] using hparts), passDescriptorIssue, seqAct_stop h rfl (issueOp_of_trap hroom hp htrap)]
  case pop =>
    intro s n cyc u k l m e c p p2 ps a b as bs r hn hu h hc hfree hq ha hb hk hbank hr hp2 hmore
    rw [exec_of_settled (fun _ => rfl) (by simp [Instr.wf, hn, hu]), popRow, legAt_go h rfl (feederPop_of_more hc hfree hq ha hb hk hbank hr hp2 hmore)]
  case lastPop =>
    intro s n cyc u k l m e c p p2 ps a b as bs r hn hu h hc hfree hq ha hb hk hbank hr hp2 hlast
    rw [exec_of_settled (fun _ => rfl) (by simp [Instr.wf, hn, hu]), popRow, legAt_go h rfl (feederPop_of_last hc hfree hq ha hb hk hbank hr hp2 hlast)]
  case fill =>
    rintro s n u k isB l m e _ p line hn hu h hfence rfl hw ho hp hline hscale
    have hf := feederFill_of_wants hw ho hp hline
    rw [if_pos hscale] at hf
    rw [exec_of_settled (fun _ => rfl) (by simp [Instr.wf, hn, hu]), fillRow_go h hfence hf]
    rfl
  case fillScaled =>
    rintro s n u k isB l m e _ p line _ _ hn hu h hfence rfl hw ho hp hline rfl hscale hso hsp rfl
    have hf := feederFill_of_wants hw ho hp hline
    rw [if_neg hscale, tsRead_of_owned hso hsp] at hf
    rw [exec_of_settled (fun _ => rfl) (by simp [Instr.wf, hn, hu]), fillRow_go h hfence hf]
    rfl
  case epilogue =>
    rintro s n u l k _ p bank form r x d e hn hu h hfence hready hform hgate hscale hbias htow hstat hr rfl hx hexp ho hp htaste htok
    have hput := putTile_of_local htow hexp ho hp
    have hf := (epilogueOp_of_ungated hready hform hgate hscale hbias hr).trans (finishTile_of_plain hx hput hstat htaste htok)
    rw [exec_of_settled (fun _ => rfl) (by simp [Instr.wf, hn, hu]), epiloguePass_go h hfence hf]
  case tow =>
    rintro s n addr tag data e _ hn hlen htag hfence ho hp rfl - hnone
    rw [exec_of_settled (fun _ => rfl) (by simp [Instr.wf, hn, hlen]), towedTileArrival_of_owned htag hfence ho hp hnone]
  case towOutside =>
    intro s n addr tag data tok hn hlen htok htag hfence ho hnone
    rw [exec_of_settled (fun _ => rfl) (by simpa [Instr.wf, hn, hlen] using htok), towedTileArrival_of_not_owned htag hfence ho hnone]

/-! ### Bank arbitration -/

/-- Requests that all ask for the bank, none of them the debug port's, compete unless their requesters are fenced (R51, R56). -/
theorem bank_asked_of_in_bank {b : Nat} {reqs : List (Nat × Nat)} {fenced : List Nat} {o : Bool} (h : ∀ r ∈ reqs, r.1 < 29 ∧ r.1 ≠ 0 ∧ tsBank r.2 = b) :
    (((reqs.filter fun r => tsBank r.2 == b).map fun r => r.1).filter fun r => !fenced.contains r && (r != 0 || o)) =
      (reqs.map fun r => r.1).filter fun r => !fenced.contains r := by
  have hbank : (reqs.filter fun r => tsBank r.2 == b) = reqs := List.filter_eq_self.2 fun r hr => beq_iff_eq.2 (h r hr).2.2
  rw [hbank]
  refine List.filter_congr fun r hr => ?_
  obtain ⟨q, hq, rfl⟩ := List.mem_map.1 hr
  simp [(h q hq).2.1]

/-- In Idle and Running a bank that nothing keeps goes to the winner of the order of Table 2-7, for the next cycle, while a leg runs that is not withheld. -/
theorem tileStoreBankGrant_of_winner {d : Device} {n b c w rot : Nat} {reqs : List (Nat × Nat)} {keep : Bool} {k : Bank} {l : Leg} {asked lost : List Nat}
    (hreqs : ∀ r ∈ reqs, r.1 < 29 ∧ r.1 ≠ 0 ∧ tsBank r.2 = b) (hst : d.coreSt n = 3 ∨ d.coreSt n = 4) (hleg : (d.core n).leg = some l)
    (hwithheld : d.withheld n l = false) (hk : k = smGet (d.core n).banks b {}) (hlocked : k.locked = false)
    (hasked : asked = (reqs.map fun r => r.1).filter fun r => !(d.core n).fenced.contains r)
    (hwin : bankWinner asked true (some (c % 8 == b % 8)) k.rot = some w) (hw : w ≠ 0)
    (hrot : rot = if 11 ≤ w ∧ w ≤ 26 then (w - 11 + 1) % 16 else k.rot)
    (hlost : lost = (asked.filter fun r => decide (11 ≤ r) && decide (r ≤ 26) && r != w).map fun r => r - 11) :
    tileStoreBankGrant n b reqs false keep (some c) d = d.setCore n { d.core n with
      banks := smSet (d.core n).banks b {} { holder := some w, locked := keep, grant := some w, rot := rot, period := if k.holder = some w then k.period else none },
      leg := some { l with lostFills := lost ++ l.lostFills.filter fun u => !lost.contains u } } := by
  have hpipe : (d.coreSt n == csIdle || d.coreSt n == csRunning) = true := by simpa [csIdle, csRunning] using hst
  have hother (r : Nat) : (some r != some w) = (r != w) := rfl
  subst hrot hlost
  simp only [tileStoreBankGrant, bank_asked_of_in_bank hreqs, ← hasked, hpipe, hleg, hwithheld, ← hk, hlocked, Option.isSome_some, Bool.and_false,
    Bool.false_eq_true, if_false, if_true, hwin]
  -- whether a requester holds the bank does not matter, as it is not kept
  cases hholder : k.holder <;> simp [hleg, hw, hother, eq_comm (a := w)]

section Watchdog

variable {d a c : Device} {n b r : Nat} {k : Bank} (hk : k = smGet (d.core n).banks b {}) (hholder : k.holder = some r)
  (ha : a = ((d.log { unit := d.reqUnit n r, sev := 4, op := 0x08, detail := d.reqUnit n r }).incSat COR_BANKSTAT.wdt_fires n 1).wr COR_BANKSTAT.last_wdt_bank n b)
  (hc : c = (a.setCore n { a.core n with
    banks := smSet (a.core n).banks b {} { k with holder := none, locked := false, grant := none, period := none },
    fenced := r :: (a.core n).fenced.filter fun f => f != r }).perturb n)

include hk hholder ha hc

/-- A fence that meets no leg to stop and is not the external port's: the requester is fenced, with its record (R56). -/
theorem bankWatchdogFire_of_no_leg (hr : r ≠ 1) (hleg : r = 0 ∨ (c.core n).leg = none) : bankWatchdogFire n b d = c := by
  subst ha
  simp only [bankWatchdogFire, ← hk, hholder, ← hc, if_neg hr]
  split
  · rfl
  · next h =>
    obtain rfl : r = 0 := hleg.resolve_right (by simp [h])
    rfl

/-- A fence of the external port halts the channels that move data through it, and no leg (R56, Table 9-7). -/
theorem bankWatchdogFire_of_external (hr : r = 1) : bankWatchdogFire n b d =
    (c.mm.chans.filter fun x => x.2.touches c.devId n).foldl (fun e x => e.haltChan x.1 (eccDetail d.nextRec (d.reqUnit n r) 0xFFFF)) c := by
  subst ha hr
  simp only [bankWatchdogFire, ← hk, hholder, ← hc, if_true]
  split <;> rfl

/-- A fence of a requester of the leg stops it (R56). -/
theorem bankWatchdogFire_of_leg {l : Leg} (hr : 2 ≤ r) (hleg : (c.core n).leg = some l) (hl : l.internal = 0) : bankWatchdogFire n b d =
    ((c.closeLeg n l (l.count + 1) 3).failRun l.sn stEcc (eccDetail d.nextRec (d.reqUnit n r) l.idx)).legOver l := by
  have hin : inLegReq r = true := decide_eq_true hr
  subst ha
  simp only [bankWatchdogFire, ← hk, hholder, ← hc, if_neg (Nat.ne_of_gt hr), hleg, hin, hl, Bool.not_true, Bool.false_eq_true, if_false, if_true]
  rfl

end Watchdog

/-! ### The debug window -/

/-- A write through the open window takes the bank and reaches the tile store (R57, R263). -/
theorem debugAccess_of_write {d e : Device} {off len : Nat} {bs : List Byte} (hawake : d.fnAwake 0 = true) (hopen : d.debugOpen = true) (hoff : off < 0x18000000)
    (hp : (d.perturb (off / 2097152)).poisonWrite spTS off bs.length = some e) : debugAccess off len (some bs) d = e.store spTS off bs := by
  simp only [debugAccess, hawake, hopen, decide_eq_false (Nat.not_le.2 hoff), hp, Bool.not_true, Bool.or_self, Bool.false_eq_true, if_false]

/-- A read through the open window takes the bank and answers what the tile store holds. -/
theorem debugAccess_of_read {d : Device} {off len : Nat} (hawake : d.fnAwake 0 = true) (hopen : d.debugOpen = true) (hoff : off < 0x18000000)
    (hp : (d.perturb (off / 2097152)).poisonIn spTS off len = none) :
    debugAccess off len none d = (d.perturb (off / 2097152)).debugAnswers off ((d.perturb (off / 2097152)).peek devKey spTS off len) := by
  simp only [debugAccess, hawake, hopen, decide_eq_false (Nat.not_le.2 hoff), hp, Bool.not_true, Bool.or_self, Option.isSome_none, Bool.false_eq_true, if_false]

/-- A read through the locked window answers all ones (R445). -/
theorem debugAccess_of_locked {d : Device} {off len : Nat} (hawake : d.fnAwake 0 = true) (hlocked : d.debugOpen = false) :
    debugAccess off len none d = d.debugAnswers off (List.replicate len 0xFF) := by
  simp only [debugAccess, hawake, hlocked, Bool.not_true, Bool.not_false, Bool.true_or, Option.isSome_none, Bool.false_eq_true, if_false, if_true]

/-! ### Duty frames -/

theorem core_setCore_ne (d : Device) {n j : Nat} (h : j ≠ n) (c : Core) : (d.setCore n c).core j = d.core j := smGet_smSet_ne d.cores h _ _ _

@[simp] theorem acctWithheld_cores (d : Device) (t client n : Nat) : (d.acctWithheld t client n).cores = d.cores := by
  unfold Device.acctWithheld
  split
  · exact pokeN_cores _ _ _ _ _
  · rfl

@[simp] theorem core_acctWithheld (d : Device) (t client n j : Nat) : (d.acctWithheld t client n).core j = d.core j := by
  rw [Device.core, acctWithheld_cores, Device.core]

/-- A fold whose function leaves its value alone at every member. -/
theorem foldl_of_fixed {α β : Type} {f : β → α → β} {xs : List α} {b : β} (h : ∀ x ∈ xs, f b x = b) : xs.foldl f b = b := by
  induction xs with
  | nil => rfl
  | cons x xs ih =>
    obtain ⟨hx, hxs⟩ := List.forall_mem_cons.1 h
    rw [List.foldl_cons, hx, ih hxs]

/-- A fold in which one member alone acts is what that member does. -/
theorem foldl_of_only {α β : Type} {f : β → α → β} {xs : List α} {x : α} {b : β} (hx : x ∈ xs) (hnodup : xs.Nodup)
    (hbefore : ∀ y ∈ xs, y ≠ x → f b y = b) (hafter : ∀ y ∈ xs, y ≠ x → f (f b x) y = f b x) : xs.foldl f b = f b x := by
  obtain ⟨as, bs, rfl⟩ := List.append_of_mem hx
  obtain ⟨-, hbs, hdisj⟩ := List.nodup_append.1 hnodup
  have has : as.foldl f b = b := foldl_of_fixed fun y hy => hbefore y (by simp [hy]) fun h => hdisj y hy x (by simp) h
  rw [List.foldl_append, List.foldl_cons, has]
  exact foldl_of_fixed fun y hy => hafter y (by simp [hy]) fun h => (List.nodup_cons.1 hbs).1 (h ▸ hy)

/-- What a duty frame does to the core n of its die. -/
def dutyAt (die : Nat) (exempt : Bool) (d : Device) (n : Nat) : Device :=
  let x := d.core n
  let duty (cls : Nat) : Nat := if cls = 1 && exempt then 0 else d.duty die cls
  match x.leg with
  | some l =>
    let k := d.withholdable n l (duty l.cls)
    if k = 0 then d
    else
      let e := d.setCore n { x with leg := some { l with withheld := l.withheld + k } }
      if l.internal = 0 then e.acctWithheld l.ten l.client k else e
  | none =>
    match x.mail with
    | m :: ms =>
      if d.coreSt n = csIdle && x.newPart.isNone && m.start.isNone && decide (m.hold ≤ d.cycle) && duty (tagCls (dsTag m.desc)) ≠ 0 &&
        d.gapOk n d.cycle (lgBound m.desc) then d.setCore n { x with mail := { m with withheld := true } :: ms }
      else d
    | [] => d

theorem dutyFrame_eq_foldl (die : Nat) (d : Device) : dutyFrame die d = ((List.range 48).map (48 * die + ·)).foldl (dutyAt die (d.spareExempt die)) d := rfl

theorem dutyAt_of_vacant {die n : Nat} {exempt : Bool} {d : Device} (hleg : (d.core n).leg = none) (hmail : (d.core n).mail = []) :
    dutyAt die exempt d n = d := by
  simp only [dutyAt, hleg, hmail]

/-- Cycles are withheld from a leg, and counted for its client (R167, R176). -/
theorem dutyAt_of_leg {die n k : Nat} {exempt : Bool} {d : Device} {l : Leg} (hleg : (d.core n).leg = some l) (hint : l.internal = 0)
    (hk : k = d.withholdable n l (if l.cls = 1 ∧ exempt = true then 0 else d.duty die l.cls)) (hk0 : k ≠ 0) :
    dutyAt die exempt d n = (d.putLeg n { l with withheld := l.withheld + k }).acctWithheld l.ten l.client k := by
  have hk' : d.withholdable n l (if (decide (l.cls = 1) && exempt) = true then 0 else d.duty die l.cls) = k := by simpa using hk.symm
  simp only [dutyAt, hleg, hk', hk0, hint, if_true, if_false]
  rfl

/-- The start of a head that could start is withheld. -/
theorem dutyAt_of_head {die n : Nat} {exempt : Bool} {d : Device} {m : Mail} {ms : List Mail} (hleg : (d.core n).leg = none)
    (hmail : (d.core n).mail = m :: ms) (hst : d.coreSt n = 3) (hpart : (d.core n).newPart = none) (hstart : m.start = none) (hhold : m.hold ≤ (d.cycle : Int))
    (hclass : tagCls (dsTag m.desc) ≠ 1 ∨ exempt = false) (hduty : d.duty die (tagCls (dsTag m.desc)) ≠ 0)
    (hgap : d.gapOk n d.cycle (lgBound m.desc) = true) :
    dutyAt die exempt d n = d.setCore n { d.core n with mail := { m with withheld := true } :: ms } := by
  have hclass' : (decide (tagCls (dsTag m.desc) = 1) && exempt) = false := by rcases hclass with h | h <;> simp [h]
  simp only [dutyAt, hleg, hmail]
  exact if_pos (by simp [hst, csIdle, hpart, hstart, hhold, hclass', hduty, hgap])

/-- A frame of a die on which one core alone has a leg or a descriptor is what it does to that core. -/
theorem dutyFrame_of_only {die n : Nat} {d : Device} (hn : n / 48 = die) (hothers : ∀ j, j / 48 = die → j ≠ n → (d.core j).leg = none ∧ (d.core j).mail = [])
    (hkept : ∀ j, j ≠ n → (dutyAt die (d.spareExempt die) d n).core j = d.core j) : dutyFrame die d = dutyAt die (d.spareExempt die) d n := by
  have hdie (j : Nat) (hj : j ∈ (List.range 48).map (48 * die + ·)) : j / 48 = die := by
    obtain ⟨i, hi, rfl⟩ := List.mem_map.1 hj
    have := List.mem_range.1 hi
    omega
  have hcore : n ∈ (List.range 48).map (48 * die + ·) := List.mem_map.2 ⟨n % 48, List.mem_range.2 (Nat.mod_lt n (by decide)), by omega⟩
  have hnodup : ((List.range 48).map (48 * die + ·)).Nodup := List.Pairwise.map _ (fun i j (h : i ≠ j) => by omega) List.nodup_range
  rw [dutyFrame_eq_foldl]
  refine foldl_of_only hcore hnodup
    (fun j hj hjn => ?before) (fun j hj hjn => ?after) <;> obtain ⟨hleg, hmail⟩ := hothers j (hdie j hj) hjn
  case before => exact dutyAt_of_vacant hleg hmail
  case after => exact dutyAt_of_vacant (by rw [hkept j hjn, hleg]) (by rw [hkept j hjn, hmail])

/-- Settles O29, command by command. That the towline and move ports come last in a bank's order (log 25), that a fence completes the command of the leg it stops with
ECC_UNCORR and names its record (log 143), and that the stopped leg counts as ended in that cycle (log 139), are the model's own choices. -/
theorem bankCommands : Obligations.BankCommands := by
  unfold Obligations.BankCommands
  refine ⟨?grant, ?watchdog, ?watchdogLeg, ?watchdogExternal, ?debugWrite, ?debugRead, ?debugLocked, ?dutyLeg, ?dutyHead⟩
  case grant =>
    intro s n b reqs keep c w rot k l asked lost hn hb hreqs hst hleg hwithheld hk hlocked hasked hwin hw hrot hlost
    have hwf : (Instr.tileStoreBankGrant n b reqs false keep (some c)).wf = true := by simpa [Instr.wf, hn, hb] using fun r x hr => (hreqs (r, x) hr).1
    rw [exec_of_wf (fun _ => rfl) hwf, tileStoreBankGrant_of_winner hreqs hst hleg hwithheld hk hlocked hasked hwin hw hrot hlost]
  case watchdog =>
    intro s n b r k a c hn hb hk hholder hr ha hc hleg
    rw [exec_of_settled (fun _ => rfl) (by simp [Instr.wf, hn, hb]), bankWatchdogFire_of_no_leg hk hholder ha hc hr hleg]
  case watchdogLeg =>
    intro s n b r k a c l hn hb hk hholder hr ha hc hleg hl
    rw [exec_of_settled (fun _ => rfl) (by simp [Instr.wf, hn, hb]), bankWatchdogFire_of_leg hk hholder ha hc hr hleg hl]
  case watchdogExternal =>
    intro s n b r k a c hn hb hk hholder hr ha hc
    rw [exec_of_settled (fun _ => rfl) (by simp [Instr.wf, hn, hb]), bankWatchdogFire_of_external hk hholder ha hc hr]
  case debugWrite =>
    rintro s off bs _ e hlen hawake hopen hoff rfl hp
    have hwf : (Instr.debugAccess off bs.length (some bs)).wf = true := by simpa [Instr.wf, hlen] using Nat.lt_trans hoff (by decide)
    rw [exec_of_settled (fun _ => rfl) hwf, debugAccess_of_write hawake hopen hoff hp]
  case debugRead =>
    rintro s off len _ hlen hawake hopen hoff rfl hp
    have hwf : (Instr.debugAccess off len none).wf = true := by simpa [Instr.wf, hlen] using Nat.lt_trans hoff (by decide)
    rw [exec_of_settled (fun _ => rfl) hwf, debugAccess_of_read hawake hopen hoff hp]
  case debugLocked =>
    intro s off len hlen hawake hlocked hoff
    rw [exec_of_settled (fun _ => rfl) (by simpa [Instr.wf, hlen] using hoff), debugAccess_of_locked hawake hlocked]
  case dutyLeg =>
    rintro s die n k l _ hdie hn48 hn hothers hleg hint hk hk0 rfl
    have hcore := dutyAt_of_leg (die := die) hleg hint hk hk0
    have hkept (j : Nat) (hj : j ≠ n) : (dutyAt die (s.dev.spareExempt die) s.dev n).core j = s.dev.core j := by
      rw [hcore, core_acctWithheld, Device.putLeg, core_setCore_ne _ hj]
    rw [exec_of_wf (fun _ => rfl) (by simp [Instr.wf, hdie]), dutyFrame_of_only hn hothers hkept, hcore]
  case dutyHead =>
    intro s die n m ms hdie hn48 hn hothers hleg hmail hst hpart hstart hhold hclass hduty hgap
    have hcore := dutyAt_of_head hleg hmail hst hpart hstart hhold hclass hduty hgap
    have hkept (j : Nat) (hj : j ≠ n) : (dutyAt die (s.dev.spareExempt die) s.dev n).core j = s.dev.core j := by
      rw [hcore, core_setCore_ne _ hj]
    rw [exec_of_wf (fun _ => rfl) (by simp [Instr.wf, hdie]), dutyFrame_of_only hn hothers hkept, hcore]

/-! ### Legs from start to end -/

/-- A descriptor without a window misses none. -/
theorem missesWindow_of_no_window {d : Device} {n : Nat} {m : Mail} (h : m.start = none) : d.missesWindow n m = false := by
  simp [Device.missesWindow, Device.depsMissed, h]

theorem passBound_of_in_time {d : Device} {n : Nat} {l : Leg} (hover : l.overrun = false) (hint : l.internal = 0) :
    d.passBound n l = ((d.putLeg n { l with overrun := true }).wr COR_SEQ_STAT.overrun n 1).modRun l.sn fun r => { r with late := r.late ++ [l.idx] } := by
  simp only [Device.passBound, hover, hint, ne_eq, not_true_eq_false, Bool.false_eq_true, if_false]
  rfl

theorem legOverrun_of_in_time {d : Device} {n : Nat} {l : Leg} (hleg : (d.core n).leg = some l) (hover : l.overrun = false) (hint : l.internal = 0) :
    legOverrun n d = ((d.putLeg n { l with count := max l.count l.bound, overrun := true }).wr COR_SEQ_STAT.overrun n 1).modRun l.sn
      fun r => { r with late := r.late ++ [l.idx] } := by
  simp only [legOverrun, hleg]
  exact passBound_of_in_time hover hint

/-- A discarded leg that is not Radio rolls its tenancy back with cause 7 (R165). -/
theorem failDiscarded_of_not_radio {d : Device} {l : Leg} (hint : l.internal = 0) (hcls : l.cls ≠ 0) :
    d.failDiscarded l = ({ d with tens := smSet d.tens l.ten {} { smGet d.tens l.ten {} with
      rollback := max (smGet d.tens l.ten {}).rollback 7 } } : Device).failRun l.sn stRolled 7 := by
  simp only [Device.failDiscarded, hint, hcls, ne_eq, not_true_eq_false, if_false]

theorem legDiscard_of_overrun {d : Device} {n : Nat} {l m : Leg} (hleg : (d.core n).leg = some l) (hover : l.overrun = true)
    (hm : m = { l with count := 4 * l.bound }) : legDiscard n d = ((d.dropLeg n m).failDiscarded m).legOver m := by
  subst hm
  simp only [legDiscard, hleg, hover, Bool.not_true, Bool.false_eq_true, if_false]

theorem coreRecoveryDone_of_recovery {d : Device} {n : Nat} (hst : d.coreSt n = 5) (hbring : (d.core n).bringIn = false) :
    coreRecoveryDone n d = (d.setCore n { d.core n with fenced := [], banks := [] }).setCoreSt n 3 :=
  if_pos (by simp [hst, csRecovery, hbring])

theorem tspartAdoption_of_waiting {d a : Device} {n v t old : Nat} (hpart : (d.core n).newPart = some (v, t)) (hleg : (d.core n).leg = none)
    (hold : old = (d.reg .COR_TSPART n).toNat)
    (ha : a = (List.range 16).foldl (fun d g => if ownerIn old g = ownerIn v g then d else d.zero spTS (tsOff n (131072 * g)) 131072) d) :
    tspartAdoption n d = ((a.setCore n { d.core n with newPart := none }).setReg .COR_TSPART n (BitVec.ofNat 64 v)).adopted t n := by
  subst hold ha
  simp only [tspartAdoption, hpart, hleg]

theorem tileStoreUncorrectable_of_running {d : Device} {n addr : Nat} {l : Leg} (hleg : (d.core n).leg = some l) :
    tileStoreUncorrectable n addr d = (d.poisonAt spTS (tsOff n addr)).stopLeg n l stEcc 2 addr :=
  legAct_stop hleg rfl

/-- Settles O24, command by command. That a leg stopped by an error counts as ended in that cycle, and that a discarded one leaves last_leg_cycles alone, is the
model's own choice (log 139). -/
theorem legCommands : Obligations.LegCommands := by
  unfold Obligations.LegCommands
  refine ⟨?start, ?end_, ?overrun, ?discard, ?recovery, ?adoption, ?uncorrectable⟩
  case start =>
    rintro s n m ms l _ _ e hn hmail hst hleg hpart hstart hint hwithheld hhold hcrit hgap hduty hl rfl rfl he hbound hlate howns
    have hcool : (s.dev.pwr.crit.any fun c => c.1 == coreDie n) = false := by simpa using hcrit
    have hheld : decide ((s.dev.cycle : Int) < m.hold) = false := decide_eq_false (Int.not_lt.2 hhold)
    have hlegal : (decide (262144 < l.bound) || decide (l.bound ≤ e.rd COR_TIMING.leg_start n) || !e.ownsMask n l.ten l.granules) = false := by
      rw [decide_eq_false (Nat.not_lt.2 hbound), decide_eq_false (Nat.not_le.2 hlate), howns]
      rfl
    have hstarts : legStart n s.dev = e := by
      subst he
      simp only [legStart, hmail, missesWindow_of_no_window hstart, hcool, hst, csIdle, hleg, hpart, hstart, hheld, hgap, hduty, hwithheld, hint, ← hl,
        Option.isSome_none, Option.isNone_none, Bool.and_false, Bool.or_false, Bool.not_true, ne_eq, not_true_eq_false, decide_false,
        Bool.false_eq_true, if_false, if_true]
      exact if_neg (ne_true_of_eq_false hlegal)
    rw [exec_of_settled (fun _ => rfl) (by simp [Instr.wf, hn]), hstarts]
  case end_ =>
    rintro s n cyc last l m e hn hleg hseq hstall hbody hcount hwithheld hfence hquiet hlast hin hland hposts hint hbound
    have hends : legEnd n cyc 0 s.dev = ((e.closeLeg n m (last + 1) 3).timeCheck n m (last + 1)).legOver m := by
      have hlate : last < 4 * l.bound := by omega
      rw [← hbound] at hin
      simp only [legEnd, hleg, ← hlast, hseq, hstall, hwithheld, hfence, hquiet, hland, hposts, hint, if_neg (Nat.not_le.2 hin), ite_self, List.foldl_nil]
      rw [if_neg (by simp [Nat.not_lt.2 hbody, Nat.not_lt.2 hcount, Nat.not_le.2 hlate])]
      rfl
    rw [exec_of_settled (fun _ => rfl) (by simp [Instr.wf, hn]), hends]
  case overrun =>
    intro s n l hn hleg hover hint
    rw [exec_of_settled (fun _ => rfl) (by simp [Instr.wf, hn]), legOverrun_of_in_time hleg hover hint]
  case discard =>
    rintro s n l m a hn hleg hover hint hcls hm rfl
    rw [exec_of_settled (fun _ => rfl) (by simp [Instr.wf, hn]), legDiscard_of_overrun hleg hover hm,
      failDiscarded_of_not_radio (by rw [hm]; exact hint) (by rw [hm]; exact hcls)]
    subst hm
    rfl
  case recovery =>
    intro s n hn hst hbring
    rw [exec_of_settled (fun _ => rfl) (by simp [Instr.wf, hn]), coreRecoveryDone_of_recovery hst hbring]
  case adoption =>
    intro s n v t old a hn hpart hleg hold ha
    rw [exec_of_settled (fun _ => rfl) (by simp [Instr.wf, hn]), tspartAdoption_of_waiting hpart hleg hold ha]
  case uncorrectable =>
    intro s n addr l hn hleg
    rw [exec_of_settled (fun _ => rfl) (by simp [Instr.wf, hn]), tileStoreUncorrectable_of_running hleg]

end Sys2Proof.Machine
end

section
/-! PROOFS. Arithmetic (chapter 3): the division unit, and a K-step of INT8. -/

namespace Sys2Proof.Machine

/-! ### Division -/

theorem divStep_eq (x : DivLane) : divStep x = { x with
    r := 2 * (if x.dd ≤ x.r then x.r - x.dd else x.r) % 2 ^ 32
    q := (if x.dd ≤ x.r then 2 * x.q + 1 else 2 * x.q) % 2 ^ 32 } := by
  by_cases h : x.dd ≤ x.r <;> simp [divStep, b2n, h]

/-- The lane after some division steps. -/
def divSteps (x : DivLane) : Nat → DivLane
  | 0 => x
  | k + 1 => divStep (divSteps x k)

theorem foldl_divStep (x : DivLane) (k : Nat) : (List.range k).foldl (fun z _ => divStep z) x = divSteps x k := by
  induction k with
  | zero => rfl
  | succ k ih => rw [List.range_succ, List.foldl_append, ih]; rfl

/-- Division steps change the remainder and the quotient alone. -/
theorem divSteps_frame (x : DivLane) (k : Nat) : divSteps x k = { x with r := (divSteps x k).r, q := (divSteps x k).q } := by
  induction k with
  | zero => rfl
  | succ k ih => rw [divSteps, divStep_eq, ih]

theorem divSteps_dd (x : DivLane) (k : Nat) : (divSteps x k).dd = x.dd := by rw [divSteps_frame]

/-- After k steps with the dividend n the quotient so far and what is left of n × 2^k stand in the lane: a step compares before it doubles, so the
remainder stays below twice the divisor. -/
def DivLane.Divides (x : DivLane) (n k : Nat) : Prop := n * 2 ^ k = 2 * (x.dd * x.q) + x.r ∧ x.r < 2 * x.dd

/-- Of 16-bit operands no step up to the sixteenth overflows 32 bits, so each keeps the division exact. -/
theorem divStep_divides {x : DivLane} {n k : Nat} (h : x.Divides n k) (hn : n < 2 ^ 15) (hd : x.dd ≤ 2 ^ 15) (hk : k < 16) :
    (divStep x).Divides n (k + 1) := by
  obtain ⟨hsum, hlt⟩ := h
  have hprod : n * 2 ^ k < 2 ^ 30 := by
    calc n * 2 ^ k ≤ n * 2 ^ 15 := Nat.mul_le_mul_left n (Nat.pow_le_pow_right (by decide) (by omega))
      _ < 2 ^ 30 := by omega
  have hq : x.q ≤ x.dd * x.q := Nat.le_mul_of_pos_left x.q (by omega)
  have hdouble : n * 2 ^ (k + 1) = 2 * (2 * (x.dd * x.q) + x.r) := by rw [← hsum, Nat.pow_succ, ← Nat.mul_assoc, Nat.mul_comm]
  have hqq : x.dd * (2 * x.q) = 2 * (x.dd * x.q) := Nat.mul_left_comm x.dd 2 x.q
  rw [divStep_eq]
  by_cases hb : x.dd ≤ x.r
  · have hr : 2 * (x.r - x.dd) % 2 ^ 32 = 2 * (x.r - x.dd) := Nat.mod_eq_of_lt (by omega)
    have hq' : (2 * x.q + 1) % 2 ^ 32 = 2 * x.q + 1 := Nat.mod_eq_of_lt (by omega)
    simp only [DivLane.Divides, if_pos hb, hr, hq', hdouble, Nat.mul_succ, hqq]
    constructor <;> omega
  · have hr : 2 * x.r % 2 ^ 32 = 2 * x.r := Nat.mod_eq_of_lt (by omega)
    have hq' : 2 * x.q % 2 ^ 32 = 2 * x.q := Nat.mod_eq_of_lt (by omega)
    simp only [DivLane.Divides, if_neg hb, hr, hq', hdouble, hqq]
    constructor <;> omega

theorem divSteps_divides {x : DivLane} {n : Nat} (h : x.Divides n 0) (hn : n < 2 ^ 15) (hd : x.dd ≤ 2 ^ 15) {k : Nat} (hk : k ≤ 16) :
    (divSteps x k).Divides n k := by
  induction k with
  | zero => exact h
  | succ k ih => exact divStep_divides (ih (by omega)) hn (by rwa [divSteps_dd]) (by omega)

/-- Sixteen steps give the quotient in Q15 of a dividend below the divisor (R94). -/
theorem divSteps_sixteen_q {x : DivLane} (hq : x.q = 0) (hlt : x.r < x.dd) (hd : x.dd ≤ 2 ^ 15) : (divSteps x 16).q = x.r * 2 ^ 15 / x.dd := by
  have hstart : x.Divides x.r 0 := ⟨by rw [hq]; omega, by omega⟩
  obtain ⟨hsum, hr⟩ := divSteps_divides hstart (by omega) hd (Nat.le_refl 16)
  rw [divSteps_dd] at hsum hr
  refine (Nat.div_eq_of_lt_le ?_ ?_).symm
  · rw [Nat.mul_comm]; omega
  · rw [Nat.succ_mul, Nat.mul_comm (divSteps x 16).q]; omega

theorem natCast_natAbs_eq (a : Int) : (a.natAbs : Int) = if a < 0 then -a else a := by omega

/-- The quotient that DIVQ15 gives with its sign is truncated toward zero. -/
theorem tdiv_eq_of_signs (a d : Int) :
    a.tdiv d = if (decide (a < 0) != decide (d < 0)) = true then -((a.natAbs / d.natAbs : Nat) : Int) else (a.natAbs / d.natAbs : Nat) := by
  rw [Int.tdiv_cases, Int.natCast_ediv, natCast_natAbs_eq, natCast_natAbs_eq]
  by_cases ha : a < 0 <;> by_cases hd : d < 0 <;> simp [ha, hd, Int.not_lt.1, Int.not_le.2]

/-- DIVQ15 of a quotient below one is the quotient of the steps taken, with its sign (R94). -/
theorem divQ15_divSteps_of_small {x : DivLane} (hdd : x.dd ≠ 0) (hbig : x.big = false) (k : Nat) :
    divQ15 (divSteps x k) = ⟨if x.neg then -((divSteps x k).q : Int) else (divSteps x k).q, 0⟩ := by
  have hframe := divSteps_frame x k
  generalize divSteps x k = y at hframe ⊢
  rw [hframe]
  simp only [divQ15, if_neg hdd, hbig, Bool.false_eq_true, if_false]

/-- Where a quotient of at least one, or a zero divisor, saturates, the steps taken do not matter (R94). -/
theorem divQ15_divSteps_of_saturated {x : DivLane} (h : x.dd = 0 ∨ x.big = true) (k : Nat) : divQ15 (divSteps x k) = divQ15 x := by
  rw [divSteps_frame]
  rcases h with h | h <;> simp only [divQ15, h, if_true]

/-- Settles O12, by the invariant that each step keeps the division exact. -/
theorem divisionGivesQ15 : Obligations.DivisionGivesQ15 := by
  unfold Obligations.DivisionGivesQ15
  refine ⟨divStep_eq, ?_⟩
  rintro n d hn hn' hd hd' x y rfl rfl
  rw [foldl_divStep]
  refine ⟨⟨rfl, rfl, rfl, rfl, rfl⟩, ?small, ?big, ?zero⟩
  case small =>
    intro hbig
    have hlt : n.natAbs < d.natAbs := by simpa [divSetup] using hbig
    have hq : (divSteps (divSetup n d) 16).q = n.natAbs * 2 ^ 15 / d.natAbs := divSteps_sixteen_q rfl hlt (show d.natAbs ≤ 2 ^ 15 by omega)
    have habs : (n * 2 ^ 15).natAbs = n.natAbs * 2 ^ 15 := Int.natAbs_mul n (2 ^ 15)
    have hsign : decide (n * 2 ^ 15 < 0) = decide (n < 0) := decide_eq_decide.2 (by omega)
    refine ⟨hq, ?_⟩
    rw [divQ15_divSteps_of_small (show d.natAbs ≠ 0 by omega) hbig, hq, tdiv_eq_of_signs, habs, hsign]
    rfl
  case big =>
    intro hd0 hbig
    have hdd : (divSetup n d).dd ≠ 0 := Int.natAbs_ne_zero.2 hd0
    rw [divQ15_divSteps_of_saturated (.inr hbig), divQ15, if_neg hdd, if_pos hbig]
    simp [divSetup]
  case zero =>
    rintro rfl
    have hdd : (divSetup n 0).dd = 0 := rfl
    rw [divQ15_divSteps_of_saturated (.inl hdd), divQ15, if_pos hdd]
    simp [divSetup]

/-! ### A K-step of INT8 -/

theorem le_shiftRight (bs : List Byte) (i : Nat) : le bs >>> (8 * i) = le (bs.drop i) := by
  induction i generalizing bs with
  | zero => rfl
  | succ i ih =>
    cases bs with
    | nil => simp [le]
    | cons b bs =>
      have hb : (b.toNat + 256 * le bs) / 256 = le bs := by have := b.isLt; omega
      rw [List.drop_succ_cons, ← ih, Nat.mul_succ, Nat.add_comm, Nat.shiftRight_add]
      congr 1
      exact (Nat.shiftRight_eq_div_pow _ 8).trans hb

theorem le_mod_256 (bs : List Byte) : le bs % 256 = le (bs.take 1) := by
  cases bs with
  | nil => rfl
  | cons b bs =>
    have := b.isLt
    simp only [le, List.take_succ_cons, List.take_zero]
    omega

/-- Element i of an INT8 entry is its byte i (R74). -/
theorem elem_int8 (x : Feed) (i : Nat) : x.elem .int8 i = leAt x.data i 1 := by
  have hwidth : 8 * (i + 1) - 1 + 1 - 8 * i = 8 := by omega
  simp only [Feed.elem, CFmt.elemBits, bits, hwidth, le_shiftRight]
  exact le_mod_256 _

theorem dot8_eq_sum (a b : Feed) : dot8 a b = ((List.range 16).map fun i => toSigned 8 (leAt a.data i 1) * toSigned 8 (leAt b.data i 1)).sum := by
  simp only [dot8, elem_int8, List.sum_eq_foldl]

theorem natAbs_toSigned_8 (x : Nat) : (toSigned 8 x).natAbs ≤ 128 := by
  simp only [toSigned]
  split <;> omega

theorem natAbs_sum_le {xs : List Int} {c : Nat} (h : ∀ x ∈ xs, x.natAbs ≤ c) : xs.sum.natAbs ≤ xs.length * c := by
  induction xs with
  | nil => exact Nat.zero_le _
  | cons x xs ih =>
    obtain ⟨hx, hxs⟩ := List.forall_mem_cons.1 h
    rw [List.sum_cons, List.length_cons, Nat.succ_mul, Nat.add_comm]
    exact Nat.le_trans (Int.natAbs_add_le x xs.sum) (Nat.add_le_add hx (ih hxs))

/-- Sixteen products of signed bytes stay far below 2^31 in magnitude, so a first step cannot saturate. -/
theorem natAbs_dot8 (a b : Feed) : (dot8 a b).natAbs ≤ 16 * (128 * 128) := by
  rw [dot8_eq_sum]
  refine natAbs_sum_le fun p hp => ?_
  obtain ⟨i, -, rfl⟩ := List.mem_map.1 hp
  rw [Int.natAbs_mul]
  exact Nat.mul_le_mul (natAbs_toSigned_8 _) (natAbs_toSigned_8 _)

/-- Saturation of an INT32 accumulator, with its flag where the value does not fit. -/
theorem sat32_eq (x : Int) : sat32 x = ⟨max (-(2 ^ 31)) (min (2 ^ 31 - 1) x), if -(2 ^ 31) ≤ x ∧ x ≤ 2 ^ 31 - 1 then 0 else flIntSat⟩ := by
  simp only [sat32, satInt]
  split
  · next h => rw [if_neg (by omega)]; congr 1; omega
  · next hlow =>
    split
    · next h => rw [if_neg (by omega)]; congr 1; omega
    · next hhigh => rw [if_pos (by omega)]; congr 1; omega

theorem sat32_of_fits {x : Int} (hlow : -2147483648 ≤ x) (hhigh : x ≤ 2147483647) : sat32 x = ⟨x, 0⟩ := by
  rw [sat32, satInt, if_neg (Int.not_lt.2 hlow), if_neg (Int.not_lt.2 hhigh)]

/-- Settles O13: a first step cannot saturate, since the sum of its products is far within INT32. -/
theorem int8StepSaturates : Obligations.Int8StepSaturates := by
  rintro acc a b t ht
  rw [← dot8_eq_sum] at ht
  subst ht
  have hbound := natAbs_dot8 a b
  constructor
  · simp only [stepInt8, sat32_eq, Bool.false_eq_true, if_false]
  · simp only [stepInt8, if_true, sat32_of_fits (x := dot8 a b) (by omega) (by omega)]

end Sys2Proof.Machine
end

section
/-! PROOFS. The sequencer of a tensor core (chapter 2): tokens, moves between the tile store and the die pool, and row scales. -/

namespace Sys2Proof.Machine

/-! ### Tokens -/

/-- A wait on a clear token stands; on a set one it lets the leg go on, and an error mark stops it (R139). -/
theorem waitTok_of_clear {lane : Bool} {tok : Nat} {d : Device} {l : Leg} (h : (l.tokens.find? fun t => t.1 == tok) = none) :
    waitTok lane tok d l = .go d (if lane then { l with laneWait := some tok } else { l with seqWait := some tok }) := by
  simp only [waitTok, h]

theorem waitTok_of_set {lane : Bool} {tok : Nat} {x : Tok} {d : Device} {l : Leg} (h : (l.tokens.find? fun t => t.1 == tok) = some (tok, x))
    (hx : x.err = false) : waitTok lane tok d l = .go d l := by
  simp only [waitTok, h, hx, Bool.false_eq_true, if_false]

theorem waitTok_of_error {lane : Bool} {tok : Nat} {x : Tok} {d : Device} {l : Leg} (h : (l.tokens.find? fun t => t.1 == tok) = some (tok, x))
    (hx : x.err = true) : waitTok lane tok d l = .stop d l x.stopSt x.stopOp 0 := by
  simp only [waitTok, h, hx, if_true]

/-- A token set by a sequencer that waits on none ends the lane's wait alone. -/
theorem setTok_of_not_waiting {l : Leg} {tok : Nat} (h : l.seqWait = none) : l.setTok tok =
    { l with tokens := smIns l.tokens tok { err := false }, laneWait := if l.laneWait = some tok then none else l.laneWait } := by
  simp [Leg.setTok, h]

/-! ### Moves and row scales -/

/-- What a move of the leg l on core n that meets no fault leaves of the device: the tile store with the pool's bytes, or the pool with the tile store's. -/
inductive Device.Moves (d : Device) (n : Nat) (l : Leg) (ts ga len : Nat) : Bool → Device → Prop where
  | toTile {bs : List Byte} {a : Device} (hread : d.readGA l.ten ga len = .ok bs) (howns : d.ownsRange n l.ten ts bs.length = true)
      (hpoison : d.poisonWrite spTS (tsOff n ts) bs.length = some a) : d.Moves n l ts ga len false (a.store spTS (tsOff n ts) bs)
  | toPool {a : Device} (howns : d.ownsRange n l.ten ts len = true) (hpoison : d.poisonIn spTS (tsOff n ts) len = none)
      (hwrite : d.ownWrite l.ten ga (d.peek devKey spTS (tsOff n ts) len) .none = (a, .ok)) : d.Moves n l ts ga len true a

/-- A move through an open port that meets no crossing, no lost route and no fault ends with its token set (R268, R287). -/
theorem moveOp_of_moves {d a : Device} {n ts pool len ga : Nat} {toPool : Bool} {tok : Option Nat} {l : Leg} (hga : ga = d.devId <<< 52 + 2 <<< 48 + pool)
    (hfence : d.isFenced n 28 = false)
    (hreach : ∀ p ∈ parts ga len, (∀ x, d.meet l.ten p.1 toPool ≠ .waits x) ∧
      ∀ k i, d.locate l.ten p.1 toPool = some (k, i) → d.routeLost (coreDie n) k p.2 = false)
    (h : d.Moves n l ts ga len toPool a) : moveOp n toPool ts pool len tok d l = some (.go a (tok.elim l l.setTok)) := by
  rw [moveOp, ← hga]
  rw [if_neg (by simp [hfence]), if_neg ?waits, if_neg ?lost]
  case waits =>
    rw [List.any_eq_true]
    rintro ⟨p, hp, hw⟩
    split at hw
    · next x hx => exact (hreach p hp).1 x hx
    · exact Bool.false_ne_true hw
  case lost =>
    rw [List.any_eq_true]
    rintro ⟨p, hp, hl⟩
    split at hl
    · next k i hk => exact Bool.false_ne_true (((hreach p hp).2 k i hk).symm.trans hl)
    · exact Bool.false_ne_true hl
  cases h with
  | toTile hread howns hpoison =>
    simp only [hread, tsWrite_of_owned howns hpoison, Bool.false_eq_true, if_false]
    cases tok <;> rfl
  | toPool howns hpoison hwrite =>
    simp only [tsRead_of_owned howns hpoison, hwrite, if_true]
    cases tok <;> rfl

theorem rsloadOp_of_owned {d : Device} {n q ts base count : Nat} {l : Leg} (howns : d.ownsRange n l.ten ts (4 * count) = true)
    (hpoison : d.poisonIn spTS (tsOff n ts) (4 * count) = none) : rsloadOp n q ts base count d l = .go d (l.setQuad q { l.quad q with
      rowScale := (List.range count).foldl (fun x i => smSet x ((base + i) % 256) 0 (leAt (d.peek devKey spTS (tsOff n ts) (4 * count)) (4 * i) 4))
        (l.quad q).rowScale }) := tsRead_of_owned howns hpoison

/-- Settles O25, command by command. That the entry numbers of RSLOAD count modulo 256 is the model's own choice (log 140). -/
theorem sequencerCommands : Obligations.SequencerCommands := by
  unfold Obligations.SequencerCommands
  refine ⟨?set, ?waitSet, ?waitClear, ?waitError, ?laneWait, ?start, ?toTile, ?toPool, ?rowScales⟩
  case set =>
    intro s n tok cy l m e hn htok hcy h
    have ⟨_, hwait, _⟩ := h
    have hset : tokenSet n tok s.dev = e.putLeg n (m.setTok tok) := seqAct_go h hcy rfl
    rw [exec_of_settled (fun _ => rfl) (by simp [Instr.wf, hn, htok]), hset, setTok_of_not_waiting hwait]
  case waitSet =>
    intro s n cyc tok l m e hn htok h hfind
    have hwait : tokenWait n cyc tok false s.dev = e.putLeg n m := seqAct_go h rfl (waitTok_of_set hfind rfl)
    rw [exec_of_settled (fun _ => rfl) (by simp [Instr.wf, hn, htok]), hwait]
  case waitClear =>
    intro s n cyc tok l m e hn htok h hfind
    have hwait : tokenWait n cyc tok false s.dev = e.putLeg n { m with seqWait := some tok } := seqAct_go h rfl (waitTok_of_clear hfind)
    rw [exec_of_settled (fun _ => rfl) (by simp [Instr.wf, hn, htok]), hwait]
  case waitError =>
    intro s n cyc tok l m e x hn htok h hfind herr
    have hwait : tokenWait n cyc tok false s.dev = e.stopLeg n m x.stopSt x.stopOp 0 := seqAct_stop h rfl (waitTok_of_error hfind herr)
    rw [exec_of_settled (fun _ => rfl) (by simp [Instr.wf, hn, htok]), hwait]
  case laneWait =>
    intro s n cyc tok l m e hn htok h hfind
    exact exec_of_laneAct (fun _ => rfl) (by simp [Instr.wf, hn, htok]) h (waitTok_of_clear hfind)
  case start =>
    intro s n addr cy l m e hn hcy h
    have hstart : startSignalLane n addr s.dev = e.putLeg n { m with lane := { m.lane with running := true, pc := addr, reps := [], cache := [] } } :=
      seqAct_go h hcy rfl
    rw [exec_of_settled (fun _ => rfl) (by simp [Instr.wf, hn]), hstart]
  case toTile =>
    intro s n ts pool len tok cy l m e bs a hn htok hcy h hfence hreach hread howns hpoison
    have hmove : seqMove n false ts pool len (some tok) s.dev = (a.store spTS (tsOff n ts) bs).putLeg n (m.setTok tok) :=
      seqStall_go h hcy (moveOp_of_moves rfl hfence hreach (.toTile hread howns hpoison))
    rw [exec_of_settled (fun _ => rfl) (by simp [Instr.wf, hn, htok]), hmove]
  case toPool =>
    intro s n ts pool len cy l m e a hn hcy h hfence hreach howns hpoison hwrite
    have hmove : seqMove n true ts pool len none s.dev = a.putLeg n m :=
      seqStall_go h hcy (moveOp_of_moves rfl hfence hreach (.toPool howns hpoison hwrite))
    rw [exec_of_settled (fun _ => rfl) (by simp [Instr.wf, hn]), hmove]
  case rowScales =>
    rintro s n q ts base count cy l m e _ hn hq hbase hcount hcy h howns hpoison rfl
    have hload := seqAct_go (f := rsloadOp n q ts base count) (cyc := none) h hcy (rsloadOp_of_owned howns hpoison)
    rw [exec_of_settled (fun _ => rfl) (by simp [Instr.wf, hn, hq, hbase, hcount]), rsload, hload]

end Sys2Proof.Machine
end

section
/-! PROOFS. Events and data tags (chapter 4): memory under a key, what a signal does to the event array, and the fields of a tag. -/

namespace Sys2Proof.Machine

/-! ### Bytes under a key -/

theorem cellAt_inj {sp o o' : Nat} : cellAt sp o = cellAt sp o' ↔ o = o' := by
  simp [cellAt]

/-- What a byte of an encrypted unit reads as depends on the unit's tag and stored bytes alone (R475). -/
theorem readB_congr {d e : Device} {sp o : Nat} (key : Nat) (htag : smGet e.tags (cellAt sp (o / 32 * 32)) 0 = smGet d.tags (cellAt sp (o / 32 * 32)) 0)
    (hraw : ∀ p, p / 32 = o / 32 → e.raw sp p = d.raw sp p) : e.readB key sp o = d.readB key sp o := by
  have hunit : (List.range 32).map (fun i => e.raw sp (o / 32 * 32 + i)) = (List.range 32).map fun i => d.raw sp (o / 32 * 32 + i) :=
    List.map_congr_left fun i hi => hraw _ (by have := List.mem_range.1 hi; omega)
  simp only [Device.readB, htag, hunit, hraw o rfl]

/-- A byte whose unit is under the key reads as it is stored. -/
theorem readB_of_tag {d : Device} {key sp o : Nat} (h : smGet d.tags (cellAt sp (o / 32 * 32)) 0 = key) : d.readB key sp o = d.raw sp o := by
  simp [Device.readB, h]

theorem readB_of_plain {d : Device} {sp : Nat} (h : encrypted sp = false) (key o : Nat) : d.readB key sp o = d.raw sp o := by
  simp [Device.readB, h]

theorem tags_takeUnit_self (d : Device) (key sp u : Nat) : smGet (d.takeUnit key sp u).tags (cellAt sp u) 0 = key := by
  simp only [Device.takeUnit]
  split
  · assumption
  · exact smGet_smSet_self _ _ _ _

theorem tags_takeUnit_ne (d : Device) (key : Nat) {sp u c : Nat} (h : c ≠ cellAt sp u) : smGet (d.takeUnit key sp u).tags c 0 = smGet d.tags c 0 := by
  simp only [Device.takeUnit]
  split
  · rfl
  · rw [smGet_smSet_ne _ h]
    split <;> rfl

/-- A unit taken over by a key leaves the other units as stored. -/
theorem raw_takeUnit_outside (d : Device) (key : Nat) {sp u o : Nat} (h : o < u ∨ u + 32 ≤ o) : (d.takeUnit key sp u).raw sp o = d.raw sp o := by
  simp only [Device.takeUnit]
  split
  · rfl
  · split
    · rfl
    · exact raw_store_out d sp u _ sp o (by simp only [Device.peek, List.length_map, List.length_range, cellAt]; omega)

/-- A unit taken over by a key holds what it read as under that key, so nothing reads differently (R475). -/
theorem readB_takeUnit (d : Device) (key : Nat) {sp : Nat} (henc : encrypted sp = true) (i o : Nat) :
    (d.takeUnit key sp (i * 32)).readB key sp o = d.readB key sp o := by
  by_cases ho : o / 32 = i
  · subst ho
    rw [readB_of_tag (tags_takeUnit_self d key sp _)]
    by_cases htag : smGet d.tags (cellAt sp (o / 32 * 32)) 0 = key
    · rw [readB_of_tag htag, Device.takeUnit, if_pos htag]
    · simp only [Device.takeUnit, if_neg htag]
      by_cases hzero : smGet d.tags (cellAt sp (o / 32 * 32)) 0 = 0
      · simp only [Device.readB, henc, hzero]
        rfl
      · have hlen : (d.peek key sp (o / 32 * 32) 32).length = 32 := by simp [Device.peek]
        have hraw := raw_store_in d sp (o / 32 * 32) (d.peek key sp (o / 32 * 32) 32) (o % 32) (by omega)
        rw [show o / 32 * 32 + o % 32 = o by omega] at hraw
        rw [if_neg hzero]
        refine hraw.trans ?_
        simp [Device.peek, show o / 32 * 32 + o % 32 = o by omega]
  · exact readB_congr key (tags_takeUnit_ne d key (by rw [ne_eq, cellAt_inj]; omega)) fun p hp => raw_takeUnit_outside d key (by omega)

/-- The device before the bytes of a write are stored: every unit that they touch is under the key. -/
def Device.takeUnits (d : Device) (key sp : Nat) (is : List Nat) : Device := is.foldl (fun d i => d.takeUnit key sp (i * 32)) d

theorem readB_takeUnits (d : Device) (key : Nat) {sp : Nat} (henc : encrypted sp = true) (is : List Nat) (o : Nat) :
    (d.takeUnits key sp is).readB key sp o = d.readB key sp o := by
  induction is generalizing d with
  | nil => rfl
  | cons i is ih => exact (ih _).trans (readB_takeUnit d key henc i o)

theorem tags_takeUnits_of_mem (d : Device) (key sp : Nat) {is : List Nat} {i : Nat} (h : i ∈ is ∨ smGet d.tags (cellAt sp (i * 32)) 0 = key) :
    smGet (d.takeUnits key sp is).tags (cellAt sp (i * 32)) 0 = key := by
  induction is generalizing d with
  | nil => simpa [Device.takeUnits] using h
  | cons j is ih =>
    refine ih (d.takeUnit key sp (j * 32)) ?_
    by_cases hj : i = j
    · exact .inr (hj ▸ tags_takeUnit_self d key sp _)
    · rw [tags_takeUnit_ne d key (by rw [ne_eq, cellAt_inj]; omega)]
      simpa [hj] using h

theorem poke_of_encrypted (d : Device) (key : Nat) {sp : Nat} (henc : encrypted sp = true) (off : Nat) (bs : List Byte) :
    d.poke key sp off bs =
      (d.takeUnits key sp ((List.range ((off + bs.length + 31) / 32 - off / 32)).map (off / 32 + ·))).store sp off bs := by
  simp only [Device.poke, henc, if_true, Device.takeUnits, List.foldl_map]

/-- A byte of a write reads back under the key of the write. -/
theorem readB_poke_inside (d : Device) (key sp off : Nat) (bs : List Byte) {i : Nat} (h : i < bs.length) :
    (d.poke key sp off bs).readB key sp (off + i) = bs[i] := by
  cases henc : encrypted sp with
  | false =>
    rw [readB_of_plain henc, Device.poke, henc, if_neg Bool.false_ne_true]
    exact raw_store_in d sp off bs i h
  | true =>
    rw [poke_of_encrypted d key henc, readB_of_tag]
    · exact raw_store_in _ sp off bs i h
    · exact tags_takeUnits_of_mem d key sp (.inl (List.mem_map.2 ⟨(off + i) / 32 - off / 32, List.mem_range.2 (by omega), by omega⟩))

/-- Every other byte of the space reads under that key as before. -/
theorem readB_poke_outside (d : Device) (key sp off : Nat) (bs : List Byte) {o : Nat} (h : o < off ∨ off + bs.length ≤ o) :
    (d.poke key sp off bs).readB key sp o = d.readB key sp o := by
  cases henc : encrypted sp with
  | false =>
    rw [readB_of_plain henc, readB_of_plain henc, Device.poke, henc, if_neg Bool.false_ne_true]
    exact raw_store_out d sp off bs sp o (by simp only [cellAt]; omega)
  | true =>
    rw [poke_of_encrypted d key henc, ← readB_takeUnits d key henc _ o]
    have hraw (p : Nat) (hp : p < off ∨ off + bs.length ≤ p) (e : Device) : (e.store sp off bs).raw sp p = e.raw sp p :=
      raw_store_out e sp off bs sp p (by simp only [cellAt]; omega)
    by_cases ht : off / 32 ≤ o / 32 ∧ o / 32 < (off + bs.length + 31) / 32
    · -- a unit that the write touches is under its key by then
      have htag := tags_takeUnits_of_mem d key sp (is := (List.range ((off + bs.length + 31) / 32 - off / 32)).map (off / 32 + ·)) (i := o / 32)
        (.inl (List.mem_map.2 ⟨o / 32 - off / 32, List.mem_range.2 (by omega), by omega⟩))
      rw [readB_of_tag htag, readB_of_tag (by exact htag), hraw o h]
    · exact readB_congr key rfl fun p hp => hraw p (by omega) _

theorem peek_poke_self (d : Device) (key sp off : Nat) (bs : List Byte) : (d.poke key sp off bs).peek key sp off bs.length = bs := by
  refine List.ext_getElem (by simp [Device.peek]) fun i _ hi => ?_
  simp [Device.peek, readB_poke_inside d key sp off bs hi]

theorem peek_poke_disjoint (d : Device) (key sp off : Nat) (bs : List Byte) {o n : Nat} (h : o + n ≤ off ∨ off + bs.length ≤ o) :
    (d.poke key sp off bs).peek key sp o n = d.peek key sp o n :=
  List.map_congr_left fun i hi => readB_poke_outside d key sp off bs (by have := List.mem_range.1 hi; omega)

/-- A write changes stored bytes, unspecified ranges and tags, and nothing else of the device. -/
theorem takeUnit_changes (d : Device) (key sp u : Nat) : ∃ m js ts, d.takeUnit key sp u = { d with mem := m, junk := js, tags := ts } := by
  simp only [Device.takeUnit]
  split
  · exact ⟨_, _, _, rfl⟩
  · split <;> exact ⟨_, _, _, rfl⟩

theorem takeUnits_changes (d : Device) (key sp : Nat) (is : List Nat) : ∃ m js ts, d.takeUnits key sp is = { d with mem := m, junk := js, tags := ts } := by
  induction is generalizing d with
  | nil => exact ⟨_, _, _, rfl⟩
  | cons i is ih =>
    obtain ⟨_, _, _, hunit⟩ := takeUnit_changes d key sp (i * 32)
    obtain ⟨m, js, ts, hunits⟩ := ih (d.takeUnit key sp (i * 32))
    refine ⟨m, js, ts, hunits.trans ?_⟩
    rw [hunit]

theorem poke_changes (d : Device) (key sp off : Nat) (bs : List Byte) : ∃ m js ts, d.poke key sp off bs = { d with mem := m, junk := js, tags := ts } := by
  cases henc : encrypted sp with
  | false =>
    rw [Device.poke, henc, if_neg Bool.false_ne_true]
    exact ⟨_, _, _, rfl⟩
  | true =>
    obtain ⟨_, _, _, hunits⟩ := takeUnits_changes d key sp ((List.range ((off + bs.length + 31) / 32 - off / 32)).map (off / 32 + ·))
    rw [poke_of_encrypted d key henc, hunits]
    exact ⟨_, _, _, rfl⟩

/-! ### Little-endian numbers -/

@[simp] theorem length_toLE (n v : Nat) : (toLE n v).length = n := by
  induction n generalizing v with
  | zero => rfl
  | succ n ih => simp [toLE, ih]

theorem le_toLE (n v : Nat) : le (toLE n v) = v % 2 ^ (8 * n) := by
  induction n generalizing v with
  | zero => simp [toLE, le, Nat.mod_one]
  | succ n ih => rw [toLE, le, ih, BitVec.toNat_ofNat, Nat.mul_succ, Nat.add_comm (8 * n), Nat.pow_add, Nat.mod_mul]

theorem le_lt (bs : List Byte) : le bs < 2 ^ (8 * bs.length) := by
  induction bs with
  | nil => exact Nat.one_pos
  | cons b bs ih =>
    have := b.isLt
    rw [le, List.length_cons, Nat.mul_succ, Nat.pow_add]
    omega

/-! ### Events -/

theorem evtAddr_eq_mul (d : Device) (t e : Nat) : d.evtAddr t e = 8 * (d.rd QUE_EVT_BASE.base t * 65536 + e) := by
  simp only [Device.evtAddr]
  omega

theorem event_lt (d : Device) (t e : Nat) : d.event t e < 2 ^ 64 := by
  have h := le_lt (d.peek devKey spT1 (d.evtAddr t e) 8)
  rwa [Device.peek, List.length_map, List.length_range] at h

/-- The value that a signal leaves (R132). -/
def signalled (add : Bool) (x v : Nat) : Nat := if add then satAdd 64 x v else max x v

/-- A signal writes its event, and beside it marks waiting entries of queues alone. -/
theorem signal_eq_pokeN (d : Device) (t e v : Nat) (add : Bool) : d.signal t e v add =
    { d.pokeN spT1 (d.evtAddr t e) 8 (signalled add (d.event t e) v) with queues := (d.signal t e v add).queues } := rfl

theorem signal_changes (d : Device) (t e v : Nat) (add : Bool) :
    ∃ m js ts qs, d.signal t e v add = { d with mem := m, junk := js, tags := ts, queues := qs } := by
  obtain ⟨m, js, ts, hpoke⟩ := poke_changes d devKey spT1 (d.evtAddr t e) (toLE 8 (signalled add (d.event t e) v))
  refine ⟨m, js, ts, (d.signal t e v add).queues, (signal_eq_pokeN d t e v add).trans ?_⟩
  rw [Device.pokeN, hpoke]

theorem peekN_with_queues (d : Device) (qs : List (Nat × QueueCtx)) (sp off n : Nat) : ({ d with queues := qs } : Device).peekN sp off n = d.peekN sp off n := rfl

/-- What an event reads after a signal is what the event array holds at its place (R132). -/
theorem event_signal (d : Device) (t e v : Nat) (add : Bool) (t' e' : Nat) : (d.signal t e v add).event t' e' =
    (d.pokeN spT1 (d.evtAddr t e) 8 (signalled add (d.event t e) v)).peekN spT1 (d.evtAddr t' e') 8 := by
  have haddr : (d.signal t e v add).evtAddr t' e' = d.evtAddr t' e' := by
    obtain ⟨_, _, _, _, h⟩ := signal_changes d t e v add
    rw [h]
    rfl
  rw [Device.event, haddr, signal_eq_pokeN, peekN_with_queues]

theorem event_signal_self (d : Device) (t e : Nat) {v : Nat} (add : Bool) (hv : v < 2 ^ 64) : (d.signal t e v add).event t e =
    if add then min (d.event t e + v) (2 ^ 64 - 1) else max (d.event t e) v := by
  have hevent := event_lt d t e
  rw [event_signal, Device.peekN, Device.pokeN]
  have hread (y : Nat) : (d.poke devKey spT1 (d.evtAddr t e) (toLE 8 y)).peek devKey spT1 (d.evtAddr t e) 8 = toLE 8 y := by
    simpa using peek_poke_self d devKey spT1 (d.evtAddr t e) (toLE 8 y)
  rw [hread, le_toLE]
  refine Nat.mod_eq_of_lt ?_
  cases add <;> simp only [signalled, satAdd, if_true, if_false, Bool.false_eq_true] <;> omega

/-- Events stand 8 bytes apart, so a signal leaves every other event alone. -/
theorem event_signal_ne (d : Device) {t e t' e' : Nat} (v : Nat) (add : Bool) (h : d.evtAddr t' e' ≠ d.evtAddr t e) :
    (d.signal t e v add).event t' e' = d.event t' e' := by
  have hplaces := evtAddr_eq_mul d
  rw [event_signal, Device.peekN, Device.pokeN, peek_poke_disjoint]
  · rfl
  · rw [hplaces, hplaces] at h ⊢
    rw [length_toLE]
    omega

/-- Settles O11: of the event array a signal writes one event, and beside it marks waiting entries of queues alone. -/
theorem eventSignals : Obligations.EventSignals := by
  intro d t e v add hv _
  obtain ⟨_, _, _, _, hsignal⟩ := signal_changes d t e v add
  exact ⟨event_signal_self d t e add hv, fun _ _ _ h => event_signal_ne d v add h, by rw [hsignal], by rw [hsignal]⟩

/-! ### Data tags -/

theorem crcBits_lt {w poly r : Nat} (hpoly : poly < 2 ^ w) (hr : r < 2 ^ w) (bs : List Bool) : crcBits w poly r bs < 2 ^ w := by
  induction bs generalizing r with
  | nil => exact hr
  | cons b bs ih =>
    have hshift : 2 * r % 2 ^ w < 2 ^ w := Nat.mod_lt _ (Nat.two_pow_pos w)
    rw [crcBits]
    refine ih ?_
    split
    · exact Nat.xor_lt_two_pow hshift hpoly
    · exact hshift

theorem crc16_lt (bs : List Byte) : crc16 bs < 2 ^ 16 := crcBits_lt (by decide) (by decide) _

/-- A number reads back at its place among other bytes. -/
theorem leAt_toLE {a b : List Byte} {lo : Nat} (h : a.length = lo) (n v : Nat) : leAt (a ++ (toLE n v ++ b)) lo n = v % 2 ^ (8 * n) := by
  subst h
  rw [leAt, List.drop_left, List.take_append_of_le_length (by simp), List.take_of_length_le (by simp), le_toLE]

theorem leAt_toLE_last {a : List Byte} {lo : Nat} (h : a.length = lo) (n v : Nat) : leAt (a ++ toLE n v) lo n = v % 2 ^ (8 * n) := by
  simpa using leAt_toLE (b := []) h n v

theorem leAt_toLE_first (b : List Byte) (n v : Nat) : leAt (toLE n v ++ b) 0 n = v % 2 ^ (8 * n) := by
  have h := leAt_toLE (a := []) (b := b) rfl n v
  rwa [List.nil_append] at h

/-- The tag's fields as they stand in its bytes (Table 4-15). -/
theorem mkTag_fields (ten cls client kind step mid : Nat) (t : List Byte) (ht : t = mkTag ten cls client kind step mid) :
    t.length = 16 ∧ leAt t 0 1 = (ten + cls * 64) % 2 ^ 8 ∧ leAt t 1 3 = (client + kind * 2 ^ 20) % 2 ^ 24 ∧ leAt t 4 5 = step % 2 ^ 40 ∧
    leAt t 9 3 = mid % 2 ^ 24 ∧ leAt t 12 2 = 0 ∧ leAt t 14 2 = crc16 (t.take 14) := by
  subst ht
  have hcrc (bs : List Byte) : crc16 bs % 2 ^ 16 = crc16 bs := Nat.mod_eq_of_lt (crc16_lt bs)
  simp only [mkTag, List.append_assoc]
  refine ⟨by simp, leAt_toLE_first _ _ _, leAt_toLE (by simp) _ _, ?step, ?mid, ?zero, ?crc⟩
  case step =>
    rw [← List.append_assoc, leAt_toLE (by simp)]
    exact Nat.mod_mod _ _
  case mid =>
    rw [← List.append_assoc, ← List.append_assoc]
    exact leAt_toLE (by simp) _ _
  case zero =>
    rw [← List.append_assoc, ← List.append_assoc, ← List.append_assoc]
    exact leAt_toLE (by simp) _ _
  case crc =>
    simp only [← List.append_assoc]
    rw [leAt_toLE_last (by simp), List.take_left' (by simp)]
    exact hcrc _

/-- Settles O58, from the fields of the tag's bytes. -/
theorem tagsReadBack : Obligations.TagsReadBack := by
  intro ten cls client kind step mid hten hcls hclient hkind hstep hmid t ht
  obtain ⟨hlen, hfirst, hsource, hsteps, hmids, hzero, hcrc⟩ := mkTag_fields ten cls client kind step mid t ht
  have hkinds : tagKind t = kind := by rw [tagKind, hsource]; omega
  have hclass : tagCls t = cls := by rw [tagCls, hfirst]; omega
  refine ⟨hlen, ?_, ?_, hclass, ?_, hkinds, ?_, ?_⟩
  · simp [tagOk, hcrc, hclass, hkinds, hzero, hkind, Nat.ne_of_lt hcls]
  · rw [tagTen, hfirst]; omega
  · rw [tagClient, hsource]; omega
  · rw [tagStep, hsteps]; omega
  · rw [tagMid, hmids]; omega

end Sys2Proof.Machine
end

section
/-! PROOFS. Submission queues (chapter 4): their control, their doorbells, and the service of their rings. -/

namespace Sys2Proof.Machine

/-! ### Accesses that reach what they name -/

/-- A well-formed access of a register that it reaches has its body's effect (R3). -/
theorem exec_of_via {c : Instr} {fn : Nat} {r : Reg} {f : Device → Device} {s : State} (hexec : ∀ s, exec c s = s.actIf c.wf (Device.via fn r f))
    (hwf : c.wf = true) (hr : s.dev.reaches fn r = true) : exec c s = .next (s.leads (f s.dev)) := by
  rw [exec_of_wf hexec hwf, via_of_reaches hr]

/-- A well-formed access of a function that is awake has its body's effect (R441). -/
theorem exec_of_awake {c : Instr} {fn : Nat} {f : Device → Device} {s : State} (hexec : ∀ s, exec c s = s.actIf c.wf (Device.awake fn f))
    (hwf : c.wf = true) (ha : s.dev.fnAwake fn = true) : exec c s = .next (s.leads (f s.dev)) := by
  rw [exec_of_wf hexec hwf, awake_of_fnAwake ha]

/-! ### Queue control -/

section Control

variable {d : Device} {fn q : Nat}

theorem enableNow_of_enableOk (h : d.enableOk q = true) : d.enableNow q =
    ((((d.setQueue q {}).wr QUE_STAT.sq_head q 0).wr QUE_STAT.db_err q 0).wr QUE_STAT.cq_full q 0).wr QUE_STAT.state q 1 := if_pos h

/-- A Disabled queue whose event array is not being filled is enabled at once (R124, R125). -/
theorem queueEnable_of_disabled (hmay : d.mayQueue fn q = true) (hst : d.rd QUE_STAT.state q = 0) (hfill : d.qTen q ∉ d.evtFill) :
    queueEnable fn q d = d.enableNow q := by
  simp [queueEnable, hmay, hst, qDisabled, hfill]

theorem queueResume_of_halted (hmay : d.mayQueue fn q = true) (hst : d.rd QUE_STAT.state q = 2) :
    queueResume fn q d = (d.wr QUE_STAT.state q 1).settle q := by
  simp [queueResume, hmay, hst, qHalted, qRunning]

/-- A reset discards what the queue has fetched, and the queue drains (R126). -/
theorem queueReset_of_mayQueue (hmay : d.mayQueue fn q = true) : queueReset fn q d =
    ((d.discardFetched q).setQueue q { (d.discardFetched q).queue q with enableWaits := false }).wr QUE_STAT.state q 4 := by
  simp [queueReset, hmay, qDraining]

theorem queueDrained_of_empty (hst : d.rd QUE_STAT.state q = 4) (hflight : d.rd QUE_STAT.in_flight q = 0) (hpost : (d.queue q).toPost = []) :
    queueDrained q d = d.wr QUE_STAT.state q 0 := by
  simp [queueDrained, hst, hflight, hpost, qDraining, qDisabled]

end Control

/-- At the end of the one fill under way, the queues that wait for it are enabled (R125). -/
theorem eventArrayFillDone_of_only {d : Device} {t : Nat} (h : d.evtFill = [t]) : eventArrayFillDone t d =
    (d.queues.filter fun q => q.2.enableWaits && d.qTen q.1 == t && d.rd QUE_STAT.state q.1 == 0).foldl (fun d q => d.enableNow q.1)
      { d with evtFill := [] } := by
  have hmem : d.evtFill.contains t = true := by simp [h]
  have hrest : (d.evtFill.filter fun x => x != t) = [] := by simp [h]
  simp only [eventArrayFillDone, hmem, hrest, if_true]
  rfl

theorem bits_lt (x hi lo : Nat) : bits x hi lo < 2 ^ (hi + 1 - lo) := Nat.mod_lt _ (Nat.two_pow_pos _)

/-- A valid event array of a tenancy without an enabled queue is cleared, and its fill begins (R125). -/
theorem eventArraySetup_of_valid {d : Device} {t value : Nat} (ha : d.fnAwake 0 = true)
    (hqueues : ∀ q, q < 4096 → d.qTen q = t → d.rd QUE_STAT.state q = 0) (hvalid : value % 2 = 1) (hfill : t ∉ d.evtFill) :
    eventArraySetup 0 t value d = { ((((d.wr QUE_EVT_BASE.base t (bits value 39 19)).zero spT1 (bits value 39 19 * 524288) 524288).wr
      QUE_EVT_BASE.valid t 1).setPage (pageKey 0 (bits value 39 19 * 524288 / pageSize)) pgSystem) with evtFill := t :: d.evtFill } := by
  have hbusy : ((List.range 4096).any fun q => d.qTen q == t && d.rd QUE_STAT.state q != qDisabled) = false := by
    simpa [qDisabled] using hqueues
  have hbit : bit value 0 = true := by simpa [bit] using hvalid
  have hbase : (d.wr QUE_EVT_BASE.base t (bits value 39 19)).rd QUE_EVT_BASE.base t = bits value 39 19 :=
    (rd_wr_self d QUE_EVT_BASE.base t _ (by decide)).trans (Nat.mod_eq_of_lt (bits_lt value 39 19))
  have hlist : (if d.evtFill.contains t then d.evtFill else t :: d.evtFill) = t :: d.evtFill := if_neg (by simpa using hfill)
  simp only [eventArraySetup, ha, hbusy, hbit, hbase, Bool.not_true, Bool.false_eq_true, ne_eq, not_true_eq_false, if_false, if_true]
  rw [← hlist]
  rfl

/-- Tenancy 0 sets up a Disabled queue and leaves it with its owner (R123). -/
theorem queCfgWrite_of_owner {d : Device} {q value : Nat} (ha : d.fnAwake 0 = true) (hst : d.rd QUE_STAT.state q = 0) (hv : value < 2 ^ 64)
    (howner : value / 2 ^ 58 = d.qTen q) :
    queCfgWrite 0 q value d = d.setReg .QUE_CFG q (BitVec.ofNat 64 value &&& BitVec.ofNat 64 0xFDFFFFFF00000003) := by
  have hnew : bits value 63 58 = d.qTen q := by
    rw [← howner, bits, Nat.shiftRight_eq_div_pow]
    exact Nat.mod_eq_of_lt (by omega)
  have hwhole : bits value 57 0 + d.qTen q <<< 58 = value := by
    rw [← howner, bits, Nat.shiftLeft_eq, Nat.shiftRight_zero]
    omega
  simp [queCfgWrite, ha, hst, hnew, hwhole, qDisabled]

/-- Settles O15, write by write of QUE_CTL, with the drain of a queue, the fill of an event array, and the writes that set them up. -/
theorem queueControl : Obligations.QueueControl := by
  unfold Obligations.QueueControl
  refine ⟨?enable, ?resume, ?reset, ?drained, ?filled, ?setup, ?config⟩
  case enable =>
    intro s fn q hfn hq hr hmay hst hfill hok
    rw [exec_of_via (fun _ => rfl) (by simp [Instr.wf, hfn, hq]) hr, queueEnable_of_disabled hmay hst hfill, enableNow_of_enableOk hok]
  case resume =>
    intro s fn q hfn hq hr hmay hst
    rw [exec_of_via (fun _ => rfl) (by simp [Instr.wf, hfn, hq]) hr, queueResume_of_halted hmay hst]
  case reset =>
    rintro s fn q _ hfn hq hr hmay rfl
    rw [exec_of_via (fun _ => rfl) (by simp [Instr.wf, hfn, hq]) hr, queueReset_of_mayQueue hmay]
  case drained =>
    intro s q hq hst hflight hpost
    rw [exec_of_wf (fun _ => rfl) (by simp [Instr.wf, hq]), queueDrained_of_empty hst hflight hpost]
  case filled =>
    intro s t ht hfill
    rw [exec_of_wf (fun _ => rfl) (by simp [Instr.wf, ht]), eventArrayFillDone_of_only hfill]
  case setup =>
    intro s t value ht hv hr hqueues hvalid hfill
    rw [exec_of_via (fun _ => rfl) (by simpa [Instr.wf, ht] using hv) hr, Device.whole,
      eventArraySetup_of_valid (fnAwake_of_reaches hr) hqueues hvalid hfill]
    rfl
  case config =>
    intro s q value hq hv hr hst howner
    rw [exec_of_via (fun _ => rfl) (by simpa [Instr.wf, hq] using hv) hr,
      queCfgWrite_of_owner (fnAwake_of_reaches hr) hst hv howner]

/-! ### Doorbells -/

/-- A Running or a Halted queue takes doorbells. -/
theorem served_of_running_or_halted {st : Nat} (h : st = 1 ∨ st = 2) : st ≠ qDisabled ∧ (decide (st = qRunning) || decide (st = qHalted)) = true := by
  rcases h with rfl | rfl <;> decide

section Doorbell

variable {d : Device} {fn q T value : Nat} (ha : d.fnAwake fn = true) (hT : T = value % 2 ^ 32)

include ha

theorem sqDoorbell_of_foreign (hten : d.qTen q ≠ fn) : sqDoorbell fn q value d = d.hostErr (0x1000 * q) 2 := by
  simp [sqDoorbell, ha, hten]

theorem sqDoorbell_of_disabled (hten : d.qTen q = fn) (hst : d.rd QUE_STAT.state q = 0) : sqDoorbell fn q value d = d.wr QUE_STAT.db_err q 3 := by
  simp [sqDoorbell, ha, hten, hst, qDisabled]

theorem cqDoorbell_of_foreign (hten : d.qTen q ≠ fn) : cqDoorbell fn q value d = d.hostErr (0x1000 * q + 8) 2 := by
  simp [cqDoorbell, ha, hten]

theorem cqDoorbell_of_disabled (hten : d.qTen q = fn) (hst : d.rd QUE_STAT.state q = 0) : cqDoorbell fn q value d = d.wr QUE_STAT.db_err q 3 := by
  simp [cqDoorbell, ha, hten, hst, qDisabled]

variable (hten : d.qTen q = fn) (hst : d.rd QUE_STAT.state q = 1 ∨ d.rd QUE_STAT.state q = 2)

include hten hst hT

/-- A tail within the ring becomes the accepted tail, and the commits between are counted (R128, R143). -/
theorem sqDoorbell_of_accepted {from_ : Nat} (hroom : (T + 2 ^ 32 - d.rd QUE_STAT.sq_head q) % 2 ^ 32 ≤ 2 ^ d.rd QUE_CFG.sq_log2 q)
    (hfrom : from_ = if (T + 2 ^ 32 - (d.queue q).tail) % 2 ^ 32 ≤ 2 ^ d.rd QUE_CFG.sq_log2 q then (d.queue q).tail else T) :
    sqDoorbell fn q value d = (d.setTxn fn { d.txn fn with visible := (d.txn fn).visible + d.newCommits q from_ T }).setQueue q
      { d.queue q with tail := T, commits := (d.queue q).commits + d.newCommits q from_ T } := by
  obtain ⟨hstate, hserved⟩ := served_of_running_or_halted hst
  simp only [sqDoorbell, ← hT, ha, hten, hstate, hserved, hroom, ← hfrom, ne_eq, not_true_eq_false, Bool.not_true, Bool.false_eq_true, if_false, if_true]

/-- A tail outside the ring stops the queue with error 1 (R128). -/
theorem sqDoorbell_of_outside (hover : 2 ^ d.rd QUE_CFG.sq_log2 q < (T + 2 ^ 32 - d.rd QUE_STAT.sq_head q) % 2 ^ 32) :
    sqDoorbell fn q value d = d.dbError q 1 := by
  obtain ⟨hstate, hserved⟩ := served_of_running_or_halted hst
  simp only [sqDoorbell, ← hT, ha, hten, hstate, hserved, Nat.not_le.2 hover, ne_eq, not_true_eq_false, Bool.not_true, Bool.false_eq_true, if_false, if_true]

/-- What a completion head does to a queue that is served (R128). -/
theorem cqDoorbell_of_served : cqDoorbell fn q value d =
    if ((d.queue q).cqTail + 2 ^ 32 - T) % 2 ^ 32 ≤ 2 ^ d.rd QUE_CFG.cq_log2 q then
      if ((d.queue q).cqTail + 2 ^ 32 - T) % 2 ^ 32 < 2 ^ d.rd QUE_CFG.cq_log2 q then (d.setQueue q { d.queue q with cqHead := T }).wr QUE_STAT.cq_full q 0
      else d.setQueue q { d.queue q with cqHead := T }
    else d.dbError q 2 := by
  obtain ⟨hstate, hserved⟩ := served_of_running_or_halted hst
  simp only [cqDoorbell, ← hT, ha, hten, hstate, hserved, ne_eq, not_true_eq_false, Bool.not_true, Bool.false_eq_true, if_false, if_true]
  rfl

end Doorbell

/-- A doorbell write of an awake function acts by its lower 32 bits; one of the submission ring first disarms Deep (R127). -/
theorem exec_sqDoorbell {s : State} {fn q value : Nat} (hfn : fn < 64) (hq : q < 4096) (hv : value < 2 ^ 64) (ha : s.dev.fnAwake fn = true) :
    exec (.sqDoorbell fn q value) s = .next (s.leads (sqDoorbell fn q (value % 2 ^ 32) (s.dev.disarmDeep 1))) := by
  have hwf : (Instr.sqDoorbell fn q value).wf = true := by simpa [Instr.wf, hfn, hq] using hv
  rw [exec_of_awake (fun _ => rfl) hwf ha]

theorem exec_cqDoorbell {s : State} {fn q value : Nat} (hfn : fn < 64) (hq : q < 4096) (hv : value < 2 ^ 64) (ha : s.dev.fnAwake fn = true) :
    exec (.cqDoorbell fn q value) s = .next (s.leads (cqDoorbell fn q (value % 2 ^ 32) s.dev)) := by
  have hwf : (Instr.cqDoorbell fn q value).wf = true := by simpa [Instr.wf, hfn, hq] using hv
  rw [exec_of_awake (fun _ => rfl) hwf ha]

/-- Settles O16, doorbell by doorbell. That the records of doorbell errors name the PCIe port is the model's own deduction (log 16). -/
theorem doorbells : Obligations.Doorbells := by
  unfold Obligations.Doorbells
  have hlow {T value : Nat} (hT : T = value % 2 ^ 32) : T = value % 2 ^ 32 % 2 ^ 32 := by rw [hT, Nat.mod_mod]
  refine ⟨?tail, ?tailOutside, ?tailDisabled, ?tailForeign, ?head, ?headFull, ?headOutside, ?headDisabled, ?headForeign, ?bad⟩
  case tail =>
    rintro s _ fn q value T from_ hfn hq hv hT ha rfl hd hten hst hroom hfrom
    rw [exec_sqDoorbell hfn hq hv ha, sqDoorbell_of_accepted hd (hlow hT) hten hst hroom hfrom]
  case tailOutside =>
    rintro s _ fn q value T hfn hq hv hT ha rfl hd hten hst hover
    rw [exec_sqDoorbell hfn hq hv ha, sqDoorbell_of_outside hd (hlow hT) hten hst hover]
  case tailDisabled =>
    rintro s _ fn q value T hfn hq hv _ ha rfl hd hten hst
    rw [exec_sqDoorbell hfn hq hv ha, sqDoorbell_of_disabled hd hten hst]
  case tailForeign =>
    rintro s _ fn q value T hfn hq hv _ ha rfl hd hten
    rw [exec_sqDoorbell hfn hq hv ha, sqDoorbell_of_foreign hd hten]
  case head =>
    intro s fn q value C hfn hq hv hC ha hten hst hroom
    rw [exec_cqDoorbell hfn hq hv ha, cqDoorbell_of_served ha (hlow hC) hten hst, if_pos (Nat.le_of_lt hroom), if_pos hroom]
  case headFull =>
    intro s fn q value C hfn hq hv hC ha hten hst hfull
    rw [exec_cqDoorbell hfn hq hv ha, cqDoorbell_of_served ha (hlow hC) hten hst, if_pos (Nat.le_of_eq hfull), if_neg (Nat.not_lt.2 (Nat.le_of_eq hfull.symm))]
  case headOutside =>
    intro s fn q value C hfn hq hv hC ha hten hst hover
    rw [exec_cqDoorbell hfn hq hv ha, cqDoorbell_of_served ha (hlow hC) hten hst, if_neg (Nat.not_le.2 hover)]
  case headDisabled =>
    intro s fn q value C hfn hq hv _ ha hten hst
    rw [exec_cqDoorbell hfn hq hv ha, cqDoorbell_of_disabled ha hten hst]
  case headForeign =>
    intro s fn q value C hfn hq hv _ ha hten
    rw [exec_cqDoorbell hfn hq hv ha, cqDoorbell_of_foreign ha hten]
  case bad =>
    intro s fn off hfn hoff ha
    rw [exec_of_awake (fun _ => rfl) (by simp [Instr.wf, hfn, hoff]) ha, doorbellBadWrite, if_pos ha]

/-! ### Rings -/

theorem fetches_of_running {d : Device} {q : Nat} (hst : d.rd QUE_STAT.state q = 1) (hten : d.rd TEN_STAT.state (d.qTen q) = 1) : d.fetches q = true := by
  simp [Device.fetches, hst, hten, qRunning, tnActive]

section Fetch

variable {d : Device} {q : Nat} (hst : d.rd QUE_STAT.state q = 1) (hten : d.rd TEN_STAT.state (d.qTen q) = 1) (hfull : d.on QUE_STAT.cq_full q = false)
  (htail : (d.queue q).tail ≠ d.rd QUE_STAT.sq_head q)

include hst hten hfull htail

/-- A fetch takes every entry from the head to the accepted tail (R129). -/
theorem submissionFetch_of_answered : submissionFetch q 0 d =
    ((d.setQueue q { d.queue q with fetched := (d.queue q).fetched ++
      ((List.range (((d.queue q).tail + 2 ^ 32 - d.rd QUE_STAT.sq_head q) % 2 ^ 32)).map
        fun i => (d.time, d.sqEntry q ((d.rd QUE_STAT.sq_head q + i) % 2 ^ 32))) }).wr QUE_STAT.sq_head q (d.queue q).tail).settle q := by
  simp [submissionFetch, fetches_of_running hst hten, hfull, htail]

/-- Poisoned data are recorded, and nothing is fetched (R442). -/
theorem submissionFetch_of_poisoned : submissionFetch q 1 d = d.logOp unitPcie 0x02 0 := by
  simp [submissionFetch, fetches_of_running hst hten, hfull, htail]

end Fetch

section Post

variable {d : Device} {q : Nat} {c : Completion} {rest : List Completion} (hpost : (d.queue q).toPost = c :: rest)

include hpost

/-- A quiet completion posts nothing. -/
theorem completionPost_of_quiet (hquiet : c.quiet = true) (hrest : rest ≠ []) : completionPost q d = d.setQueue q { d.queue q with toPost := rest } := by
  simp [completionPost, hpost, hquiet, hrest]

variable (hquiet : c.quiet = false) (hten : d.rd TEN_STAT.state (d.qTen q) ≠ 4)

include hquiet hten

/-- A completion is held while the ring is full (R137). -/
theorem completionPost_of_full (hst : d.rd QUE_STAT.state q ≠ 4)
    (hfull : 2 ^ d.rd QUE_CFG.cq_log2 q ≤ ((d.queue q).cqTail + 2 ^ 32 - (d.queue q).cqHead) % 2 ^ 32) : completionPost q d = d.wr QUE_STAT.cq_full q 1 := by
  have hheld : (d.rd QUE_STAT.state q == qDraining) = false := beq_false_of_ne hst
  simp only [completionPost, hpost, hquiet, tnResetting, hten, hheld, decide_eq_true hfull, decide_false, Bool.and_false, Bool.or_self, Bool.false_eq_true,
    if_false, if_true]

/-- A completion is written at the tail of a ring with room, and raises the queue's interrupt where one was asked for (R136, R137). -/
theorem completionPost_of_room {a : Device} (hroom : ((d.queue q).cqTail + 2 ^ 32 - (d.queue q).cqHead) % 2 ^ 32 < 2 ^ d.rd QUE_CFG.cq_log2 q)
    (h : a = ((d.writeHost (d.qTen q) (d.cqAddr q (d.queue q).cqTail) (d.compBytes q c (d.queue q).phase)).setQueue q { d.queue q with
      toPost := rest, cqTail := ((d.queue q).cqTail + 1) % 2 ^ 32,
      phase := if ((d.queue q).cqTail + 1) % 2 ^ 32 % 2 ^ d.rd QUE_CFG.cq_log2 q = 0 then !(d.queue q).phase else (d.queue q).phase }).wr QUE_STAT.cq_full q 0) :
    completionPost q d = if c.irq then a.raise (d.qTen q) (a.rd QUE_CFG.irq_vector q) else a := by
  subst h
  simp only [completionPost, hpost, hquiet, tnResetting, hten, Nat.not_le.2 hroom, decide_false, Bool.false_and, Bool.or_self, Bool.false_eq_true, if_false]

end Post

/-- Settles O17: fetches that are answered or poisoned, and completions posted, held or quiet. -/
theorem ringsServed : Obligations.RingsServed := by
  unfold Obligations.RingsServed
  refine ⟨?fetch, ?poisoned, ?post, ?held, ?quiet⟩
  case fetch =>
    rintro s q _ hq hst hten hfull htail rfl
    rw [exec_of_wf (fun _ => rfl) (by simp [Instr.wf, hq]), submissionFetch_of_answered hst hten hfull htail]
  case poisoned =>
    intro s q hq hst hten hfull htail
    rw [exec_of_wf (fun _ => rfl) (by simp [Instr.wf, hq]), submissionFetch_of_poisoned hst hten hfull htail]
  case post =>
    intro s q c rest a hq hpost hquiet hten hroom ha
    rw [exec_of_wf (fun _ => rfl) (by simp [Instr.wf, hq]), completionPost_of_room hpost hquiet hten hroom ha]
  case held =>
    intro s q c rest hq hpost hquiet hten hst hfull
    rw [exec_of_wf (fun _ => rfl) (by simp [Instr.wf, hq]), completionPost_of_full hpost hquiet hten hst hfull]
  case quiet =>
    intro s q c rest hq hpost hquiet hrest
    rw [exec_of_wf (fun _ => rfl) (by simp [Instr.wf, hq]), completionPost_of_quiet hpost hquiet hrest]

end Sys2Proof.Machine
end

section
/-! PROOFS. The commands of a step, configuration transactions, timetables and step boundaries (chapters 4 and 5). -/

namespace Sys2Proof.Machine

/-! ### The entry at the front of a queue -/

section Front

variable {s d : Device} {q op : Nat} {x : Nat × List Byte} {c : Cmd} (hstart : s.starts q op x = true) (hfront : (d, c) = s.startFront q x)

include hstart

/-- The entry that starts is the one at the front, and has its command's opcode. -/
theorem frontReady_of_starts : s.frontReady q = some x ∧ eOp x.2 = op := by
  simp only [Device.starts, Bool.and_eq_true, beq_iff_eq] at hstart
  obtain ⟨⟨⟨⟨hready, hop⟩, -⟩, -⟩, -⟩ := hstart
  exact ⟨hready, hop⟩

include hfront

/-- A command whose entry passes its checks has its own effect on the device in which it has started, and the queue's next entry is looked at. -/
theorem begin_of_startFront {g : List Byte → Bool} {k : Device → Cmd → Device} (hg : g x.2 = true) : s.begin q op g k = (k d c).settle q := by
  rw [begin_of_starts hstart hg, ← hfront]

omit hstart

/-- A started command holds its queue and its entry. -/
theorem startFront_cmd : c.queue = q ∧ c.entry = x.2 := by
  obtain rfl : c = (s.startFront q x).2 := congrArg Prod.snd hfront
  exact ⟨rfl, rfl⟩

end Front

/-! ### RUN, TIMETABLE_LOAD, LOG_MARK, STEP_COMMIT, BATCH_JOIN, BATCH_LEAVE -/

/-- The context of a RUN whose image has passed its checks: its legs wait (R116). -/
def freshRun (e : List Byte) (im : ManImg) (ready : Nat) : RunCtx :=
  { mid := rnMid e, image := rnImage e, args := rnArgs e, diePref := rnPref e, legs := im.legs, forms := im.forms, code := rnImage e + mhCode im.hdr, res := im.res,
    flags := mhFlags im.hdr, legSt := im.legs.map fun _ => .waiting, readyAt := ready, hash := im.hash }

/-- A Prompt or Spare RUN whose manifest is verified and fits waits to bind (R116, R118). -/
theorem runEffect_of_verified {d : Device} {c : Cmd} {img hdr : PeerAns} {ready : Nat} {im : ManImg} (hcls : eClass c.entry ≠ 0) (hmark : d.markEnd c.ten = none)
    (himage : d.loadImage c.ten (rnImage c.entry) (rnMid c.entry) (eClass c.entry) img = .ok im) (hfits : d.check13 im.res (eClass c.entry) = true) :
    runEffect img hdr ready d c =
      ((d.useVerified c.ten (rnMid c.entry) (rnImage c.entry) c.sn im).setCmd { c with run := some (freshRun c.entry im ready) }).argIngest c.ten (rnMid c.entry)
        (eCmdId c.entry) (rnArgs c.entry) := by
  simp only [runEffect, hmark, hcls, himage, hfits, decide_false, Bool.false_and, Bool.not_true, Bool.false_eq_true, if_false]
  rfl

theorem run_of_verified {s d : Device} {q : Nat} {x : Nat × List Byte} {c : Cmd} {img hdr : PeerAns} {im : ManImg} (hstart : s.starts q 0x01 x = true)
    (hfront : (d, c) = s.startFront q x) (hready : s.runReady q img hdr x.2 = true) (hcls : eClass x.2 ≠ 0) (hmark : d.markEnd c.ten = none)
    (himage : d.loadImage c.ten (rnImage x.2) (rnMid x.2) (eClass x.2) img = .ok im) (hfits : d.check13 im.res (eClass x.2) = true) :
    run q img hdr s = (((d.useVerified c.ten (rnMid x.2) (rnImage x.2) c.sn im).setCmd { c with run := some (freshRun x.2 im x.1) }).argIngest c.ten (rnMid x.2)
      (eCmdId x.2) (rnArgs x.2)).settle q := by
  obtain ⟨-, hentry⟩ := startFront_cmd hfront
  obtain ⟨hx, -⟩ := frontReady_of_starts hstart
  rw [← hentry] at hcls himage hfits ⊢
  simp only [run, hx]
  rw [begin_of_startFront hstart hfront hready, runEffect_of_verified hcls hmark himage hfits]

/-- A load with none before it is looked at at once (R156). -/
theorem timetableLoad_of_first {s d : Device} {q : Nat} {x : Nat × List Byte} {c : Cmd} {a : PeerAns} (hstart : s.starts q 0x0A x = true)
    (hfront : (d, c) = s.startFront q x) (hcls : eClass x.2 = 0) (hpart : d.isX = false) (hup : d.radioDown = false) (hnone : d.sched.loads = []) :
    timetableLoad q a s = (Device.runLoads 4096 a { d with sched := { d.sched with loads := [c.sn] } }).settle q := by
  obtain ⟨-, hentry⟩ := startFront_cmd hfront
  rw [timetableLoad, begin_of_startFront hstart hfront rfl]
  simp [hentry, hcls, hpart, hup, hnone]

theorem logMark_of_starts {s d : Device} {q : Nat} {x : Nat × List Byte} {c : Cmd} (hstart : s.starts q 0x0C x = true) (hfront : (d, c) = s.startFront q x) :
    logMark q s = ((d.logRec c.ten 8 d.devId 0 (mkTag c.ten (eClass x.2) (eClient x.2) 0 (d.step c.ten) 0) ((x.2.drop 32).take 8)).finish
      c.sn stOk 0 none).settle q := by
  obtain ⟨-, hentry⟩ := startFront_cmd hfront
  rw [← hentry]
  exact begin_of_startFront hstart hfront rfl

/-- A STEP_COMMIT that is the one command in progress tries to complete (R435). -/
theorem stepCommit_of_only {s d e : Device} {q : Nat} {x : Nat × List Byte} {c : Cmd} (hstart : s.starts q 0x0B x = true) (hfront : (d, c) = s.startFront q x)
    (he : e = d.settle q) (hcmds : e.cmds = [c]) : stepCommit q s = e.commitTry c := by
  obtain ⟨hqueue, hentry⟩ := startFront_cmd hfront
  obtain ⟨-, hop⟩ := frontReady_of_starts hstart
  have hfind : e.cmd? c.sn = some c := by simp [Device.cmd?, hcmds]
  rw [stepCommit, begin_of_startFront hstart hfront rfl, ← he]
  simp [hcmds, hqueue, hentry, hop, hfind]

/-- A join of a sequence that the batch does not know waits for the boundary (R171). -/
theorem batchJoin_of_new {s d : Device} {q : Nat} {x : Nat × List Byte} {c : Cmd} {y : Seq} (hstart : s.starts q 0x07 x = true)
    (hfront : (d, c) = s.startFront q x) (hcls : eClass x.2 ≠ 0) (hmax : d.rd SCH_BATCH_CFG.max_seq c.ten ≠ 0)
    (hseqs : ((d.batch c.ten).seqs.any fun y => y.id == leAt x.2 28 4) = false) (hpending : ((d.batch c.ten).pending.any fun p => p.2.id == leAt x.2 28 4) = false)
    (hy : y = { id := leAt x.2 28 4, batch := leAt x.2 32 2, prio := leAt x.2 34 1, cls := eClass x.2, client := eClient x.2, area := leAt x.2 40 8,
                need := leAt x.2 36 4, arrival := (d.batch c.ten).arrivals }) :
    batchJoin q s = ((d.setBatch c.ten { d.batch c.ten with
      pending := (d.batch c.ten).pending ++ [(c.sn, y)], arrivals := (d.batch c.ten).arrivals + 1 }).showKv c.ten).settle q := by
  obtain ⟨-, hentry⟩ := startFront_cmd hfront
  subst hy
  rw [batchJoin, begin_of_startFront hstart hfront rfl]
  simp only [hentry, hcls, hmax, hseqs, hpending, Bool.or_self, Bool.false_eq_true, if_false]

/-- A leave waits for the boundary (R170). -/
theorem batchLeave_of_starts {s d : Device} {q : Nat} {x : Nat × List Byte} {c : Cmd} (hstart : s.starts q 0x08 x = true) (hfront : (d, c) = s.startFront q x) :
    batchLeave q s = (d.setBatch c.ten { d.batch c.ten with
      leaves := (d.batch c.ten).leaves ++ [(c.sn, leAt x.2 28 4, leAt x.2 32 2)] }).settle q := by
  obtain ⟨-, hentry⟩ := startFront_cmd hfront
  rw [← hentry]
  exact begin_of_startFront hstart hfront rfl

/-- Settles O21, command by command of the entry that starts. -/
theorem stepCommands : Obligations.StepCommands := by
  unfold Obligations.StepCommands
  refine ⟨?run, ?load, ?mark, ?commit, ?join, ?leave⟩
  case run =>
    rintro s q x d c im _ hq hstart hfront hready hcls hmark himage hfits rfl
    rw [exec_of_settled (fun _ => rfl) (by simp [Instr.wf, hq]), run_of_verified hstart hfront hready hcls hmark himage hfits]
    rfl
  case load =>
    intro s q x d c hq hstart hfront hcls hpart hup hnone
    rw [exec_of_settled (fun _ => rfl) (by simp [Instr.wf, hq]), timetableLoad_of_first hstart hfront hcls hpart hup hnone]
  case mark =>
    intro s q x d c hq hstart hfront
    rw [exec_of_wf (fun _ => rfl) (by simp [Instr.wf, hq]), logMark_of_starts hstart hfront]
  case commit =>
    intro s q x d c e hq hstart hfront he _ hcmds
    rw [exec_of_settled (fun _ => rfl) (by simp [Instr.wf, hq]), stepCommit_of_only hstart hfront he hcmds]
  case join =>
    intro s q x d c y hq hstart hfront hcls hmax hseqs hpending hy
    rw [exec_of_wf (fun _ => rfl) (by simp [Instr.wf, hq]), batchJoin_of_new hstart hfront hcls hmax hseqs hpending hy]
  case leave =>
    intro s q x d c hq hstart hfront
    rw [exec_of_wf (fun _ => rfl) (by simp [Instr.wf, hq]), batchLeave_of_starts hstart hfront]

/-! ### Transactions -/

/-- A commit whose staged values pass becomes valid, and keeps the job bitmaps and weight lists that it read (R144). -/
theorem txnValidation_of_valid {d : Device} {t sn : Nat} {ws : List (Nat × List Nat × List Byte)} {js : List (Nat × List Nat)} (hst : d.txState t = 2)
    (hcommit : (d.txn t).commit = some sn) (hnew : (d.txn t).valid = false) (hcp : d.ras.cpBusy = none) (hpass : d.validTxn (d.txn t).staged = true)
    (hws : ws = (touched (d.txn t).staged .DET_WSET).filterMap fun u => (d.weightSet (d.withStaged (d.txn t).staged) u).map fun w => (u, w.1, w.2))
    (hjs : js = (touched (d.txn t).staged .FTP_JOB_CFG).map fun u =>
      (u, if (d.withStaged (d.txn t).staged).on FTP_JOB_CFG.valid u then d.jobBitmap (d.withStaged (d.txn t).staged) u else [])) :
    txnValidation t d = d.setTxn t { d.txn t with valid := true, validAt := d.cycle, weights := ws, jobs := js } := by
  subst hws hjs
  simp [txnValidation, hst, txCommitting, hcommit, hnew, hcp, hpass]

/-- A commit that stages nothing ends its transaction and completes (R145). -/
theorem takeEffect_of_empty {d : Device} {t sn : Nat} (opening : Bool) (hcommit : (d.txn t).commit = some sn) (hstaged : (d.txn t).staged = [])
    (hjobs : (d.txn t).jobs = []) (hweights : (d.txn t).weights = []) : d.takeEffect t opening = (d.endTxn t).commitDone t sn := by
  simp [Device.takeEffect, hcommit, hstaged, hjobs, hweights, touched, Device.withStaged]

theorem runInFlight_of_none {d : Device} {t : Nat} (h : ∀ c ∈ d.cmds, c.ten = t → eOp c.entry ≠ 1) : d.runInFlight t = false := by
  simpa [Device.runInFlight] using h

/-- A valid transaction of no slot takes effect with no RUN in flight (R145). -/
theorem txnTakeEffect_of_no_run {d : Device} {t : Nat} (hst : d.txState t = 2) (hvalid : (d.txn t).valid = true) (hslot : d.on TXN_STAT.slot_aligned t = false)
    (hrun : d.runInFlight t = false) : txnTakeEffect t d = d.takeEffect t false := by
  simp [txnTakeEffect, hst, txCommitting, hvalid, hslot, hrun]

/-! ### Timetables -/

/-- A placed timetable without a slot of its own is given the first that it can make, and its load completes (R158). -/
theorem timetablePlacementDone_of_first {d e : Device} {k sn S : Nat} {x : TtSlot} {t : Timetable} {c : Cmd} {a : PeerAns}
    (hx : x = smGet d.sched.tts k {}) (hload : x.load = some (t, sn)) (hloads : d.sched.loads = [sn]) (hcmd : d.cmd? sn = some c) (hfree : leAt c.entry 48 8 = 0)
    (hS : S = d.firstSlot t)
    (he : e = ({ d with sched := { d.sched with tts := smSet d.sched.tts k {} { x with
      next := (x.next.filter fun (o : Timetable) => decide (o.from_ < S)) ++ [{ t with from_ := S }], load := none }, loads := [] } }.showTt k).finish
        sn stOk 0 (some S)) :
    timetablePlacementDone k a d = Device.runLoads 4096 a (e.svcUnmute (e.slotStart t.mu S)) := by
  subst hS he
  simp [timetablePlacementDone, ← hx, hload, hloads, hcmd, hfree]

/-- A timetable comes into force at its first slot (R158). -/
theorem timetableInForce_of_reached {d : Device} {k : Nat} {x : TtSlot} {t : Timetable} {rest : List Timetable} (hx : x = smGet d.sched.tts k {})
    (hnext : x.next = t :: rest) (hfrom : t.from_ ≤ d.slotCount t.mu) : timetableInForce k d = ({ d with sched := { d.sched with
      tts := smSet d.sched.tts k {} { x with cur := some t, prev := x.cur, next := rest } } }.showTt k).timeEval := by
  simp only [timetableInForce, ← hx, hnext, if_neg (Nat.not_lt.2 hfrom)]

/-! ### Step boundaries -/

/-- A STEP_COMMIT that is ready to complete makes the boundary, and completes with the number of the step that follows (R170, R435). -/
theorem stepBoundary_of_commit {d e : Device} {t st detail : Nat} {c : Cmd} (hfind : (d.cmds.find? fun c => c.ten == t && eOp c.entry == 0x0B) = some c)
    (hnote : c.note = 3) (hfin : c.fin = some (st, detail)) (he : e = (d.boundaryWork t st true).shadowPoint t) :
    stepBoundary t d = e.finish c.sn st detail (some (e.step t)) := by
  subst he
  simp [stepBoundary, hfind, hnote, hfin]

/-- Without a STEP_COMMIT or a RUN the boundary is the other one of R145. -/
theorem stepBoundary_of_idle {d : Device} {t : Nat} (h : ∀ c ∈ d.cmds, c.ten = t → eOp c.entry ≠ 0x0B ∧ eOp c.entry ≠ 0x01) :
    stepBoundary t d = d.boundaryWork t 0 false := by
  have hcommit : (d.cmds.find? fun c => c.ten == t && eOp c.entry == 0x0B) = none := by
    simpa using fun c hc ht => (h c hc ht).1
  have hrun : d.runInFlight t = false := runInFlight_of_none fun c hc ht => (h c hc ht).2
  simp only [stepBoundary, hcommit, hrun, Bool.false_eq_true, if_false]
  rfl

/-- Settles O22, command by command. That a boundary without a STEP_COMMIT increments the step counter too
is the model's deduction (log 56). -/
theorem transactionsAndBoundaries : Obligations.TransactionsAndBoundaries := by
  unfold Obligations.TransactionsAndBoundaries
  refine ⟨?validation, ?effect, ?placed, ?inForce, ?commit, ?idle⟩
  case validation =>
    intro s t sn ws js ht hst hcommit hnew hcp hpass hws hjs
    rw [exec_of_wf (fun _ => rfl) (by simp [Instr.wf, ht]), txnValidation_of_valid hst hcommit hnew hcp hpass hws hjs]
  case effect =>
    intro s t sn ht hst hcommit hvalid hstaged hjobs hweights hslot hrun
    rw [exec_of_settled (fun _ => rfl) (by simp [Instr.wf, ht]), txnTakeEffect_of_no_run hst hvalid hslot (runInFlight_of_none hrun),
      takeEffect_of_empty false hcommit hstaged hjobs hweights]
  case placed =>
    intro s k sn S x t c a hk hx hload hloads hcmd hfree hS ha
    rw [exec_of_settled (fun _ => rfl) (by simp [Instr.wf, hk]), timetablePlacementDone_of_first hx hload hloads hcmd hfree hS ha]
  case inForce =>
    intro s k x t rest hk hx hnext hfrom
    rw [exec_of_wf (fun _ => rfl) (by simp [Instr.wf, hk]), timetableInForce_of_reached hx hnext hfrom]
  case commit =>
    intro s t st detail c e ht hfind hnote hfin he
    rw [exec_of_settled (fun _ => rfl) (by simp [Instr.wf, ht]), stepBoundary_of_commit hfind hnote hfin he]
  case idle =>
    intro s t ht h
    rw [exec_of_settled (fun _ => rfl) (by simp [Instr.wf, ht]), stepBoundary_of_idle h]

end Sys2Proof.Machine
end

section
/-! PROOFS. The scheduler (chapter 5): binding, placement of legs, pre-emption, Radio windows, reserve cores, and pages of a batch. -/

namespace Sys2Proof.Machine

/-! ### Binding and placement -/

/-- A command for which cores and contexts are found takes them, and its class's round robin moves on (R149, R150, R233). -/
theorem bindNow_of_picked {d e : Device} {x : Cmd × RunCtx} {cores : List Nat} {es : List (Nat × Nat)} (hcores : d.pickCores x.1 x.2 [] = some cores)
    (hes : d.pickEngines (leAt x.2.res 3 1) [] = some es) (hcls : eClass x.1.entry = 1)
    (he : e = (es.zipIdx.foldl (fun d p => (d.setRctx p.1.1 p.1.2 { sn := x.1.sn, pos := p.2 }).showEngine p.1.1) d).setCmd
      { x.1 with run := some { x.2 with cores := cores, engines := es } }) :
    d.bindNow x = { e with sched := { e.sched with rrPrompt := rrNext e.sched.rrPrompt x.1.ten } } := by
  subst he
  simp only [Device.bindNow, hcores, hes, hcls, if_true]

/-- The Prompt command that waits first binds where it can (R149). -/
theorem commandBind_of_prompt {d : Device} {x : Cmd × RunCtx} (hfirst : d.firstWaitingCmd 1 d.sched.rrPrompt (fun _ => true) = some x)
    (hbind : d.canBind x = true) : commandBind d = d.bindNow x := by
  simp only [commandBind, hfirst, hbind, if_true]

/-- The leg that may be placed on a core goes to its empty mailbox; one that is resident waits for no code (R115, R161). -/
theorem legPlace_of_placeable {d e : Device} {n i : Nat} {c : Cmd} {r : RunCtx} (a : PeerAns) (hmail : (d.core n).mail = []) (hst : d.coreSt n = 3)
    (hbound : d.boundTo n = some c) (hrun : c.run = some r) (hfail : r.fail = none) (hpre : r.preempted = false) (hplace : d.placeable n r = some i)
    (hint : d.internalLeg n = none) (hres : lgResident (r.legs.getD i []) = true)
    (he : e = d.putMail n { sn := c.sn, idx := i, desc := legDesc c r i (d.step c.ten) }) :
    legPlace n a d = (e.setCore n { e.core n with legsSince := (e.core n).legsSince + 1 }).setLegSt c.sn i .placed := by
  subst he
  simp only [legPlace, hmail, hst, csIdle, hbound, hrun, hfail, hpre, hplace, hint, hres, List.any_nil, List.length_nil, Option.isNone_none, Option.map_some,
    Bool.not_false, Bool.and_self, if_true]
  rfl

/-! ### Pre-emption, Radio windows and reserve cores -/

/-- A command that has waited its time pre-empts its victims among the bound Spare commands, the youngest first (R151). -/
theorem preemptWaitExpiry_of_waiting {d : Device} {sn : Nat} {x : Cmd × RunCtx} {sps : List Nat}
    (hfind : ((d.waitingCmds 1).find? fun x => x.1.sn == sn) = some x)
    (hsps : sps = ((d.cmds.filter fun c => eClass c.entry == 2 && (match c.run with | some r => !r.cores.isEmpty | none => false)).map fun c => c.sn).reverse) :
    preemptWaitExpiry sn d = (d.victims x sps []).foldl (fun d v => d.preempt v) d := by
  subst hsps
  simp only [preemptWaitExpiry, hfind] <;> rfl

/-- A Radio window of a core that is idle for it places its leg at the head of that core's mailbox (R159, R163). -/
theorem radioWindowCheck_of_idle {d : Device} {k sl w : Nat} {t : Timetable} {j : TtJob} {win : Window} {c : Cmd} {r : RunCtx}
    (htt : (smGet d.sched.tts k {}).at sl = some t) (hwin : t.windows[w]? = some win) (hjob : t.jobs[win.job]? = some j) (hcovers : j.covers t.period sl = true)
    (hidle : d.notIdle win.core = false) (hrun : d.radioRun k win.job sl = some (c, r)) :
    radioWindowCheck k sl w d = (d.setLegSt c.sn win.leg .placed).putMail win.core
      { sn := c.sn, idx := win.leg, desc := legDesc c r win.leg sl, start := some (d.windowCycle t sl win).toNat, moved := false, fromCore := win.core } := by
  simp only [radioWindowCheck, htt, hwin, hjob, hcovers, hidle, hrun, Bool.not_true, Bool.not_false, Bool.false_eq_true, if_false, if_true]

theorem reserveCountApply_of_unbound {d : Device} {n : Nat} (h : d.boundTo n = none) :
    reserveCountApply n d = { d with sched := { d.sched with reserveNow := d.sched.reserveNow.filter fun r => r.1 != n } } := by
  simp only [reserveCountApply, h, Option.isSome_none, Bool.false_eq_true, if_false]

/-! ### Pages of a batch -/

/-- KVGET of a sequencer that waits on no token gives the sequence the lowest reserve page, and sets its token (R172). -/
theorem kvgetOp_of_reserve {d : Device} {tok p : Nat} {l : Leg} {b : BatchCtx} {y : Seq} (hb : b = d.batch l.ten)
    (hfind : (b.seqs.find? fun x => x.id == y.id) = some y) (hpage : leastPage b.reserve = some p) (hroom : y.pages.length < 1024) (hwait : l.seqWait = none) :
    kvgetOp tok y.id d l = .go ((d.setBatch l.ten { b with
        seqs := b.seqs.map fun x => if x.id = y.id then { y with pages := y.pages ++ [p] } else x
        reserve := b.reserve.filter fun x => x != p }).showKv l.ten)
      { l with tokens := smIns l.tokens tok { err := false }, kv := smIns l.kv tok p, laneWait := if l.laneWait = some tok then none else l.laneWait } := by
  simp only [kvgetOp, ← hb, hfind, hpage, if_neg (Nat.not_le.2 hroom), hwait, ite_self]

/-- At the end of an eviction the page's copies land and its old place is vacated; the page leaves its sequence and returns to the pool (R174). -/
theorem evictionCrossingDone_of_eviction {d a : Device} {t seq page ch : Nat} {x : Xfer}
    (hfind : (d.mm.chans.find? fun c => c.2.kind == 3 && c.2.ten == t && c.2.seq == seq && c.2.entry == page &&
      d.rd MEM_CHAN_STAT.state c.1 == chFlipping) = some (ch, x))
    (hout : x.src = d.devId <<< 52 + page * pageSize) (harriving : x.arriving = [])
    (ha : a = ((d.setPages x.departing pgVacated).releaseHeld ch fun ga => if inRange ga x.src x.len then x.dst + (ga - x.src) else ga).dropChan ch) :
    evictionCrossingDone t seq page d = (((a.setBatch t { a.batch t with
      seqs := (a.batch t).seqs.map fun y => if y.id = seq then { y with moving := y.moving.filter (fun p => p != page), pages := y.pages.filter (fun p => p != page) }
        else y }).returnPage t page).showKv t) := by
  have hsrc : (x.src == d.devId <<< 52 + page * pageSize) = true := beq_iff_eq.2 hout
  have hland : d.setPages [] pgLanded = d := rfl
  subst ha
  simp only [evictionCrossingDone, hfind, hsrc, harriving, hland, ite_self, Bool.true_or, if_true]

/-- Settles O23, command by command. The choice of cores over several dies (log 26) and the pattern of the weighted round robin (log 27) are the model's own, and
that the legs of one core position start in the order of the leg table is its deduction (log 58). -/
theorem schedulerCommands : Obligations.SchedulerCommands := by
  unfold Obligations.SchedulerCommands
  refine ⟨?bind, ?place, ?preempt, ?window, ?reserve, ?kvget, ?evicted⟩
  case bind =>
    intro s x cores es e hfirst hbind hcores hes hcls he
    rw [exec_of_settled (fun _ => rfl) rfl, commandBind_of_prompt hfirst hbind, bindNow_of_picked hcores hes hcls he]
  case place =>
    intro s n i c r e hn hmail hst hbound hrun hfail hpre hplace hint hres he
    rw [exec_of_settled (fun _ => rfl) (by simp [Instr.wf, hn]), legPlace_of_placeable _ hmail hst hbound hrun hfail hpre hplace hint hres he]
  case preempt =>
    intro s sn x sps hfind hsps
    rw [exec_of_settled (fun _ => rfl) rfl, preemptWaitExpiry_of_waiting hfind hsps]
  case window =>
    intro s k sl w t j win c r hk htt hwin hjob hcovers hidle hrun
    rw [exec_of_settled (fun _ => rfl) (by simp [Instr.wf, hk]), radioWindowCheck_of_idle htt hwin hjob hcovers hidle hrun]
  case reserve =>
    intro s n hn h
    rw [exec_of_wf (fun _ => rfl) (by simp [Instr.wf, hn]), reserveCountApply_of_unbound h]
  case kvget =>
    intro s n tok cy p l m e b y hn htok hcy h hb hfind hpage hroom
    have ⟨_, hwait, _⟩ := h
    rw [exec_of_settled (fun _ => rfl) (by simp [Instr.wf, hn, htok]), kvget, seqAct_go (cyc := none) h hcy (kvgetOp_of_reserve hb hfind hpage hroom hwait)]
  case evicted =>
    intro s t seq page ch x a ht hfind hout harriving ha
    rw [exec_of_settled (fun _ => rfl) (by simp [Instr.wf, ht]), evictionCrossingDone_of_eviction hfind hout harriving ha]

end Sys2Proof.Machine
end

section
/-! PROOFS. Slots, pulse outputs, capture inputs and PPS_IN (chapter 6). -/

namespace Sys2Proof.Machine

/-! ### Slot boundaries -/

/-- A slot boundary that is one of a subframe puts the due transactions in force (R145, R194). -/
theorem slotBoundary_of_subframe {d a : Device} {mu : Nat} (ha : a = d.toSlot mu) (h : a.slotCount mu % 2 ^ mu = 0) : slotBoundary mu d = a.subframeTxns := by
  subst ha
  simp only [slotBoundary, h, ne_eq, not_true_eq_false, if_false]

theorem slotBoundary_of_inner {d : Device} {mu : Nat} (h : (d.toSlot mu).slotCount mu % 2 ^ mu ≠ 0) : slotBoundary mu d = d.toSlot mu := if_pos h

/-! ### Pulse outputs -/

/-- A function that is awake is not in D3hot (R441). -/
theorem not_d3hot_of_fnAwake {d : Device} {fn : Nat} (h : d.fnAwake fn = true) : (smGet d.tens fn {}).d3hot = false := by
  simp only [Device.fnAwake, Bool.and_eq_true, Bool.not_eq_true'] at h
  exact h.1

/-- The word that a write leaves in the control of a pulse output that is off, but for its enable bit: reserved bits read 0, and missed stays until a 1 clears it
(Table 6-16). -/
def Device.ppsWord (d : Device) (k value : Nat) : Word :=
  BitVec.ofNat 64 (value - value % 256 - (bits value 11 8) <<< 8 + (b2n (d.on TIM_PPS_CTL.missed k && !bit value 7)) <<< 7 + (bits value 6 5) <<< 5 +
    (bits value 1 1) <<< 1)

section PulseEnable

variable {d : Device} {k value : Nat} (ha : d.fnAwake 0 = true)

include ha

/-- A pulse output that is switched off stops (R197). -/
theorem ppsEnable_of_off {p : Pulse} (hoff : bit value 0 = false) (hwas : d.on TIM_PPS_CTL.enable k = true) (hp : p = smGet d.timing.pulses k {}) :
    ppsEnable 0 k value d = (d.wr TIM_PPS_CTL.enable k 0).setPulse k { p with armed := false, high := false, level := false } := by
  subst hp
  simp only [ppsEnable, not_d3hot_of_fnAwake ha, hoff, hwas, ne_eq, not_true_eq_false, Bool.not_false, Bool.false_eq_true, if_false, if_true]

/-- A pulse output that is switched on with a width that fits: a periodic one is armed for the first edge of its grid that is at least 1 µs away, a single one for
its start, unless that is nearer, which marks it missed (R197, R198). -/
theorem ppsEnable_of_on {a e : Device} (hon : bit value 0 = true) (hwas : d.on TIM_PPS_CTL.enable k = false)
    (hset : a = d.setReg .TIM_PPS_CTL k (d.ppsWord k value))
    (hfits : (decide (a.rd TIM_PPS_CTL.width_ns k = 0) ||
      a.on TIM_PPS_CTL.periodic k && decide (a.rd TIM_PPS_CTL.period_ns k ≤ a.rd TIM_PPS_CTL.width_ns k)) = false)
    (he : e = a.wr TIM_PPS_CTL.enable k 1) : ppsEnable 0 k value d =
      if a.on TIM_PPS_CTL.periodic k then e.setPulse k { armed := true, next := e.gridEdge k ((e.time : Int) + usT) }
      else if (e.time : Int) + usT ≤ e.pulseStart k then e.setPulse k { armed := true, next := (e.pulseStart k).toNat }
      else (e.wr TIM_PPS_CTL.missed k 1).setPulse k {} := by
  rw [Device.ppsWord] at hset
  subst he
  simp only [ppsEnable, not_d3hot_of_fnAwake ha, hon, hwas, ← hset, hfits, ne_eq, not_true_eq_false, Bool.not_true, Bool.false_eq_true, if_false]

end PulseEnable

theorem exec_ppsEnable {s : State} {k value : Nat} (hk : k < 4) (hv : value < 2 ^ 64) (hr : s.dev.reaches 0 .TIM_PPS_CTL = true) :
    exec (.ppsEnable 0 k value) s = .next (s.leads (ppsEnable 0 k value s.dev)) := by
  have hwf : (Instr.ppsEnable 0 k value).wf = true := by simpa [Instr.wf, hk] using hv
  rw [exec_of_via (fun _ => rfl) hwf hr]

section PulseEdge

variable {d : Device} {k : Nat} {p : Pulse} (hp : p = smGet d.timing.pulses k {})

include hp

/-- A rising edge that is due: the pin is driven unless the output is held low, and the next edge of a periodic pulse is armed (R198). -/
theorem pulseEdge_of_rise (hlow : p.high = false) (harmed : p.armed = true) (hdue : p.next ≤ d.time) : pulseEdge k d =
    (if d.pulseHeld k then d else { d with sent := .pulse k true p.next :: d.sent }).setPulse k
      { armed := d.on TIM_PPS_CTL.periodic k, next := if d.on TIM_PPS_CTL.periodic k then p.next + 144 * d.rd TIM_PPS_CTL.period_ns k else p.next, high := true,
        fall := p.next + 144 * d.rd TIM_PPS_CTL.width_ns k, level := !d.pulseHeld k } := by
  have hwait : decide (d.time < p.next) = false := decide_eq_false (Nat.not_lt.2 hdue)
  simp only [pulseEdge, ← hp, hlow, harmed, hwait, Bool.not_true, Bool.or_self, Bool.false_eq_true, if_false]
  cases d.pulseHeld k <;> rfl

/-- A falling edge that is due, of a pulse that was driven. -/
theorem pulseEdge_of_fall (hhigh : p.high = true) (hdue : p.fall ≤ d.time) (hlevel : p.level = true) : pulseEdge k d =
    ({ d with sent := .pulse k false p.fall :: d.sent } : Device).setPulse k { p with high := false, level := false } := by
  simp only [pulseEdge, ← hp, hhigh, hlevel, if_neg (Nat.not_lt.2 hdue), if_true]

end PulseEdge

/-! ### Capture inputs -/

section Capture

variable {d : Device} {k : Nat} {fall : Bool}

theorem captureEdge_of_unselected (h : (if fall then bit (d.rd TIM_CAP_CTL.edges k) 1 else bit (d.rd TIM_CAP_CTL.edges k) 0) = false) :
    captureEdge k fall d = d := by
  simp only [captureEdge, h, Bool.not_false, if_true]

variable (hsel : (if fall then bit (d.rd TIM_CAP_CTL.edges k) 1 else bit (d.rd TIM_CAP_CTL.edges k) 0) = true)

include hsel

/-- An edge too soon after the last accepted one is rejected (R199). -/
theorem captureEdge_of_soon {x : Nat × Nat} (hlast : (d.timing.capLast.find? fun x => x.1 == k) = some x) (hsoon : d.cycle < x.2 + 180) :
    captureEdge k fall d = d.incSat TIM_CAP_CTL.rejected k 1 := by
  simp only [captureEdge, hsel, hlast, decide_eq_true hsoon, Bool.not_true, Bool.false_eq_true, if_false, if_true]

/-- An accepted edge is stamped where the FIFO has room, and else counts as an overflow (R199). -/
theorem captureEdge_of_accepted {a : Device} (hlast : ∀ x, (d.timing.capLast.find? fun x => x.1 == k) = some x → x.2 + 180 ≤ d.cycle)
    (ha : a = { d with timing := { d.timing with capLast := smIns d.timing.capLast k d.cycle } }) : captureEdge k fall d =
      if 16 ≤ (smGet d.timing.fifos k []).length then a.incSat TIM_CAP_CTL.overflows k 1
      else ({ a with timing := { a.timing with
        fifos := smSet a.timing.fifos k [] (smGet d.timing.fifos k [] ++ [⟨fall, a.rd TIM_STAT.steps 0 % 64, a.time⟩]) } } : Device).showCap k := by
  subst ha
  simp only [captureEdge, hsel, Bool.not_true, Bool.false_eq_true, if_false]
  cases hfind : d.timing.capLast.find? fun x => x.1 == k with
  | none => rfl
  | some x =>
    have hlate : decide (d.cycle < x.2 + 180) = false := decide_eq_false (Nat.not_lt.2 (hlast x hfind))
    simp only [hlate, Bool.false_eq_true, if_false]

end Capture

/-- A read of the stamp answers it and removes it (R200). -/
theorem capNsRead_of_awake {d : Device} {fn k : Nat} (ha : d.fnAwake fn = true) : capNsRead fn k d =
    ({ d with
      timing := { d.timing with fifos := smSet d.timing.fifos k [] (smGet d.timing.fifos k []).tail }
      sent := .readAnswer fn (0xD00710 + 0x20 * k) 8 (d.reg .TIM_CAP_NS k).toNat :: d.sent } : Device).showCap k := by
  simp only [capNsRead, not_d3hot_of_fnAwake ha, Bool.false_eq_true, if_false]

/-! ### PPS_IN -/

theorem ppsInEdge_of_soon {d : Device} {t : Nat} (hlast : d.timing.ppsLast = some t) (hsoon : d.cycle < t + 900000000) :
    ppsInEdge true d = d.incSat TIM_PPSIN_STAT.rejected 0 1 := by
  simp only [ppsInEdge, hlast, decide_eq_true hsoon, Bool.not_true, Bool.false_eq_true, if_false, if_true]

/-- What an accepted edge of PPS_IN does: it updates the domains that PPS_IN feeds (R202). -/
def Device.ppsUpdate (d : Device) : Device :=
  if !([0, 1].any fun i => d.rd TIM_DOM_CFG.source i == 4) then d
  else
    let sec := if d.timing.todFresh then d.rd TIM_TOD_NEXT.seconds 0 else d.timing.todPrev + 1
    let b := if d.timing.todFresh then d else d.incSat TIM_PPSIN_STAT.tod_assumed 0 1
    [0, 1].foldl (fun e i => if e.rd TIM_DOM_CFG.source i = 4 then
      domainUpdate i ((((sec * secT : Nat) : Int) - ((b.time : Int) - (144 * b.rd TIM_TOD_NEXT.delay_ns 0 : Nat))) / 144) 0 e else e)
        { b with timing := { b.timing with todFresh := false, todPrev := sec } }

theorem ppsInEdge_of_accepted {d : Device} (hlast : ∀ t, d.timing.ppsLast = some t → t + 900000000 ≤ d.cycle) :
    ppsInEdge true d = ({ d with timing := { d.timing with ppsLast := some d.cycle } } : Device).ppsUpdate := by
  cases h : d.timing.ppsLast with
  | none =>
    simp only [ppsInEdge, h, Bool.not_true, Bool.false_eq_true, if_false]
    rfl
  | some t =>
    simp only [ppsInEdge, h, decide_eq_false (Nat.not_lt.2 (hlast t h)), Bool.not_true, Bool.false_eq_true, if_false]
    rfl

theorem ppsUpdate_of_unfed {d : Device} (h0 : d.rd TIM_DOM_CFG.source 0 ≠ 4) (h1 : d.rd TIM_DOM_CFG.source 1 ≠ 4) : d.ppsUpdate = d := by
  simp [Device.ppsUpdate, h0, h1]

theorem ppsUpdate_of_fed {d b : Device} {sec : Nat} (hfed : d.rd TIM_DOM_CFG.source 0 = 4 ∨ d.rd TIM_DOM_CFG.source 1 = 4)
    (hsec : sec = if d.timing.todFresh then d.rd TIM_TOD_NEXT.seconds 0 else d.timing.todPrev + 1)
    (hb : b = if d.timing.todFresh then d else d.incSat TIM_PPSIN_STAT.tod_assumed 0 1) : d.ppsUpdate =
      [0, 1].foldl (fun e i => if e.rd TIM_DOM_CFG.source i = 4 then
        domainUpdate i ((((sec * secT : Nat) : Int) - ((b.time : Int) - (144 * b.rd TIM_TOD_NEXT.delay_ns 0 : Nat))) / 144) 0 e else e)
          { b with timing := { b.timing with todFresh := false, todPrev := sec } } := by
  have hany : ([0, 1].any fun i => d.rd TIM_DOM_CFG.source i == 4) = true := by simpa using hfed
  rw [Device.ppsUpdate, hany, hsec, hb]
  rfl

/-- Settles O43, edge by edge. That a slot-aligned transaction takes effect at the first subframe boundary 50 µs after its validation (log 124), and that an edge
of a capture input is too soon within 100 ns of the last accepted one (log 47), are the model's deductions. -/
theorem slotsPulsesCaptures : Obligations.SlotsPulsesCaptures := by
  unfold Obligations.SlotsPulsesCaptures
  refine ⟨?subframe, ?inner, ?off, ?single, ?periodic, ?rise, ?riseHeld, ?fall, ?stamp, ?overflow, ?soon, ?unselected, ?read, ?glitch, ?ppsSoon, ?ppsUnfed, ?ppsFed⟩
  case subframe =>
    intro s mu a hmu ha h
    rw [exec_of_settled (fun _ => rfl) (by simp [Instr.wf, hmu]), slotBoundary_of_subframe ha h]
    rfl
  case inner =>
    intro s mu hmu h
    rw [exec_of_settled (fun _ => rfl) (by simp [Instr.wf, hmu]), slotBoundary_of_inner h]
  case off =>
    intro s k value p hk hv hr hoff hwas hp
    rw [exec_ppsEnable hk hv hr, ppsEnable_of_off (fnAwake_of_reaches hr) hoff hwas hp]
  case single =>
    intro s k value a hk hv hr hon hwas hset hwidth hsingle hahead
    rw [exec_ppsEnable hk hv hr, ppsEnable_of_on (fnAwake_of_reaches hr) hon hwas hset (by simp [hwidth, hsingle]) rfl, if_neg (ne_true_of_eq_false hsingle), if_pos hahead]
  case periodic =>
    intro s k value a hk hv hr hon hwas hset hwidth hper hshort
    rw [exec_ppsEnable hk hv hr, ppsEnable_of_on (fnAwake_of_reaches hr) hon hwas hset (by simp [hwidth, hshort]) rfl, if_pos hper]
  case rise =>
    intro s k p hk hp hlow harmed hdue hheld
    rw [exec_of_wf (fun _ => rfl) (by simp [Instr.wf, hk]), pulseEdge_of_rise hp hlow harmed hdue, hheld]
    rfl
  case riseHeld =>
    intro s k p hk hp hlow harmed hdue hheld
    rw [exec_of_wf (fun _ => rfl) (by simp [Instr.wf, hk]), pulseEdge_of_rise hp hlow harmed hdue, hheld]
    rfl
  case fall =>
    intro s k p hk hp hhigh hdue hlevel
    rw [exec_of_wf (fun _ => rfl) (by simp [Instr.wf, hk]), pulseEdge_of_fall hp hhigh hdue hlevel]
  case stamp =>
    intro s k fall a hk hsel hlast hroom ha
    rw [exec_of_wf (fun _ => rfl) (by simp [Instr.wf, hk]), captureEdge_of_accepted hsel hlast ha, if_neg (Nat.not_le.2 hroom)]
  case overflow =>
    intro s k fall a hk hsel hlast hfull ha
    rw [exec_of_wf (fun _ => rfl) (by simp [Instr.wf, hk]), captureEdge_of_accepted hsel hlast ha, if_pos hfull]
  case soon =>
    intro s k fall x hk hsel hlast hsoon
    rw [exec_of_wf (fun _ => rfl) (by simp [Instr.wf, hk]), captureEdge_of_soon hsel hlast hsoon]
  case unselected =>
    intro s k fall hk hsel
    rw [exec_of_wf (fun _ => rfl) (by simp [Instr.wf, hk]), captureEdge_of_unselected hsel]
  case read =>
    intro s fn k hfn hk hr
    rw [exec_of_via (fun _ => rfl) (by simp [Instr.wf, hfn, hk]) hr, capNsRead_of_awake (fnAwake_of_reaches hr)]
  case glitch => exact fun s => rfl
  case ppsSoon =>
    intro s t hlast hsoon
    rw [exec_of_wf (fun _ => rfl) rfl, ppsInEdge_of_soon hlast hsoon]
  case ppsUnfed =>
    intro s hlast h0 h1
    rw [exec_of_wf (fun _ => rfl) rfl, (ppsInEdge_of_accepted hlast).trans (ppsUpdate_of_unfed h0 h1)]
  case ppsFed =>
    rintro s sec _ b hlast hfed rfl hsec hb
    rw [exec_of_wf (fun _ => rfl) rfl, (ppsInEdge_of_accepted hlast).trans (ppsUpdate_of_fed hfed hsec hb)]

end Sys2Proof.Machine
end

section
/-! PROOFS. Power and temperature (chapters 5 and 17): the update of the duties, critical action, and what a reading of a sensor does. -/

namespace Sys2Proof.Machine

/-! ### Power control -/

/-- The measured powers as PWR_POWER_STAT shows them (R497). -/
def Device.showPower (w p0 p1 p2 p3 : Nat) (d : Device) : Device :=
  ((((d.wr PWR_POWER_STAT.pkg_w 0 (wattsIn PWR_POWER_STAT.pkg_w w)).wr PWR_POWER_STAT.cd0_w 0 (wattsIn PWR_POWER_STAT.cd0_w p0)).wr
    PWR_POWER_STAT.cd1_w 0 (wattsIn PWR_POWER_STAT.cd1_w p1)).wr PWR_POWER_STAT.cd2_w 0 (wattsIn PWR_POWER_STAT.cd2_w p2)).wr
    PWR_POWER_STAT.cd3_w 0 (wattsIn PWR_POWER_STAT.cd3_w p3)

/-- The highest duties since the last telemetry record take in those that now stand (Table 17-8). -/
def Device.keepMaxima (d : Device) : Device :=
  { d with pwr := { d.pwr with
    spareMax := max d.pwr.spareMax (d.topDuty SCH_THR_STAT.spare_duty)
    promptMax := max d.pwr.promptMax (d.topDuty SCH_THR_STAT.prompt_duty) } }

section PowerControl

variable {d : Device} {w p0 p1 p2 p3 : Nat}

theorem powerControlUpdate_of_unpowered (hpow : d.unpowered = true) : powerControlUpdate w p0 p1 p2 p3 d = d := if_pos hpow

variable {a b : Device} (hpow : d.unpowered = false) (ha : a = d.showPower w p0 p1 p2 p3)

include hpow ha

/-- In D0 an update moves the duties of the four compute dies in turn (R497). -/
theorem powerControlUpdate_of_d0 (hd0 : a.ps = psD0) (hb : b = (((a.throttle w p0 0).throttle w p1 1).throttle w p2 2).throttle w p3 3) :
    powerControlUpdate w p0 p1 p2 p3 d = b.keepMaxima := by
  subst ha hb
  exact (if_neg (ne_true_of_eq_false hpow)).trans (if_neg fun hne => hne hd0)

/-- Outside D0 no leg runs, and an update shows the powers alone (R490). -/
theorem powerControlUpdate_of_not_d0 (hd0 : a.ps ≠ psD0) : powerControlUpdate w p0 p1 p2 p3 d = a := by
  subst ha
  exact (if_neg (ne_true_of_eq_false hpow)).trans (if_pos hd0)

end PowerControl

/-! ### Critical action -/

/-- Critical action begins only on a die that is not in it (Table 17-4). -/
theorem setCrit_of_calm {d : Device} {die : Nat} (hcalm : (d.pwr.crit.any fun c => c.1 == die) = false) : d.setCrit die =
    ({ d with pwr := { d.pwr with crit := smIns d.pwr.crit die none } }.wr PWR_STATE_STAT.crit 0 1).ibi 2 := if_neg (ne_true_of_eq_false hcalm)

/-- The compute die whose reading is the highest, the first of several. -/
def Device.hottestDie (d : Device) : Nat := (List.range 4).foldl (fun b k => if d.tj b < d.tj k then k else b) 0

theorem pkgExcessTimeout_of_unpowered {d : Device} (hpow : d.unpowered = true) : pkgExcessTimeout d = d := if_pos hpow

theorem pkgExcessTimeout_of_powered {d : Device} {k : Nat} (hpow : d.unpowered = false) (hk : k = d.hottestDie) : pkgExcessTimeout d = d.setCrit k :=
  hk ▸ if_neg (ne_true_of_eq_false hpow)

/-! ### Units that are read -/

theorem unitOf_div {die i : Nat} (h : i < 4096) : unitOf die i / 4096 = die := by
  unfold unitOf
  omega

theorem unitOf_mod {die i : Nat} (h : i < 4096) : unitOf die i % 4096 = i := by
  unfold unitOf
  omega

theorem stackUnit_div (k : Nat) : stackUnit k / 4096 = 4 + k / 4 := unitOf_div (by omega)

theorem stackUnit_mod (k : Nat) : stackUnit k % 4096 = k % 4 := unitOf_mod (by omega)

/-- A reading can name the units of dies 0 to 6. -/
theorem exec_thermalSample {s : State} {u mv : Nat} {t : Int} (hdie : u / 4096 < 7) (hmv : mv < 65536) :
    exec (.thermalSample u t mv) s = .next (s.leads (thermalSample u t mv s.dev)) := by
  have hu : u < 28672 := by omega
  exact exec_of_wf (fun _ => rfl) (by simp [Instr.wf, hu, hmv]) s

/-! ### Readings -/

/-- The device with the stacks `slow` that run slower (R498). -/
def Device.slowStacks (d : Device) (slow : List Nat) : Device := { d with pwr := { d.pwr with hbmSlow := slow } }

/-- The trip of a die at 120 °C, once (R499). -/
def Device.tripIfHot (d : Device) (die : Nat) : Device := if 480 ≤ d.tj die ∧ d.pwr.thermTrip = false then d.trip else d

section Readings

variable {d a : Device} {t : Int} {mv : Nat} (hgate : d.pwr.gated = false) (hdeep : d.ps ≠ psDeep) (hsaved : d.ps ≠ psSaved)

include hgate hdeep hsaved

/-- The sensors of a device that is neither gated, in Deep nor saved are read. -/
theorem sensors_read : ¬((d.pwr.gated && !d.pwr.saveAct || d.ps = psDeep || d.ps = psSaved) = true) := by
  simp [hgate, hdeep, hsaved]

/-- A reading of an HBM stack slows it from 95 °C, and below 92 °C ends that (R498, Table 17-4). -/
theorem thermalSample_of_stack {k : Nat} (hk : k < 8)
    (ha : a = { d with ras := { d.ras with temps := smSet d.ras.temps (stackUnit k) 0 t } }) : thermalSample (stackUnit k) t mv d =
      if 380 ≤ t then (a.perturbLegs.slowStacks (k :: a.pwr.hbmSlow.filter fun x => x != k)).showTherm
      else (a.slowStacks (if t < 368 then a.pwr.hbmSlow.filter fun x => x != k else a.pwr.hbmSlow)).showTherm := by
  have hdie : (4 + k / 4 == 4 || 4 + k / 4 == 5) = true := by
    have : 4 + k / 4 = 4 ∨ 4 + k / 4 = 5 := by omega
    simpa only [Bool.or_eq_true, beq_iff_eq] using this
  have hcompute : ¬4 + k / 4 < 4 := by omega
  have hindex : 4 * (4 + k / 4 - 4) + k % 4 = k := by omega
  have hmod : decide (k % 4 < 4) = true := decide_eq_true (Nat.mod_lt k (by decide))
  subst ha
  rw [thermalSample, if_neg (sensors_read hgate hdeep hsaved)]
  simp only [stackUnit_div, stackUnit_mod, hdie, hmod, hcompute, hindex, Bool.and_self, if_true, if_false]
  split <;> rfl

/-- A reading of a compute die is kept with its voltage, moves the highest reading of the die, and with that the die's cut and critical action (R498). -/
theorem thermalSample_of_computeDie {u : Nat} {b : Device} (hu : u / 4096 < 4)
    (ha : a = { d with ras := { d.ras with temps := smSet d.ras.temps u 0 t, volts := smSet d.ras.volts (u / 4096) 0 mv } })
    (hb : b = { a with ras := { a.ras with temps := smSet a.ras.temps (unitOf (u / 4096) 0xFFE) 0 (a.tj (u / 4096)) } }) :
    thermalSample u t mv d = ((b.showTherm.moveCut (u / 4096)).moveCrit (u / 4096)).tripIfHot (u / 4096) := by
  have hdie : (u / 4096 == 4 || u / 4096 == 5) = false := by
    have : u / 4096 ≠ 4 ∧ u / 4096 ≠ 5 := by omega
    simpa using this
  subst ha hb
  rw [thermalSample, if_neg (sensors_read hgate hdeep hsaved)]
  simp only [hdie, hu, Bool.false_and, Bool.false_eq_true, if_true, if_false, Device.tripIfHot, Bool.and_eq_true, decide_eq_true_eq, Bool.not_eq_true']

/-- A reading of a memory-side die or of the IOD as a whole is kept and shown. -/
theorem thermalSample_of_wholeDie {die : Nat} (hlo : 4 ≤ die)
    (ha : a = { d with ras := { d.ras with temps := smSet d.ras.temps (unitOf die 0xFFE) 0 t } }) :
    thermalSample (unitOf die 0xFFE) t mv d = a.showTherm.tripIfHot die := by
  have hdiv : unitOf die 0xFFE / 4096 = die := unitOf_div (by decide)
  have hmod : decide (unitOf die 0xFFE % 4096 < 4) = false := by
    rw [unitOf_mod (by decide)]
    rfl
  subst ha
  rw [thermalSample, if_neg (sensors_read hgate hdeep hsaved)]
  simp only [hdiv, hmod, Nat.not_lt.2 hlo, Bool.and_false, Bool.false_eq_true, if_false, Device.tripIfHot, Bool.and_eq_true, decide_eq_true_eq,
    Bool.not_eq_true']

end Readings

/-- Settles O36, command by command: the update in each power state, the excess on the hottest compute die, and a reading of each kind of unit. That a duty moves
by a free amount (log 93), that radio_over is raised once until it is cleared (log 94), and that a cut moves with each full millisecond at a sample (log 103) are
the model's deductions. -/
theorem powerAndTemperature : Obligations.PowerAndTemperature := by
  unfold Obligations.PowerAndTemperature
  refine ⟨?update, ?updateIdle, ?updateUnpowered, ?excess, ?excessUnpowered, ?stackCool, ?stackHot, ?computeDie, ?wholeDie⟩
  case update =>
    intro s w p0 p1 p2 p3 a b hpow ha hd0 hb
    rw [exec_of_wf (fun _ => rfl) rfl, powerControlUpdate_of_d0 hpow ha hd0 hb]
    rfl
  case updateIdle =>
    intro s w p0 p1 p2 p3 a hpow ha hd0
    rw [exec_of_wf (fun _ => rfl) rfl, powerControlUpdate_of_not_d0 hpow ha hd0]
  case updateUnpowered =>
    intro s w p0 p1 p2 p3 hpow
    rw [exec_of_wf (fun _ => rfl) rfl, powerControlUpdate_of_unpowered hpow]
  case excess =>
    intro s k a hpow hk hcalm ha
    rw [exec_of_wf (fun _ => rfl) rfl, pkgExcessTimeout_of_powered hpow hk, setCrit_of_calm hcalm, ha]
  case excessUnpowered =>
    intro s hpow
    rw [exec_of_wf (fun _ => rfl) rfl, pkgExcessTimeout_of_unpowered hpow]
  case stackCool =>
    intro s k mv t a hk hmv hgate hdeep hsaved hcool ha
    rw [exec_thermalSample (by rw [stackUnit_div]; omega) hmv, thermalSample_of_stack hgate hdeep hsaved hk ha, if_neg (Int.not_le.2 hcool)]
    rfl
  case stackHot =>
    rintro s k mv t a _ hk hmv hgate hdeep hsaved hhot ha rfl
    rw [exec_thermalSample (by rw [stackUnit_div]; omega) hmv, thermalSample_of_stack hgate hdeep hsaved hk ha, if_pos hhot]
    rfl
  case computeDie =>
    rintro s u mv t a b _ hu hmv hgate hdeep hsaved ha hb rfl
    rw [exec_thermalSample (by omega) hmv, thermalSample_of_computeDie hgate hdeep hsaved hu ha hb]
    rfl
  case wholeDie =>
    rintro s die mv t a _ hlo hhi hmv hgate hdeep hsaved ha rfl
    have hdie : unitOf die 0xFFE / 4096 < 7 := by rwa [unitOf_div (by decide)]
    rw [exec_thermalSample hdie hmv, thermalSample_of_wholeDie hgate hdeep hsaved hlo ha]
    rfl

end Sys2Proof.Machine
end

section
/-! PROOFS. The timing unit (chapter 6): latches, PTP stamps, domains, holdover, SyncE, and the loss of TREF. -/

namespace Sys2Proof.Machine

/-! ### Latches -/

theorem nowSRead_of_awake {d : Device} {fn : Nat} (ha : d.fnAwake fn = true) : nowSRead fn d =
    { d with timing := { d.timing with latch := smIns d.timing.latch fn (d.nanos, d.frac) }, sent := .readAnswer fn 0xD00000 8 d.secs :: d.sent } := by
  rw [nowSRead, not_d3hot_of_fnAwake ha]
  rfl

/-! ### PTP frames -/

/-- A PTP frame on a port that runs PTP is diverted with its stamp (R181, R182). -/
theorem ptpFrameRx_of_ptp {d : Device} {port : Nat} {data : List Byte} (hport : d.isX = false ∨ port = 4) (hptp : (ptpAt data).isSome = true) :
    ptpFrameRx port data d = d.divertPtp port data := by
  have hruns : (d.isX && decide (port < 4)) = false := by
    rcases hport with h | rfl
    · rw [h, Bool.false_and]
    · exact Bool.and_false _
  have hsome : (ptpAt data).isNone = false := by rw [← Option.not_isSome, hptp, Bool.not_true]
  simp only [ptpFrameRx, hruns, hsome, Bool.or_self, Bool.false_eq_true, if_false]

/-- Whether a message takes its own stamp: a Sync message with twoStepFlag 0 that has room for the timestamp (R183). -/
def isOneStep (f : List Byte) (o : Nat) : Bool := beAt f o 1 % 16 == 0 && !bit (beAt f (o + 6) 1) 1 && decide (o + 44 ≤ f.length)

section SyncTx

variable {d : Device} {port tr o : Nat} {f : List Byte} (hat : ptpAt f = some (tr, o)) (hevent : beAt f o 1 % 16 ≤ 3)
  (hport : port = 4 ∨ d.isX = false ∧ d.outputsSafe = false)

include hat hevent hport

/-- An event message leaves a port that is open: a one-step Sync carries its stamp, and the stamp of any other is kept (R183). -/
theorem syncTx_of_event : syncTx port f d =
    { d with
      timing := { d.timing with txStamps := if isOneStep f o then d.timing.txStamps else d.timing.txStamps ++ [⟨port, d.txStamp port, f⟩] }
      sent := .sync port ((if isOneStep f o then fixUdp f (insertStamp f o (d.txStamp port).toNat) tr o else f) ++
        toLE 4 (crc32 (if isOneStep f o then fixUdp f (insertStamp f o (d.txStamp port).toNat) tr o else f))) :: d.sent } := by
  have hopen : (decide (port < 4) && (d.isX || d.outputsSafe)) = false := by
    rcases hport with rfl | ⟨hx, hsafe⟩
    · rfl
    · rw [hx, hsafe, Bool.or_self, Bool.and_false]
  simp only [syncTx, hat, hopen, decide_eq_false (Nat.not_lt.2 hevent), Bool.or_self, Bool.false_eq_true, if_false]
  rfl

theorem syncTx_of_oneStep {out : List Byte} (h : isOneStep f o = true) (hout : out = fixUdp f (insertStamp f o (d.txStamp port).toNat) tr o) :
    syncTx port f d = { d with sent := .sync port (out ++ toLE 4 (crc32 out)) :: d.sent } := by
  rw [syncTx_of_event hat hevent hport, h, hout]
  rfl

theorem syncTx_of_twoStep (h : isOneStep f o = false) : syncTx port f d =
    { d with
      timing := { d.timing with txStamps := d.timing.txStamps ++ [⟨port, d.txStamp port, f⟩] }
      sent := .sync port (f ++ toLE 4 (crc32 f)) :: d.sent } := by
  rw [syncTx_of_event hat hevent hport, h]
  rfl

end SyncTx

/-! ### Domains -/

/-- A domain takes an offset; a new offset of the selected one starts the sixteenths of its correction afresh (R185, R186). -/
def Device.takeOff (d : Device) (k : Nat) (off : Int) : Device :=
  { d.setOff k off with timing := if (d.setOff k off).selected == some k then { (d.setOff k off).timing with slewFrac := 0 } else (d.setOff k off).timing }

/-- A domain adds an offset to its history: one that was off or lost starts to acquire with it, and one that acquires locks once the last sixteen lie within
50 ns (R185). -/
def Device.addOff (d : Device) (k : Nat) (off : Int) : Device :=
  let tracks := decide (d.domState k = 1) || decide (d.domState k = 2)
  let hist := (off :: if tracks then (d.dom k).hist else []).take 16
  let a := if tracks then d else d.wr TIM_DOM_STAT.state k 1
  let b := a.setDom k { a.dom k with hist := hist, last := off.natAbs }
  if decide (b.domState k = 1) && decide (hist.length = 16) && decide (hist.foldl max off - hist.foldl min off < 50) then b.wr TIM_DOM_STAT.state k 2 else b

/-- Whether an offset is a jump of the selected domain out of doubt, which loses it (R185). -/
def Device.jumps (d : Device) (k : Nat) (off : Int) : Bool :=
  d.selected == some k && d.domLocked k && !d.on TIM_STAT.doubt 0 && decide (d.rd TIM_SEL_CTL.max_delta_ns 0 < off.natAbs)

section DomainUpdate

variable {d a : Device} {k cls : Nat} {off : Int} (hlo : 1 ≤ d.rd TIM_DOM_CFG.source k) (hhi : d.rd TIM_DOM_CFG.source k ≤ 4) (hcp : d.ras.cpBusy = none)
  (ha : a = d.wr TIM_DOM_STAT.gm_class k (if d.rd TIM_DOM_CFG.source k = 4 then 0 else cls))

include hlo hhi hcp ha

/-- An update of a domain that has a source, while no control processor is being taken over: it loses the domain where its class is too high, and else is taken, added to the
history and checked for a jump. -/
theorem domainUpdate_of_fed : domainUpdate k off cls d =
    if !decide (d.rd TIM_DOM_CFG.source k = 4) && decide (a.rd TIM_DOM_CFG.max_class k < cls) then (a.loseDom k).timeEval
    else (if ((a.takeOff k off).addOff k off).jumps k off then ((a.takeOff k off).addOff k off).loseDom k else (a.takeOff k off).addOff k off).timeEval := by
  have hfed : ¬(decide (d.rd TIM_DOM_CFG.source k = 0) || decide (4 < d.rd TIM_DOM_CFG.source k) || d.ras.cpBusy.isSome) = true := by
    simp [hcp]; omega
  subst ha
  exact if_neg hfed

/-- An update from a grandmaster of too high a class does not qualify, and the domain is lost (R185). -/
theorem domainUpdate_of_classAbove (hpps : d.rd TIM_DOM_CFG.source k ≠ 4) (hcls : a.rd TIM_DOM_CFG.max_class k < cls) :
    domainUpdate k off cls d = (a.loseDom k).timeEval := by
  rw [domainUpdate_of_fed hlo hhi hcp ha, if_pos (by simp [hpps, hcls])]

/-- An update that qualifies is taken, added to the history, and checked for a jump (R185). -/
theorem domainUpdate_of_qualifies (hcls : d.rd TIM_DOM_CFG.source k = 4 ∨ cls ≤ a.rd TIM_DOM_CFG.max_class k) {b e : Device} {j : Bool}
    (hb : b = a.takeOff k off) (he : b.addOff k off = e) (hj : j = e.jumps k off) :
    domainUpdate k off cls d = (if j then e.loseDom k else e).timeEval := by
  rw [domainUpdate_of_fed hlo hhi hcp ha, if_neg (by rcases hcls with h | h <;> simp [h]), ← hb, he, hj]

end DomainUpdate

section AddOff

variable {d c : Device} {k : Nat} {off : Int}

theorem addOff_of_locked (hst : d.domState k = 2) (hc : c = d.setDom k { d.dom k with hist := (off :: (d.dom k).hist).take 16, last := off.natAbs }) :
    d.addOff k off = c := by
  have hst' : c.domState k = 2 := by rw [hc]; exact hst
  simp only [Device.addOff, hst, decide_true, Bool.or_true, if_true, ← hc, hst']
  rfl

theorem addOff_of_acquiring {h : List Int} (hst : d.domState k = 1) (hh : h = (off :: (d.dom k).hist).take 16)
    (hc : c = d.setDom k { d.dom k with hist := h, last := off.natAbs }) :
    d.addOff k off = if h.length = 16 ∧ h.foldl max off - h.foldl min off < 50 then c.wr TIM_DOM_STAT.state k 2 else c := by
  have hst' : c.domState k = 1 := by rw [hc]; exact hst
  simp only [Device.addOff, hst, decide_true, Bool.true_or, if_true, ← hh, ← hc, hst', Bool.true_and, Bool.and_eq_true, decide_eq_true_eq]

/-- A domain that was off or lost acquires from this one update, which is too few to lock on. -/
theorem addOff_of_untracked {e : Device} (h1 : d.domState k ≠ 1) (h2 : d.domState k ≠ 2) (hc : c = d.wr TIM_DOM_STAT.state k 1)
    (he : e = c.setDom k { c.dom k with hist := [off], last := off.natAbs }) : d.addOff k off = e := by
  simp only [Device.addOff, h1, h2, decide_false, Bool.or_self, Bool.false_eq_true, if_false, ← hc]
  have hfew : ([off].take 16).length ≠ 16 := by simp
  simp only [hfew, decide_false, Bool.and_false, Bool.false_and, Bool.false_eq_true, if_false, he]
  rfl

end AddOff

/-! ### Switchover and holdover -/

theorem domainSwitchover_of_leaves {d : Device} {k : Nat} (hsel : d.selected = some k) (hleave : (d.domLocked k && d.revertTo.isNone) = false) :
    domainSwitchover d = if d.domLocked (1 - k) && decide (d.domAbs (1 - k) ≤ d.rd TIM_SEL_CTL.max_delta_ns 0) then (d.select (1 - k)).timeEval
      else (d.enterHoldover k).timeEval := by
  simp only [domainSwitchover, hsel, hleave, Bool.false_eq_true, if_false]

/-- The selected domain is left for the other one where that is locked and close (R187). -/
theorem domainSwitchover_of_close {d : Device} {k : Nat} (hsel : d.selected = some k) (hleave : (d.domLocked k && d.revertTo.isNone) = false)
    (hlocked : d.domLocked (1 - k) = true) (hclose : d.domAbs (1 - k) ≤ d.rd TIM_SEL_CTL.max_delta_ns 0) :
    domainSwitchover d = (d.select (1 - k)).timeEval := by
  rw [domainSwitchover_of_leaves hsel hleave, hlocked, decide_eq_true hclose]
  rfl

/-- Else it is left for holdover (R187, R189). -/
theorem domainSwitchover_of_far {d : Device} {k : Nat} (hsel : d.selected = some k) (hleave : (d.domLocked k && d.revertTo.isNone) = false)
    (hfar : d.domLocked (1 - k) = false ∨ d.rd TIM_SEL_CTL.max_delta_ns 0 < d.domAbs (1 - k)) : domainSwitchover d = (d.enterHoldover k).timeEval := by
  rw [domainSwitchover_of_leaves hsel hleave, if_neg]
  rcases hfar with h | h <;> simp [h]

/-- A millisecond of holdover: on SyncE the estimate grows at the rate of its uncertainty, else also with the ageing of the oscillator (R189). -/
theorem holdoverTick_of_holdover {d a : Device} {k e : Nat} (hst : d.rd TIM_STAT.state 0 = 3) (hk : k = d.timing.holdMs + 1)
    (he : e = if d.on TIM_STAT.synce_locked 0 then d.timing.holdE0 * 7200000000000 + d.rd TIM_HOLD_CTL.synce_unc_ppt 0 * 7200000 * k
      else d.timing.holdErr + d.rd TIM_HOLD_CTL.freq_unc_ppt 0 * 7200000 + d.rd TIM_HOLD_CTL.ageing_ppt_h 0 * (2 * k - 1))
    (ha : a = { d with timing := { d.timing with holdMs := k, holdErr := e } }) :
    holdoverTick d = (a.wr TIM_STAT.hold_err_ns 0 (min (e / 7200000000000) (2 ^ 32 - 1))).timeEval := by
  rw [holdoverTick, if_neg (not_not_intro hst), ha, he, hk]

/-! ### SyncE -/

/-- A message of the reference port with a quality that may be followed qualifies the reference (R192). -/
theorem esmcRx_of_qualifies {d : Device} {p ssm : Nat} (hssm : ssm < 15) (hx : d.isX = false) (hen : d.on TIM_SYNCE_CTL.enable 0 = true)
    (hport : d.rd TIM_SYNCE_CTL.ref_port 0 = p) :
    esmcRx p ssm d = ((d.wr TIM_SYNCE_CTL.ssm 0 ssm).wr TIM_SYNCE_CTL.state 0 2).wr TIM_STAT.synce_locked 0 1 := by
  simp only [esmcRx, hx, hen, hport, Nat.ne_of_lt hssm, ne_eq, not_true_eq_false, decide_false, Bool.not_true, Bool.or_self, Bool.false_eq_true, if_false]

theorem synceQualTimeout_of_qualified {d : Device} (hst : d.rd TIM_SYNCE_CTL.state 0 = 2) :
    synceQualTimeout d = (d.wr TIM_SYNCE_CTL.state 0 3).wr TIM_STAT.synce_locked 0 0 := by
  simp only [synceQualTimeout, hst, decide_true, Bool.true_or, if_true]

/-! ### The family -/

theorem exec_domainUpdate {s : State} {k cls : Nat} {off : Int} (hk : k < 2) (hcls : cls < 256) :
    exec (.domainUpdate k off cls) s = .next (s.leads (domainUpdate k off cls s.dev)) :=
  exec_of_wf (fun _ => rfl) (by simp [Instr.wf, hk, hcls]) s

/-- Settles O42, event by event. Where the fields of PTP and ESMC messages stand (log 31), and that holdover on SyncE keeps the register's rate of growth and a
revertive change to a domain that is not locked goes to holdover (log 46), are the model's readings. -/
theorem timingUnit : Obligations.TimingUnit := by
  unfold Obligations.TimingUnit
  refine ⟨?latch, ?frame, ?oneStep, ?twoStep, ?locked, ?acquiring, ?untracked, ?classAbove, ?lossTimeout, ?switch, ?hold, ?revert, ?tick, ?requalify, ?esmc,
    ?synceTimeout, ?tref⟩
  case latch =>
    intro s fn hfn hr
    rw [exec_of_via (fun _ => rfl) (by simp [Instr.wf, hfn]) hr, nowSRead_of_awake (fnAwake_of_reaches hr)]
  case frame =>
    intro s port data hp hport hptp
    rw [exec_of_wf (fun _ => rfl) (by simp [Instr.wf, hp]), ptpFrameRx_of_ptp hport hptp]
    rfl
  case oneStep =>
    rintro s port tr o _ f out hp hat rfl hevent hport hsync hflag hroom hout
    have hone : isOneStep f o = true := by simp [isOneStep, hsync, hflag, hroom]
    rw [exec_of_wf (fun _ => rfl) (by simp [Instr.wf, hp]), syncTx_of_oneStep hat hevent hport hone hout]
  case twoStep =>
    rintro s port tr o _ f hp hat rfl hevent hport hother
    have htwo : isOneStep f o = false := by
      rcases hother with h | h | h <;> simp [isOneStep, h]
    rw [exec_of_wf (fun _ => rfl) (by simp [Instr.wf, hp]), syncTx_of_twoStep hat hevent hport htwo]
    rfl
  case locked =>
    intro s k cls off a b c j hk hc256 hlo hhi hcp ha hcls hb hst hc hj
    rw [exec_domainUpdate hk hc256, domainUpdate_of_qualifies hlo hhi hcp ha hcls hb (addOff_of_locked hst hc) hj]
  case acquiring =>
    intro s k cls off a b c e h j hk hc256 hlo hhi hcp ha hcls hb hst hh hc he hj
    rw [exec_domainUpdate hk hc256, domainUpdate_of_qualifies hlo hhi hcp ha hcls hb ((addOff_of_acquiring hst hh hc).trans he.symm) hj]
  case untracked =>
    intro s k cls off a b e j hk hc256 hlo hhi hcp ha hcls hb h1 h2 he hj
    rw [exec_domainUpdate hk hc256, domainUpdate_of_qualifies hlo hhi hcp ha hcls hb (addOff_of_untracked h1 h2 rfl he) hj]
  case classAbove =>
    intro s k cls off a hk hc256 hlo hhi hcp ha hpps hcls
    rw [exec_domainUpdate hk hc256, domainUpdate_of_classAbove hlo hhi hcp ha hpps hcls]
  case lossTimeout =>
    intro s k hk
    rw [exec_of_wf (fun _ => rfl) (by simp [Instr.wf, hk]), domainLossTimeout]
  case switch =>
    intro s k hsel hlost hlocked hclose
    rw [exec_of_wf (fun _ => rfl) rfl, domainSwitchover_of_close hsel (by simp [hlost]) hlocked hclose]
  case hold =>
    intro s k hsel hlost hfar
    rw [exec_of_wf (fun _ => rfl) rfl, domainSwitchover_of_far hsel (by simp [hlost]) hfar]
  case revert =>
    intro s k j hsel hrevert hlocked hclose
    rw [exec_of_wf (fun _ => rfl) rfl, domainSwitchover_of_close hsel (by simp [hrevert]) hlocked hclose]
  case tick =>
    intro s k e a hst hk he ha
    rw [exec_of_wf (fun _ => rfl) rfl, holdoverTick_of_holdover hst hk he ha]
  case requalify =>
    intro s k hk hlocked
    rw [exec_of_wf (fun _ => rfl) (by simp [Instr.wf, hk]), requalifyExpiry, if_pos hlocked]
  case esmc =>
    intro s p ssm hp hssm hx hen hport
    rw [exec_of_wf (fun _ => rfl) (by simp [Instr.wf, hp]; omega), esmcRx_of_qualifies hssm hx hen hport]
  case synceTimeout =>
    intro s hst
    rw [exec_of_wf (fun _ => rfl) rfl, synceQualTimeout_of_qualified hst]
  case tref => exact fun s => rfl

end Sys2Proof.Machine
end

section
/-! PROOFS. What reset leaves (chapters 6 and 9, and the reset values of all register tables). -/

namespace Sys2Proof.Machine

/-! ### Reset values of registers -/

/-- The bits that a list of fields takes at reset. -/
def resetSum (fs : List Fld) : Nat := (fs.map fun f => f.rst <<< f.lo).foldl (· + ·) 0

theorem resetSum_cons (f : Fld) (fs : List Fld) : resetSum (f :: fs) = 2 ^ f.lo * f.rst + resetSum fs := by
  simp only [resetSum, List.map_cons, ← List.sum_eq_foldl, List.sum_cons, Nat.shiftLeft_eq, Nat.mul_comm]

/-- Fields listed from the most significant down, below a bit: no two share a bit, and each reset value fits its field. -/
def fieldsFit : Nat → List Fld → Bool
  | _, [] => true
  | top, f :: fs => decide (f.lo + f.width ≤ top) && decide (f.rst < 2 ^ f.width) && fieldsFit f.lo fs

theorem fieldsFit_cons {top : Nat} {f : Fld} {fs : List Fld} (h : fieldsFit top (f :: fs) = true) :
    f.lo + f.width ≤ top ∧ f.rst < 2 ^ f.width ∧ fieldsFit f.lo fs = true := by
  simpa only [fieldsFit, Bool.and_eq_true, decide_eq_true_eq, and_assoc] using h

theorem resetSum_lt {top : Nat} {fs : List Fld} (h : fieldsFit top fs = true) : resetSum fs < 2 ^ top := by
  induction fs generalizing top with
  | nil => exact Nat.two_pow_pos top
  | cons f fs ih =>
    obtain ⟨htop, hrst, hfs⟩ := fieldsFit_cons h
    calc resetSum (f :: fs) = 2 ^ f.lo * f.rst + resetSum fs := resetSum_cons f fs
      _ < 2 ^ f.lo * (f.rst + 1) := Nat.add_lt_add_left (ih hfs) _
      _ ≤ 2 ^ f.lo * 2 ^ f.width := Nat.mul_le_mul_left _ hrst
      _ = 2 ^ (f.lo + f.width) := (Nat.pow_add 2 f.lo f.width).symm
      _ ≤ 2 ^ top := Nat.pow_le_pow_right (by decide) htop

theorem lo_add_width_le {top : Nat} {fs : List Fld} {g : Fld} (h : fieldsFit top fs = true) (hg : g ∈ fs) : g.lo + g.width ≤ top := by
  induction fs generalizing top with
  | nil => cases hg
  | cons f fs ih =>
    obtain ⟨htop, -, hfs⟩ := fieldsFit_cons h
    cases hg with
    | head => exact htop
    | tail _ hg => exact Nat.le_trans (ih hfs hg) (Nat.le_trans (Nat.le_add_right _ _) htop)

/-- Each of the fields reads its own reset value: those above it are a multiple of the bits up to its top, and those below it end where it begins. -/
theorem resetSum_field {top : Nat} {fs : List Fld} {g : Fld} (h : fieldsFit top fs = true) (hg : g ∈ fs) :
    resetSum fs >>> g.lo % 2 ^ g.width = g.rst := by
  induction fs generalizing top with
  | nil => cases hg
  | cons f fs ih =>
    obtain ⟨-, hrst, hfs⟩ := fieldsFit_cons h
    rw [resetSum_cons]
    cases hg with
    | head =>
      rw [Nat.shiftRight_eq_div_pow, Nat.mul_add_div (Nat.two_pow_pos _), Nat.div_eq_of_lt (resetSum_lt hfs), Nat.add_zero, Nat.mod_eq_of_lt hrst]
    | tail _ hg =>
      obtain ⟨m, hm⟩ := Nat.exists_eq_add_of_le (lo_add_width_le hfs hg)
      rw [hm, Nat.pow_add, Nat.pow_add, Nat.mul_assoc, Nat.mul_assoc, Nat.shiftRight_eq_div_pow, Nat.mul_add_div (Nat.two_pow_pos _), Nat.mul_add_mod, ← Nat.shiftRight_eq_div_pow, ih hfs hg]

/-- The register tables: the fields of a register are its own, no two share a bit, and each reset value fits its field. -/
theorem fields_fit (r : Reg) : (r.fields.all (·.reg == r) && fieldsFit 64 r.fields) = true := by cases r <;> rfl

theorem reset_reg (r : Reg) (i : Nat) : State.reset.dev.reg r i = BitVec.ofNat 64 (resetSum r.fields + r.resetIdx i) := rfl

/-- A field of a register that the manual does not number by its index reads the reset value of its table. -/
theorem reset_rd {r : Reg} {f : Fld} {i : Nat} (hf : f ∈ r.fields) (hidx : r.resetIdx i = 0) : State.reset.dev.rd f i = f.rst := by
  obtain ⟨hown, hfit⟩ := (Bool.and_eq_true _ _).mp (fields_fit r)
  have hreg : f.reg = r := eq_of_beq (List.all_eq_true.mp hown f hf)
  rw [Device.rd, hreg, reset_reg, hidx, Nat.add_zero, fieldGet, BitVec.toNat_ofNat, Nat.mod_eq_of_lt (resetSum_lt hfit), resetSum_field hfit hf]

/-- The physical core of a logical one at reset: the four spares of each die stand behind its 48 cores (Table 2-10). -/
theorem reset_lmapPhys {n : Nat} (h : n < 192) : State.reset.dev.rd COR_LMAP.phys n = n + 4 * (n / 48) := by
  change (BitVec.ofNat 64 (0x10040000 + (n + 4 * (n / 48)))).toNat >>> 0 % 2 ^ 8 = _
  rw [BitVec.toNat_ofNat, Nat.shiftRight_zero]
  omega

/-- Settles O3. That memory starts empty, which reads 0 (log 2), and the values of the fuse, OTP, boot and kept fields and of the core map (logs 11, 12 and 125)
are the model's choices. -/
theorem resetLeaves : Obligations.ResetLeaves :=
  ⟨rfl, rfl, rfl, rfl, rfl, reset_rd (r := .TIM_STAT) (by decide) rfl, reset_rd (r := .PWR_STATE_STAT) (by decide) rfl,
    fun _ _ _ hf hidx => reset_rd hf hidx, fun _ h => reset_lmapPhys h⟩

end Sys2Proof.Machine
end

section
/-! PROOFS. Supplies, reference clocks, start-up, verified boot and the built-in test (chapters 12, 16 and 17). -/

namespace Sys2Proof.Machine

/-! ### Reference clocks -/

/-- TREF that was lost comes back good, and both domains have to requalify (R520). -/
theorem trefReturn_of_bad {d a : Device} (hbad : d.timing.trefBad = true)
    (ha : a = { d with timing := { d.timing with trefBad := false, trefQual := true } }) :
    trefReturn d = (a.setDom 0 { a.dom 0 with qual := false }).setDom 1 { (a.setDom 0 { a.dom 0 with qual := false }).dom 1 with qual := false } := by
  subst ha
  exact if_pos hbad

theorem trefReturn_of_good {d : Device} (hgood : d.timing.trefBad = false) : trefReturn d = d := if_neg (ne_true_of_eq_false hgood)

/-! ### Fronthaul links -/

/-- The link of a port comes up where the port has a speed; its line is busy to now (R205). -/
theorem fronthaulLink_of_up {d a b : Device} {p : Nat} (hx : d.isX = false) (hclock : 4 ∉ d.pwr.refDown) (ha : a = drainPort p d)
    (hb : b = { a with radio := { a.radio with busy := smSet a.radio.busy p 0 (max (smGet a.radio.busy p 0) a.time) } }) :
    fronthaulLink p true d = b.wr RAD_PORT_STAT.link_up p (b2n (b.rd RAD_PORT_CFG.speed p != 0)) := by
  rw [fronthaulLink, if_neg (by simpa using hclock), fronthaulLinkChange, if_neg (ne_true_of_eq_false hx), hb, ha]
  rfl

theorem fronthaulLink_of_down {d : Device} {p : Nat} (hx : d.isX = false) : fronthaulLink p false d = (drainPort p d).wr RAD_PORT_STAT.link_up p 0 := by
  rw [fronthaulLink, if_neg (by simp), fronthaulLinkChange, if_neg (ne_true_of_eq_false hx)]
  rfl

/-- Without EREF, and on a part without radio, no link comes up (R520). -/
theorem fronthaulLink_of_unclocked {d : Device} {p : Nat} (h : d.pwr.refDown.contains 4 = true ∨ d.isX = true) : fronthaulLink p true d = d := by
  unfold fronthaulLink
  split
  · rfl
  next hclock =>
    have hx : d.isX = true := h.resolve_left (by simpa using hclock)
    exact if_pos hx

/-! ### Start-up -/

theorem startup_of_saving {d : Device} {deassert : Bool} (hsave : d.pwr.saveAct = true) : startup deassert d = d := if_pos hsave

/-- The first deassertion of PERST# starts the device from Deep, or from reset (R494). -/
theorem startup_of_deassert {d e : Device} (hsave : d.pwr.saveAct = false) (hperst : d.pwr.perst = true)
    (he : e = { d with pwr := { d.pwr with perst := false } }) :
    startup true d = if d.rd PWR_STATE_STAT.state 0 = 2 then e.fromDeep.beginStart else e.cleared.beginStart := by
  subst he
  simp only [startup, hsave, hperst, Bool.not_true, Bool.false_eq_true, if_true, if_false]
  exact apply_ite Device.beginStart _ _ _

/-- The end of a device reset starts the device that it held (R494). -/
theorem startup_of_reset_end {d : Device} (hsave : d.pwr.saveAct = false) (hheld : d.pwr.held = true) (hperst : d.pwr.perst = false) :
    startup false d = d.beginStart := by
  simp only [startup, hsave, hheld, hperst, Bool.not_false, Bool.and_self, Bool.false_eq_true, if_true, if_false]

/-- Of the two copies the first that passes its checks runs; each one rejected counts, and with both rejected the device is in recovery (R469). -/
theorem imageVerified_of_booting {d e : Device} {a b : List Byte} {k : Nat} (hboot : d.booting = true) (hrec : d.on SEC_BOOT_STAT.recovery 0 = false)
    (hk : k = stageKind (d.rd PWR_START_STAT.step 0)) (he : e = d.incSat SEC_BOOT_STAT.boot_failures 0 1) :
    imageVerified a b d = if d.imageCode k a = 0 then d.runStage k 0 a
      else if e.imageCode k b = 0 then e.runStage k 1 b else (e.incSat SEC_BOOT_STAT.boot_failures 0 1).wr SEC_BOOT_STAT.recovery 0 1 := by
  subst hk he
  exact if_neg (by rw [hboot, hrec]; exact Bool.false_ne_true)

/-- The end of the built-in test at step 4 takes the units that failed out of service, brings the others to Fill, and goes on to step 5 (R360). -/
theorem builtInTestDone_of_test {d f a b : Device} {us : List Nat} (hst : d.rd PWR_STATE_STAT.state 0 = 4) (hstep : d.rd PWR_START_STAT.step 0 = 4)
    (hheld : d.pwr.held = false) (hf : f = us.foldl (fun d u => if unitExists u then d.bootRetire true u else d) d)
    (ha : a = (List.range 192).foldl (fun d n => if d.coreSt n = csLost then d else d.setCoreSt n csFill) f)
    (hb : b = (List.range 8).foldl (fun d e => if d.rd RTE_MAP.state e = 5 then d else d.wr RTE_MAP.state e 2) a) :
    builtInTestDone us d = b.showMap.wr PWR_START_STAT.step 0 5 := by
  rw [builtInTestDone, if_neg (by simp [hst, hstep, hheld]), hb, ha, hf]

/-- Settles O35, pin by pin, and stage by stage of the start. That cores stay in Fill from the built-in test to the end of the tier-1 fill (log 90), what a unit that
fails its test leaves in the records (log 96), and that the loss of VDD_AON resets all that power-on resets (log 104), are the model's deductions. -/
theorem supplyAndStart : Obligations.SupplyAndStart := by
  unfold Obligations.SupplyAndStart
  refine ⟨?pwrfailRise, ?powerOn, ?aonLoss, ?tref, ?frefLoss, ?frefReturn, ?trefGood, ?erefLoss, ?erefReturn, ?linkUp, ?linkDown, ?linkUnclocked, ?deassert,
    ?resetEnd, ?saving, ?image, ?test⟩
  case pwrfailRise => exact fun s => rfl
  case powerOn => exact fun s => rfl
  case aonLoss => exact fun s => rfl
  case tref =>
    intro s a hbad ha
    rw [exec_of_wf (fun _ => rfl) rfl, trefReturn_of_bad hbad ha]
  case frefLoss =>
    intro s g hg
    rw [exec_of_wf (fun _ => rfl) (by simp [Instr.wf, hg])]
    rfl
  case frefReturn =>
    rintro s g _ hg rfl
    rw [exec_of_wf (fun _ => rfl) (by simp [Instr.wf, hg])]
    rfl
  case trefGood =>
    intro s hgood
    rw [exec_of_wf (fun _ => rfl) rfl, trefReturn_of_good hgood]
  case erefLoss =>
    rintro s _ rfl
    rfl
  case erefReturn => exact fun s => rfl
  case linkUp =>
    intro s p a b hp hx hclock ha hb
    rw [exec_of_wf (fun _ => rfl) (by simp [Instr.wf, hp]), fronthaulLink_of_up hx hclock ha hb]
  case linkDown =>
    intro s p hp hx
    rw [exec_of_wf (fun _ => rfl) (by simp [Instr.wf, hp]), fronthaulLink_of_down hx]
  case linkUnclocked =>
    intro s p hp h
    rw [exec_of_wf (fun _ => rfl) (by simp [Instr.wf, hp]), fronthaulLink_of_unclocked h]
  case deassert =>
    intro s d hsave hperst hd
    rw [exec_of_wf (fun _ => rfl) rfl, startup_of_deassert hsave hperst hd]
  case resetEnd =>
    intro s hsave hheld hperst
    rw [exec_of_wf (fun _ => rfl) rfl, startup_of_reset_end hsave hheld hperst]
  case saving =>
    intro s x hsave
    rw [exec_of_wf (fun _ => rfl) rfl, startup_of_saving hsave]
  case image =>
    intro s a b k d hboot hrec hk hd
    rw [exec_of_wf (fun _ => rfl) rfl, imageVerified_of_booting hboot hrec hk hd]
  case test =>
    intro s us f a b hst hstep hheld hf ha hb
    rw [exec_of_wf (fun _ => rfl) rfl, builtInTestDone_of_test hst hstep hheld hf ha hb]

end Sys2Proof.Machine
end

section
/-! PROOFS. The fronthaul's transmit side (chapter 7): posts, slot deadlines, C-plane and U-plane, mute, and the sampling of the queues. -/

namespace Sys2Proof.Machine

/-! ### Posts and slot deadlines -/

/-- A post by the owner of the carrier is kept to the end of its leg (R209). -/
theorem fhpost_of_owner {d : Device} {n dir c sl : Nat} {l : Leg} (hleg : (d.core n).leg = some l) (hx : d.isX = false)
    (hown : d.rd RAD_CAR_CFG.owner c = l.ten) : fhpost n dir c sl d = d.putLeg n { l with posts := l.posts ++ [(dir, c, sl)] } := by
  simp only [fhpost, hleg, hx, hown, ne_eq, not_true_eq_false, Bool.false_eq_true, if_false]
  rfl

/-- Whether a direction of a slot is ready: posted, with a buffer that holds the control of that slot (R210). -/
def Device.slotReady (d : Device) (c dir sl : Nat) : Bool :=
  (d.radio.posts.any fun p => p.car == c && p.dir == dir && p.slot == sl) && d.peekN spDP (d.slotBuf c dir sl) 8 == sl

/-- The posts of a carrier up to a slot are used up at the deadline of that slot. -/
def Device.usePosts (d : Device) (c sl : Nat) : Device :=
  { d with radio := { d.radio with posts := d.radio.posts.filter fun p => !(p.car == c && decide (p.slot ≤ sl)) } }

theorem slotReady_of_no_posts {d : Device} (h : d.radio.posts = []) (c dir sl : Nat) : d.slotReady c dir sl = false := by
  rw [Device.slotReady, h]
  rfl

/-- At D the slot is decided, once: from then on its state is whether each direction is ready and the host's mute bit, and it counts as muted where any cause of mute
holds (R210, R215). -/
theorem slotDeadline_of_due {d b : Device} {c sl : Nat} {x : SlotDec} (hon : d.carrierOn c = true) (hfirst : d.slotDec c sl = none)
    (hdue : d.slotDeadline c sl ≤ (d.time : Int))
    (hx : x = ⟨c, sl, d.slotReady c 0 sl, d.slotReady c 1 sl, bit (d.rd RAD_MUTE_CTL.host_mute 0) c, false⟩) (hb : b = (d.usePosts c sl).setDec x) :
    slotDeadline c sl d =
      if !x.dl || !x.ul || x.host || b.byDoubt b.time (b.slotStart (b.carMu c) sl) || b.bySvc b.time (b.slotStart (b.carMu c) sl) then b.countMute x else b := by
  have hdecides : ¬(!d.carrierOn c || (d.slotDec c sl).isSome || decide ((d.time : Int) < d.slotDeadline c sl)) = true := by
    simp [hon, hfirst, hdue]
  subst hx hb
  exact if_neg hdecides

/-! ### C-plane -/

/-- The C-plane of section record r of a slot, with its extension (R208, R213). -/
def Device.cplaneFrame (d : Device) (c dir sl : Nat) (r ext : List Byte) : EgFrame :=
  { len := frameLen (d.on RAD_CAR_FH.tagged c) (cpHdr (d.sectType c r) + ext.length), cost := 0, mt := 2, vid := d.carVid c,
    eaxc := d.rd RAD_CAR_FH.eaxc_base c + (if rcPrach r then 64 else 0) + rcStream r, dir := dir, sect := d.sectType c r, car := c, slot := sl,
    stream := rcStream r, sym := rcStart r, startPrb := rcPrb r, numPrb := rcPrbs r, reMask := rcMask r, beam := rcBeam r, section_ := rcSection r,
    numSym := rcNum r, data := ext }

section CPlane

variable {d : Device} {c sl k : Nat} {x : SlotDec} (hon : d.carrierOn c = true) (hdec : d.slotDec c sl = some x)

include hon hdec

/-- The C-plane of a record of a slot that is ready is offered from its time on, unless its first symbol is muted (R213). -/
theorem cplaneTx_of_record {dir b : Nat} {r ext : List Byte} (hready : (if dir = 0 then x.dl else x.ul) = true) (hb : b = d.slotBuf c dir sl)
    (hk : k < d.bufSections b) (hr : r = d.bufRec b k) (htime : d.cpTime c dir sl (rcStart r) ≤ (d.time : Int))
    (hsent : d.symMuted x dir (rcStart r) (d.cpTime c dir sl (rcStart r)) = false)
    (hext : ext = if rcExt r = 0 then [] else d.peek devKey spDP (b + rcExt r) (rcExtLen r)) :
    cplaneTx c dir sl k false d = d.offerFrame (d.rd RAD_CAR_CFG.port c) (d.cplaneFrame c dir sl r ext) := by
  subst hb hr hext
  simp only [cplaneTx, hon, hdec, hready, hsent, decide_eq_false (Nat.not_le.2 hk), decide_eq_false (Int.not_lt.2 htime), Bool.not_true, Bool.or_self,
    Bool.false_eq_true, if_false]
  rfl

/-- The mute section of a stream names the run of muted symbols, and the slot counts as muted (R214, R215). -/
theorem cplaneTx_of_mute {l : Nat} {ls : List Nat} (hcar : x.car = c) (hslot : x.slot = sl) (hmuted : d.mutedSyms x = l :: ls) (hk : k < d.carStreams c 0)
    (htime : d.cpTime c 0 sl l ≤ (d.time : Int)) : cplaneTx c 0 sl k true d = (d.countMute x).offerFrame (d.rd RAD_CAR_CFG.port c)
      { len := frameLen (d.on RAD_CAR_FH.tagged c) (cpHdr 1), cost := 0, mt := 2, vid := d.carVid c, eaxc := d.rd RAD_CAR_FH.eaxc_base c + k, sect := 1, car := c,
        slot := sl, stream := k, sym := l, numSym := ls.length + 1 } := by
  subst hcar hslot
  simp only [cplaneTx, hon, hdec, Device.cplaneMute, hmuted, decide_eq_false (Nat.not_le.2 hk), decide_eq_false (Int.not_lt.2 htime), ne_eq, not_true_eq_false,
    Bool.not_true, Bool.or_self, Bool.false_eq_true, if_false, if_true]
  rfl

end CPlane

/-! ### U-plane -/

/-- Part `part` of a payload, as the frames of a carrier's port hold it (R213, log 48). -/
def Device.uplanePart (d : Device) (c part : Nat) (body : List Byte) : List Byte :=
  (body.drop ((d.rd RAD_PORT_CFG.mtu (d.rd RAD_CAR_CFG.port c) - 64) * part)).take (d.rd RAD_PORT_CFG.mtu (d.rd RAD_CAR_CFG.port c) - 64)

/-- The U-plane frame of a symbol of a stream: a piece of the payload of the PRBs from prb on, to be sent by the close of the symbol's window (R213). -/
def Device.uplaneFrame (d : Device) (c sl l stream prb prbs sect : Nat) (piece : List Byte) : EgFrame :=
  { len := frameLen (d.on RAD_CAR_FH.tagged c) (10 + piece.length), cost := 0, close := some (d.dlClose c sl l), mt := 0, vid := d.carVid c,
    eaxc := d.rd RAD_CAR_FH.eaxc_base c + stream, car := c, slot := sl, stream := stream, sym := l, startPrb := prb, numPrb := prbs, section_ := sect,
    data := piece }

section UPlane

variable {d : Device} {c sl k l part : Nat} {x : SlotDec} {piece : List Byte} (hon : d.carrierOn c = true) (hdec : d.slotDec c sl = some x)
  (htime : d.dlOpen c sl l ≤ (d.time : Int)) (hsome : piece.isEmpty = false)

include hon hdec htime hsome

/-- The U-plane of a record that covers a symbol which is sent is offered from the opening of the symbol's window on (R213). -/
theorem uplaneTx_of_record {b : Nat} {r bs : List Byte} (hsent : d.symMuted x 0 l (d.dlOpen c sl l) = false) (hb : b = d.slotBuf c 0 sl)
    (hk : k < d.bufSections b) (hr : r = d.bufRec b k) (hcov : rcCovers r l = true) (hu : rcNoU r = false) (htd : d.on RAD_CAR_CFG.td_mode c = false)
    (hbs : bs = d.peek devKey spDP (d.bufIq b + rcIq r + (l - rcStart r) * rcStride r) (d.payloadLen c 0 sl l (rcPrbs r)))
    (hpiece : piece = d.uplanePart c part bs) : uplaneTx c sl k l part false d =
      d.offerFrame (d.rd RAD_CAR_CFG.port c) (d.uplaneFrame c sl l (rcStream r) (rcPrb r) (rcPrbs r) (rcSection r) piece) := by
  subst hb hr hbs hpiece
  rw [Device.uplanePart] at hsome ⊢
  simp only [uplaneTx, hon, hdec, hsent, decide_eq_true hk, hcov, hu, htd, decide_eq_false (Int.not_lt.2 htime), hsome, Bool.not_true, Bool.not_false,
    Bool.and_self, Bool.or_self, bne_self_eq_false, Bool.false_eq_true, if_false]
  rfl

/-- Of a symbol of a downlink that is not ready each stream is sent as zeros over all PRBs, and the slot counts as muted (R214). -/
theorem uplaneTx_of_mute {a : Device} (hlate : x.dl = false) (hk : k < d.carStreams c 0)
    (hpiece : piece = d.uplanePart c part (List.replicate (d.payloadLen c 0 sl l (d.rd RAD_CAR_CFG.prbs c)) 0)) (ha : a = d.countMute x) :
    uplaneTx c sl k l part true d = a.offerFrame (d.rd RAD_CAR_CFG.port c) (a.uplaneFrame c sl l k 0 (d.rd RAD_CAR_CFG.prbs c) 0 piece) := by
  have hmuted : d.symMuted x 0 l (d.dlOpen c sl l) = true := by simp [Device.symMuted, hlate]
  subst ha hpiece
  rw [Device.uplanePart] at hsome ⊢
  simp only [uplaneTx, hon, hdec, hmuted, decide_eq_true hk, decide_eq_false (Int.not_lt.2 htime), hsome, Bool.not_true, Bool.or_self, bne_self_eq_false,
    Bool.false_eq_true, if_false, if_true]
  rfl

end UPlane

/-! ### Mute bits of the host -/

/-- The bits below n of a value, each at its place, are the value's last n bits. -/
theorem maskOf_bit (v n : Nat) : maskOf n (bit v) = v % 2 ^ n := by
  induction n with
  | zero => exact (Nat.mod_one v).symm
  | succ n ih =>
    calc maskOf (n + 1) (bit v)
      _ = maskOf n (bit v) + b2n (bit v n) <<< n := by
        simp only [maskOf, List.range_succ, List.map_append, List.foldl_append, List.map_cons, List.map_nil, List.foldl_cons, List.foldl_nil]
      _ = v % 2 ^ n + 2 ^ n * (v.testBit n).toNat := by
        rw [ih, Nat.shiftLeft_eq, Nat.mul_comm, bit]
        cases v.testBit n <;> rfl
      _ = v % 2 ^ (n + 1) := by rw [Nat.toNat_testBit, Nat.mod_pow_succ]

/-- Tenancy 0 writes every bit (Table 7-12). -/
theorem muteCtlWrite_of_tenancy0 {d : Device} {value : Nat} (ha : d.fnAwake 0 = true) (hx : d.isX = false) (hv : value < 2 ^ 64) :
    muteCtlWrite 0 value d = d.wr RAD_MUTE_CTL.host_mute 0 value := by
  have hall : ((List.range 64).map fun c => (if ((List.range 64).filter fun c => (0 : Nat) == 0 || d.rd RAD_CAR_CFG.owner c == 0).contains c
      then b2n (bit value c) else b2n (bit (d.rd RAD_MUTE_CTL.host_mute 0) c)) <<< c) = (List.range 64).map fun c => b2n (bit value c) <<< c := by
    refine List.map_congr_left fun c hc => ?_
    rw [if_pos (by simpa using hc)]
  have hsum : ((List.range 64).map fun c => b2n (bit value c) <<< c).foldl (· + ·) 0 = value := (maskOf_bit value 64).trans (Nat.mod_eq_of_lt hv)
  simp only [muteCtlWrite, not_d3hot_of_fnAwake ha, hx, hall, hsum, Bool.or_self, Bool.false_eq_true, if_false]

/-! ### Sampling -/

/-- The depth of queue i in KiB as a sample shows it, and the time in ns that its head has waited (R231). -/
def Device.depthKib (d : Device) (i : Nat) : Nat := min ((d.queueDepth i).1 / 1024) 4095
def Device.headDelay (d : Device) (i : Nat) : Nat := ((d.queueDepth i).2.map fun t => min ((d.time - t) / 144) 1048575).getD 0

/-- A queue's sample as the registers take it: the last value of each, and its maximum. -/
def Device.showSample (d : Device) (i depth delay : Nat) : Device :=
  let e := (d.wr RAD_QSTAT.last_depth_kib i depth).wr RAD_QSTAT.last_delay_ns i delay
  (e.wr RAD_QSTAT.max_depth_kib i (max depth (e.rd RAD_QSTAT.max_depth_kib i))).wr RAD_QSTAT.max_delay_ns i (max delay (e.rd RAD_QSTAT.max_delay_ns i))

theorem qsampTick_of_enabled {d a : Device} (hx : d.isX = false) (hen : d.on RAD_QSAMP_CFG.enable 0 = true) (ha : a = d.drainPorts) :
    qsampTick d = (List.range 36).foldl (fun d i => d.showSample i (d.depthKib i) (d.headDelay i)) a := by
  rw [ha]
  simp only [qsampTick, hx, hen, Bool.not_true, Bool.or_self, Bool.false_eq_true, if_false]
  refine congrArg (fun f => (List.range 36).foldl f d.drainPorts) (funext fun e => funext fun i => ?_)
  simp only [Device.showSample, Device.depthKib, Device.headDelay]
  cases (e.queueDepth i).2 <;> rfl

/-- Settles O44, command by command. The split of a payload over frames and the lengths of frames (logs 48 and 148) are the model's readings of the standards. -/
theorem fronthaulOut : Obligations.FronthaulOut := by
  unfold Obligations.FronthaulOut
  refine ⟨?post, ?ready, ?late, ?cplane, ?cplaneMute, ?uplane, ?uplaneMute, ?muteBits, ?sample⟩
  case post =>
    intro s n dir c sl l hn hc hdir hleg hx hown
    rw [exec_of_settled (fun _ => rfl) (by simp [Instr.wf, hn, hc, hdir]), fhpost_of_owner hleg hx hown]
  case ready =>
    rintro s c sl _ b hc hon hfirst hdue hdl hul hhost rfl hb hdoubt hsvc
    have hx : (⟨c, sl, true, true, false, false⟩ : SlotDec) =
        ⟨c, sl, s.dev.slotReady c 0 sl, s.dev.slotReady c 1 sl, bit (s.dev.rd RAD_MUTE_CTL.host_mute 0) c, false⟩ := by
      simp only [Device.slotReady, hdl, hul, hhost]
    rw [exec_of_wf (fun _ => rfl) (by simp [Instr.wf, hc]), slotDeadline_of_due hon hfirst hdue hx hb, hdoubt, hsvc]
    rfl
  case late =>
    rintro s c sl _ _ hc hon hfirst hdue hposts rfl rfl
    have hnot (dir : Nat) : s.dev.slotReady c dir sl = false := slotReady_of_no_posts hposts c dir sl
    rw [exec_of_wf (fun _ => rfl) (by simp [Instr.wf, hc]), slotDeadline_of_due hon hfirst hdue rfl rfl, hnot 0, hnot 1]
    rfl
  case cplane =>
    rintro s c dir sl k b _ x r ext hc hon hdec hready hb hk hr rfl htime hsent hext hdir
    rw [exec_of_wf (fun _ => rfl) (by simp [Instr.wf, hc, hdir]), cplaneTx_of_record hon hdec hready hb hk hr htime hsent hext]
    rfl
  case cplaneMute =>
    intro s c sl k l x ls hc hon hdec hcar hslot hmuted hk htime
    rw [exec_of_wf (fun _ => rfl) (by simp [Instr.wf, hc]), cplaneTx_of_mute hon hdec hcar hslot hmuted hk htime]
  case uplane =>
    intro s c sl k l part b x r bs piece hc hl hon hdec htime hsent hb hk hr hcov hu htd hbs hpiece hsome
    rw [exec_of_wf (fun _ => rfl) (by simp [Instr.wf, hc, hl]), uplaneTx_of_record hon hdec htime hsome hsent hb hk hr hcov hu htd hbs hpiece]
    rfl
  case uplaneMute =>
    intro s c sl k l part x a piece hc hl hon hdec hlate hk htime hpiece hsome ha
    rw [exec_of_wf (fun _ => rfl) (by simp [Instr.wf, hc, hl]), uplaneTx_of_mute hon hdec htime hsome hlate hk hpiece ha]
    rfl
  case muteBits =>
    intro s value hv hr hx
    rw [exec_of_via (fun _ => rfl) (by simpa [Instr.wf] using hv) hr, Device.whole, if_pos rfl, muteCtlWrite_of_tenancy0 (fnAwake_of_reaches hr) hx hv]
  case sample =>
    intro s a hx hen ha
    rw [exec_of_wf (fun _ => rfl) rfl, qsampTick_of_enabled hx hen ha]
    rfl

end Sys2Proof.Machine
end

section
/-! PROOFS. The fronthaul's receive side (chapter 7): the checks of a frame, landing, arrival records, and soft moves. -/

namespace Sys2Proof.Machine

/-! ### Frames received -/

section Receive

variable {d : Device} {p : Nat} {f : FhFrame} (hx : d.isX = false) (hspeed : d.rd RAD_PORT_CFG.speed p ≠ 0) (hup : d.on RAD_PORT_STAT.link_up p = true)

include hx hspeed hup

/-- A port that receives is one with a speed and a link, on a part with radio. -/
theorem port_receives : ¬(d.isX || d.rd RAD_PORT_CFG.speed p = 0 || !d.on RAD_PORT_STAT.link_up p) = true := by
  simp [hx, hspeed, hup]

theorem fronthaulFrameRx_of_ptp (hptp : f.isPtp = true) : fronthaulFrameRx p f d = d.divertPtp p f.payload := by
  rw [fronthaulFrameRx, if_neg (port_receives hx hspeed hup), if_pos hptp]

variable (hptp : f.isPtp = false)

include hptp

theorem fronthaulFrameRx_of_foreign (htype : f.etherType ≠ 0xAEFE) : fronthaulFrameRx p f d = d.incSat RAD_PORT_STAT.unknown p 1 := by
  rw [fronthaulFrameRx, if_neg (port_receives hx hspeed hup), if_neg (ne_true_of_eq_false hptp), if_pos (by simp [htype])]

variable (htype : f.etherType = 0xAEFE)

include htype

theorem fronthaulFrameRx_of_oneWayDelay (hmt : f.mt = 5) : fronthaulFrameRx p f d = d.oneWayDelay p f := by
  rw [fronthaulFrameRx, if_neg (port_receives hx hspeed hup), if_neg (ne_true_of_eq_false hptp), if_neg (by simp [htype, hmt]), if_pos hmt]

/-- The first frame of a flow, of a carrier's own VLAN and within the tokens of its flow, passes the strainer: C-plane ends there, U-plane goes on to the carrier
(R217). -/
theorem fronthaulFrameRx_of_passes {a : Device} {k cost : Nat} (hmt : f.mt = 0 ∨ f.mt = 2) (hflow : d.findFlow true p (f.mt == 2) f.eaxc = some k)
    (hvid : f.vid = d.carVid (d.rd RAD_FLOW_CFG.carrier k)) (hfirst : (d.radio.seqs.find? fun x => x.1 == k) = none)
    (ha : a = { d with radio := { d.radio with seqs := smIns d.radio.seqs k f.seq } }) (hcost : cost = f.len + a.rd RAD_PORT_CFG.ovh_bytes p)
    (htokens : cost * 1024 ≤ a.tokensAt k a.time) : fronthaulFrameRx p f d =
      if f.mt = 2 then (a.setTokens k (a.tokensAt k a.time - cost * 1024) a.time).incWrap RAD_FLOW_STAT.passed k 1
      else ((a.setTokens k (a.tokensAt k a.time - cost * 1024) a.time).incWrap RAD_FLOW_STAT.passed k 1).uplaneRx p (d.rd RAD_FLOW_CFG.carrier k) f := by
  have hknown : ¬(f.etherType ≠ 0xAEFE || !(f.mt == 0 || f.mt == 2 || f.mt == 5)) = true := by
    rcases hmt with h | h <;> simp [htype, h]
  have hplane : f.mt ≠ 5 := by omega
  subst ha hcost
  rw [fronthaulFrameRx, if_neg (port_receives hx hspeed hup), if_neg (ne_true_of_eq_false hptp), if_neg hknown, if_neg hplane]
  simp only [hflow, hvid, hfirst, ne_eq, not_true_eq_false, if_true, if_false]
  exact if_neg (Nat.not_lt.2 htokens)

end Receive

/-- A U-plane frame of an uplink symbol that is received, within its window, joins the landing queue of its port, whose head lands (R217, R218). -/
theorem uplaneRx_of_inWindow {b e : Device} {p c stream : Nat} {f : FhFrame} {x : SlotDec} (hon : b.carrierOn c = true) (hdec : b.slotDec c f.slot = some x)
    (hsent : b.symMuted x 1 f.sym (b.ulOpen c f.slot f.sym) = false) (hopen : b.ulOpen c f.slot f.sym ≤ (b.time : Int))
    (hclose : (b.time : Int) ≤ b.ulClose c f.slot f.sym) (hant : f.eaxc - b.rd RAD_CAR_FH.eaxc_base c < 64)
    (hstream : stream = f.eaxc - b.rd RAD_CAR_FH.eaxc_base c) {q : List InFrame} (hq : smGet b.radio.ingress p [] = q)
    (he : e = { b with radio := { b.radio with ingress := smSet b.radio.ingress p [] (q ++
      [⟨f.len, b.time, ⟨c, f.slot, f.sym, stream, false, f.startPrb, f.numPrb, mkTag (b.rd RAD_CAR_CFG.owner c) 0 0 6 f.slot 0⟩, f.payload⟩]) } }) :
    b.uplaneRx p c f = e.landNext p := by
  subst hstream hq he
  simp only [Device.uplaneRx, hon, hdec, hsent, decide_eq_false (Int.not_lt.2 hopen), decide_eq_false (Int.not_lt.2 hclose),
    decide_eq_false (Nat.not_le.2 hant), Bool.not_true, Bool.or_self, Bool.false_eq_true, if_false]

/-! ### Windows -/

/-- Before the window of a symbol of a posted uplink slot the landing places of the records that cover it are zeroed (R218). -/
theorem ulWindowOpen_of_posted {d : Device} {c sl l b : Nat} (hon : d.carrierOn c = true) (hb : b = d.slotBuf c 1 sl) (hposted : d.ulPosted c sl = true) :
    ulWindowOpen c sl l d = (List.range (d.bufSections b)).foldl (fun d k =>
      if rcCovers (d.bufRec b k) l then d.zero spDP (d.bufIq b + rcIq (d.bufRec b k) + (l - rcStart (d.bufRec b k)) * rcStride (d.bufRec b k))
        (d.payloadLen c 1 sl l (rcPrbs (d.bufRec b k))) else d) d := by
  subst hb
  exact if_neg (by simp [hon, hposted])

/-- At the close of its window a symbol of a decided slot has its arrival record written, and what it is made of is dropped (R219). -/
theorem ulWindowClose_of_decided {d a : Device} {c sl l b : Nat} {e : Nat × Nat × Nat × Nat × Nat} (hon : d.carrierOn c = true) (hb : b = d.slotBuf c 1 sl)
    (hdec : (d.slotDec c sl).isNone = false)
    (he : e = (d.radio.frames.find? fun f => f.1 == c && f.2.1 == sl && f.2.2.1 == l).getD (c, sl, l, 0, 0))
    (ha : a = d.store spDP (b + 64 + 32 * d.bufSections b + 16 * l)
      (toLE 8 (maskOf 64 (d.streamWhole c sl l)) ++ toLE 4 e.2.2.2.1 ++ toLE 4 e.2.2.2.2)) :
    ulWindowClose c sl l d = { a with radio := { a.radio with
      landed := a.radio.landed.filter fun x => !(x.car == c && x.slot == sl && x.sym == l)
      frames := a.radio.frames.filter fun f => !(f.1 == c && f.2.1 == sl && f.2.2.1 == l) } } := by
  subst hb he ha
  exact if_neg (by simp [hon, hdec])

/-! ### Soft moves -/

/-- A soft move of one part whose page proceeds stores its blocks in the leg's own granules, and marks the leg where a block was lost (R225). -/
theorem softMoveOp_of_proceeds {d e : Device} {n ga ts len : Nat} {l : Leg} {loc : Loc} {idx : Option Nat} {r : Device × List Byte × Bool}
    (hpart : parts ga len = [(ga, len)]) (hmeet : d.meet l.ten ga false = .proceeds loc idx)
    (hr : r = (blocks64 (len / 64 + 2) ga len).foldl (softBlock l) (d, [], false)) (ho : r.1.ownsRange n l.ten ts r.2.1.length = true)
    (hp : r.1.poisonWrite spTS (tsOff n ts) r.2.1.length = some e) :
    softMoveOp n ga ts len none d l = some (.go (e.store spTS (tsOff n ts) r.2.1) { l with lostBuf := l.lostBuf || r.2.2 }) := by
  have hwrite : r.1.tsWrite n { l with lostBuf := l.lostBuf || r.2.2 } ts r.2.1 =
      .go (e.store spTS (tsOff n ts) r.2.1) { l with lostBuf := l.lostBuf || r.2.2 } := tsWrite_of_owned ho hp
  simp only [softMoveOp, hpart, List.find?_cons, List.find?_nil, List.any_cons, List.any_nil, hmeet, Bool.or_self, Bool.false_eq_true, if_false, ← hr, hwrite]

/-- Settles O45, frame by frame and window by window. That a section lands at once, and how a one-way delay request is answered (log 148), are the model's readings of the
standards, and what a soft move records of an uncorrectable block (log 122) is its deduction. -/
theorem fronthaulIn : Obligations.FronthaulIn := by
  unfold Obligations.FronthaulIn
  refine ⟨?uplane, ?cplane, ?delay, ?ptp, ?foreign, ?opening, ?closing, ?soft⟩
  case uplane =>
    rintro s p k _ cost f x a b e stream hp hx hspeed hup hptp htype hmt hflow rfl hvid hfirst ha hcost htokens rfl hon hdec hsent hopen hclose hant hstream
      hempty he
    have hqueue := List.eq_nil_of_length_eq_zero hempty
    rw [exec_of_wf (fun _ => rfl) (by simp [Instr.wf, hp]),
      fronthaulFrameRx_of_passes hx hspeed hup hptp htype (.inl hmt) (by rw [hmt]; exact hflow) hvid hfirst ha hcost htokens, if_neg (by omega),
      uplaneRx_of_inWindow hon hdec hsent hopen hclose hant hstream hqueue he]
  case cplane =>
    intro s p k f a hp hx hspeed hup hptp htype hmt hflow hvid hfirst ha htokens
    rw [exec_of_wf (fun _ => rfl) (by simp [Instr.wf, hp]),
      fronthaulFrameRx_of_passes hx hspeed hup hptp htype (.inr hmt) (by rw [hmt]; exact hflow) hvid hfirst ha rfl htokens, if_pos hmt]
  case delay =>
    intro s p f hp hx hspeed hup hptp htype hmt
    rw [exec_of_wf (fun _ => rfl) (by simp [Instr.wf, hp]), fronthaulFrameRx_of_oneWayDelay hx hspeed hup hptp htype hmt]
  case ptp =>
    intro s p f hp hx hspeed hup hptp
    rw [exec_of_wf (fun _ => rfl) (by simp [Instr.wf, hp]), fronthaulFrameRx_of_ptp hx hspeed hup hptp]
  case foreign =>
    intro s p f hp hx hspeed hup hptp htype
    rw [exec_of_wf (fun _ => rfl) (by simp [Instr.wf, hp]), fronthaulFrameRx_of_foreign hx hspeed hup hptp htype]
  case opening =>
    intro s c sl l b hc hl hon hb hposted
    rw [exec_of_wf (fun _ => rfl) (by simp [Instr.wf, hc, hl]), ulWindowOpen_of_posted hon hb hposted]
  case closing =>
    intro s c sl l b e a hc hl hon hb hdec he ha
    rw [exec_of_wf (fun _ => rfl) (by simp [Instr.wf, hc, hl]), ulWindowClose_of_decided hon hb hdec he ha]
  case soft =>
    intro s n c ga ts len l l2 d e loc idx r hn hga hissues hcyc hpart hmeet hr ho hp
    rw [exec_of_settled (fun _ => rfl) (by simpa [Instr.wf, hn] using hga), softMove,
      seqStall_go hissues hcyc (softMoveOp_of_proceeds hpart hmeet hr ho hp)]

end Sys2Proof.Machine
end

section
/-! PROOFS. Spares (chapter 12): bring-ins, control processors, tasting and periodic tests. -/

namespace Sys2Proof.Machine

/-! ### Bring-ins of cores -/

section BringIn

variable {d : Device} {n : Nat}

/-- No spare is being brought in for a logical number. -/
theorem any_bringIn_false (h : ∀ b ∈ d.ras.cores, b.logical ≠ n) : (d.ras.cores.any fun b => b.logical == n) = false := by
  simpa using h

/-- A core that is being retired drops its work, and a spare is chosen for it (R373, steps 1 and 2). -/
theorem coreBringIn_of_retiring {r : Nat × Nat} (hretiring : (d.ras.retiring.find? fun r => r.1 == d.coreUnit n) = some r)
    (hnew : ∀ b ∈ d.ras.cores, b.logical ≠ n) : coreBringIn n d = (d.failCore n r.2 (d.coreUnit n)).nextSpare n (d.coreUnit n) := by
  simp only [coreBringIn, hretiring, any_bringIn_false hnew, Bool.false_eq_true, if_false]

/-- A spare that fails its test is retired, and the next one is tried (R373). -/
theorem coreBringInDone_of_failed {b : BringIn} (hb : (d.ras.cores.find? fun b => b.logical == n) = some b) :
    coreBringInDone n false d = d.spareFails b 0xFF := by
  simp only [coreBringInDone, hb, Bool.not_false, if_true]

/-- A spare that passes its test takes the number (R373, steps 3 to 5). -/
theorem coreBringInDone_of_passed {b : BringIn} {a e f g : Device} (hb : (d.ras.cores.find? fun b => b.logical == n) = some b)
    (ha : a = d.setCore n { d.core n with bringIn := false, fenced := [], banks := [] })
    (he : e = Device.zero { a with ras := { a.ras with cores := a.ras.cores.filter (fun c => c.logical != n),
                                                       retiring := a.ras.retiring.filter (fun r => r.1 != b.unit),
                                                       lost := b.unit :: a.ras.lost } } spTS (tsOff n 0) 2097152)
    (hf : f = ((e.wr COR_LMAP.phys n b.spare).wr COR_LMAP.remapped n 1).describeCore n)
    (hg : g = (f.incWrap COR_TIMING.generation n 1).showSpares (n / 48)) :
    coreBringInDone n true d =
      (((g.setCoreSt n csIdle).placeWindows n).logBringIn b.unit (unitOf (b.spare / 52) (b.spare % 52))).showReserve := by
  subst ha he hf hg
  simp only [coreBringInDone, hb, Bool.not_true, Bool.false_eq_true, if_false]

/-! ### Rows of a cube -/

section Row

variable {cube row : Nat} (hrow : (d.ras.rows.find? fun r => r.1 == d.coreUnit n) = some (d.coreUnit n, cube, row))

include hrow

/-- Between two legs of a core, with no window near, a row of its cube is repaired; a cube whose spare row is in use retires the core (R374). -/
theorem cubeRowBringIn_of_gap (hleg : (d.core n).leg = none) (hst : d.coreSt n = csIdle)
    (hfar : ∀ w, d.nextWindow n d.cycle = some w → (d.cycle : Int) + 198000 ≤ w) : cubeRowBringIn n d =
      if 8 ≤ cubeField (d.reg .COR_CUBE_REPAIR n).toNat cube then
        Device.retire { d with ras := { d.ras with rows := d.ras.rows.filter fun r => r.1 != d.coreUnit n } } (d.coreUnit n) 0x0F
      else (d.setCore n { d.core n with bringIn := true }).setCoreSt n csRecovery := by
  simp only [cubeRowBringIn, hrow]
  cases hw : d.nextWindow n d.cycle with
  | none => exact if_neg (by simp [hleg, hst])
  | some w => exact if_neg (by simp [hleg, hst, hfar w hw])

/-- The repaired row is switched in, unless a spare is coming in for the core (R374). -/
theorem cubeRowBringInDone_of_bringIn {a b : Device} (hin : (d.core n).bringIn = true) (hst : d.coreSt n = csRecovery)
    (hnew : ∀ b ∈ d.ras.cores, b.logical ≠ n)
    (ha : a = (d.setCore n { d.core n with bringIn := false, fenced := [], banks := [] }).setReg .COR_CUBE_REPAIR n
      (BitVec.ofNat 64 (repairRow (d.reg .COR_CUBE_REPAIR n).toNat cube row)))
    (hb : b = (((a.wr COR_TIMING.cube_depth n 5).wr COR_TIMING.leg_start n 25).incWrap COR_TIMING.generation n 1).setCoreSt n csIdle) :
    cubeRowBringInDone n d =
      ({ b with ras := { b.ras with rows := b.ras.rows.filter fun r => !(r.1 == d.coreUnit n && r.2.1 == cube) } } : Device).logBringIn
        (d.coreUnit n) (d.coreUnit n) := by
  subst ha hb
  simp only [cubeRowBringInDone, hrow]
  exact if_neg (by simp [hin, hst, any_bringIn_false hnew])

end Row

end BringIn

/-! ### Pseudo-channels -/

section Copy

variable {d : Device} {u : Nat} (hretiring : d.isRetiring u = true) (hpc : isPcUnit u = true) (hnew : ∀ c ∈ d.ras.psCopies, c.1 ≠ u)

include hretiring hpc hnew

theorem copy_begins : ¬(!d.isRetiring u || !isPcUnit u || d.ras.psCopies.any fun c => c.1 == u) = true := by
  have hcopies : (d.ras.psCopies.any fun c => c.1 == u) = false := by simpa only [List.any_eq_false, beq_iff_eq] using hnew
  rw [hretiring, hpc, hcopies]
  exact Bool.false_ne_true

/-- The copy of a pseudo-channel that is being retired starts where its stack has a spare (R376). -/
theorem pseudoChannelCopy_of_spare {p : Nat} (hspare : d.sparePc u = some p) : pseudoChannelCopy u d =
    Device.perturbLegs { d with ras := { d.ras with psCopies := d.ras.psCopies ++ [(u, p)], memEvents := u :: d.ras.memEvents } } := by
  rw [pseudoChannelCopy, if_neg (copy_begins hretiring hpc hnew), hspare]

/-- Without a spare the pseudo-channel stays in service (R376). -/
theorem pseudoChannelCopy_of_no_spare (hspare : d.sparePc u = none) : pseudoChannelCopy u d =
    { d with ras := { d.ras with retiring := d.ras.retiring.filter fun r => r.1 != u } } := by
  rw [pseudoChannelCopy, if_neg (copy_begins hretiring hpc hnew), hspare]

end Copy

/-- A copy that is done puts the spare in the pseudo-channel's place (R267, R376). -/
theorem pseudoChannelCopyDone_of_copy {d : Device} {u p : Nat} (hcopy : (d.ras.psCopies.find? fun c => c.1 == u) = some (u, p)) :
    pseudoChannelCopyDone u d =
      ({ d with ras := { d.ras with psCopies := d.ras.psCopies.filter (fun c => c.1 != u), memEvents := d.ras.memEvents.filter (fun x => x != u),
                                    psMap := smIns d.ras.psMap (d.pcOrigin u) p, retiring := d.ras.retiring.filter (fun r => r.1 != u),
                                    lost := u :: d.ras.lost } } : Device).log { unit := u, sev := 5, op := 0x1B, detail := u + p <<< 16 } := by
  simp only [pseudoChannelCopyDone, hcopy]

/-! ### Routing engines -/

/-- The spare of a memory-side die that passes its test takes the place of a retired engine (R232, R375). -/
theorem engineBringIn_of_passed {d a b : Device} {e u p : Nat} (hu : u = d.engineUnit e) (hretiring : d.isRetiring u = true) (ha : a = d.sweepEngines)
    (hp : p = spareEngine e) (hfree : a.engineSpareFree e = true) (hb : b = (a.wr RTE_MAP.phys e p).wr RTE_MAP.remapped e 1) :
    engineBringIn e true d = (List.range 4).foldl (fun (c : Device) i => c.wr RTE_MAP.spare_avail (e / 4 * 4 + i) (b2n (c.engineSpareFree e)))
      (((Device.wr { b with ras := { b.ras with retiring := b.ras.retiring.filter (fun r => r.1 != u), lost := u :: b.ras.lost } }
        RTE_MAP.state e 2).showEngine e).logBringIn u (engineUnitOf p)) := by
  subst hu ha hp hb
  simp only [engineBringIn, hretiring, hfree, Bool.not_true, Bool.and_self, Bool.false_eq_true, if_true, if_false]

/-- The watchdog of an engine's input fences a sender that is not yet fenced (R244). -/
theorem engineInputWatchdogFire_of_open {d : Device} {e src u : Nat} (hu : u = d.reqUnit src 27) (hopen : (e, u) ∉ d.rteFenced) :
    engineInputWatchdogFire e src d = (({ d with rteFenced := (e, u) :: d.rteFenced } : Device).incSat RTE_STALL.fenced e 1).log
      { unit := u, sev := 4, op := 0x08, detail := u } := by
  subst hu
  exact if_neg (by simpa using hopen)

/-! ### Control processors -/

theorem cpCheckpoint_of_active {d : Device} {k : Nat} (hactive : bit (d.rd RAS_CP_STAT.active 0) k = true) : cpCheckpoint k d =
    { d with ras := { d.ras with cpTasks := smSet d.ras.cpTasks k {} { seq := (smGet d.ras.cpTasks k {}).seq + 1, journal := 0 } } } :=
  if_pos hactive

/-- A working processor fails while none is being taken over and others still work: the spare takes over, or where it is the spare that fails there is
none from now on; with no spare the active processors left take over (R378). -/
theorem cpFailure_of_working {d a : Device} {k : Nat} (hworking : bit (d.rd RAS_CP_STAT.working 0) k = true)
    (hleft : d.rd RAS_CP_STAT.working 0 &&& (15 - 2 ^ k) ≠ 0)
    (ha : a = (d.wr RAS_CP_STAT.working 0 (d.rd RAS_CP_STAT.working 0 &&& (15 - 2 ^ k))).wr RAS_CP_STAT.active 0
      (d.rd RAS_CP_STAT.active 0 &&& (15 - 2 ^ k))) (hbusy : a.ras.cpBusy = none) :
    cpFailure k d = if (!d.on RAS_CP_STAT.no_spare 0 && d.rd RAS_CP_STAT.spare 0 = k) = true then a.wr RAS_CP_STAT.no_spare 0 1
      else { a with ras := { a.ras with cpBusy := some (k,
        if d.on RAS_CP_STAT.no_spare 0 then d.rd RAS_CP_STAT.active 0 &&& (15 - 2 ^ k) else 2 ^ d.rd RAS_CP_STAT.spare 0) } } := by
  subst ha
  simp only [cpFailure, Device.failCp, hworking, hleft, hbusy, Bool.not_true, Bool.false_eq_true, if_false]

theorem exec_cpFailure {s : State} {k : Nat} (hk : k < 4) : exec (.cpFailure k) s = .next (s.settles ((cpFailure k s.dev).watchSvc s.dev)) :=
  exec_of_settled (f := Device.svcWatched (cpFailure k)) (fun _ => rfl) (by simp [Instr.wf, hk]) s

/-- The takeover ends: those that took over are active, the next failed processor's turn comes, and no spare is left (R378). -/
theorem cpTakeoverDone_of_busy {d a : Device} {k w act : Nat} (hbusy : d.ras.cpBusy = some (k, w)) (hact : act = d.rd RAS_CP_STAT.active 0 ||| w)
    (ha : a = (Device.incSat { d with ras := { d.ras with cpBusy := d.ras.cpNext.head?.map fun j => (j, act), cpNext := d.ras.cpNext.drop 1 } }
      RAS_CP_STAT.takeovers 0 1).wr RAS_CP_STAT.no_spare 0 1) :
    cpTakeoverDone d = (a.wr RAS_CP_STAT.active 0 act).log { unit := unitOf 6 k, sev := 5, op := 0x14, detail := k + w <<< 8 } := by
  subst hact ha
  simp only [cpTakeoverDone, hbusy]

/-- The spare role passes to the next active processor, and the spare becomes active in its place (R379). -/
theorem cpSpareRotation_of_next {d : Device} {p k : Nat} (hspare : d.on RAS_CP_STAT.no_spare 0 = false) (hbusy : d.ras.cpBusy = none)
    (hp : p = d.rd RAS_CP_STAT.spare 0) (hnext : (([1, 2, 3].map fun i => (p + i) % 4).find? fun k => bit (d.rd RAS_CP_STAT.active 0) k) = some k) :
    cpSpareRotation d = (d.wr RAS_CP_STAT.active 0 ((d.rd RAS_CP_STAT.active 0 &&& (15 - 2 ^ k)) ||| 2 ^ p)).wr RAS_CP_STAT.spare 0 k := by
  subst hp
  rw [cpSpareRotation, if_neg (by simp [hspare, hbusy])]
  simp only [hnext]

/-! ### Tasting -/

section Tasting

variable {d : Device} {n : Nat} {t : Taste} (ht : d.tasteOn n = some t) (hplaced : t.placed = true)

include ht hplaced

/-- The taster has recomputed the pass: where the two agree the taste is over, else a third core is asked (R381, R382). -/
theorem tasteLeg_of_first {a : Device} (hphase : t.phase = 0)
    (ha : a = (d.incWrap RAS_TASTE_CNT.tasted t.core 1).binAdd t.core (tbinOf (toSigned 16 t.temp)) (vbinOf t.volt) t.fmt.binRow 1) (equal : Bool) :
    tasteLeg n equal d = if equal then a.tasteOver t
      else { a with ras := { a.ras with tastes := a.ras.tastes.map fun x =>
        if x.id = t.id then { t with phase := 1, other := n, placed := false, die := a.thirdDie t n } else x } } := by
  subst ha
  simp only [tasteLeg, ht, hplaced, hphase, ne_eq, not_true_eq_false, decide_false, Bool.not_true, Bool.or_self, Bool.false_eq_true, if_false]

variable (hphase : t.phase = 1) (hother : n ≠ t.other) {a : Device} {v : Nat}
  (ha : a = d.log { unit := d.coreUnit t.core, sev := 2, op := 0x0A, flags := 4, temp := t.temp, volt := t.volt, ten := t.ten, mid := t.mid, leg := t.leg,
                    detail := t.cube + (t.cube / 4) <<< 4 + v <<< 8 + d.coreUnit t.other <<< 32 })

include hphase hother ha

/-- The third core finds the taster wrong: the taster is steeped, and the command's result stands (R382, R384). -/
theorem tasteArbitration_of_tasterWrong (hv : v = 2) :
    tasteArbitration n v d = ((a.incSat RAS_CORE_HEALTH.as_taster t.other 1).steep (d.coreUnit t.other)).tasteOver t := by
  subst hv ha
  simp [tasteArbitration, ht, hplaced, hphase, hother, inRange]

/-- The third core finds the original wrong, or decides nothing: the original is steeped, in the second case the taster too, and the command fails (R382 to R384). -/
theorem tasteArbitration_of_originalSuspect {b c : Device} (hv : v = 1 ∨ v = 3)
    (hb : b = (a.incSat RAS_CORE_HEALTH.as_original t.core 1).steep (d.coreUnit t.core))
    (hc : c = if v = 1 then
        (b.binAdd t.core (tbinOf (toSigned 16 t.temp)) (vbinOf t.volt) t.fmt.binRow 0).addEvent (d.coreUnit t.core) evVerdict 0 0x0A 0
      else (b.incSat RAS_CORE_HEALTH.as_taster t.other 1).steep (d.coreUnit t.other)) :
    tasteArbitration n v d = (c.failRun t.sn stTaste (d.nextRec % 65536 + d.coreUnit t.core <<< 16)).tasteOver t := by
  subst ha hb hc
  rcases hv with rfl | rfl <;> simp [tasteArbitration, ht, hplaced, hphase, hother, inRange]

end Tasting

/-! ### Periodic tests -/

theorem periodicTestDue_of_due (n : Nat) (d : Device) : periodicTestDue n false d = d.setCore n { d.core n with testDue := true } := rfl

theorem periodicTestDue_of_late (n : Nat) (d : Device) :
    periodicTestDue n true d = if (d.core n).testDue then d.incSat RAS_CORE_HEALTH.tests_late n 1 else d := rfl

/-- Settles O41, event by event. The order of the spare role (log 35), the causes that records of retirement carry (log 69), what describes a spare core and a repaired
row (log 70), and the places of cube and quad in a verdict's record (log 71) are the model's choice and deductions. -/
theorem sparesAndTasting : Obligations.SparesAndTasting := by
  unfold Obligations.SparesAndTasting
  refine ⟨?coreIn, ?coreFailed, ?corePassed, ?rowRepaired, ?rowInUse, ?rowDone, ?copy, ?noSpare, ?copied, ?engineIn, ?watchdog, ?checkpoint, ?spareTakesOver,
    ?spareFails, ?othersTakeOver, ?takenOver, ?rotation, ?agrees, ?differs, ?tasterWrong, ?originalSuspect, ?due, ?late⟩
  case coreIn =>
    intro s n r hn hretiring hnew
    rw [exec_of_settled (fun _ => rfl) (by simp [Instr.wf, hn]), coreBringIn_of_retiring hretiring hnew]
  case coreFailed =>
    intro s n b hn hb
    rw [exec_of_settled (fun _ => rfl) (by simp [Instr.wf, hn]), coreBringInDone_of_failed hb]
  case corePassed =>
    intro s n b a e f g hn hb ha he hf hg
    rw [exec_of_settled (fun _ => rfl) (by simp [Instr.wf, hn]), coreBringInDone_of_passed hb ha he hf hg]
  case rowRepaired =>
    intro s n c r hn hrow hleg hst hfar hfree
    rw [exec_of_settled (fun _ => rfl) (by simp [Instr.wf, hn]), cubeRowBringIn_of_gap hrow hleg hst hfar, if_neg (Nat.not_le.2 hfree)]
  case rowInUse =>
    intro s n c r hn hrow hleg hst hfar hused
    rw [exec_of_settled (fun _ => rfl) (by simp [Instr.wf, hn]), cubeRowBringIn_of_gap hrow hleg hst hfar, if_pos hused]
  case rowDone =>
    intro s n c r a b hn hrow hin hst hnew ha hb
    rw [exec_of_settled (fun _ => rfl) (by simp [Instr.wf, hn]), cubeRowBringInDone_of_bringIn hrow hin hst hnew ha hb]
  case copy =>
    intro s u p hu hretiring hpc hnew hspare
    rw [exec_of_wf (fun _ => rfl) (by simp [Instr.wf, hu]), pseudoChannelCopy_of_spare hretiring hpc hnew hspare]
  case noSpare =>
    intro s u hu hretiring hpc hnew hspare
    rw [exec_of_wf (fun _ => rfl) (by simp [Instr.wf, hu]), pseudoChannelCopy_of_no_spare hretiring hpc hnew hspare]
  case copied =>
    intro s u p hu hcopy
    rw [exec_of_wf (fun _ => rfl) (by simp [Instr.wf, hu]), pseudoChannelCopyDone_of_copy hcopy]
  case engineIn =>
    intro s e u p a b he hu hretiring ha hp hfree hb
    rw [exec_of_settled (fun _ => rfl) (by simp [Instr.wf, he]), engineBringIn_of_passed hu hretiring ha hp hfree hb]
  case watchdog =>
    intro s e src u he hsrc hu hopen
    rw [exec_of_wf (fun _ => rfl) (by simp [Instr.wf, he, hsrc]), engineInputWatchdogFire_of_open hu hopen]
  case checkpoint =>
    intro s k hk hactive
    rw [exec_of_wf (fun _ => rfl) (by simp [Instr.wf, hk]), cpCheckpoint_of_active hactive]
  case spareTakesOver =>
    intro s k a hk hworking hleft ha hbusy hspare hother
    rw [exec_cpFailure hk, cpFailure_of_working hworking hleft ha hbusy, if_neg (by simp [hother]), if_neg (ne_true_of_eq_false hspare)]
  case spareFails =>
    intro s k a hk hworking hleft ha hbusy hspare hself
    rw [exec_cpFailure hk, cpFailure_of_working hworking hleft ha hbusy, if_pos (by simp [hspare, hself])]
  case othersTakeOver =>
    intro s k a hk hworking hleft ha hbusy hnone
    rw [exec_cpFailure hk, cpFailure_of_working hworking hleft ha hbusy, if_neg (by simp [hnone]), if_pos hnone]
  case takenOver =>
    intro s k w act a hbusy hact ha
    rw [exec_of_settled (fun _ => rfl) rfl, cpTakeoverDone_of_busy hbusy hact ha]
  case rotation =>
    intro s p k hspare hbusy hp hnext
    rw [exec_of_wf (fun _ => rfl) rfl, cpSpareRotation_of_next hspare hbusy hp hnext]
  case agrees =>
    intro s n t hn ht hplaced hphase
    rw [exec_of_settled (fun _ => rfl) (by simp [Instr.wf, hn]), tasteLeg_of_first ht hplaced hphase rfl, if_pos rfl]
  case differs =>
    intro s n t a hn ht hplaced hphase ha
    rw [exec_of_settled (fun _ => rfl) (by simp [Instr.wf, hn]), tasteLeg_of_first ht hplaced hphase ha, if_neg Bool.false_ne_true]
  case tasterWrong =>
    intro s n t a hn ht hplaced hphase hother ha
    rw [exec_of_settled (fun _ => rfl) (by simp [Instr.wf, hn]), tasteArbitration_of_tasterWrong ht hplaced hphase hother ha rfl]
  case originalSuspect =>
    intro s n v t a b hn ht hplaced hphase hother hv ha hb
    rw [exec_of_settled (fun _ => rfl) (by simp [Instr.wf, hn]; omega), tasteArbitration_of_originalSuspect ht hplaced hphase hother rfl hv ha hb]
  case due =>
    intro s n hn
    rw [exec_of_wf (fun _ => rfl) (by simp [Instr.wf, hn]), periodicTestDue_of_due]
  case late =>
    intro s n hn
    rw [exec_of_wf (fun _ => rfl) (by simp [Instr.wf, hn]), periodicTestDue_of_late]

end Sys2Proof.Machine
end

section
/-! PROOFS. Routing engines (chapter 8): submission, the intake of logit tiles, the sort, and the blend. -/

namespace Sys2Proof.Machine

/-! ### Submission -/

/-- The context of a route or blend, and its channel, as RTSUBMIT leaves them; the command waits for one mover more, and the leg goes on (R235, R239). -/
def Device.submit (d : Device) (n e x qn : Nat) (r : Route) (m : Leg) : Device :=
  ((((((d.setRctx e x { d.rctx e x with route := some r }).wr MEM_CHAN_STAT.tenancy (routeChan e x) m.ten).wr MEM_CHAN_STAT.kind (routeChan e x) 4).wr
    MEM_CHAN_STAT.queue (routeChan e x) qn).wr MEM_CHAN_STAT.state (routeChan e x) chActive).modRun m.sn fun q => { q with movers := q.movers + 1 }).putLeg n m

/-- A good descriptor of a leg goes into the free context that its command has at the position, and the bias store is loaded (R235, R245). -/
theorem rtsubmit_of_free {d a : Device} {n pos desc tok e x qn : Nat} {m : Leg} {engs : List (Nat × Nat)} {b : List Byte} {r : Route}
    (hengs : ((d.cmd? m.sn).bind fun c => c.run.map fun q => q.engines) = some engs) (hpos : engs[pos]? = some (e, x))
    (hfree : (d.rctx e x).route = none) (hserves : d.rd RTE_MAP.state e ≠ 4) (hal : desc % 128 = 0) (ho : d.ownsRange n m.ten desc 128 = true)
    (hp : d.poisonIn spTS (tsOff n desc) 128 = none) (hb : b = d.peek devKey spTS (tsOff n desc) 128)
    (hgood : (rdOp b = 1 ∧ d.routeOk b = true) ∨ (rdOp b = 2 ∧ d.blendOk b = true))
    (hr : r = { desc := b, core := n, serial := m.serial, tok := tok, leg := m.idx, ten := m.ten, mid := m.mid, sn := m.sn, fixed := d.fixedOrder m.ten,
                started := d.cycle })
    (hqn : qn = ((d.cmd? m.sn).map fun c => c.queue).getD 0) (ha : a = d.submit n e x qn r m) (hlost : a.rd RTE_MAP.state e ≠ 5) :
    rtsubmit n pos desc tok d m =
      some (.go ((a.showEngine e).loadBias e x) ((((a.showEngine e).loadBias e x).core n).leg.getD m)) := by
  obtain ⟨c, hc, hrun⟩ := Option.bind_eq_some_iff.1 hengs
  obtain ⟨q, hq, rfl⟩ := Option.map_eq_some_iff.1 hrun
  have hqueue : qn = c.queue := by rw [hqn, hc]; rfl
  have hok : ((rdOp b == 1 && d.routeOk b) || (rdOp b == 2 && d.blendOk b)) = true := by simpa using hgood
  subst hqueue hr ha hb
  simp only [rtsubmit, hc, hq, hpos, hfree, hserves, hal, Option.isSome_none, decide_false, Bool.or_self, Bool.false_eq_true, ne_eq, not_true_eq_false, if_false,
    tsRead_of_owned ho hp, hok, Bool.not_true]
  exact congrArg (fun f : Device => some (LegRes.go f ((f.core n).leg.getD m))) (if_neg hlost)

/-! ### Intake -/

/-- A tile of a sender that is not fenced waits at the engine's input, which takes what it can (R244). -/
theorem logitTileArrival_of_open {d : Device} {e x src band col fmt : Nat} {tag data : List Byte} (h : (e, d.reqUnit src 27) ∉ d.rteFenced) :
    logitTileArrival e x src tag band col fmt data d = Device.intake { d with rteIn := { d.rteIn with
      waiting := d.rteIn.waiting ++ [{ e := e, x := x, src := src, tag := tag, band := band, col := col, fmt := fmt, data := data }] } } e :=
  if_neg (by simpa using h)

/-- A good tile with a good tag of the route's command joins the route, numbered in order of arrival (R241, R247). -/
theorem takeTile_of_good {d : Device} {t : RIn} {r : Route} (htag : tagOk t.tag = true) (hroute : (d.rctx t.e t.x).route = some r)
    (hten : tagTen t.tag = r.ten) (hmid : tagMid t.tag = r.mid) (hgood : r.bad t = false) :
    d.takeTile t = ({ d with rteSeq := d.rteSeq + 1 } : Device).setRctx t.e t.x { d.rctx t.e t.x with route := some { r with
      tiles := r.tiles ++ [⟨t.band, t.col, d.rteSeq, (List.range 64).map fun i =>
        if t.fmt = 1 then leAt t.data (2 * i) 2 * 65536 else leAt t.data (4 * i) 4⟩] } } := by
  simp only [Device.takeTile, htag, hroute, hten, hmid, hgood, ne_eq, not_true_eq_false, decide_false, Bool.not_true, Bool.or_self, Bool.false_eq_true, if_false]

/-! ### What a sort writes -/

/-- Destinations of a home table (Table 8-2). -/
def Route.dests (r : Route) (home : List Byte) : List Dest := (List.range (rdD r.desc)).map fun i =>
  let w := leAt home (64 * ceilDiv (rdE r.desc) 8 + 8 * i) 8
  ⟨i, bits w 11 0, bits w 27 12, bits w 43 28⟩

/-- The selection of every token, and its pairs in order (R246 to R249). -/
def Route.selections (r : Route) : List (List Pair × Bool) := (List.range (rdT r.desc)).map r.select
def Route.chosen (r : Route) : List Pair := r.selections.flatMap fun q => q.1

/-- The pair with its destination by the home table (R250). -/
def Route.sendTo (r : Route) (home : List Byte) (p : Pair) : Pair := { p with dest := destOf home (rdFirst r.desc) p.t p.e }

/-- Pairs that go to a destination, and those that a NaN removed (R248). -/
def Route.sent (r : Route) (home : List Byte) : List Pair := (r.chosen.filter fun p => !p.nan).map (r.sendTo home)
def Route.removed (r : Route) : List Pair := r.chosen.filter fun p => p.nan

/-- What capacity leaves of each destination, in the order of the dispatch list (R251). -/
def Route.outs (r : Route) (home : List Byte) : List DestOut :=
  (sortBy (fun (a b : Dest) => decide (a.dev * 65536 + a.slot < b.dev * 65536 + b.slot)) (r.dests home)).map (destOut (rdOrder r.desc) (r.sent home))

/-- The drop list: removed pairs, then those over capacity; how many capacity drops, and how many it keeps (R248, R252). -/
def Route.drops (r : Route) (home : List Byte) : List Pair := r.removed ++ (r.outs home).flatMap fun o => o.dropped
def Route.nDrop (r : Route) (home : List Byte) : Nat := ((r.outs home).map fun o => o.dropped.length).foldl (· + ·) 0
def Route.nKept (r : Route) (home : List Byte) : Nat := ((r.outs home).map fun o => o.kept.length).foldl (· + ·) 0

/-- The combine list; the weight of a removed pair is a free value (R254, log 50). -/
def Route.combine (r : Route) (home : List Byte) (free : Nat) : List Byte := r.chosen.flatMap fun p =>
  if p.nan then toLE 4 0xFFFFFFFF ++ toLE 4 free else toLE 4 (rowOf (firstRows (r.outs home) 0) (r.sendTo home p)) ++ toLE 4 p.gate

/-- The writes of a sort: the dispatch list, the combine list and, where the route has one, the drop list (R252 to R254). -/
def Route.lists (r : Route) (home : List Byte) (free : Nat) : List (Nat × List Byte) :=
  [(rdDispatch r.desc, dispatchBytes (rdD r.desc) (rdFirst r.desc) (firstRows (r.outs home) 0)), (rdCombine r.desc, r.combine home free)] ++
    (if rdDrops r.desc = 0 then [] else [(rdDrops r.desc, ((r.drops home).take (rdDropCap r.desc)).flatMap (dropEntry (rdFirst r.desc)))])

/-- A device after the writes of the lists, and after the sort has used its scratch area (R251). -/
def Route.writes (r : Route) (home : List Byte) (d : Device) : Device × Wr := (d.fresh (2 ^ 32)).2.writeAll r.ten (r.lists home (d.fresh (2 ^ 32)).1)
def Route.scratches (r : Route) (d : Device) : Device × Option Nat :=
  (parts (rdScratch r.desc) (16 * rdT r.desc * rdK r.desc)).foldl (scratchPart r.ten) (d, none)

/-- Whether the weight of a pair that goes to a destination is NaN (R248). -/
def Route.nanGate (r : Route) (home : List Byte) : Bool := (r.sent home).any fun p => isNan32 p.gate

/-- What the status record of a sort holds (Table 8-8). -/
def Route.sorted (r : Route) (home : List Byte) : RouteOut :=
  { flags := 2 * b2n (r.nanGate home) + 4 * b2n (decide (rdDrops r.desc ≠ 0) && decide (rdDropCap r.desc < (r.drops home).length)),
    pairs := rdT r.desc * rdK r.desc, kept := r.nKept home, dropped := r.nDrop home, nans := r.removed.length,
    pads := ((r.dests home).map fun q => q.cap).foldl (· + ·) 0 - r.nKept home, ties := (r.selections.filter fun q => q.2).length,
    fill := ((r.outs home).map fun o => o.count).foldl max 0 }

/-- Pairs over capacity are counted, and a NaN key or gate weight leaves a record (R248, R252, Table 12-5). -/
def Device.recordSort (d : Device) (e : Nat) (r : Route) (home : List Byte) : Device :=
  let a := (d.incSat RTE_STAT.pairs_dropped e (r.nDrop home)).incWrap RTE_TEN_DROP.pairs_dropped r.ten (r.nDrop home)
  if r.nanGate home || !r.removed.isEmpty then a.log { unit := a.engineUnit e, sev := 0, op := 0x19, ten := r.ten, mid := r.mid } else a

/-! ### The sort -/

/-- Whether context y holds a full route whose last tile came before that of the route r, and whose sort therefore comes first. -/
def Device.sortsBefore (d : Device) (e : Nat) (r : Route) (y : Nat) : Bool := ((d.rctx e y).route.map fun o =>
  rdOp o.desc == 1 && o.full && decide ((o.tiles.map fun t => t.order).foldl max 0 < (r.tiles.map fun t => t.order).foldl max 0) &&
    d.rd MEM_CHAN_STAT.state (routeChan e y) == chActive).getD false

/-- A full route whose turn it is, with a valid home table, writes its lists and ends (R250 to R254). -/
theorem routeSort_of_turn {d w : Device} {e x : Nat} {r : Route} {home : List Byte} (hroute : (d.rctx e x).route = some r)
    (hch : d.rd MEM_CHAN_STAT.state (routeChan e x) = chActive) (hop : rdOp r.desc = 1) (hfull : r.full = true)
    (hfirst : ∀ y < 8, y ≠ x → d.sortsBefore e r y = false) (hdup : r.dup = 0)
    (hread : d.readGA r.ten (rdHome r.desc) (64 * ceilDiv (rdE r.desc) 8 + 8 * rdD r.desc) = .ok home)
    (hhome : homeOk (rdE r.desc) (rdD r.desc) home (r.dests home) = true) (hw : r.writes home d = (w, .ok)) (hscr : (r.scratches w).2 = none) :
    routeSort e x d = ((r.scratches w).1.recordSort e r home).endRoute e x r stOk 0 (r.sorted home) := by
  simp only [routeSort, hroute]
  rw [if_neg ?turn, if_neg (by simp [hdup])]
  case turn =>
    simp only [hop, hfull, hch, ne_eq, not_true_eq_false, decide_false, Bool.not_true, Bool.or_self, Bool.false_or, List.any_eq_true, List.mem_range,
      Bool.and_eq_true, bne_iff_ne, not_exists, not_and]
    intro y hy hyx
    have hbefore := hfirst y hy hyx
    unfold Device.sortsBefore at hbefore
    cases ho : (d.rctx e y).route with
    | none => exact Bool.false_ne_true
    | some o => exact ne_true_of_eq_false (by simpa only [ho, Option.map_some, Option.getD_some] using hbefore)
  simp only [hread]
  rw [if_neg (by rw [Bool.not_eq_true', Bool.not_eq_false]; exact hhome)]
  change (match (r.writes home d).2 with
    | .waits => d
    | .fault ga => d.faultRoute e x r ga
    | .poison _ => d.eccRoute e x r
    | .ok => match (r.scratches (r.writes home d).1).2 with
      | some ga => d.faultRoute e x r ga
      | none => ((r.scratches (r.writes home d).1).1.recordSort e r home).endRoute e x r stOk 0 (r.sorted home)) = _
  simp only [hw, hscr]

/-! ### The blend -/

/-- The row indices of a combine list, and those that name a row (R254, R256). -/
def Route.blendRows (r : Route) (comb : List Byte) : List Nat := (List.range (bdT r.desc * rdK r.desc)).map fun j => leAt comb (8 * j) 4
def Route.namedRows (r : Route) (comb : List Byte) : List Nat := (r.blendRows comb).filter fun v => v != 0xFFFFFFFF

/-- The returns of the rows that are named, each read once. -/
def Route.returns (r : Route) (comb : List Byte) (d : Device) : Rd × List (Nat × List Byte) :=
  (r.namedRows comb).eraseDups.foldl (blendRow d r.ten (bdReturns r.desc) (bdH r.desc * if bdIn r.desc then 2 else 4)) (.ok [], [])

/-- Weight and value of the terms of one element of a blended row, from the rows read. -/
def Route.blendTerms (r : Route) (comb : List Byte) (rows : List (Nat × List Byte)) (t j : Nat) : List (Nat × Nat) :=
  (List.range (rdK r.desc)).filterMap fun i =>
    if leAt comb (8 * (rdK r.desc * t + i)) 4 = 0xFFFFFFFF then none else some (leAt comb (8 * (rdK r.desc * t + i) + 4) 4,
      if bdIn r.desc then leAt (smGet rows (leAt comb (8 * (rdK r.desc * t + i)) 4) []) (2 * j) 2 * 65536
      else leAt (smGet rows (leAt comb (8 * (rdK r.desc * t + i)) 4) []) (4 * j) 4)

/-- The rows that a blend writes, one for each token. -/
def Route.blended (r : Route) (comb : List Byte) (rows : List (Nat × List Byte)) : List (Nat × List Byte) := (List.range (bdT r.desc)).map fun t =>
  (bdOutput r.desc + t * bdH r.desc * (if bdOut r.desc then 2 else 4),
    (List.range (bdH r.desc)).flatMap fun j => blendOut (bdOut r.desc) (blendElem (r.blendTerms comb rows t j)))

/-- A blend whose rows are in range and can be read writes the weighted rows and ends (R256). -/
theorem blend_of_rows {d : Device} {e x : Nat} {r : Route} {comb bs : List Byte} {w : Device × Wr} (hroute : (d.rctx e x).route = some r)
    (hch : d.rd MEM_CHAN_STAT.state (routeChan e x) = chActive) (hop : rdOp r.desc = 2)
    (hread : d.readGA r.ten (bdCombine r.desc) (8 * bdT r.desc * rdK r.desc) = .ok comb)
    (hrange : ((r.blendRows comb).any fun v => v != 0xFFFFFFFF && decide (bdR r.desc ≤ v)) = false) (hrows : (r.returns comb d).1 = .ok bs)
    (hw : w = d.writeAll r.ten (r.blended comb (r.returns comb d).2)) (hok : w.2 = .ok) :
    blend e x d = w.1.endRoute e x r stOk 0 { kept := (r.namedRows comb).length } := by
  subst hw
  simp only [blend, hroute]
  rw [if_neg (by simp [hop, hch])]
  simp only [hread]
  rw [if_neg (by rw [Bool.not_eq_true]; exact hrange)]
  change (match (r.returns comb d).1 with
    | .waits => d
    | .fault ga => d.faultRoute e x r ga
    | .poison _ => d.eccRoute e x r
    | .ok _ => match (d.writeAll r.ten (r.blended comb (r.returns comb d).2)).2 with
      | .waits => d
      | .fault ga => d.faultRoute e x r ga
      | .poison _ => d.eccRoute e x r
      | .ok => (d.writeAll r.ten (r.blended comb (r.returns comb d).2)).1.endRoute e x r stOk 0 { kept := (r.namedRows comb).length }) = _
  simp only [hrows, hok]

/-- Settles O46, command by command. That the weight of a removed pair is a free value of the combine list is the model's deduction (log 50). -/
theorem routingEngines : Obligations.RoutingEngines := by
  unfold Obligations.RoutingEngines
  refine ⟨?submit, ?arrival, ?take, ?sort, ?blend⟩
  case submit =>
    intro s n pos desc tok e x qn cy l m d a f engs b r hn htok hcyc hissues hengs hpos hfree hserves hal ho hp hb hgood hr hqn ha hlost hf
    rw [exec_of_settled (fun _ => rfl) (by simp [Instr.wf, hn, htok]), rtsubmitRow,
      seqStall_go hissues hcyc (rtsubmit_of_free hengs hpos hfree hserves hal ho hp hb hgood hr hqn ha hlost), hf]
  case arrival =>
    intro s e x src band col fmt tag data he hx hsrc htag hfmt hopen
    rw [exec_of_settled (fun _ => rfl) (by simp [Instr.wf, he, hx, hsrc, htag, hfmt]), logitTileArrival_of_open hopen]
  case take => exact fun d t r htag hroute hten hmid hgood => takeTile_of_good htag hroute hten hmid hgood
  case sort =>
    rintro s e x _ _ _ r home _ _ _ _ _ _ _ _ _ _ w scr a b he hx hroute hch hop hfull hfirst hdup rfl hread rfl hhome rfl rfl rfl rfl rfl rfl rfl rfl rfl rfl
      rfl hw hok rfl hscr rfl rfl
    have hwrites : r.writes home s.dev = (w.1, .ok) := hw.symm.trans (congrArg (Prod.mk w.1) hok)
    rw [exec_of_settled (fun _ => rfl) (by simp [Instr.wf, he, hx]), routeSort_of_turn hroute hch hop hfull hfirst hdup hread hhome hwrites hscr]
    rfl
  case blend =>
    rintro s e x _ _ _ r comb _ _ bs w he hx hroute hch hop rfl rfl rfl hread rfl hrange rfl hrows hw hok
    rw [exec_of_settled (fun _ => rfl) (by simp [Instr.wf, he, hx]), blend_of_rows hroute hch hop hread hrange hrows hw hok]
    rfl

end Sys2Proof.Machine
end

section
/-! PROOFS. The memory tiers (chapter 9): the interleaving of the tiers, CROSS commands, translation tables, transfer channels, the memory's services, and
crossings to a peer. -/

namespace Sys2Proof.Machine

/-! ### Interleaving -/

/-- Numbers of w bits that a fixed one is folded into come to each number of w bits exactly once. -/
theorem existsUnique_of_xor {w c : Nat} {f : Nat → Nat} (hc : c < 2 ^ w) (hf : ∀ i < 2 ^ w, f i = i ^^^ c) {p : Nat} (hp : p < 2 ^ w) :
    ∃ i, i < 2 ^ w ∧ f i = p ∧ ∀ j, j < 2 ^ w → f j = p → j = i := by
  have hi : p ^^^ c < 2 ^ w := Nat.xor_lt_two_pow hp hc
  refine ⟨p ^^^ c, hi, ?hits, fun j hj hjp => ?only⟩
  case hits => rw [hf _ hi, Nat.xor_assoc, Nat.xor_self, Nat.xor_zero]
  case only => rw [← hjp, hf j hj, Nat.xor_assoc, Nat.xor_self, Nat.xor_zero]

theorem bits_lt_of_le {hi lo w : Nat} (x : Nat) (h : hi + 1 - lo ≤ w) : bits x hi lo < 2 ^ w :=
  Nat.lt_of_lt_of_le (bits_lt x hi lo) (Nat.pow_le_pow_right (by decide) h)

/-- The bits above those that count within a block are the block's own. -/
theorem bits_add_of_lt {i w : Nat} (k hi lo : Nat) (h : i < 2 ^ w) : bits (2 ^ w * k + i) (w + hi) (w + lo) = bits k hi lo := by
  rw [bits, Nat.shiftRight_add, Nat.shiftRight_eq_div_pow _ w, Nat.mul_add_div (Nat.two_pow_pos w), Nat.div_eq_of_lt h, bits]
  congr 2
  omega

/-- Within a 128 KiB-aligned block of tier 1 a fixed value is folded into the number of the interleave unit (R265). -/
theorem pcOf_of_aligned {k i : Nat} (hi : i < 2 ^ 9) : pcOf (131072 * k + 256 * i) = i ^^^ (bits k 8 0 ^^^ (bits k 17 9 ^^^ bits k 22 18)) := by
  have hunit : (131072 * k + 256 * i) / 256 = 2 ^ 9 * k + i := by omega
  have hlow : bits (2 ^ 9 * k + i) 8 0 = i := by rw [bits]; omega
  simp only [pcOf, hunit, hlow]
  rw [bits_add_of_lt k 8 0 hi, bits_add_of_lt k 17 9 hi, bits_add_of_lt k 22 18 hi]
  simp only [Nat.xor_assoc]

/-- The same of an 8 KiB-aligned block of tier 2 (R266). -/
theorem t2Chan_of_aligned {k i : Nat} (hi : i < 2 ^ 5) : t2Chan (8192 * k + 256 * i) =
    i ^^^ (bits k 4 0 ^^^ (bits k 9 5 ^^^ (bits k 14 10 ^^^ (bits k 19 15 ^^^ (bits k 24 20 ^^^ bits k 26 25))))) := by
  have hunit : (8192 * k + 256 * i) / 256 = 2 ^ 5 * k + i := by omega
  have hlow : bits (2 ^ 5 * k + i) 4 0 = i := by rw [bits]; omega
  simp only [t2Chan, hunit, hlow]
  rw [bits_add_of_lt k 4 0 hi, bits_add_of_lt k 9 5 hi, bits_add_of_lt k 14 10 hi, bits_add_of_lt k 19 15 hi, bits_add_of_lt k 24 20 hi,
    bits_add_of_lt k 26 25 hi]
  simp only [Nat.xor_assoc]

/-- Settles O14: in each block the channel is the number of the interleave unit with a fixed value folded in. -/
theorem interleaveCovers : Obligations.InterleaveCovers := by
  unfold Obligations.InterleaveCovers
  refine ⟨?tier1, ?tier2⟩
  case tier1 =>
    intro k p hp
    have hfold : bits k 8 0 ^^^ (bits k 17 9 ^^^ bits k 22 18) < 2 ^ 9 := by
      refine Nat.xor_lt_two_pow ?_ (Nat.xor_lt_two_pow ?_ ?_) <;> exact bits_lt_of_le k (by decide)
    exact existsUnique_of_xor hfold (fun i hi => pcOf_of_aligned hi) hp
  case tier2 =>
    intro k p hp
    have hfold : bits k 4 0 ^^^ (bits k 9 5 ^^^ (bits k 14 10 ^^^ (bits k 19 15 ^^^ (bits k 24 20 ^^^ bits k 26 25)))) < 2 ^ 5 := by
      refine Nat.xor_lt_two_pow ?_ (Nat.xor_lt_two_pow ?_ (Nat.xor_lt_two_pow ?_ (Nat.xor_lt_two_pow ?_ (Nat.xor_lt_two_pow ?_ ?_)))) <;>
        exact bits_lt_of_le k (by decide)
    exact existsUnique_of_xor hfold (fun i hi => t2Chan_of_aligned hi) hp

/-! ### CROSS: declaration, crossing, release -/

/-- A CROSS of the front of a queue that is one of a kind of Table 9-6, and does not wait for tier 2, is evaluated as it starts (R277, R293). -/
theorem crossCmd_of_starts {s d : Device} {kind q : Nat} {x : Nat × List Byte} {c : Cmd} (hstart : s.starts q 0x02 x = true)
    (hfront : (d, c) = s.startFront q x) (hkind : crossKind s q x.2 = kind) (htier2 : s.crossTier2 (s.qTen q) x.2 = false) :
    crossCmd kind q s = (crossEval d c).settle q :=
  begin_of_startFront hstart hfront (by simp [hkind, htier2])

section CrossEval

variable {d : Device} {c : Cmd}

/-- A free entry that a destination and a length come with is declared (Table 9-6). -/
theorem crossEval_of_free (hidx : xIdx c.entry < d.rd MEM_LAND_CFG.count c.ten) (hst : d.landState c.ten (xIdx c.entry) = 0)
    (hdest : xDest c.entry ≠ 0) (hlen : 1 ≤ xLen c.entry) : crossEval d c = crossDeclareOp d c := by
  simp [crossEval, Nat.not_le.2 hidx, hst, hdest, hlen]

/-- A landing that a destination and its own length come with is moved. -/
theorem crossEval_of_move (hidx : xIdx c.entry < d.rd MEM_LAND_CFG.count c.ten) (hst : d.landState c.ten (xIdx c.entry) = 1)
    (hdest : xDest c.entry ≠ 0) (hlen : xLen c.entry = d.landLen c.ten (xIdx c.entry)) : crossEval d c = crossMoveOp d c := by
  simp [crossEval, Nat.not_le.2 hidx, hst, hdest, hlen]

/-- A landing that nothing comes with is released. -/
theorem crossEval_of_release (hidx : xIdx c.entry < d.rd MEM_LAND_CFG.count c.ten) (hst : d.landState c.ten (xIdx c.entry) = 1)
    (hdest : xDest c.entry = 0) (hlen : xLen c.entry = 0) : crossEval d c = crossReleaseOp d c := by
  simp [crossEval, Nat.not_le.2 hidx, hst, hdest, hlen]

theorem any_sealed_eq_false {ps : List Nat} (h : ∀ p ∈ ps, d.sealed p = false) : ps.any d.sealed = false := by simpa using h

/-- A declaration without digest on Plain or Vacated pages: they become Landed, the entry holds the landing, and the command completes (R278). -/
theorem crossDeclareOp_of_open {e : Device} {dest : Nat} {ps : List Nat} (hto : dest = xDest c.entry) (halign : landAligned dest = true)
    (hlocal : d.isLocal dest = true) (hsp : gaSp dest ≤ 2 ∨ gaSp dest = 8)
    (hhost : gaSp dest = 8 → d.hostCrossing c.ten (gaOff dest) (xLen c.entry) 0 = none) (hps : d.physPages c.ten dest (xLen c.entry) = .inl ps)
    (hopen : ∀ p ∈ ps, d.sealed p = false ∧ (d.pageState p = pgPlain ∨ d.pageState p = pgVacated)) (he : e = d.setPages ps pgLanded)
    (hhash : e.on MEM_LAND_CFG.hash c.ten = false) :
    crossDeclareOp d c = (e.landWrite c.ten (xIdx c.entry) 1 (e.homeFlags dest) 0xFFFF dest (xLen c.entry) 0 (e.step c.ten)).finish c.sn stOk 0 none := by
  have hseal : ps.any d.sealed = false := any_sealed_eq_false fun p hp => (hopen p hp).1
  have hfree : (gaSp dest == 8 && (d.hostCrossing c.ten (gaOff dest) (xLen c.entry) 0).isSome) = false := by
    by_cases h8 : gaSp dest = 8
    · simp [hhost h8]
    · simp [h8]
  have hblocked : (ps.zipIdx.find? fun p => d.pageState p.1 != pgPlain && d.pageState p.1 != pgVacated) = none := by
    rw [List.find?_eq_none]
    intro p hp
    obtain hplain | hvacated := (hopen p.1 (List.fst_mem_of_mem_zipIdx hp)).2
    · simp [hplain]
    · simp [hvacated]
  have hspace : (d.isLocal dest && (decide (gaSp dest ≤ 2) || gaSp dest == 8)) = true := by simpa [hlocal] using hsp
  subst hto he
  simp only [crossDeclareOp, halign, hspace, hps, hseal, hfree, hblocked, hhash, Bool.not_true, Bool.false_eq_true, if_false]

/-- A move to host memory: the entry records the destination and takes state crossing, and the transfer waits for a channel (R279). -/
theorem crossMoveOp_of_host {e : Device} {dest home len : Nat} {ps : List Nat} (hto : dest = xDest c.entry) (halign : landAligned dest = true)
    (hsp : gaSp dest = 8) (hhome : home = d.landHome c.ten (xIdx c.entry)) (hlen : len = d.landLen c.ten (xIdx c.entry))
    (hps : d.physPages c.ten home len = .inl ps) (hopen : ∀ p ∈ ps, d.sealed p = false)
    (he : e = d.landWrite c.ten (xIdx c.entry) 2 (d.landFlags c.ten (xIdx c.entry)) 0xFFFF home len dest
      (d.peekN spT1 (d.landAt c.ten (xIdx c.entry) + 32) 8)) :
    crossMoveOp d c = e.queueXfer
      { kind := 0, sn := c.sn, queue := c.queue, ten := c.ten, cls := eClass c.entry, client := eClient c.entry, step := e.cmdStep c.ten (eClass c.entry)
        mid := 0, src := home, dst := dest, len := len, chunk := chunkSize home dest, entry := xIdx c.entry } := by
  have hseal : ps.any d.sealed = false := any_sealed_eq_false hopen
  have hto_host : d.physPages c.ten dest len = .inl [] := if_pos (by simp [hsp])
  have hspace : (decide (gaSp dest ≤ 2) || gaSp dest == 8) = true := by simp [hsp]
  simp only [crossMoveOp, ← hto, ← hhome, ← hlen, ← he, halign, hspace, hps, hseal, hto_host, List.any_nil,
    Bool.not_true, Bool.or_self, Bool.false_eq_true, if_false]

/-- A landing that no weight list names is released: its pages are Plain and the entry free (R278). -/
theorem crossReleaseOp_of_unlisted {ps : List Nat} (hwlist : (smGet d.det c.ten {}).wlist.contains (xIdx c.entry) = false)
    (hps : d.physPages c.ten (d.landHome c.ten (xIdx c.entry)) (d.landLen c.ten (xIdx c.entry)) = .inl ps) (hopen : ∀ p ∈ ps, d.sealed p = false) :
    crossReleaseOp d c = ((d.setPages ps pgPlain).landFree c.ten (xIdx c.entry)).finish c.sn stOk 0 none := by
  simp only [crossReleaseOp, hps, any_sealed_eq_false hopen, hwlist, Bool.or_self, Bool.false_eq_true, if_false]

end CrossEval

/-- Settles O19, kind by kind of Table 9-6. -/
theorem crossCommands : Obligations.CrossCommands := by
  unfold Obligations.CrossCommands
  refine ⟨?declare, ?move, ?release⟩
  case declare =>
    rintro s q ⟨ready, entry⟩ d c ps hq hstart hfront hkind htier2 hidx hst hdest hlen halign hlocal hsp hhost hps hopen hhash
    obtain ⟨-, rfl⟩ : c.queue = q ∧ c.entry = entry := startFront_cmd hfront
    rw [exec_of_settled (fun _ => rfl) (by simp [Instr.wf, hq]), crossDeclare, crossCmd_of_starts hstart hfront hkind htier2]
    rw [crossEval_of_free hidx hst hdest hlen, crossDeclareOp_of_open rfl halign hlocal hsp hhost hps hopen rfl hhash]
  case move =>
    rintro s q ⟨ready, entry⟩ d c ps hq hstart hfront hkind htier2 hidx hst hdest hlen halign hsp hps hopen
    obtain ⟨-, rfl⟩ : c.queue = q ∧ c.entry = entry := startFront_cmd hfront
    rw [exec_of_settled (fun _ => rfl) (by simp [Instr.wf, hq]), crossCrossing, crossCmd_of_starts hstart hfront hkind htier2]
    rw [crossEval_of_move hidx hst hdest hlen, crossMoveOp_of_host rfl halign hsp rfl hlen hps hopen rfl]
  case release =>
    rintro s q ⟨ready, entry⟩ d c ps hq hstart hfront hdest htier2 hidx hst hlen hwlist hps hopen
    obtain ⟨-, rfl⟩ : c.queue = q ∧ c.entry = entry := startFront_cmd hfront
    have hkind : crossKind s.dev q c.entry = 2 := if_pos hdest
    rw [exec_of_settled (fun _ => rfl) (by simp [Instr.wf, hq]), crossRelease, crossCmd_of_starts hstart hfront hkind htier2]
    rw [crossEval_of_release hidx hst hdest hlen, crossReleaseOp_of_unlisted hwlist hps hopen]

/-! ### Translation tables -/

@[simp] theorem setPages_mm (d : Device) (ps : List Nat) (st : Nat) : (d.setPages ps st).mm = d.mm := by
  induction ps generalizing d with
  | nil => rfl
  | cons p ps ih => exact (ih (d.setPage p st)).trans (setPage_mm d p st)

/-- Enabling a table zero-fills it and marks its pages System; that it is enabled waits for the end of the fill (R271). -/
theorem xtEnable_of_disabled {d a : Device} {t : Nat} (hoff : d.on MEM_XT_BASE.enable t = false) (hfill : t ∉ d.mm.xtFill)
    (ha : a = d.zero spT1 (d.xtBase t) (d.xtBytes t)) :
    xtEnable 0 t d = { a.setPages (a.xtPages t) pgSystem with mm := { d.mm with xtFill := t :: d.mm.xtFill } } := by
  subst ha
  simp [xtEnable, hoff, hfill]

/-- The end of the fill empties the counts of mapped pages and enables the table (R271). -/
theorem xtEnableDone_of_filling {d a : Device} {t : Nat} (hfill : t ∈ d.mm.xtFill)
    (ha : a = { d with mm := { d.mm with xtFill := d.mm.xtFill.filter fun x => x != t } }) :
    xtEnableDone t d = (((a.wr TEN_STAT.t1_mapped t 0).wr TEN_STAT.t2_mapped t 0).wr TEN_STAT.dp_mapped t 0).wr MEM_XT_BASE.enable t 1 := by
  subst ha
  exact if_pos (by simpa using hfill)

/-- A tenancy without work in flight has its table disabled, whose pages are Plain again (R271). -/
theorem xtDisable_of_quiet {d : Device} {t : Nat} (hon : d.on MEM_XT_BASE.enable t = true) (hquiet : d.tenBusy t = false) :
    xtDisable 0 t d = ((((d.setPages (d.xtPages t) pgPlain).wr TEN_STAT.t1_mapped t 0).wr TEN_STAT.t2_mapped t 0).wr TEN_STAT.dp_mapped t 0).wr
      MEM_XT_BASE.enable t 0 := by
  simp [xtDisable, hon, hquiet]

/-! ### Operations on entries -/

/-- What an operation puts into entry i of those that it names: a mapping, or nothing. -/
def xtNew (op : Nat) (write : Bool) (ppn i : Nat) : Nat := if op = 1 then 2 ^ 63 + b2n write <<< 62 + (ppn + i) % 2 ^ 19 else 0

/-- The entries of an operation as it leaves them. -/
def Device.putEntries (d : Device) (t sp n v : Nat) (new : Nat → Nat) : Device :=
  (List.range n).foldl (fun d i => d.pokeN spT1 (d.xtBase t + 8 * d.xtIndex t sp (v + i)) 8 (new i)) d

/-- Vacated pages among those named become Plain. -/
def Device.reclaimPages (d : Device) (ps : List Nat) : Device := ps.foldl (fun d p => if d.pageState p = pgVacated then d.setPage p pgPlain else d) d

/-- The operation's end: the count of mapped pages, and the wait for the crossings of the old pages (R272). -/
def Device.endOperate (d : Device) (t sp k : Nat) (waits : List Nat) : Device :=
  let b := (d.wr (mappedFld sp) t k).wr MEM_XT_OP1.busy 0 1
  { b with mm := { b.mm with xtOp := some ⟨t, waits⟩ } }

section Operate

variable {d : Device} {op t sp n v : Nat} {olds ps : List Nat} (ht : t = d.rd MEM_XT_OP0.tenancy 0) (hsp : sp = d.rd MEM_XT_OP0.space 0)
  (hn : n = d.rd MEM_XT_OP0.count 0) (hv : v = d.rd MEM_XT_OP0.page 0) (hidle : d.on MEM_XT_OP1.busy 0 = false) (hspace : sp ≠ 3) (hsome : n ≠ 0)
  (hon : d.on MEM_XT_BASE.enable t = true) (hrange : v + n ≤ d.xtCount t sp) (holds : olds = (List.range n).map fun i => d.xtEntry t sp (v + i))
  (hps : ps = (olds.filter fun e => bit e 63).map fun e => pageKey sp (bits e 18 0))

include ht hsp hn hv hidle hspace hsome hon hrange holds hps

/-- An operation on entries of an enabled table, within its space and its quota, writes them, and is busy until the crossings of their old pages have ended
(R272, R449). -/
theorem xtOperate_of_valid {a : Device} {write : Bool} {ppn k : Nat}
    (hk : k = d.rd (mappedFld sp) t - (olds.filter fun e => bit e 63).length + (if op = 1 then n else 0))
    (hquota : op = 1 → k ≤ d.rd (quotaFld sp) t) (ha : a = d.putEntries t sp n v (xtNew op write ppn)) :
    xtOperate 0 op write ppn d = (if op = 3 then a.reclaimPages ps else a).endOperate t sp k
      (ps.filter fun p => d.pageState p == pgDeparting || d.pageState p == pgArriving) := by
  have hnamed : (decide (sp = 3) || decide (n = 0) || !d.on MEM_XT_BASE.enable t || decide (d.xtCount t sp < v + n)) = false := by
    simp [hspace, hsome, hon, hrange]
  have hwithin : (decide (op = 1) && decide (d.rd (quotaFld sp) t < k)) = false := by simpa using hquota
  subst holds hps ha
  simp only [xtOperate, ← ht, ← hsp, ← hn, ← hv, ← hk, hidle, hnamed, hwithin, ne_eq, not_true_eq_false, Bool.false_eq_true, if_false]
  rfl

end Operate

/-- An operation ends when none of the pages that it waits for is in a crossing (R272). -/
theorem xtOpDone_of_settled {d : Device} {o : XtOp} (hop : d.mm.xtOp = some o)
    (hwaits : ∀ p ∈ o.waits, d.pageState p ≠ pgDeparting ∧ d.pageState p ≠ pgArriving) :
    xtOpDone d = { d.wr MEM_XT_OP1.busy 0 0 with mm := { d.mm with xtOp := none } } := by
  have hall : (o.waits.all fun p => d.pageState p != pgDeparting && d.pageState p != pgArriving) = true := by simpa using hwaits
  simp only [xtOpDone, hop, hall, if_true]

/-! ### The host's translation services -/

/-- The requests that wait for the host without one that was answered. -/
def Device.dropAtsReq (d : Device) (r : AtsReq) : Device := { d with mm := { d.mm with ats := { d.mm.ats with reqs := d.mm.ats.reqs.filter fun q => q != r } } }

/-- A completion with every permission enters the cache, and its channel goes on (R273). -/
theorem translationCompletionRx_of_permitted {d : Device} {fn page target : Nat} {r : AtsReq}
    (hreq : (d.mm.ats.reqs.find? fun r => r.fn == fn && r.page == page && !r.pri) = some r) :
    translationCompletionRx fn page true true target d =
      issueMore 16 r.ch ((d.dropAtsReq r).addAtc { fn := fn, page := page, write := true, target := target }) := by
  simp only [translationCompletionRx, hreq]
  rfl

section Prg

variable {d : Device} {fn page : Nat} {r : AtsReq} (hreq : (d.mm.ats.reqs.find? fun r => r.fn == fn && r.page == page && r.pri) = some r)
  (hst : d.rd MEM_CHAN_STAT.state r.ch = chPri)

include hreq hst

/-- A response of success retries the translation of a channel that waits for it (R273). -/
theorem prgResponseRx_of_success : prgResponseRx fn page 0 d = ((d.dropAtsReq r).resumeChan r.ch).askHost r.ch fn page r.write := by
  simp only [prgResponseRx, hreq]
  exact if_neg (Classical.not_not.2 hst)

/-- Any other response fails the channel. -/
theorem prgResponseRx_of_failure {code : Nat} (hcode : code ≠ 0) : prgResponseRx fn page code d = (d.dropAtsReq r).failChan r.ch := by
  simp only [prgResponseRx, hreq, hcode, if_false]
  exact if_neg (Classical.not_not.2 hst)

end Prg

/-- Settles O37, event by event; the three operations on entries are one (`xtOperate_of_valid`). -/
theorem translation : Obligations.Translation := by
  unfold Obligations.Translation
  refine ⟨?enable, ?enabled, ?disable, ?map, ?unmap, ?reclaim, ?done, ?completion, ?response, ?timeout, ?invalidation⟩
  case enable =>
    intro s t ht hr hoff hfill
    rw [exec_of_via (fun _ => rfl) (by simp [Instr.wf, ht]) hr, xtEnable_of_disabled hoff hfill rfl]
  case enabled =>
    intro s t a ht hfill ha
    rw [exec_of_settled (fun _ => rfl) (by simp [Instr.wf, ht]), xtEnableDone_of_filling hfill ha]
  case disable =>
    intro s t ht hr hon hquiet
    rw [exec_of_via (fun _ => rfl) (by simp [Instr.wf, ht]) hr, xtDisable_of_quiet hon hquiet]
  case map =>
    rintro s write ppn t sp n v k olds ps _ _ hppn hr ht hsp hn hv hidle hspace hsome hon hrange holds hk hquota hps rfl rfl
    rw [exec_of_via (fun _ => rfl) (by simpa [Instr.wf] using hppn) hr, xtMap,
      xtOperate_of_valid ht hsp hn hv hidle hspace hsome hon hrange holds hps hk (fun _ => hquota) rfl]
    rfl
  case unmap =>
    rintro s t sp n v k olds ps _ _ hr ht hsp hn hv hidle hspace hsome hon hrange holds hk hps rfl rfl
    rw [exec_of_via (fun _ => rfl) rfl hr, xtUnmap,
      xtOperate_of_valid ht hsp hn hv hidle hspace hsome hon hrange holds hps hk (by simp) rfl]
    rfl
  case reclaim =>
    rintro s t sp n v k olds ps _ _ hr ht hsp hn hv hidle hspace hsome hon hrange holds hk hps rfl rfl
    rw [exec_of_via (fun _ => rfl) rfl hr, xtReclaim,
      xtOperate_of_valid ht hsp hn hv hidle hspace hsome hon hrange holds hps hk (by simp) rfl]
    rfl
  case done =>
    intro s o hop hwaits
    rw [exec_of_settled (fun _ => rfl) rfl, xtOpDone_of_settled hop hwaits]
  case completion =>
    rintro s fn page target r _ hfn hreq rfl
    rw [exec_of_settled (fun _ => rfl) (by simp [Instr.wf, hfn]), translationCompletionRx_of_permitted hreq]
    rfl
  case response =>
    rintro s fn page r _ hfn hreq rfl hst
    rw [exec_of_settled (fun _ => rfl) (by simp [Instr.wf, hfn]), prgResponseRx_of_success hreq hst]
    rfl
  case timeout =>
    rintro s fn page r _ hfn hreq rfl hst
    rw [exec_of_settled (fun _ => rfl) (by simp [Instr.wf, hfn]), priTimeout, prgResponseRx_of_failure hreq hst (by decide)]
    rfl
  case invalidation =>
    intro s fn page hfn
    rw [exec_of_wf (fun _ => rfl) (by simp [Instr.wf, hfn]), atsInvalidationRx]

/-! ### Transfer channels -/

/-- A sequencer instruction that stalls issue waits with its operands in the leg. -/
theorem seqStall_stall {d d' : Device} {n c : Nat} {l l' : Leg} {code : List Nat} {f : Device → Leg → Option LegRes} (h : d.issues n c l d' l')
    (hc : max l.count (d.rd COR_TIMING.leg_start n) = c) (hf : f d' l' = none) : d.seqStall n code f = d'.putLeg n { l' with stall := some code } := by
  obtain ⟨hacts, hwait, hend, hfence, hstall⟩ := h
  have hclear : ({ l' with stall := none } : Leg) = l' := by rw [← hstall]
  refine legAt_go hacts hc ?_
  rw [if_neg (by simp [hwait, hend, hfence, hstall])]
  simp only [stallOp, hclear, hf]

/-- A DMAGO or another transfer of kind 1 that waits first takes the lowest free channel, and its chunks begin to issue (R285). -/
theorem channelGrant_of_dma {d a : Device} {x : Xfer} {rest : List Xfer} {ch : Nat} (hwait : d.mm.waiting = x :: rest)
    (hfree : (leastBelow 192 fun ch => !(d.mm.chans.any fun c => c.1 == ch) && !(d.mm.fenced.contains (unitOf 6 (0x100 + ch)))) = some ch)
    (hkind : x.kind = 1) (ha : a = Device.setChan { d with mm := { d.mm with waiting := rest } } ch { x with departing := [] }) :
    channelGrant d = issueMore 16 ch ((((a.wr MEM_CHAN_STAT.tenancy ch x.ten).wr MEM_CHAN_STAT.kind ch 1).wr MEM_CHAN_STAT.queue ch x.queue).wr
      MEM_CHAN_STAT.state ch chActive) := by
  subst ha
  simp only [channelGrant, hwait, hfree, hkind]
  rfl

section Chunk

variable {d a e : Device} {ch k src dst len done : Nat} {data bs : List Byte} {x : Xfer} (hchan : d.chan? ch = some x) (hkind : x.kind = 1)
  (hnew : d.rd MEM_CHAN_STAT.done ch ≤ k) (hissued : k < x.issued) (hfirst : k ∉ x.landed) (hst : d.rd MEM_CHAN_STAT.state ch ≠ chHalted)
  (hchunk : chunkOf x.chunk x.pieces k = some (src, dst, len)) (hsrc : d.isLocal src = true) (hhost : d.hostSrc x src = false)
  (hread : d.readGA x.ten src len = .ok bs) (ha : a = d.touchTS src len) (hdst : a.isLocal dst = true)
  (hfree : a.writeWaits x.ten dst bs.length = false) (hwrite : a.ownWrite x.ten dst bs .none = (e, .ok)) (hlocal : e.isLocal dst = true)
  (hdone : done = advanceDone (k :: x.landed) 4096 (d.rd MEM_CHAN_STAT.done ch)) (hmore : done ≠ x.chunks)

include hchan hkind hnew hissued hfirst hst hchunk hsrc hhost hread ha hdst hfree hwrite hlocal hdone hmore

/-- A chunk of a copy within this device that is not the last moves its bytes, and lets more issue (R279). -/
theorem chunkLand_of_copy : chunkLand ch k data d =
    (issueMore 16 ch ((e.setChan ch { x with landed := (k :: x.landed).filter fun j => decide (done ≤ j) }).wr MEM_CHAN_STAT.done ch done), false) := by
  have hlands : (decide (k < d.rd MEM_CHAN_STAT.done ch) || decide (x.issued ≤ k) || x.landed.contains k ||
      decide (d.rd MEM_CHAN_STAT.state ch = chHalted)) = false := by
    simp [hnew, hissued, hfirst, hst]
  have hingest : d.ingestData x src dst len = (none, d) := by simp [Device.ingestData, hhost]
  have hbytes : d.chunkRead x src len data = some bs := by simp [Device.chunkRead, hsrc, hkind, hread]
  have hput : a.chunkWrite x dst bs = (e, .ok) := by simp [Device.chunkWrite, hkind, hfree, hwrite]
  have hhere : a.lands x dst = true := by simp [Device.lands, hdst]
  have hhere' : e.lands x dst = true := by simp [Device.lands, hlocal]
  have hlast : done ≠ Xfer.chunks { x with landed := (k :: x.landed).filter fun j => decide (done ≤ j) } := hmore
  simp only [chunkLand, hchan, hlands, hchunk, hingest, hhost, hbytes, hsrc, ← ha, hput, hhere, hhere', ← hdone, hlast, Bool.false_and, Bool.false_eq_true,
    Option.none_or, if_false, if_true]

theorem chunkLanded_of_copy : chunkLanded ch k data d =
    issueMore 16 ch ((e.setChan ch { x with landed := (k :: x.landed).filter fun j => decide (done ≤ j) }).wr MEM_CHAN_STAT.done ch done) := by
  simp only [chunkLanded,
    chunkLand_of_copy hchan hkind hnew hissued hfirst hst hchunk hsrc hhost hread ha hdst hfree hwrite hlocal hdone hmore]

end Chunk

/-- A crossing within this device flips 2 µs after its last chunk; no peer has to be told (R279). -/
theorem crossingFlip_of_local {d : Device} {ch : Nat} {x : Xfer} (hchan : d.chan? ch = some x) (hkind : x.kind = 0)
    (hst : d.rd MEM_CHAN_STAT.state ch = chFlipping) (hlocal : d.isLocal x.dst = true) (hnone : ∀ f ∈ (d.flip ch x).fab.flips, f.ch ≠ ch) :
    crossingFlip ch d = d.flip ch x := by
  have hpeer : ((d.flip ch x).fab.flips.find? fun f => f.ch == ch && f.phase == 0) = none := by
    rw [List.find?_eq_none]
    intro f hf
    simp [hnone f hf]
  simp [crossingFlip, hchan, hkind, hst, hlocal, hpeer]

/-! ### DMAGO -/

/-- The lowest free channel, which a DMAGO would take (R285). -/
def Device.freeChan (d : Device) : Option Nat := leastBelow 192 fun ch => !(d.mm.chans.any fun c => c.1 == ch) && !d.mm.fenced.contains (chanUnit ch)

section Dmago

variable {d : Device} {n src dst len tok : Nat} {l : Leg}

/-- A DMAGO of two ranges of this device that share no byte takes a free channel at once (R286). -/
theorem dmagoOp_of_free {q : Nat} {x : Xfer} (hwait : d.mm.waiting = []) (hfree : d.freeChan.isSome = true) (hsrc : d.isLocal src = true)
    (hdst : d.isLocal dst = true) (hapart : src + len ≤ dst ∨ dst + len ≤ src) (hq : q = ((d.cmd? l.sn).map fun c => c.queue).getD 0)
    (hx : x = { kind := 1, sn := l.sn, queue := q, ten := l.ten, cls := l.cls, client := l.client, step := l.step, mid := l.mid, src := src, dst := dst,
                len := len, chunk := chunkSize src dst, notify := .token n l.serial tok, leg := l.idx, ord := l.dmas }) :
    dmagoOp n src dst len tok d l =
      some (.go (channelGrant ((d.modRun l.sn fun r => { r with movers := r.movers + 1 }).queueXfer x)) { l with dmas := l.dmas + 1 }) := by
  have hnow : d.freeChan.isNone = false := by rw [← Option.not_isSome, hfree]; rfl
  have hoverlap : (decide (src < dst + len) && decide (dst < src + len)) = false := by simp only [Bool.and_eq_false_iff, decide_eq_false_iff_not]; omega
  rw [Device.freeChan] at hnow
  subst hq hx
  simp only [dmagoOp, hwait, hnow, hsrc, hdst, hoverlap, List.isEmpty_nil, Bool.not_true, Bool.or_self, Bool.false_and, Bool.false_eq_true, if_false]
  cases d.cmd? l.sn <;> rfl

/-- With transfers waiting, or no channel free, a DMAGO stalls issue. -/
theorem dmagoOp_of_busy (h : d.mm.waiting ≠ [] ∨ d.freeChan = none) : dmagoOp n src dst len tok d l = none := by
  by_cases hwait : d.mm.waiting = []
  · have hnone : d.freeChan.isNone = true := by rw [h.resolve_left (Classical.not_not.2 hwait)]; rfl
    rw [Device.freeChan] at hnone
    simp only [dmagoOp, hwait, hnone, List.isEmpty_nil, Bool.not_true, Bool.false_eq_true, if_false, if_true]
  · have hwaits : d.mm.waiting.isEmpty = false := by simpa using hwait
    simp only [dmagoOp, hwaits, Bool.not_false, if_true]

end Dmago

/-! ### Faults and errors of a channel -/

/-- A well-formed access of a register that it reaches, and what follows its effect at once. -/
theorem exec_of_via_settled {c : Instr} {fn : Nat} {r : Reg} {f : Device → Device} {s : State}
    (hexec : ∀ s, exec c s = s.actIf c.wf (Device.via fn r (Device.settled f))) (hwf : c.wf = true) (hr : s.dev.reaches fn r = true) :
    exec c s = .next (s.settles (f s.dev)) := by
  rw [exec_of_via hexec hwf hr]
  rfl

section Faults

variable {d : Device} {fn ch : Nat} {x : Xfer}

/-- A first fault of an Active channel that service can resolve suspends it with a record and the tenancy's interrupt (R288). -/
theorem suspendChan_of_new {a : Device} {t ga : Nat} (hst : d.rd MEM_CHAN_STAT.state ch = chActive) (hservice : d.beyondService ga = false)
    (hregion : d.regionRefuses t ga = false) (hpage : d.rd MEM_CHAN_ADDR.fault_addr ch / pageSize ≠ ga / pageSize)
    (ha : a = ((d.wr MEM_CHAN_STAT.fault_repeat ch 1).wr MEM_CHAN_ADDR.fault_addr ch ga).log
      { unit := chanUnit ch, sev := 0, op := 0x09, detail := ga, ten := t, addr := ga }) :
    d.suspendChan ch t ga false = ((a.wr MEM_CHAN_STAT.state ch 2).raise t (a.rd MEM_XT_BASE.fault_vector t), false) := by
  subst ha
  simp [Device.suspendChan, hst, chActive, hservice, hregion, faultPage, hpage]

theorem chunkFault_of_device {ga : Nat} {r : Device} (hchan : d.chan? ch = some x) (hst : d.rd MEM_CHAN_STAT.state ch = chActive)
    (hfault : d.faultOf ch x = some (false, ga)) (hsuspend : d.suspendChan ch x.ten ga false = (r, false)) : chunkFault ch false d = r := by
  simp [chunkFault, hchan, hst, hfault, hsuspend]

theorem chanResume_of_owner (ha : d.fnAwake fn = true) (hten : d.rd MEM_CHAN_STAT.tenancy ch = fn) (hst : d.rd MEM_CHAN_STAT.state ch = chDevice) :
    chanResume fn ch d = d.resumeChan ch := by
  simp [chanResume, ha, Device.mayChan, hten, hst]

theorem chanAbort_of_owner (ha : d.fnAwake fn = true) (hten : d.rd MEM_CHAN_STAT.tenancy ch = fn) (hst : d.rd MEM_CHAN_STAT.state ch = chDevice) :
    chanAbort fn ch d = d.failChan ch := by
  simp [chanAbort, ha, Device.mayChan, hten, hst]

/-- An uncorrectable error poisons what the channel read, is recorded, and halts it (R289, R359). -/
theorem channelUncorrectable_of_chan {kind ga : Nat} (hch : ch < 192) (hchan : d.chan? ch = some x) :
    channelUncorrectable ch kind ga d = ((d.poisonGA x.ten ga).uncorr (chanUnit ch) kind
      { unit := 0, sev := 2, op := 0x02, ten := x.ten, cls := x.cls, client := x.client, mid := x.mid, step := x.step, addr := ga }).haltChan ch
        (eccDetail d.nextRec (chanUnit ch) 0xFFFF) := by
  simp only [channelUncorrectable, Nat.not_le.2 hch, hchan, if_false]

/-- On what a route context reads, it ends the route with the error. -/
theorem channelUncorrectable_of_route {e y kind ga : Nat} {r : Route} (hy : y < 8) (hroute : (d.rctx e y).route = some r) :
    channelUncorrectable (192 + 8 * e + y) kind ga d = ((d.poisonGA r.ten ga).eccRoute e y r).errorWaitsAll := by
  have hctx : 192 ≤ 192 + 8 * e + y := by omega
  have heng : (192 + 8 * e + y - 192) / 8 = e := by omega
  have hpos : (192 + 8 * e + y - 192) % 8 = y := by omega
  simp only [channelUncorrectable, hctx, heng, hpos, hroute, if_true]

end Faults

/-- The digest of a declared tensor is written into its entry, which is then valid and landed, and the command completes (R278). -/
theorem declarationDigestDone_of_read {d a b : Device} {t i sn : Nat} {rest : List (Nat × Nat × Nat)} {bs : List Byte}
    (hfront : d.mm.hashing = (t, i, sn) :: rest) (hread : d.readGA t (d.landHome t i) (d.landLen t i) = .ok bs)
    (ha : a = { d with mm := { d.mm with hashing := rest } }) (hb : b = a.poke devKey spT1 (a.landAt t i + 64) (sha512 bs)) :
    declarationDigestDone d = (((b.pokeN spT1 (b.landAt t i + 1) 1 (b.landFlags t i ||| 1)).pokeN spT1
      ((b.pokeN spT1 (b.landAt t i + 1) 1 (b.landFlags t i ||| 1)).landAt t i) 1 1).finish sn stOk 0 none).crossAgain := by
  simp only [declarationDigestDone, hfront, hread, ← ha, ← hb]

/-- Settles O38, event by event. That a chunk's bytes are read and written when its landing is reported is the model's own choice (log 18). -/
theorem transferChannels : Obligations.TransferChannels := by
  unfold Obligations.TransferChannels
  refine ⟨?grant, ?chunk, ?flip, ?dmago, ?dmagoStall, ?fault, ?resume, ?abort, ?timeout, ?error, ?routeError, ?digest⟩
  case grant =>
    intro s x rest ch a hwait hfree hkind ha
    rw [exec_of_settled (fun _ => rfl) rfl, channelGrant_of_dma hwait hfree hkind ha]
  case chunk =>
    intro s ch k src dst len done data bs x a e hch hchan hkind hnew hissued hfirst hst hchunk hsrc hhost hread ha hdst hfree hwrite hlocal hdone hmore
    rw [exec_of_settled (fun _ => rfl) (by simp [Instr.wf, hch]),
      chunkLanded_of_copy hchan hkind hnew hissued hfirst hst hchunk hsrc hhost hread ha hdst hfree hwrite hlocal hdone hmore]
  case flip =>
    intro s ch x hch hchan hkind hst hlocal hnone
    rw [exec_of_settled (fun _ => rfl) (by simp [Instr.wf, hch]), crossingFlip_of_local hchan hkind hst hlocal hnone]
  case dmago =>
    intro s n src dst len tok q cy l m e x hn htok hs hd hcy hissues hwait hfree hsrc hdst hapart hq hx
    rw [exec_of_settled (fun _ => rfl) (by simpa [Instr.wf] using ⟨⟨⟨hn, htok⟩, hs⟩, hd⟩), dmago,
      seqStall_go hissues hcy (dmagoOp_of_free hwait hfree hsrc hdst hapart hq hx)]
  case dmagoStall =>
    intro s n src dst len tok cy l m e hn htok hs hd hcy hissues hbusy
    rw [exec_of_settled (fun _ => rfl) (by simpa [Instr.wf] using ⟨⟨⟨hn, htok⟩, hs⟩, hd⟩), dmago, seqStall_stall hissues hcy (dmagoOp_of_busy hbusy)]
  case fault =>
    rintro s ch ga x _ hch hchan hst hfault hservice hregion hpage rfl
    rw [exec_of_settled (fun _ => rfl) (by simp [Instr.wf, hch]),
      chunkFault_of_device hchan hst hfault (suspendChan_of_new hst hservice hregion hpage rfl)]
  case resume =>
    intro s fn ch hfn hch hr hten hst
    rw [exec_of_via_settled (fun _ => rfl) (by simp [Instr.wf, hfn, hch]) hr, chanResume_of_owner (fnAwake_of_reaches hr) hten hst]
  case abort =>
    intro s fn ch hfn hch hr hten hst
    rw [exec_of_via_settled (fun _ => rfl) (by simp [Instr.wf, hfn, hch]) hr, chanAbort_of_owner (fnAwake_of_reaches hr) hten hst]
  case timeout =>
    intro s ch hch hst
    rw [exec_of_settled (fun _ => rfl) (by simp [Instr.wf, hch]), chanServiceTimeout, if_pos hst]
  case error =>
    rintro s ch kind ga x _ hch hkind hchan rfl
    rw [exec_of_settled (fun _ => rfl) (by simpa [Instr.wf] using ⟨by omega, hkind⟩), channelUncorrectable_of_chan hch hchan]
  case routeError =>
    intro s e x kind ga r he hx hkind hroute
    rw [exec_of_settled (fun _ => rfl) (by simpa [Instr.wf] using ⟨by omega, hkind⟩), channelUncorrectable_of_route hx hroute]
  case digest =>
    intro s t i sn rest bs a b hfront hread ha hb
    rw [exec_of_settled (fun _ => rfl) rfl, declarationDigestDone_of_read hfront hread ha hb]

/-! ### Arbiters, refresh, scrub, fills -/

/-- In service, with no standing grant withdrawn and no refresh, an arbiter grants its winner for the next cycle (R290). -/
theorem memArbiterGrant_of_winner {d : Device} {u w : Nat} {reqs : List MReq} (hrefresh : u ∉ d.mm.refreshing)
    (hwin : memWinner (isPoolBank u) (smGet d.mm.arbs u {}).holder (reqs.filter fun r => !d.mm.fenced.contains r.unit && (!r.debug || d.debugOpen)) = some w) :
    memArbiterGrant u reqs false true d = { d with mm := { d.mm with arbs := smSet d.mm.arbs u {} { holder := some w, grant := some w } } } := by
  have hfree : d.mm.refreshing.contains u = false := by simpa using hrefresh
  simp only [memArbiterGrant, Bool.and_false, Bool.false_eq_true, if_false, hfree, hwin, Option.isSome_some, if_true]

/-- The watchdog fences a requester, with its record (R290); one that is neither a channel nor of a core has nothing else to stop. -/
theorem memArbWatchdogFire_of_bare {d a e : Device} {u : Nat} (hchan : ¬(u / 4096 = 6 ∧ 0x100 ≤ u % 4096 ∧ u % 4096 < 0x200))
    (ha : a = ((d.log { unit := u, sev := 4, op := 0x08, detail := u }).incSat MEM_ARB_STAT.wdt_fires 0 1).wr MEM_ARB_STAT.last_unit 0 u)
    (he : e = { a with mm := { a.mm with fenced := u :: a.mm.fenced.filter fun f => f != u } }) (hcore : e.logicalOf (coreOfUnit u) = none) :
    memArbWatchdogFire u d = e := by
  have hother : (decide (u / 4096 = 6) && decide (0x100 ≤ u % 4096) && decide (u % 4096 < 0x200)) = false := by simpa using hchan
  simp only [memArbWatchdogFire, hother, ← ha, ← he, hcore, Bool.false_eq_true, if_false]

/-- A scrub read that corrects an error, where the unit has none pending that makes it one of a level higher, counts it (R292, R369). -/
theorem scrubRead_of_corrected {d : Device} {sp off row : Nat} {u : Nat × Nat} (hen : d.on MEM_SCRUB_CFG.enable 0 = true) (hu : u = d.placeUnit sp off)
    (hfirst : (d.correctable u.1 u.2 row).2 = false) : scrubRead sp off 1 row d = (d.correctable u.1 u.2 row).1 := by
  subst hu
  simp only [scrubRead, hen, hfirst, Bool.not_true, Bool.false_eq_true, Nat.one_ne_zero, if_false, if_true]

/-- The end of the tier-1 fill in start-up: the fills of the stores, die pools and tier 1 are done, the cores leave Fill, and the first evaluation takes place
(R293). -/
theorem tier1FillDone_of_fill {d a b c : Device} (hst : d.rd PWR_STATE_STAT.state 0 = 4) (hstep : d.rd PWR_START_STAT.step 0 = 5) (hheld : d.pwr.held = false)
    (ha : a = ((d.wr MEM_FILL_STAT.ts_done 0 1).wr MEM_FILL_STAT.dp_done 0 1).wr MEM_FILL_STAT.t1_done 0 1)
    (hb : b = (List.range 192).foldl (fun d n => if d.coreSt n = csFill then d.setCoreSt n csIdle else d) a)
    (hc : c = serviceEvaluation (((b.wr PWR_START_STAT.step 0 8).wr PWR_START_STAT.start_ms 0 (min ((b.cycle - b.pwr.startAt) / 1800000) (2 ^ 32 - 1))).wr
      PWR_STATE_STAT.state 0 0)) :
    tier1FillDone d = if c.pwr.deepExit then ({ c with pwr := { c.pwr with deepExit := false } } : Device).ibi 5 else c := by
  have hfilling : (decide (d.rd PWR_STATE_STAT.state 0 ≠ 4) || decide (d.rd PWR_START_STAT.step 0 ≠ 5) || d.pwr.held) = false := by simp [hst, hstep, hheld]
  simp only [tier1FillDone, hfilling, ← ha, ← hb, ← hc, Bool.false_eq_true, if_false]

/-- The end of the tier-2 fill: what waited for it goes on, and start-up comes to its last step (R293). -/
theorem fillsDone_of_tier2 {d a b : Device} (ht1 : d.on MEM_FILL_STAT.t1_done 0 = true) (ht2 : d.on MEM_FILL_STAT.t2_done 0 = false)
    (ha : a = (d.wr MEM_FILL_STAT.t2_done 0 1).releaseHeld chNone id) (hb : b = (a.mm.chans.map fun c => c.1).foldl (fun d ch => issueMore 16 ch d) a) :
    fillsDone d = if b.rd PWR_START_STAT.step 0 = 8 then b.wr PWR_START_STAT.step 0 9 else b := by
  have hfill : tier2FillDone d = b := by simp only [tier2FillDone, ht2, ← ha, ← hb, Bool.false_eq_true, if_false]
  simp only [fillsDone, ht1, hfill, Bool.not_true, Bool.false_eq_true, if_false]

/-- Settles O39, event by event. That TIER1_FILL_DONE passes steps 6 and 7 of start-up too (log 89), that cores stay in Fill until then (log 90), and that the
alert of a completed wake is raised then (log 102), are the model's own deductions. -/
theorem memoryServices : Obligations.MemoryServices := by
  unfold Obligations.MemoryServices
  refine ⟨?grant, ?watchdog, ?refresh, ?scrub, ?writeBack, ?tier1, ?tier2⟩
  case grant =>
    intro s u reqs w hu hrefresh hwin
    rw [exec_of_wf (fun _ => rfl) (by simp [Instr.wf, hu]), memArbiterGrant_of_winner hrefresh hwin]
  case watchdog =>
    intro s u a hu hchan ha hcore
    rw [exec_of_settled (fun _ => rfl) (by simp [Instr.wf, hu]), memArbWatchdogFire_of_bare hchan ha rfl hcore]
  case refresh =>
    intro s u b hu
    rw [exec_of_wf (fun _ => rfl) (by simp [Instr.wf, hu]), refresh]
  case scrub =>
    intro s sp off row u hsp hen hu hfirst
    rw [exec_of_settled (fun _ => rfl) (by simp [Instr.wf, hsp]), scrubRead_of_corrected hen hu hfirst]
  case writeBack =>
    intro s u hu
    rw [exec_of_settled (fun _ => rfl) (by simp [Instr.wf, hu]), correctedWriteBack]
  case tier1 =>
    intro s a b c hst hstep hheld ha hb hc
    rw [exec_of_settled (fun _ => rfl) rfl, Device.svcWatched, tier1FillDone_of_fill hst hstep hheld ha hb hc]
  case tier2 =>
    intro s a b ht1 ht2 ha hb
    rw [exec_of_settled (fun _ => rfl) rfl, fillsDone_of_tier2 ht1 ht2 ha hb]

/-! ### The flip of a crossing to a peer -/

/-- The pages of this device that an OPEN names: those still Arriving from its sender. -/
def Device.openPages (d : Device) (p : Pkt) : List Nat :=
  ((parts (leAt p.payload 0 8) (leAt p.payload 8 8)).filterMap fun q => (d.locate (tagTen p.tag) q.1 false).map fun l => l.1.page).filter fun q =>
    d.pageState q == pgArriving && smGet d.fab.arriving q 4096 == p.src

section Peer

variable {d a : Device} {b : List Byte} {p : Pkt} {f : PeerFlip} {x : Xfer} {k : Nat} (hpkt : d.checkPkt b = (a, some p))

include hpkt

/-- The peer acknowledges PREPARE (R327). -/
theorem prepareRx_of_good (hop : leAt b 4 1 = 0x20) : prepareRx b d = a.answer p.src 0x21 0 0 0 p.unit 0 p.ga 16 p.tag p.payload := by
  simp only [prepareRx, hop, hpkt, ne_eq, not_true_eq_false, if_false]

/-- PREPARE_ACK lets the crossing that it names flip (R283). -/
theorem prepareAckRx_of_flip (hop : leAt b 4 1 = 0x21) (hflip : a.flipOf p 0 = some f) (hchan : a.chan? f.ch = some x) :
    prepareAckRx b d = a.setChan f.ch { x with peerPhase := 2 } := by
  simp only [prepareAckRx, hop, hpkt, hflip, hchan, ne_eq, not_true_eq_false, if_false]

/-- OPEN makes the pages Landed, lets what was held for them go on, and is acknowledged (R283, R327). -/
theorem openRx_of_good {ps : List Nat} {e : Device} (hop : leAt b 4 1 = 0x22) (hps : ps = a.openPages p) (he : e = a.setPages ps pgLanded) :
    openRx b d = (Device.releaseHeld { e with fab := { e.fab with arriving := e.fab.arriving.filter fun x => !ps.contains x.1 } } chNone id).answer
      p.src 0x23 0 0 0 p.unit 0 p.ga 16 p.tag p.payload := by
  subst hps he
  simp only [openRx, hop, hpkt, ne_eq, not_true_eq_false, if_false]
  rfl

/-- OPEN_ACK ends the flip (R327). -/
theorem openAckRx_of_flip (hop : leAt b 4 1 = 0x23) (hflip : a.flipOf p 1 = some f) :
    openAckRx b d = { a with fab := { a.fab with flips := a.fab.flips.erase f } } := by
  simp only [openAckRx, hop, hpkt, hflip, ne_eq, not_true_eq_false, if_false]

omit hpkt

/-- A flip that is not answered goes out again, OPEN while its peer is a member (R327). -/
theorem peerFlipResend_of_member (hflip : d.fab.flips[k]? = some f) (hmember : f.phase = 0 ∨ d.isMember f.dst = true) :
    peerFlipResend k d = d.sendFlip f := by
  have hkeep : (decide (f.phase = 1) && !d.isMember f.dst) = false := by
    obtain hprepare | hmem := hmember
    · simp [hprepare]
    · simp [hmem]
  simp only [peerFlipResend, hflip, hkeep, Bool.false_eq_true, if_false]

/-- A crossing whose peer does not answer PREPARE in time fails (R327). -/
theorem prepareTimeout_of_unanswered (hflip : d.fab.flips[k]? = some f) (hphase : f.phase = 0)
    (ha : a = { d with fab := { d.fab with flips := d.fab.flips.eraseIdx k } }) (hchan : a.chan? f.ch = some x) (hpeer : x.peerPhase ≠ 2) :
    prepareTimeout k d = a.failXfer f.ch stTimeout f.first := by
  simp only [prepareTimeout, hflip, hphase, ← ha, hchan, hpeer, ne_eq, not_true_eq_false, if_false]

end Peer

/-- Settles O50, packet by packet, with the two timers of a flip. -/
theorem peerCrossings : Obligations.PeerCrossings := by
  unfold Obligations.PeerCrossings
  refine ⟨?prepare, ?prepareAck, ?opened, ?openAck, ?resend, ?timeout⟩
  case prepare =>
    intro s b p a hop hpkt
    rw [exec_of_settled (fun _ => rfl) rfl, prepareRx_of_good hpkt hop]
  case prepareAck =>
    intro s b p a f x hop hpkt hflip hchan
    rw [exec_of_settled (fun _ => rfl) rfl, prepareAckRx_of_flip hpkt hop hflip hchan]
  case opened =>
    intro s b p a ps e hop hpkt hps he
    rw [exec_of_settled (fun _ => rfl) rfl, openRx_of_good hpkt hop hps he]
  case openAck =>
    intro s b p a f hop hpkt hflip
    rw [exec_of_settled (fun _ => rfl) rfl, openAckRx_of_flip hpkt hop hflip]
  case resend =>
    intro s k f hflip hmember
    rw [exec_of_wf (fun _ => rfl) rfl, peerFlipResend_of_member hflip hmember]
  case timeout =>
    intro s k f x a hflip hphase ha hchan hpeer
    rw [exec_of_settled (fun _ => rfl) rfl, prepareTimeout_of_unanswered hflip hphase ha hchan hpeer]

end Sys2Proof.Machine
end

section
/-! PROOFS. AES-256-GCM, with which packets are protected (R478): what is sealed under a key opens under it. -/

namespace Sys2Proof.Machine

/-! ### Bytes and the round keys -/

/-- A list of n bytes, taken as numbers. -/
def IsBytes (n : Nat) (xs : List Nat) : Prop := xs.length = n ∧ ∀ x ∈ xs, x < 256

theorem ofNats_toNats (bs : List Byte) : ofNats (toNats bs) = bs := by
  rw [ofNats, toNats, List.map_map]
  exact (List.map_congr_left fun b _ => by simp).trans (List.map_id bs)

theorem toNats_ofNats {n : Nat} {xs : List Nat} (h : IsBytes n xs) : toNats (ofNats xs) = xs := by
  simp only [toNats, ofNats, List.map_map]
  exact (List.map_congr_left fun x hx => Nat.mod_eq_of_lt (h.2 x hx)).trans (List.map_id xs)

theorem isBytes_toNats (bs : List Byte) : IsBytes bs.length (toNats bs) := by
  refine ⟨List.length_map _, fun x hx => ?_⟩
  obtain ⟨b, -, rfl⟩ := List.mem_map.1 hx
  exact b.isLt

theorem getD_lt_of_isBytes {n : Nat} {xs : List Nat} (h : IsBytes n xs) (i : Nat) : xs.getD i 0 < 256 := by
  rw [List.getD_eq_getElem?_getD]
  cases hi : xs[i]? with
  | none => simp
  | some x => exact h.2 x (List.mem_of_getElem? hi)

theorem isBytes_xorL {n : Nat} {xs ys : List Nat} (hx : IsBytes n xs) (hy : IsBytes n ys) : IsBytes n (xorL xs ys) := by
  refine ⟨by simp [xorL, hx.1, hy.1], fun z hz => ?_⟩
  rw [xorL, ← List.map_uncurry_zip_eq_zipWith] at hz
  obtain ⟨⟨x, y⟩, hxy, rfl⟩ := List.mem_map.1 hz
  obtain ⟨hmemx, hmemy⟩ := List.of_mem_zip hxy
  exact Nat.xor_lt_two_pow (n := 8) (hx.2 x hmemx) (hy.2 y hmemy)

theorem gf8Mul_lt (n : Nat) {a : Nat} (b : Nat) (ha : a < 256) : gf8Mul n a b < 256 := by
  induction n generalizing a b with
  | zero => exact Nat.zero_lt_succ _
  | succ n ih =>
    rw [gf8Mul]
    refine Nat.xor_lt_two_pow (n := 8) (by split <;> omega) (ih _ ?_)
    split
    · exact Nat.xor_lt_two_pow (n := 8) (Nat.mod_lt _ (by decide)) (by decide)
    · omega

theorem gfm_lt {a : Nat} (b : Nat) (ha : a < 256) : gfm a b < 256 := gf8Mul_lt 8 b ha

theorem gfInv_lt {x : Nat} (hx : x < 256) : gfInv x < 256 := by
  have hsquare {y : Nat} (hy : y < 256) : gfm y y < 256 := gfm_lt y hy
  exact gfm_lt _ (hsquare (hsquare (hsquare (hsquare (gfm_lt _ (hsquare (hsquare (gfm_lt _ (hsquare hx)))))))))

theorem aesSub_lt {x : Nat} (hx : x < 256) : aesSub x < 256 := by
  have hrot (y k : Nat) : rotl8 y k < 2 ^ 8 := Nat.mod_lt _ (by decide)
  exact Nat.xor_lt_two_pow (n := 8) (Nat.xor_lt_two_pow (Nat.xor_lt_two_pow (Nat.xor_lt_two_pow (Nat.xor_lt_two_pow (gfInv_lt hx) (hrot _ _)) (hrot _ _))
    (hrot _ _)) (hrot _ _)) (by decide)

theorem isBytes_aesBox : IsBytes 256 aesBox := by
  refine ⟨by simp [aesBox], fun x hx => ?_⟩
  obtain ⟨y, hy, rfl⟩ := List.mem_map.1 hx
  exact aesSub_lt (List.mem_range.1 hy)

theorem isBytes_map_subByte (xs : List Nat) : IsBytes xs.length (xs.map subByte) := by
  refine ⟨List.length_map _, fun x hx => ?_⟩
  obtain ⟨y, -, rfl⟩ := List.mem_map.1 hx
  exact getD_lt_of_isBytes isBytes_aesBox y

theorem isBytes_shiftRows {n : Nat} {xs : List Nat} (h : IsBytes n xs) : IsBytes 16 (shiftRows xs) := by
  refine ⟨by simp [shiftRows], fun x hx => ?_⟩
  obtain ⟨i, -, rfl⟩ := List.mem_map.1 hx
  exact getD_lt_of_isBytes h _

theorem getD_mem_of_lt {α : Type} {xs : List α} {i : Nat} (e : α) (h : i < xs.length) : xs.getD i e ∈ xs := by
  rw [List.getD_eq_getElem _ _ h]
  exact List.getElem_mem h

/-- The expanded key is one of whole words, as many as were asked for (FIPS 197). -/
theorem isBytes_expandKey (n : Nat) {i rcon : Nat} {ws : List (List Nat)} (hi : 8 ≤ i) (hlen : ws.length = i) (hrcon : rcon < 256) (hws : ∀ w ∈ ws, IsBytes 4 w) :
    (expandKey n i rcon ws).length = i + n ∧ ∀ w ∈ expandKey n i rcon ws, IsBytes 4 w := by
  induction n generalizing i rcon ws with
  | zero => exact ⟨hlen, hws⟩
  | succ n ih =>
    have hlast : IsBytes 4 (ws.getD (i - 1) []) := hws _ (getD_mem_of_lt [] (by omega))
    have hback : IsBytes 4 (ws.getD (i - 8) []) := hws _ (getD_mem_of_lt [] (by omega))
    have hsub {w : List Nat} (hw : w.length = 4) : IsBytes 4 (w.map subByte) := hw ▸ isBytes_map_subByte w
    rw [expandKey, show i + (n + 1) = i + 1 + n by omega]
    refine ih (by omega) (by simp [hlen]) (by split; exacts [gfm_lt _ hrcon, hrcon]) fun w hw => ?_
    obtain hold | rfl := (List.mem_append.1 hw).imp_right List.mem_singleton.1
    · exact hws w hold
    · refine isBytes_xorL hback ?_
      split
      · exact isBytes_xorL (hsub (by rw [List.length_append, List.length_drop, List.length_take, hlast.1]; rfl)) ⟨rfl, by simp [hrcon]⟩
      · split
        · exact hsub hlast.1
        · exact hlast

theorem isBytes_flatten {n : Nat} {xss : List (List Nat)} (h : ∀ xs ∈ xss, IsBytes n xs) : IsBytes (xss.length * n) xss.flatten := by
  refine ⟨?_, fun x hx => ?_⟩
  · rw [List.length_flatten, List.map_congr_left fun xs hxs => (h xs hxs).1, List.map_const', List.sum_replicate, smul_eq_mul]
  · obtain ⟨xs, hxs, hmem⟩ := List.mem_flatten.1 hx
    exact (h xs hxs).2 x hmem

/-- The last round key of a 32-byte key is a block. -/
theorem isBytes_lastRoundKey {key : List Nat} (h : IsBytes 32 key) : IsBytes 16 ((aesKeys key).getD 14 []) := by
  have hwords : ∀ w ∈ (List.range 8).map fun i => (key.drop (4 * i)).take 4, IsBytes 4 w := by
    intro w hw
    obtain ⟨i, hi, rfl⟩ := List.mem_map.1 hw
    have hi := List.mem_range.1 hi
    exact ⟨by simp [h.1]; omega, fun x hx => h.2 x (List.mem_of_mem_drop (List.mem_of_mem_take hx))⟩
  obtain ⟨hlen, hbytes⟩ := isBytes_expandKey 52 (i := 8) (rcon := 1) (by decide) (by simp) (by decide) hwords
  generalize hws : expandKey 52 8 1 ((List.range 8).map fun i => (key.drop (4 * i)).take 4) = ws at hlen hbytes
  have hkey : (aesKeys key).getD 14 [] = ((ws.drop 56).take 4).flatten := by simp [aesKeys, hws]
  have hwhole : ((ws.drop 56).take 4).length * 4 = 16 := by simp [hlen]
  rw [hkey, ← hwhole]
  exact isBytes_flatten fun w hw => hbytes w (List.mem_of_mem_drop (List.mem_of_mem_take hw))

/-! ### Counter mode -/

theorem xorL_append_left (xs ys zs : List Nat) : xorL (xs ++ ys) zs = xorL xs zs ++ xorL ys (zs.drop xs.length) := by
  induction xs generalizing zs with
  | nil => rfl
  | cons x xs ih =>
    cases zs with
    | nil => simp [xorL]
    | cons z zs => exact congrArg ((x ^^^ z) :: ·) (ih zs)

/-- What a block is padded with does not come into the text. -/
theorem take_xorL_padded {xs : List Nat} (zs : List Nat) (h : xs.length = 16) :
    (xorL xs (zs.take 16 ++ List.replicate 16 0)).take zs.length = xorL xs zs := by
  refine List.ext_getElem? fun i => ?_
  simp only [xorL, List.getElem?_take, List.getElem?_zipWith, List.getElem?_append, List.length_take]
  by_cases hz : i < zs.length
  · by_cases hx : i < 16
    · simp [hz, hx]
    · simp [hz, List.getElem?_eq_none (h ▸ Nat.not_lt.1 hx)]
  · simp [hz]

/-- Blocks that are added to a text piece by piece are added to the whole of it. -/
theorem xorL_blocks {f : Nat → List Nat} (hf : ∀ i, (f i).length = 16) (n : Nat) (zs : List Nat) :
    ((List.range n).flatMap fun i => xorL (f i) ((zs.drop (16 * i)).take 16 ++ List.replicate 16 0)).take zs.length = xorL ((List.range n).flatMap f) zs := by
  induction n with
  | zero => simp [xorL]
  | succ n ih =>
    have hlen {g : Nat → List Nat} (hg : ∀ i, (g i).length = 16) : ((List.range n).flatMap g).length = 16 * n := by simp [List.length_flatMap, hg, Nat.mul_comm]
    rw [List.range_succ, List.flatMap_append, List.flatMap_append, List.flatMap_singleton, List.flatMap_singleton, xorL_append_left, List.take_append, ih,
      hlen hf, hlen fun i => by simp [xorL, hf], ← List.length_drop, take_xorL_padded _ (hf n)]

theorem xorL_xorL {xs zs : List Nat} (h : xs.length = zs.length) : xorL xs (xorL xs zs) = zs := by
  induction xs generalizing zs with
  | nil => exact (List.length_eq_zero_iff.1 h.symm).symm
  | cons x xs ih =>
    cases zs with
    | nil => cases h
    | cons z zs => exact congrArg₂ List.cons (Nat.xor_xor_cancel_left x z) (ih (Nat.succ.inj h))

/-- The key stream of a text of n bytes, from counter c on. -/
def keyStream (ks : List (List Nat)) (iv : List Nat) (c n : Nat) : List Nat :=
  ((List.range ((n + 15) / 16)).flatMap fun i => aesBlock ks (iv ++ bytesN 4 (c + i))).take n

section Counter

variable {ks : List (List Nat)} (hks : IsBytes 16 (ks.getD 14 []))

include hks

theorem isBytes_aesBlock (b : List Nat) : IsBytes 16 (aesBlock ks b) := isBytes_xorL (isBytes_shiftRows (isBytes_map_subByte _)) hks

theorem isBytes_keyStream (iv : List Nat) (c n : Nat) : IsBytes n (keyStream ks iv c n) := by
  have hblocks : ∀ xs ∈ (List.range ((n + 15) / 16)).map fun i => aesBlock ks (iv ++ bytesN 4 (c + i)), IsBytes 16 xs := by
    intro xs hxs
    obtain ⟨i, -, rfl⟩ := List.mem_map.1 hxs
    exact isBytes_aesBlock hks _
  obtain ⟨hlen, hlt⟩ := isBytes_flatten hblocks
  refine ⟨?_, fun x hx => hlt x (List.flatMap_def ▸ List.mem_of_mem_take hx)⟩
  rw [keyStream, List.flatMap_def, List.length_take, hlen, List.length_map, List.length_range]
  omega

/-- Counter mode adds the key stream to the text. -/
theorem gctr_eq_xorL (iv : List Nat) (c : Nat) (bs : List Nat) : gctr ks iv c bs = xorL (keyStream ks iv c bs.length) bs := by
  have hblocks := xorL_blocks (fun i => (isBytes_aesBlock hks (iv ++ bytesN 4 (c + i))).1) ((bs.length + 15) / 16) bs
  have htake := congrArg (List.take bs.length) hblocks
  rwa [List.take_take, Nat.min_self, xorL, List.take_zipWith, List.take_length] at htake

theorem isBytes_gctr (iv : List Nat) (c : Nat) {n : Nat} {bs : List Nat} (h : IsBytes n bs) : IsBytes n (gctr ks iv c bs) := by
  rw [gctr_eq_xorL hks, h.1]
  exact isBytes_xorL (isBytes_keyStream hks _ _ _) h

/-- Counter mode undoes itself. -/
theorem gctr_gctr (iv : List Nat) (c : Nat) {n : Nat} {bs : List Nat} (h : IsBytes n bs) : gctr ks iv c (gctr ks iv c bs) = bs := by
  rw [gctr_eq_xorL hks _ _ (gctr ks iv c bs), (isBytes_gctr hks iv c h).1, gctr_eq_xorL hks, h.1]
  exact xorL_xorL ((isBytes_keyStream hks _ _ _).1.trans h.1.symm)

end Counter

theorem isBytes_bytesN (n v : Nat) : IsBytes n (bytesN n v) := by
  refine ⟨by simp [bytesN], fun x hx => ?_⟩
  obtain ⟨i, -, rfl⟩ := List.mem_map.1 (List.mem_reverse.1 hx)
  exact Nat.mod_lt _ (by decide)

/-! ### Sealing and opening -/

section Seal

variable {key : List Byte} (hkey : key.length = 32) (iv aad pt : List Byte)

include hkey

theorem isBytes_lastSealKey : IsBytes 16 ((aesKeys (toNats key)).getD 14 []) := isBytes_lastRoundKey (hkey ▸ isBytes_toNats key)

/-- A text is as long sealed as it is open, and its tag has 16 bytes. -/
theorem length_gcmSeal : (gcmSeal key iv aad pt).1.length = pt.length ∧ (gcmSeal key iv aad pt).2.length = 16 := by
  have hlast := isBytes_lastSealKey hkey
  exact ⟨(List.length_map _).trans (isBytes_gctr hlast _ _ (isBytes_toNats pt)).1, (List.length_map _).trans (isBytes_gctr hlast _ _ (isBytes_bytesN _ _)).1⟩

/-- What is sealed under a key opens under it, and its tag is the one to expect. -/
theorem gcmUnseal_gcmSeal : gcmUnseal key iv aad (gcmSeal key iv aad pt).1 = (pt, (gcmSeal key iv aad pt).2) := by
  have hlast := isBytes_lastSealKey hkey
  have hct := toNats_ofNats (isBytes_gctr hlast (toNats iv) 2 (isBytes_toNats pt))
  have hpt := gctr_gctr hlast (toNats iv) 2 (isBytes_toNats pt)
  simp only [gcmUnseal, gcmSeal, hct, hpt, ofNats_toNats]

end Seal

end Sys2Proof.Machine
end

section
/-! PROOFS. The fabric (chapter 10): packets and their protection, flits, ports and links, remote requests and their answers. -/

namespace Sys2Proof.Machine

/-! ### Packets and their protection -/

theorem leAt_toLE_skip {m lo : Nat} (h : m ≤ lo) (v n : Nat) (b : List Byte) : leAt (toLE m v ++ b) lo n = leAt b (lo - m) n := by
  rw [leAt, leAt, List.drop_append, List.drop_of_length_le (by rwa [length_toLE]), List.nil_append, length_toLE]

section Header

variable (dst src op fl path cls code seq unit reqId ga len epoch : Nat)

theorem length_pktHeader : (pktHeader dst src op fl path cls code seq unit reqId ga len epoch).length = 32 := by simp [pktHeader]

/-- The header's fields as they stand in a packet's bytes (Table 10-4). -/
theorem pktHeader_fields (b rest : List Byte) (hb : b = pktHeader dst src op fl path cls code seq unit reqId ga len epoch ++ rest) :
    leAt b 0 2 = dst % 2 ^ 16 ∧ leAt b 2 2 = src % 2 ^ 16 ∧ leAt b 4 1 = op % 2 ^ 8 ∧ leAt b 5 1 = fl % 2 ^ 8 ∧ leAt b 6 1 = (path + cls <<< 4) % 2 ^ 8 ∧
    leAt b 7 1 = code % 2 ^ 8 ∧ leAt b 8 4 = seq % 2 ^ 32 ∧ leAt b 12 2 = unit % 2 ^ 16 ∧ leAt b 14 2 = reqId % 2 ^ 16 ∧ leAt b 16 8 = ga % 2 ^ 64 ∧
    leAt b 24 4 = len % 2 ^ 32 ∧ leAt b 28 4 = epoch % 2 ^ 32 := by
  subst hb
  simp [pktHeader, leAt_toLE_first, leAt_toLE_skip]

/-- The source's number as a protected packet's IV takes it from the header (R478). -/
theorem pktHeader_src : ((pktHeader dst src op fl path cls code seq unit reqId ga len epoch).drop 2).take 2 = toLE 2 src := by
  simp only [pktHeader, List.append_assoc]
  rw [List.drop_left' (length_toLE _ _), List.take_left' (length_toLE _ _)]

end Header

theorem bit_one_of_lt {x : Nat} (h : x < 4) : bit x 1 = decide (2 ≤ x) := by interval_cases x <;> rfl

theorem rd_lt (d : Device) (f : Fld) (i : Nat) : d.rd f i < 2 ^ f.width := Nat.mod_lt _ (Nat.two_pow_pos _)

/-- The parts of a packet: header, tag, payload and integrity field. -/
theorem packet_parts {b hdr tag ct integ : List Byte} (hb : b = hdr ++ (tag ++ (ct ++ integ))) (hhdr : hdr.length = 32) (htag : tag.length = 16)
    (hinteg : integ.length = 16) : b.take 32 = hdr ∧ (b.drop 32).take 16 = tag ∧ (b.drop 48).take ((b.drop 48).length - 16) = ct ∧
    (b.drop 48).drop ((b.drop 48).length - 16) = integ := by
  have hrest : b.drop 32 = tag ++ (ct ++ integ) := by rw [hb, List.drop_left' hhdr]
  have hbody : b.drop 48 = ct ++ integ := by rw [show 48 = 32 + 16 from rfl, ← List.drop_drop, hrest, List.drop_left' htag]
  have hsplit : (b.drop 48).length - 16 = ct.length := by rw [hbody, List.length_append, hinteg, Nat.add_sub_cancel]
  rw [hsplit, hbody]
  exact ⟨by rw [hb, List.take_left' hhdr], by rw [hrest, List.take_left' htag], List.take_left, List.drop_left⟩

section Verify

variable {e : Device} {b hdr tag ct integ : List Byte} (hb : b = hdr ++ (tag ++ (ct ++ integ))) (hhdr : hdr.length = 32) (htag : tag.length = 16)
  (hinteg : integ.length = 16)

include hb hhdr htag hinteg

/-- An unprotected packet passes where its op or its tenancy needs no protection (R479). -/
theorem verifyPkt_of_clear (hflag : bit (leAt b 5 1) 1 = false) (hneeds : (opProtected (leAt b 4 1) && e.protects (tagTen tag)) = false) :
    e.verifyPkt b = some (ct, false) := by
  obtain ⟨-, htags, hcts, -⟩ := packet_parts hb hhdr htag hinteg
  simp only [Device.verifyPkt, htags, hcts, hflag, hneeds, Bool.not_false, if_true, Bool.false_eq_true, if_false]

/-- A protected packet of a near epoch that the current key opens passes (R479). -/
theorem verifyPkt_of_current {g : Nat} {key pt : List Byte} (hflag : bit (leAt b 5 1) 1 = true) (hlow : e.epoch ≤ leAt b 28 4 + 1)
    (hhigh : leAt b 28 4 ≤ e.epoch + 1) (hreset : (e.inn (streamKey (leAt b 2 2) (leAt b 6 1 % 16) (leAt b 6 1 / 16))).resetEpoch ≤ leAt b 28 4)
    (hcur : (e.fabKeys (tagTen tag)).cur = some (g, key)) (hopen : openWith key hdr tag ct integ = some pt) : e.verifyPkt b = some (pt, false) := by
  obtain ⟨hhdrs, htags, hcts, hintegs⟩ := packet_parts hb hhdr htag hinteg
  simp only [Device.verifyPkt, hhdrs, htags, hcts, hintegs, hflag, hlow, hhigh, hreset, hcur, hopen, Bool.not_true, Bool.false_eq_true, if_false, decide_true,
    Bool.and_self, Option.toList_some, List.cons_append, List.findSome?_cons]

end Verify

/-- What a sender sealed for a packet opens under the same key (R478). -/
theorem openWith_gcmSeal {key hdr tag ctr iv pt : List Byte} {s : List Byte × List Byte} (hkey : key.length = 32) (hctr : ctr.length = 8)
    (hiv : iv = (hdr.drop 2).take 2 ++ toLE 2 0 ++ ctr) (hs : s = gcmSeal key iv (hdr ++ tag) pt) : openWith key hdr tag s.1 (ctr ++ s.2.take 8) = some pt := by
  have hunseal := hs ▸ gcmUnseal_gcmSeal hkey iv (hdr ++ tag) pt
  simp only [openWith, List.take_left' hctr, List.drop_left' hctr, ← hiv, hunseal, List.take_take, Nat.min_self, if_true]

/-- The body of a protected packet: its tag, the sealed payload, and an integrity field of the counter and the front of the seal's tag (R478). -/
theorem protectBody_of_key {d : Device} {p g : Nat} {hdr tag payload key : List Byte} (hcur : (d.fabKeys (tagTen tag)).cur = some (g, key)) :
    ∃ ctr s, ctr.length = 8 ∧ s = gcmSeal key (toLE 2 d.devId ++ toLE 2 0 ++ ctr) (hdr ++ tag) payload ∧
      (d.protectBody p hdr tag payload).2 = tag ++ (s.1 ++ (ctr ++ s.2.take 8)) := by
  refine ⟨toLE 8 (p <<< 60 + smGet d.fab.counters (64 * p + tagTen tag) 0), _, length_toLE _ _, rfl, ?_⟩
  simp only [Device.protectBody, hcur, List.append_assoc]

/-- Settles O60: the header's fields stand in its bytes, a counter-mode seal undoes itself under the same key, and an unprotected payload is taken as it stands. -/
theorem packetsArrive : Obligations.PacketsArrive := by
  intro d e p dst op resent path cls code seq unit reqId ga len tag payload hdst hop hresent hpath hcls hcode hseq hunit hreq hga hlen htag
  have hsrc : d.devId < 2 ^ 16 := Nat.lt_of_lt_of_le (rd_lt d FAB_DEV_CFG.dev_id 0) (by decide)
  have hepoch : d.epoch < 2 ^ 32 := rd_lt d FTP_STAT.epoch 0
  have hfields {fl : Nat} {rest b : List Byte} (hfl : fl < 4) (hb : b = pktHeader dst d.devId op fl path cls code seq unit reqId ga len d.epoch ++ rest) :
      leAt b 0 2 = dst ∧ leAt b 2 2 = d.devId ∧ leAt b 4 1 = op ∧ leAt b 5 1 = fl ∧ leAt b 6 1 % 16 = path ∧ leAt b 6 1 / 16 = cls ∧ leAt b 7 1 = code ∧
      leAt b 8 4 = seq ∧ leAt b 12 2 = unit ∧ leAt b 14 2 = reqId ∧ leAt b 16 8 = ga ∧ leAt b 24 4 = len ∧ leAt b 28 4 = d.epoch := by
    have h := pktHeader_fields _ _ _ _ _ _ _ _ _ _ _ _ _ b rest hb
    simp only [Nat.shiftLeft_eq] at h
    omega
  refine ⟨fun fl rest b hfl hb => ?header, fun g g' key b hkey hcur hcur' hlow hhigh hreset hb => ?opens, fun b hneeds hb => ?passes⟩
  case header =>
    obtain ⟨h0, h2, h4, h5, h6, h6', h7, h8, h12, h14, h16, h24, h28⟩ := hfields hfl hb
    refine ⟨h0, h2, h4, h5, h6, h6', h7, h8, h12, h14, h16, h24, h28, ?_⟩
    rw [hb, List.drop_left' (length_pktHeader ..), List.take_left' htag]
  case opens =>
    obtain ⟨ctr, s, hctr, hs, hbody⟩ := protectBody_of_key (p := p) (payload := payload) hcur
    rw [hbody] at hb
    obtain ⟨-, h2, -, h5, h6, h6', -, -, -, -, -, -, h28⟩ := hfields (by omega) hb
    have hinteg : (ctr ++ s.2.take 8).length = 16 := by
      rw [List.length_append, List.length_take, hctr, hs, (length_gcmSeal hkey _ _ _).2]
      rfl
    refine verifyPkt_of_current hb (length_pktHeader ..) htag hinteg ?_ (by rwa [h28]) (by rwa [h28]) (by rwa [h2, h6, h6', h28]) hcur' ?_
    · rw [h5, bit_one_of_lt (by omega)]
      exact decide_eq_true (by omega)
    · exact openWith_gcmSeal hkey hctr (by rw [pktHeader_src]) hs
  case passes =>
    rw [List.append_assoc tag] at hb
    obtain ⟨-, -, h4, h5, -⟩ := hfields (by omega) hb
    refine verifyPkt_of_clear hb (length_pktHeader ..) htag List.length_replicate ?_ (by rwa [h4])
    rw [h5, bit_one_of_lt (by omega)]
    exact decide_eq_false (by omega)

/-! ### Flits -/

/-- Pieces of one size, one after the other, are the front of the list. -/
theorem flatMap_pieces {α : Type} (w n : Nat) (xs : List α) : ((List.range n).flatMap fun i => (xs.drop (w * i)).take w) = xs.take (w * n) := by
  induction n with
  | zero => simp
  | succ n ih => rw [List.range_succ, List.flatMap_append, ih, List.flatMap_singleton, Nat.mul_succ, List.take_add]

theorem length_flitsOf (cls ten : Nat) (bs : List Byte) : (flitsOf cls ten bs).length = ceilDiv bs.length 240 := by simp [flitsOf]

/-- The flits of a packet in their order: each has the next 240 of its bytes (R298). -/
theorem getElem?_flitsOf {cls ten i : Nat} {bs : List Byte} {f : TxFlit} (h : (flitsOf cls ten bs)[i]? = some f) : i < ceilDiv bs.length 240 ∧
    f = { cls := cls, sop := i == 0, eop := i + 1 == ceilDiv bs.length 240, data := (bs.drop (240 * i)).take 240, ten := ten } := by
  rw [flitsOf, List.getElem?_map, Option.map_eq_some_iff] at h
  obtain ⟨j, hj, rfl⟩ := h
  obtain ⟨hlt, rfl⟩ := List.getElem?_eq_some_iff.1 hj
  rw [List.length_range] at hlt
  exact ⟨hlt, by rw [List.getElem_range]⟩

theorem bit_eq_of_div {x n : Nat} {v : Bool} (h : x / 2 ^ n % 2 = b2n v) : bit x n = v := by
  rw [bit, Nat.testBit_eq_decide_div_mod_eq, h]
  cases v <;> rfl

theorem bit_eq_false_of_div {x n : Nat} (h : x / 2 ^ n % 2 = 0) : bit x n = false := bit_eq_of_div (v := false) h

theorem b2n_lt (v : Bool) : b2n v < 2 := by cases v <;> decide

/-- The fields of a flit's header do not meet (Table 10-2). -/
theorem head_fields (l : Link) {kind cls seq used : Nat} (sop eop : Bool) (hkind : kind < 4) (hcls : cls < 4) (hseq : seq < 4096) (hused : used < 256) :
    bits (l.head kind cls seq used sop eop) 63 52 = seq ∧ bits (l.head kind cls seq used sop eop) 51 40 = (if l.seen then (l.rx + 4095) % 4096 else 0) ∧
    bit (l.head kind cls seq used sop eop) 39 = l.seen ∧ bit (l.head kind cls seq used sop eop) 38 = false ∧ bits (l.head kind cls seq used sop eop) 37 36 = kind ∧
    bits (l.head kind cls seq used sop eop) 35 34 = cls ∧ bit (l.head kind cls seq used sop eop) 33 = sop ∧ bit (l.head kind cls seq used sop eop) 32 = eop ∧
    bits (l.head kind cls seq used sop eop) 31 24 = used := by
  have hack : (if l.seen then (l.rx + 4095) % 4096 else 0) < 4096 := by split <;> omega
  have hseen := b2n_lt l.seen
  have hsop := b2n_lt sop
  have heop := b2n_lt eop
  unfold Link.head
  simp only [bits, Nat.shiftLeft_eq, Nat.shiftRight_eq_div_pow]
  generalize (if l.seen then (l.rx + 4095) % 4096 else 0) = ack at hack ⊢
  exact ⟨by omega, by omega, bit_eq_of_div (by omega), bit_eq_false_of_div (by omega), by omega, by omega, bit_eq_of_div (by omega),
    bit_eq_of_div (by omega), by omega⟩

/-- Settles O59: a packet's pieces are its bytes, and the fields of a header read back. -/
theorem flitsCarryPackets : Obligations.FlitsCarryPackets := by
  refine ⟨fun cls ten bs => ?whole, fun cls ten i bs f hf => ?each, fun l f hseq hcls hlen => ?header⟩
  case whole =>
    rw [flitsOf, List.flatMap_map, flatMap_pieces, List.take_of_length_le]
    rw [ceilDiv]
    omega
  case each =>
    have hn := length_flitsOf cls ten bs
    obtain ⟨hi, rfl⟩ := getElem?_flitsOf hf
    have hrest : 240 * i < bs.length := by rw [ceilDiv] at hi; omega
    exact ⟨rfl, rfl, by simp [hrest], List.length_take_le _ _, rfl, by simp, by simp [hn]⟩
  case header =>
    have hkind : (if f.ctl then 2 else 1) < 4 := by split <;> decide
    have hclass : (if f.ctl then 0 else f.cls) < 4 := by split <;> omega
    obtain ⟨hnum, hack, hseen, hnak, hkinds, hclasses, hsop, heop, hused⟩ := head_fields l f.sop f.eop hkind hclass hseq hlen
    exact ⟨hnum, hseen, hnak, hkinds, hclasses, hsop, heop, hused, fun h => hack.trans (if_pos h)⟩

/-! ### Ports and links -/

theorem not_stopped_of_in_use {st : Nat} (h : st = ptUp ∨ st = ptRetraining) : (st == ptUp || st == ptRetraining) = true := by
  obtain rfl | rfl := h <;> rfl

section Port

variable {d : Device} {p : Nat}

/-- A lane of a port in use that fails is lost and the port retrains (R296). -/
theorem laneFail_of_lane {lane : Nat} (hst : d.rd FAB_PORT_STAT.state p = ptUp ∨ d.rd FAB_PORT_STAT.state p = ptRetraining) (hlane : lane < 4)
    (hok : bit (d.rd FAB_PORT_STAT.lanes_ok p) lane = true) :
    laneFail p lane d = ((d.loseLane p lane).incSat FAB_PORT_STAT.retrains p 1).portStops p ptRetraining := by
  simp only [laneFail, not_stopped_of_in_use hst, hlane, hok, Bool.not_true, Bool.or_self, Bool.false_eq_true, if_true, if_false]

/-- The same of the spare that the port uses. -/
theorem laneFail_of_spare (hst : d.rd FAB_PORT_STAT.state p = ptUp ∨ d.rd FAB_PORT_STAT.state p = ptRetraining) (hspare : d.on FAB_PORT_STAT.spare_in p = true) :
    laneFail p 4 d = ((d.loseLane p 4).incSat FAB_PORT_STAT.retrains p 1).portStops p ptRetraining := by
  simp only [laneFail, not_stopped_of_in_use hst, hspare, Nat.lt_irrefl, Bool.not_true, Bool.or_self, Bool.false_eq_true, if_false]

/-- A lost lane's place is taken by the group's spare where that is free and works (R296). -/
theorem loseLane_of_lane {lane : Nat} {a b : Device} (hlane : lane < 4) (ha : a = d.wr FAB_PORT_STAT.lanes_ok p (d.rd FAB_PORT_STAT.lanes_ok p &&& (15 - 2 ^ lane)))
    (hb : b = if d.spareFree p then
      (((a.wr FAB_LANE_SPARE.in_use (p / 4) 1).wr FAB_LANE_SPARE.port (p / 4) (p % 4)).wr FAB_LANE_SPARE.lane (p / 4) lane).wr FAB_PORT_STAT.spare_in p 1 else a) :
    d.loseLane p lane = b.log { unit := unitOf 6 (0x20 + p), sev := 5, op := 0x12, detail := p + lane <<< 8 + b.widthNow p <<< 16 } := by
  subst ha hb
  simp only [Device.loseLane, hlane, decide_true, Bool.true_and, if_true]

/-- A lost spare is no longer there for its group (R296). -/
theorem loseLane_of_spare {a : Device} (ha : a = (d.wr FAB_LANE_SPARE.avail (p / 4) 0).wr FAB_PORT_STAT.spare_in p 0) : d.loseLane p 4 =
    a.log { unit := unitOf 6 (0x20 + p), sev := 5, op := 0x12, detail := p + d.rd FAB_LANE_SPARE.lane (p / 4) <<< 8 + a.widthNow p <<< 16 } := by
  subst ha
  rfl

section Trains

variable {k : Nat} (hen : d.on FAB_PORT_CFG.enable p = true)
  (hst : d.rd FAB_PORT_STAT.state p = ptTraining ∨ d.rd FAB_PORT_STAT.state p = ptRetraining ∨ d.rd FAB_PORT_STAT.state p = ptDown)

include hen hst

theorem port_trains : (!d.on FAB_PORT_CFG.enable p || !(d.rd FAB_PORT_STAT.state p == ptTraining || d.rd FAB_PORT_STAT.state p == ptRetraining ||
    d.rd FAB_PORT_STAT.state p == ptDown)) = false := by
  obtain h | h | h := hst <;> rw [hen, h] <;> rfl

/-- A port that trains on lanes of which none failed is up at their width, and sends (R297). -/
theorem portTrained_of_good {a b : Device} {w : Nat} (hgood : d.failedIn p k = []) (ha : a = d.wr FAB_PORT_STAT.lanes_ok p (k % 16)) (hw : w = a.widthNow p)
    (hwide : w ≠ 3) (hacked : (a.link p).unacked = [])
    (hb : b = ((a.setLink p { a.link p with replays := 0, nakOut := false, told := [] }).wr FAB_PORT_STAT.width p w).wr FAB_PORT_STAT.state p ptUp) :
    portTrained p k d = b.pump p := by
  subst hb
  simp only [portTrained, port_trains hen hst, hgood, List.foldl_nil, ← ha, ← hw, hwide, hacked, List.isEmpty_nil, Bool.not_true, Bool.false_and,
    Bool.false_eq_true, if_false, if_true]

/-- Where the spare then takes the place of a lane that failed, the port trains again (R296). -/
theorem portTrained_of_failed (hfailed : d.failedIn p k ≠ []) (hspare : d.spareFree p = true) :
    portTrained p k d = (((d.failedIn p k).foldl (fun (d : Device) i => d.loseLane p i) (d.wr FAB_PORT_STAT.lanes_ok p (k % 16))).incSat FAB_PORT_STAT.retrains p 1).wr
      FAB_PORT_STAT.state p ptRetraining := by
  have hsome : (d.failedIn p k).isEmpty = false := by simpa using hfailed
  simp only [portTrained, port_trains hen hst, hsome, hspare, Bool.not_false, Bool.and_self, Bool.false_eq_true, if_false, if_true]

end Trains

theorem portTrains_of_serving {k : Nat} (href : d.pwr.refDown.contains (p / 4) = false) (hpow : d.unpowered = false)
    (hserves : d.serves (unitOf 6 (0x20 + p)) = true) : portTrains p k d = portTrained p k d := by
  simp only [portTrains, href, hpow, hserves, Bool.not_true, Bool.or_self, Bool.false_eq_true, if_false]

theorem portDown_of_on (hoff : d.rd FAB_PORT_STAT.state p ≠ ptOff) (hdown : d.rd FAB_PORT_STAT.state p ≠ ptDown) :
    portDown p d = (d.setLink p {}).portStops p ptDown := by
  simp only [portDown, hoff, hdown, decide_false, Bool.or_self, Bool.false_eq_true, if_false]

section Flit

variable {hdr crc : Nat} {pl : List Byte} {ctl : Ctl} (hoff : d.rd FAB_PORT_STAT.state p ≠ ptOff) (hdown : d.rd FAB_PORT_STAT.state p ≠ ptDown)

include hoff hdown

/-- A flit of a wrong CRC is counted and discarded (R301). -/
theorem flitRx_of_bad (hcrc : crc64 (toLE 8 hdr ++ (pl ++ List.replicate 240 0).take 240) ≠ crc) :
    flitRx p hdr pl crc ctl d = (d.incSat FAB_PORT_STAT.crc_errors p 1).discardFlit p := by
  simp only [flitRx, hoff, hdown, hcrc, decide_false, Bool.or_self, Bool.false_eq_true, ne_eq, not_false_eq_true, if_false, if_true]

/-- A data flit of the number expected advances the link and joins its packet (R298, R300). -/
theorem flitRx_of_data {l : Link} {a : Device} (hl : l = d.link p) (hcrc : crc = crc64 (toLE 8 hdr ++ (pl ++ List.replicate 240 0).take 240))
    (hkind : bits hdr 37 36 = 1) (hnum : bits hdr 63 52 = l.rx)
    (ha : a = (d.setLink p { l with rx := (l.rx + 1) % 4096, seen := true, nakOut := false }).takeData p hdr pl) :
    flitRx p hdr pl crc ctl d = (if bit hdr 39 then a.takeAck p (bits hdr 51 40) (bit hdr 38) else a.pump p).idleFlit p l.tx := by
  subst hl hcrc ha
  simp [flitRx, hoff, hdown, hkind, hnum]

/-- A control flit of the number expected advances the link and brings the credits granted (R298, R304). -/
theorem flitRx_of_control {l : Link} {a : Device} (hl : l = d.link p) (hcrc : crc = crc64 (toLE 8 hdr ++ (pl ++ List.replicate 240 0).take 240))
    (hkind : bits hdr 37 36 = 2) (hnum : bits hdr 63 52 = l.rx)
    (ha : a = d.setLink p { l with rx := (l.rx + 1) % 4096, seen := true, nakOut := false, granted := ctl.credits }) :
    flitRx p hdr pl crc ctl d = (if bit hdr 39 then a.takeAck p (bits hdr 51 40) (bit hdr 38) else a.pump p).idleFlit p l.tx := by
  subst hl hcrc ha
  simp [flitRx, hoff, hdown, hkind, hnum]

end Flit

end Port

/-- Settles O47, event by event. That a lane that fails writes an op 0x12 record with the lane and the new width, and retrains its port, is the model's own
deduction (log 72). -/
theorem fabricLinks : Obligations.FabricLinks := by
  unfold Obligations.FabricLinks
  refine ⟨?lane, ?spare, ?trained, ?failed, ?down, ?data, ?control, ?crc, ?replay, ?back⟩
  case lane =>
    intro s p lane a b hp hst hlane hok ha hb
    rw [exec_of_wf (fun _ => rfl) (by simp [Instr.wf, hp, hlane.le]), laneFail_of_lane hst hlane hok, loseLane_of_lane hlane ha hb]
  case spare =>
    intro s p a hp hst hspare ha
    rw [exec_of_wf (fun _ => rfl) (by simp [Instr.wf, hp]), laneFail_of_spare hst hspare, loseLane_of_spare ha]
  case trained =>
    intro s p k w a b hp hk href hpow hserves hen hst hgood ha hw hwide hacked hb
    rw [exec_of_wf (fun _ => rfl) (by simp [Instr.wf, hp, hk]), portTrains_of_serving href hpow hserves,
      portTrained_of_good hen hst hgood ha hw hwide hacked hb]
  case failed =>
    intro s p k hp hk href hpow hserves hen hst hfailed hspare
    rw [exec_of_wf (fun _ => rfl) (by simp [Instr.wf, hp, hk]), portTrains_of_serving href hpow hserves, portTrained_of_failed hen hst hfailed hspare]
  case down =>
    intro s p hp hoff hdown
    rw [exec_of_wf (fun _ => rfl) (by simp [Instr.wf, hp]), portDown_of_on hoff hdown]
  case data =>
    intro s p hdr crc pl ctl l a hp hhdr hbound hoff hdown hl hcrc hkind hnum ha
    rw [exec_of_wf (fun _ => rfl) (by simp only [Instr.wf, hp, hhdr, hbound, decide_true, Bool.and_self]), flitRx_of_data hoff hdown hl hcrc hkind hnum ha]
  case control =>
    intro s p hdr crc pl ctl l a hp hhdr hbound hoff hdown hl hcrc hkind hnum ha
    rw [exec_of_wf (fun _ => rfl) (by simp only [Instr.wf, hp, hhdr, hbound, decide_true, Bool.and_self]), flitRx_of_control hoff hdown hl hcrc hkind hnum ha]
  case crc =>
    intro s p hdr crc pl ctl hp hhdr hbound hoff hdown hcrc
    rw [exec_of_wf (fun _ => rfl) (by simp only [Instr.wf, hp, hhdr, hbound, decide_true, Bool.and_self]), flitRx_of_bad hoff hdown hcrc]
  case replay =>
    intro s p f rest hp _ hup
    rw [exec_of_wf (fun _ => rfl) (by simp [Instr.wf, hp]), replayTimeout, if_pos hup]
  case back =>
    intro s p hp hup hother
    rw [exec_of_wf (fun _ => rfl) (by simp [Instr.wf, hp]), pathReturn, if_pos (by simp [hup, hother])]

/-! ### Remote operations: issue by a leg -/

section Issue

variable {d : Device} {l : Leg} {n ga ts len tok : Nat}

theorem rloadOp_of_owned (hok : d.remoteOk l ga len 8 = none) (howns : d.ownsRange n l.ten ts len = true) (hroom : l.ops < 256) :
    rloadOp n ts ga len tok d l = some (remoteIssue n 1 ga len 0 [] (fun l => .rload n l.serial ts tok) d l) := by
  simp only [rloadOp, hok, howns, Nat.not_le.2 hroom, Bool.not_true, Bool.false_eq_true, if_false]

theorem rstoreOp_of_owned (hok : d.remoteOk l ga len 8 = none) (howns : d.ownsRange n l.ten ts len = true) (hroom : l.ops < 256)
    (hpoison : d.poisonIn spTS (tsOff n ts) len = none) : rstoreOp n ga ts len tok d l =
      some (remoteIssue n 3 ga len 0 (d.peek devKey spTS (tsOff n ts) len) (fun l => .rstore n l.serial tok) d l) := by
  simp only [rstoreOp, hok, howns, Nat.not_le.2 hroom, tsRead_of_owned howns hpoison, Bool.not_true, Bool.false_eq_true, if_false]

theorem ratomOp_of_served {op sv sc sd : Nat} (hop : op < 6) (hok : d.remoteOk l ga (if op = 5 then 4 else 8) (if op = 5 then 4 else 8) = none) (hspace : gaSp ga ≠ 8)
    (horder : op = 5 → d.fixedOrder l.ten = false) (hroom : l.ops < 256) : ratomOp n op ga sv sc sd tok d l =
      some (remoteIssue n 5 ga 16 op (toLE 8 (smGet l.s sv 0) ++ toLE 8 (smGet l.s sc 0)) (fun l => .ratom n l.serial sd tok) d l) := by
  have hfree : (decide (op = 5) && d.fixedOrder l.ten) = false := by simpa using horder
  simp only [ratomOp, hok, hspace, hfree, Nat.not_le.2 hop, Nat.not_le.2 hroom, decide_false, Bool.or_self, Bool.false_eq_true, if_false]

end Issue

/-- A remote instruction of a leg that issues: the leg counts one operation more, and its request is on the way (R311, R312). -/
theorem exec_of_remoteIssue {c : Instr} {s : State} {n op ga len code cy : Nat} {stall : List Nat} {payload : List Byte} {who : Leg → ReqFor}
    {l q m : Leg} {d e : Device} {f : Device → Leg → Option LegRes} (hexec : ∀ s, exec c s = s.actIf c.wf (Device.settled (Device.seqStall n stall f))) (hwf : c.wf = true)
    (hcy : max l.count (s.dev.rd COR_TIMING.leg_start n) = cy) (hissues : s.dev.issues n cy l d q) (hf : f d q = some (remoteIssue n op ga len code payload who d q))
    (hm : m = { q with ops := q.ops + 1 })
    (he : e = (d.putLeg n m).issueAny op (ftClass q.cls) ((d.putLeg n m).coreUnit n) ga len code q.sn q.remoteTag payload (who m)) :
    exec c s = .next (s.settles (e.putLeg n ((e.core n).leg.getD m))) := by
  subst hm he
  rw [exec_of_settled hexec hwf, seqStall_go hissues hcy hf]
  rfl

/-! ### Remote operations: the target -/

section Target

variable {d a e : Device} {b : List Byte} {p : Pkt} {k : Nat} {t : TReq}

/-- A request packet as it stands at its target. -/
def Pkt.request (p : Pkt) (arrived : Nat) : TReq :=
  { src := p.src, path := p.path, cls := p.cls, op := p.op, code := p.code, seq := p.seq, unit := p.unit, reqId := p.reqId, ga := p.ga, len := p.len, tag := p.tag,
    payload := p.payload, arrived := arrived }

/-- A request of the number that its stream expects, of a tenancy open to remote requests, is served (R307, R317). -/
theorem requestRx_of_expected {op : Nat} (hcoll : op ≠ 0x10) (hop : leAt b 4 1 = op) (hawake : d.rd PWR_STATE_STAT.state 0 ≠ 2) (hpkt : d.checkPkt b = (a, some p))
    (hexpect : (a.inn (streamKey p.src p.path p.cls)).expect % 2 ^ 32 = p.seq)
    (he : e = a.setIn (streamKey p.src p.path p.cls)
      { a.inn (streamKey p.src p.path p.cls) with expect := ((a.inn (streamKey p.src p.path p.cls)).expect + 1) % 2 ^ 32 })
    (hopen : e.on FAB_TEN_CFG.remote_en (tagTen p.tag) = true) : requestRx op b d = e.serve (p.request a.time) := by
  have hdelta : (p.seq + 2 ^ 32 - p.seq) % 2 ^ 32 = 0 := by omega
  subst he
  simp only [requestRx, hop, hawake, hpkt, hcoll, hexpect, hdelta, TReq.ten, hopen, ne_eq, not_true_eq_false, decide_false, Bool.false_and, Bool.false_eq_true,
    if_false, if_true]
  rfl

/-- The same of the command that brings the packet, which clears deep_armed first (R491). -/
theorem exec_of_request {c : Instr} {s : State} {op : Nat}
    (hexec : ∀ s, exec c s = s.actIf c.wf (Device.settled fun d => requestRx op b (d.disarmDeep 2))) (hwf : c.wf = true) (hcoll : op ≠ 0x10)
    (hop : leAt b 4 1 = op) (hawake : (s.dev.disarmDeep 2).rd PWR_STATE_STAT.state 0 ≠ 2) (hpkt : (s.dev.disarmDeep 2).checkPkt b = (a, some p))
    (hexpect : (a.inn (streamKey p.src p.path p.cls)).expect % 2 ^ 32 = p.seq)
    (he : e = a.setIn (streamKey p.src p.path p.cls)
      { a.inn (streamKey p.src p.path p.cls) with expect := ((a.inn (streamKey p.src p.path p.cls)).expect + 1) % 2 ^ 32 })
    (hopen : e.on FAB_TEN_CFG.remote_en (tagTen p.tag) = true) : exec c s = .next (s.settles (e.serve (p.request a.time))) := by
  rw [exec_of_settled hexec hwf, requestRx_of_expected hcoll hop hawake hpkt hexpect he hopen]

/-- The oldest request for its block that may run leaves the intake and runs (R324). -/
theorem lineSerialiserAccess_of_oldest (ht : d.fab.intake[k]? = some t) (hfirst : (d.fab.intake.take k).any (d.behind t) = false) (hrun : d.targetCheck t = .run)
    (hroom : d.cacheFull t = false) : lineSerialiserAccess k d = (d.leaveIntake t).execReq t := by
  simp only [lineSerialiserAccess, ht, hfirst, hrun, hroom, Bool.false_eq_true, if_false]

/-- A request of a peer that waits gets its RECEIPT (R318). -/
theorem receiptTimer_of_waiting (ht : d.fab.intake[k]? = some t) (hfirst : t.receipt = false) (hpeer : t.src ≠ d.devId)
    (ha : a = { d with fab := { d.fab with intake := d.fab.intake.set k { t with receipt := true } } }) :
    receiptTimer k d = a.answer t.src 0x09 0 0 t.seq t.unit t.reqId t.ga 0 t.tag [] := by
  subst ha
  simp only [receiptTimer, ht, hfirst, hpeer, decide_false, Bool.or_self, Bool.false_eq_true, if_false]

theorem replyAckRx_of_good (hop : leAt b 4 1 = 0x07) (hpkt : d.checkPkt b = (a, some p)) : replyAckRx b d =
    { a with fab := { a.fab with replies := a.fab.replies.filter fun r => !(r.src == p.src && r.unit == p.unit && r.reqId == p.reqId && r.seq == p.seq) } } := by
  simp only [replyAckRx, hop, hpkt, ne_eq, not_true_eq_false, if_false]

end Target

/-- Settles O48: an instruction issues its request, an accepted request is served, and the target's timers and cache act. -/
theorem remoteRequests : Obligations.RemoteRequests := by
  unfold Obligations.RemoteRequests
  refine ⟨?load, ?store, ?atomic, ?readRx, ?writeRx, ?atomicRx, ?serialiser, ?receipt, ?hold, ?replyAck, ?expiry⟩
  case load =>
    rintro s n ga ts len tok cy l q _ d e hn htok hga hcy hissues hok howns hroom rfl he
    have hwf : (Instr.rload n ts ga len tok).wf = true := by simp only [Instr.wf, hn, htok, hga, decide_true, Bool.and_self]
    exact exec_of_remoteIssue (fun _ => rfl) hwf hcy hissues (rloadOp_of_owned hok howns hroom) rfl he
  case store =>
    rintro s n ga ts len tok cy l q _ d e _ hn htok hga hcy hissues hok howns hroom rfl hpoison rfl he
    have hwf : (Instr.rstore n ga ts len tok).wf = true := by simp only [Instr.wf, hn, htok, hga, decide_true, Bool.and_self]
    exact exec_of_remoteIssue (fun _ => rfl) hwf hcy hissues (rstoreOp_of_owned hok howns hroom hpoison) rfl he
  case atomic =>
    rintro s n op ga sv sc sd tok cy l q _ d e hn htok hop hsv hsc hsd hga hcy hissues hok hspace horder hroom rfl he
    have hbyte : op < 256 := by omega
    have hwf : (Instr.ratom n op ga sv sc sd tok).wf = true := by simp only [Instr.wf, hn, htok, hbyte, hsv, hsc, hsd, hga, decide_true, Bool.and_self]
    exact exec_of_remoteIssue (fun _ => rfl) hwf hcy hissues (ratomOp_of_served hop hok hspace horder hroom) rfl he
  case readRx =>
    intro s b p a e hop hawake hpkt _ hexpect he hopen
    exact exec_of_request (fun _ => rfl) rfl (by decide) hop hawake hpkt hexpect he hopen
  case writeRx =>
    intro s b p a e hop hawake hpkt _ hexpect he hopen
    exact exec_of_request (fun _ => rfl) rfl (by decide) hop hawake hpkt hexpect he hopen
  case atomicRx =>
    intro s b p a e hop hawake hpkt _ hexpect he hopen
    exact exec_of_request (fun _ => rfl) rfl (by decide) hop hawake hpkt hexpect he hopen
  case serialiser =>
    intro s k t ht hfirst hrun hroom
    rw [exec_of_settled (fun _ => rfl) rfl, lineSerialiserAccess_of_oldest ht hfirst hrun hroom]
  case receipt =>
    intro s k t a ht hfirst hpeer ha
    rw [exec_of_wf (fun _ => rfl) rfl, receiptTimer_of_waiting ht hfirst hpeer ha]
  case hold =>
    intro s
    rw [exec_of_wf (fun _ => rfl) rfl, holdTick]
  case replyAck =>
    intro s b p a hop hpkt
    rw [exec_of_wf (fun _ => rfl) rfl, replyAckRx_of_good hop hpkt]
  case expiry =>
    intro s k
    rw [exec_of_wf (fun _ => rfl) rfl, replyCacheExpiry]

/-! ### Answers and transport control at the requester -/

section Answer

variable {d a : Device} {b : List Byte} {p : Pkt} {r : Req} {k : Nat}

section Good

variable (hpkt : d.checkPkt b = (a, some p))

include hpkt

/-- An answer of an op that may answer the request it names has its effect (R319). -/
theorem answerRx_of_named {op : Nat} {ops : List Nat} {f : Device → Pkt → Req → Device} (hop : leAt b 4 1 = op) (hreq : a.reqOf p = some r) (hops : r.op ∈ ops) :
    answerRx op ops b f d = f a p r := by
  simp only [answerRx, hop, hpkt, hreq, List.contains_iff_mem, hops, ne_eq, not_true_eq_false, if_false, if_true]

/-- XNAK: the requests of the named one's stream from the number it tells go out again (R308). -/
theorem xnakRx_of_named {x : Req} (hop : leAt b 4 1 = 0x0A)
    (hreq : (a.fab.reqs.find? fun r => r.dst == p.src && r.unit == p.unit && r.reqId == p.reqId) = some x) : xnakRx b d =
      (a.fab.reqs.filter fun r => r.stream == x.stream && (r.seq.map fun q => decide ((q + 2 ^ 32 - p.seq) % 2 ^ 32 < 2 ^ 31)).getD false).foldl
        (fun d r => d.transmit r) a := by
  simp only [xnakRx, hop, hpkt, hreq, ne_eq, not_true_eq_false, if_false]
  congr 2
  funext r
  cases r.seq with
  | none => rfl
  | some q => rw [Option.map_some, Option.getD_some]

/-- CREDIT raises its stream's grant, and requests that waited for it go out (R306). -/
theorem creditRx_of_good (hop : leAt b 4 1 = 0x0C) (hk : k = streamKey p.src (leAt p.payload 0 1 % 16) (leAt p.payload 1 1 % 4)) :
    creditRx b d = (a.setOut k { a.out k with grant := if (leAt p.payload 4 4 + 2 ^ 32 - (a.out k).grant % 2 ^ 32) % 2 ^ 32 < 2 ^ 31 then
      (a.out k).grant + (leAt p.payload 4 4 + 2 ^ 32 - (a.out k).grant % 2 ^ 32) % 2 ^ 32 else (a.out k).grant }).pumpOut k := by
  subst hk
  rw [creditRx, if_neg (not_not.2 hop), hpkt]

end Good

/-- HOLD restarts the clocks and no more (R320). -/
theorem holdRx_of_op {q : Option Pkt} (hop : leAt b 4 1 = 0x0B) (hpkt : d.checkPkt b = (a, q)) : holdRx b d = a := by
  simp only [holdRx, hop, hpkt, ne_eq, not_true_eq_false, if_false]

theorem resendTimeout_of_sent (hr : d.fab.reqs[k]? = some r) (hseq : r.seq.isSome = true) (hpeer : r.dst ≠ d.devId) : resendTimeout k d = d.transmit r := by
  simp [resendTimeout, hr, hseq, hpeer]

theorem remoteRequestTimeout_of_peer (hr : d.fab.reqs[k]? = some r) (hpeer : r.dst ≠ d.devId) : remoteRequestTimeout k d = (d.endReq r .lost).askRemote := by
  simp only [remoteRequestTimeout, hr, hpeer, if_false]

end Answer

/-- Settles O49, answer by answer, with the two timers of a request. The layout of CREDIT and the place of the reporting unit in ERROR_RSP are the model's own
choice (log 37), as is when a grant rises (log 38). -/
theorem remoteAnswers : Obligations.RemoteAnswers := by
  unfold Obligations.RemoteAnswers
  refine ⟨?read, ?write, ?atomic, ?error, ?receipt, ?xnak, ?hold, ?credit, ?resend, ?timeout⟩
  case read =>
    intro s b p a r hop hpkt hreq hr
    rw [exec_of_settled (fun _ => rfl) rfl, readRspRx, answerRx_of_named hpkt hop hreq (by simp [hr])]
  case write =>
    intro s b p a r hop hpkt hreq hr
    rw [exec_of_settled (fun _ => rfl) rfl, writeAckRx, answerRx_of_named hpkt hop hreq (by simpa using hr)]
  case atomic =>
    intro s b p a r hop hpkt hreq hr
    rw [exec_of_settled (fun _ => rfl) rfl, atomicRspRx, answerRx_of_named hpkt hop hreq (by simp [hr])]
  case error =>
    intro s b p a r hop hpkt hreq hr
    rw [exec_of_settled (fun _ => rfl) rfl, errorRspRx, answerRx_of_named hpkt hop hreq (by simpa using hr)]
  case receipt =>
    intro s b p a r hop hpkt hreq hr
    rw [exec_of_wf (fun _ => rfl) rfl, receiptRx, answerRx_of_named hpkt hop hreq (by simpa using hr)]
  case xnak =>
    intro s b p a x hop hpkt hreq
    rw [exec_of_wf (fun _ => rfl) rfl, xnakRx_of_named hpkt hop hreq]
  case hold =>
    intro s b a p hop hpkt
    rw [exec_of_wf (fun _ => rfl) rfl, holdRx_of_op hop hpkt]
  case credit =>
    intro s b p a k hop hpkt hk
    rw [exec_of_wf (fun _ => rfl) rfl, creditRx_of_good hpkt hop hk]
  case resend =>
    intro s k r hr hseq hpeer
    rw [exec_of_wf (fun _ => rfl) rfl, resendTimeout_of_sent hr hseq hpeer]
  case timeout =>
    intro s k r hr hpeer
    rw [exec_of_settled (fun _ => rfl) rfl, remoteRequestTimeout_of_peer hr hpeer]

end Sys2Proof.Machine
end

section
/-! PROOFS. Collectives (chapter 11): the start of a COLL, data that arrive, and the switch handshake of a reduction. -/

namespace Sys2Proof.Machine

/-! ### COLL -/

/-- A COLL without a rollback mark that has passed its checks runs (R332). -/
theorem collEffect_of_prepared {d : Device} {c : Cmd} {z : Coll} {xs : List Send} (hmark : d.markEnd c.ten = none) (hprep : d.collPrep c.ten c.entry c.sn = .ok (z, xs)) :
    collEffect d c = d.runColl z xs := by
  simp only [collEffect, hmark, hprep]

/-- The COLL of the kind asked for, at the front of its queue and ready, runs. -/
theorem collCmd_of_ready {s d : Device} {q kind : Nat} {x : Nat × List Byte} {c : Cmd} {z : Coll} {xs : List Send} (hstart : s.starts q 0x03 x = true)
    (hfront : (d, c) = s.startFront q x) (hkind : leAt x.2 28 1 = kind) (hready : s.collReady (s.qTen q) x.2 = true) (hmark : d.markEnd c.ten = none)
    (hprep : d.collPrep c.ten x.2 c.sn = .ok (z, xs)) : collCmd kind q s = (d.runColl z xs).settle q := by
  obtain ⟨-, hentry⟩ := startFront_cmd hfront
  rw [← hentry] at hprep
  rw [collCmd, begin_of_startFront hstart hfront (by simp [hkind, hready]), collEffect_of_prepared hmark hprep]

/-- Each of the five rows is that command, for its own kind. -/
theorem exec_of_collCmd {i : Instr} {s : State} {d : Device} {q kind : Nat} {x : Nat × List Byte} {c : Cmd} {z : Coll} {xs : List Send}
    (hexec : ∀ s, exec i s = s.actIf i.wf (Device.settled (collCmd kind q))) (hwf : i.wf = true) (hstart : s.dev.starts q 0x03 x = true)
    (hfront : (d, c) = s.dev.startFront q x) (hkind : leAt x.2 28 1 = kind) (hready : s.dev.collReady (s.dev.qTen q) x.2 = true) (hmark : d.markEnd c.ten = none)
    (hprep : d.collPrep c.ten x.2 c.sn = .ok (z, xs)) : exec i s = .next (s.settles ((d.runColl z xs).settle q)) := by
  rw [exec_of_settled hexec hwf, collCmd_of_ready hstart hfront hkind hready hmark hprep]

/-- Settles O20: the five kinds are one command, which starts the COLL of its own kind. -/
theorem collectiveCommands : Obligations.CollectiveCommands := by
  unfold Obligations.CollectiveCommands
  refine ⟨?shift, ?permute, ?dispatch, ?back, ?reduce⟩
  case shift =>
    intro s q x d c z xs hq hstart hfront hkind hready hmark hprep
    exact exec_of_collCmd (fun _ => rfl) (by simp [Instr.wf, hq]) hstart hfront hkind hready hmark hprep
  case permute =>
    intro s q x d c z xs hq hstart hfront hkind hready hmark hprep
    exact exec_of_collCmd (fun _ => rfl) (by simp [Instr.wf, hq]) hstart hfront hkind hready hmark hprep
  case dispatch =>
    intro s q x d c z xs hq hstart hfront hkind hready hmark hprep
    exact exec_of_collCmd (fun _ => rfl) (by simp [Instr.wf, hq]) hstart hfront hkind hready hmark hprep
  case back =>
    intro s q x d c z xs hq hstart hfront hkind hready hmark hprep
    exact exec_of_collCmd (fun _ => rfl) (by simp [Instr.wf, hq]) hstart hfront hkind hready hmark hprep
  case reduce =>
    intro s q x d c z xs hq hstart hfront hkind hready hmark hprep
    exact exec_of_collCmd (fun _ => rfl) (by simp [Instr.wf, hq]) hstart hfront hkind hready hmark hprep

/-! ### Data that arrive -/

/-- A chunk of the number that its stream expects, whose data checksum holds, of a tenancy open to remote requests, is served (R336). -/
theorem collDataRx_of_expected {d a e : Device} {b : List Byte} {p : Pkt} (hop : leAt b 4 1 = 0x10) (hawake : d.rd PWR_STATE_STAT.state 0 ≠ 2)
    (hpkt : d.checkPkt b = (a, some p)) (hcrc : crc32c (p.payload.drop 16) = leAt p.payload 4 4) (hexpect : (a.inn (streamKey p.src p.path p.cls)).expect % 2 ^ 32 = p.seq)
    (he : e = a.setIn (streamKey p.src p.path p.cls)
      { a.inn (streamKey p.src p.path p.cls) with expect := ((a.inn (streamKey p.src p.path p.cls)).expect + 1) % 2 ^ 32 })
    (hopen : e.on FAB_TEN_CFG.remote_en (tagTen p.tag) = true) : collDataRx b d = e.serve (p.request a.time) := by
  have hdelta : (p.seq + 2 ^ 32 - p.seq) % 2 ^ 32 = 0 := by omega
  subst he
  simp only [collDataRx, requestRx, hop, hawake, hpkt, hcrc, hexpect, hdelta, TReq.ten, hopen, ne_eq, not_true_eq_false, decide_false, Bool.and_false,
    Bool.false_eq_true, if_false, if_true]
  rfl

/-! ### The switch -/

section Switch

variable {d a : Device} {b : List Byte} {p : Pkt} {c e : Coll} (hpkt : d.checkPkt b = (a, some p)) (hcoll : a.collOf p.ga = some c) (hkind : c.kind = 5)
  (he : e = { c with heard := a.time })

include hpkt hcoll hkind he

/-- A good packet of the switch for a reduction that is in its hands restarts its timeout and has its effect (R347). -/
theorem redRx_of_reduction {op : Nat} {f : Device → Coll → Pkt → Device} (hop : leAt b 4 1 = op) (hphase : c.phase ≤ 2) :
    redRx op b f d = f (a.setColl e) e p := by
  subst he
  simp only [redRx, hop, hpkt, hcoll, hkind, hphase, decide_true, Bool.and_self, ne_eq, not_true_eq_false, if_false, if_true]

theorem redGrantRx_of_opening (hop : leAt b 4 1 = 0x12) (hphase : c.phase = 0) : redGrantRx b d =
    sendContrib (e.chunks + 1) e.sn ((a.setColl e).setColl { e with phase := 1, window := clampN 1 64 (leAt p.payload 0 1) }) := by
  have hopening : e.phase = 0 := by rw [he, hphase]
  rw [redGrantRx, redRx_of_reduction hpkt hcoll hkind he hop (by omega), if_neg (not_not.2 hopening)]

theorem redDeclinedRx_of_opening (hop : leAt b 4 1 = 0x13) (hphase : c.phase = 0) : redDeclinedRx b d =
    if cdFallback e.desc then (((a.setColl e).incSat COL_STAT.declines 0 1).incSat COL_STAT.fallbacks 0 1).ringStart e.sn
    else ((a.setColl e).incSat COL_STAT.declines 0 1).endColl e stDeclined 0 := by
  have hopening : e.phase = 0 := by rw [he, hphase]
  rw [redDeclinedRx, redRx_of_reduction hpkt hcoll hkind he hop (by omega), if_neg (not_not.2 hopening)]

/-- A result that is new, whole, and agrees with the reduction lands (R345). -/
theorem redResultRx_of_new {h : List Byte} {i : Nat} {g : Device} (hop : leAt b 4 1 = 0x15) (hphase : c.phase = 1) (hh : h = p.payload.take 16) (hi : i = leAt h 0 4)
    (hnew : e.landed.contains i = false) (hlt : i < e.chunks) (hcrc : crc32c (p.payload.drop 16) = leAt h 4 4) (hagrees : e.agrees h = true)
    (hfixed : e.fixed = true → bit (leAt h 10 1) 0 = true)
    (hland : ((a.setColl e).logRec e.ten 3 p.src (cdDst e.desc + 4096 * i) p.tag p.payload).landResult e i (p.payload.drop 16) = (g, .done))
    (hlen : (p.payload.drop 16).length = e.chunkLen i) : redResultRx b d = g.closeReduce e.sn := by
  have hcontributing : e.phase = 1 := by rw [he, hphase]
  have hmode : (e.fixed && !bit (leAt h 10 1) 0) = false := by
    cases hf : e.fixed with
    | false => rfl
    | true => rw [hfixed hf]; rfl
  rw [redResultRx, redRx_of_reduction hpkt hcoll hkind he hop (by omega)]
  simp only [← hh, ← hi, hcontributing, hnew, Nat.not_le.2 hlt, hlen, hcrc, hagrees, hmode, hland, ne_eq, not_true_eq_false, decide_false, Bool.not_true, Bool.or_self,
    Bool.false_eq_true, if_false]

theorem redDoneRx_of_verdict (hop : leAt b 4 1 = 0x16) (hphase : c.phase = 2) :
    redDoneRx b d = (a.setColl e).verdict e (leAt p.payload 0 1 != 0) := by
  have hclosing : e.phase = 2 := by rw [he, hphase]
  rw [redDoneRx, redRx_of_reduction hpkt hcoll hkind he hop (by omega), if_pos hclosing]

theorem redWaitRx_of_reduction (hwait : leAt b 48 1 = 0) (hop : leAt b 4 1 = 0x17) (hphase : c.phase ≤ 2) : redWaitRx b d = a.setColl e := by
  rw [redWaitRx, if_neg (not_not.2 hwait), redRx_of_reduction hpkt hcoll hkind he hop hphase]

theorem redAbortRx_of_reduction (habort : leAt b 48 1 = 1) (hop : leAt b 4 1 = 0x17) (hphase : c.phase ≤ 2) :
    redAbortRx b d = (a.setColl e).endColl e stTimeout (cdGroup e.desc) := by
  rw [redAbortRx, if_neg (not_not.2 habort), redRx_of_reduction hpkt hcoll hkind he hop hphase]

end Switch

section Timeouts

variable {d : Device} {k : Nat} {c : Coll} (hcoll : d.colls[k]? = some c) (hkind : c.kind = 5)

include hcoll hkind

theorem redOpenTimeout_of_opening (hphase : c.phase = 0) : redOpenTimeout k d = d.failColl c stTimeout (cdGroup c.desc) := by
  simp [redOpenTimeout, hcoll, hkind, hphase]

theorem redWaitTimeout_of_running (hphase : c.phase = 1 ∨ c.phase = 2) : redWaitTimeout k d = d.failColl c stTimeout (cdGroup c.desc) := by
  simp [redWaitTimeout, hcoll, hkind, hphase]

end Timeouts

/-- Settles O51, packet by packet, with the two timeouts of a reduction. -/
theorem collectiveAnswers : Obligations.CollectiveAnswers := by
  unfold Obligations.CollectiveAnswers
  refine ⟨?data, ?grant, ?declined, ?result, ?done, ?wait, ?abort, ?openTimeout, ?waitTimeout⟩
  case data =>
    intro s b p a e hop hawake hpkt hcrc _ hexpect he hopen
    rw [exec_of_settled (fun _ => rfl) rfl, collDataRx_of_expected hop hawake hpkt hcrc hexpect he hopen]
    rfl
  case grant =>
    intro s b p a c e hop hpkt hcoll hkind hphase he
    rw [exec_of_settled (fun _ => rfl) rfl, redGrantRx_of_opening hpkt hcoll hkind he hop hphase]
  case declined =>
    intro s b p a c e hop hpkt hcoll hkind hphase he
    rw [exec_of_settled (fun _ => rfl) rfl, redDeclinedRx_of_opening hpkt hcoll hkind he hop hphase]
  case result =>
    intro s b p a c e h i g hop hpkt hcoll hkind hphase he hh hi hnew hlt hcrc hagrees hfixed hland hlen
    rw [exec_of_settled (fun _ => rfl) rfl, redResultRx_of_new hpkt hcoll hkind he hop hphase hh hi hnew hlt hcrc hagrees hfixed hland hlen]
  case done =>
    intro s b p a c e hop hpkt hcoll hkind hphase he
    rw [exec_of_settled (fun _ => rfl) rfl, redDoneRx_of_verdict hpkt hcoll hkind he hop hphase]
  case wait =>
    intro s b p a c e hwait hop hpkt hcoll hkind hphase he
    rw [exec_of_wf (fun _ => rfl) rfl, redWaitRx_of_reduction hpkt hcoll hkind he hwait hop hphase]
  case abort =>
    intro s b p a c e habort hop hpkt hcoll hkind hphase he
    rw [exec_of_settled (fun _ => rfl) rfl, redAbortRx_of_reduction hpkt hcoll hkind he habort hop hphase]
  case openTimeout =>
    intro s k c hcoll hkind hphase
    rw [exec_of_settled (fun _ => rfl) rfl, redOpenTimeout_of_opening hcoll hkind hphase]
  case waitTimeout =>
    intro s k c hcoll hkind hphase
    rw [exec_of_settled (fun _ => rfl) rfl, redWaitTimeout_of_running hcoll hkind hphase]

end Sys2Proof.Machine
end

section
/-! PROOFS. Device reliability (chapter 12): correctable errors, the fault log, field repair, retirement and steeping. -/

namespace Sys2Proof.Machine

/-! ### Correctable errors -/

theorem find_spare_eq_none {bs : List BringIn} {u : Nat} (h : ∀ b ∈ bs, unitOf (b.spare / 52) (b.spare % 52) ≠ coreOfUnit u) :
    (bs.find? fun b => unitOf (b.spare / 52) (b.spare % 52) == coreOfUnit u) = none :=
  List.find?_eq_none.2 fun b hb => by simpa using h b hb

section Correctable

variable {d : Device} {u kind row place : Nat} {r : Device × Bool} (hr : r = d.correctable u kind row)

include hr

/-- An error of a spare under its bring-in retires the spare (R373). -/
theorem correctableError_of_spare {b : BringIn} (hspare : (r.1.ras.cores.find? fun b => unitOf (b.spare / 52) (b.spare % 52) == coreOfUnit u) = some b) :
    correctableError u kind row place d = r.1.spareFails b 0xFF := by
  subst hr
  simp only [correctableError, hspare]

section NoSpare

variable (hnone : ∀ b ∈ r.1.ras.cores, unitOf (b.spare / 52) (b.spare % 52) ≠ coreOfUnit u)

include hnone

/-- An error of a unit that is not pending is counted, and no more (R366). -/
theorem correctableError_of_counted (hpending : r.2 = false) : correctableError u kind row place d = r.1 := by
  have hfind := find_spare_eq_none hnone
  subst hr
  simp only [correctableError, hfind, hpending, Bool.not_false, if_true]

variable (hpending : r.2 = true)

include hpending

/-- Of a pending unit, in a System page or in SRAM of the control complex, it resets the device (R367, R369). -/
theorem correctableError_of_reset (hplace : place = 1 ∨ place = 2) : correctableError u kind row place d = deviceReset u kind (place == 1) r.1 := by
  have hfind := find_spare_eq_none hnone
  have hresets : (decide (place = 1) || decide (place = 2)) = true := by simpa using hplace
  subst hr
  simp only [correctableError, hfind, hpending, hresets, Bool.not_true, Bool.false_eq_true, if_false, if_true]

/-- In the operand read or the fetch of a leg it stops that leg, and its RUN fails (R369; log 84). -/
theorem correctableError_of_leg {n : Nat} {l : Leg} (hplace : place = 0) (hcore : r.1.logicalOf (coreOfUnit u) = some n) (hleg : (r.1.core n).leg = some l)
    (hint : l.internal = 0) : correctableError u kind row place d =
      (((r.1.escalated u kind l.rec_).closeLeg n l (l.count + 1) csIdle).failRun l.sn stEcc (eccDetail r.1.nextRec u l.idx)).legOver l := by
  have hfind := find_spare_eq_none hnone
  subst hr hplace
  simp [correctableError, hfind, hpending, hcore, hleg, hint]

end NoSpare

end Correctable

/-! ### The fault log -/

/-- A record whose handling ends enters the ring at its index; it overwrites none that the host has yet to read (R361). -/
theorem faultRecordLogged_of_room {d a : Device} {k : Nat} {r : FaultRec} (hfree : d.ras.cpBusy = none) (hrec : d.ras.inflight[k]? = some r)
    (hroom : (r.index + 2 ^ 32 - d.rd RAS_LOG_STAT.consumed 0) % 2 ^ 32 < 4096)
    (ha : a = { d with ras := { d.ras with inflight := d.ras.inflight.eraseIdx k, ring := smIns d.ras.ring (r.index % 4096) r } }) :
    faultRecordLogged k d = a.wr RAS_LOG_CNT.inflight 0 (d.ras.inflight.eraseIdx k).length := by
  subst ha
  simp only [faultRecordLogged, hfree, hrec, Nat.not_le.2 hroom, Option.isSome_none, decide_false, Bool.false_eq_true, if_false]

/-! ### Field repair -/

theorem repairProgram_of_idle {d : Device} (hidle : d.on RAS_REPAIR_STAT.busy 0 = false) (hfree : d.rd RAS_REPAIR_STAT.free 0 ≠ 0) :
    repairProgram 0 d = d.startRepair (d.rd RAS_REPAIR_OP.entry 0) := by
  simp [repairProgram, hidle, hfree]

section Programmed

variable {d a b : Device} {e : Nat} (hbusy : d.ras.repairing = some e) (hfree : d.rd RAS_REPAIR_STAT.free 0 ≠ 0)
  (hb : b = (a.wr RAS_REPAIR_STAT.busy 0 0).wr RAS_REPAIR_STAT.free 0 (a.rd RAS_REPAIR_STAT.free 0 - 1))

include hbusy hfree hb

/-- An entry that reads back has its record, and is applied where its check holds (R371). -/
theorem repairProgramDone_of_good {c : Device} (ha : a = { d with ras := { d.ras with repairing := none, array := d.ras.array ++ [e] } })
    (hc : c = (b.wr RAS_REPAIR_STAT.ok 0 1).log { unit := reUnit e, sev := 0, op := 0x0F, detail := e })
    (hnext : (if crc12 e = e % 4096 then c.applyRepair e else c).ras.pendingRepair = []) :
    repairProgramDone true d = if crc12 e = e % 4096 then c.applyRepair e else c := by
  have hok : (d.rd RAS_REPAIR_STAT.free 0 != 0) = true := by simpa using hfree
  subst ha hb hc
  simp only [repairProgramDone, hbusy, hok, hfree, Bool.true_and, Bool.and_self, if_true, if_false, beq_iff_eq]
  split
  · rfl
  · rename_i h
    simp [hnext] at h

/-- An entry that does not read back leaves its position bad (R371). -/
theorem repairProgramDone_of_bad (hnext : d.ras.pendingRepair = []) (ha : a = { d with ras := { d.ras with repairing := none, array := d.ras.array ++ [0] } }) :
    repairProgramDone false d = b.wr RAS_REPAIR_STAT.fail 0 1 := by
  subst ha hb
  simp [repairProgramDone, hbusy, hfree, hnext]

end Programmed

theorem dramRowRepairDone_of_moving {d : Device} {u : Nat} (hmoving : u ∈ d.ras.rowMove) : dramRowRepairDone u d =
    { d with ras := { d.ras with rowMove := d.ras.rowMove.filter (fun x => x != u), memEvents := d.ras.memEvents.filter (fun x => x != u) } } := by
  simp [dramRowRepairDone, hmoving]

/-! ### Steeping -/

/-- A unit that has been free of events for the whole of its steeping leaves it (R384). -/
theorem steepingExpiry_of_elapsed {d : Device} {u : Nat} {e : Nat × Nat} (hsteeps : (d.ras.steeping.find? fun e => e.1 == u) = some e)
    (helapsed : e.2 + d.rd RAS_POLICY.steep_hours 0 * 3600 * secCycles ≤ d.cycle) : steepingExpiry u d = d.unsteep u := by
  simp only [steepingExpiry, hsteeps, helapsed, if_true]

/-- Settles O40, event by event. That a correctable error of a pending core unit stops its leg without a retirement of its own is the model's own deduction
(log 84), as is the cause 0xFF with which a spare is retired (log 69). -/
theorem errorsAndRepair : Obligations.ErrorsAndRepair := by
  unfold Obligations.ErrorsAndRepair
  refine ⟨?leak, ?counted, ?resets, ?stops, ?spare, ?logged, ?reset, ?program, ?good, ?bad, ?moved, ?retire, ?steep, ?unsteep, ?expiry⟩
  case leak =>
    intro s
    rw [exec_of_wf (fun _ => rfl) rfl, bucketLeakTick]
  case counted =>
    intro s u kind row place r hu hkind hplace hr hnone hpending
    rw [exec_of_settled (fun _ => rfl) (by simp [Instr.wf, hu, hkind, hplace]), correctableError_of_counted hr hnone hpending]
  case resets =>
    intro s u kind row place r hu hkind hplace hr hnone hpending hwhere
    rw [exec_of_settled (fun _ => rfl) (by simp [Instr.wf, hu, hkind, hplace]), correctableError_of_reset hr hnone hpending hwhere]
  case stops =>
    intro s u kind row place n l r hu hkind hplace hr hnone hpending hwhere hcore hleg hint
    rw [exec_of_settled (fun _ => rfl) (by simp [Instr.wf, hu, hkind, hplace]), correctableError_of_leg hr hnone hpending hwhere hcore hleg hint]
  case spare =>
    intro s u kind row place b r hu hkind hplace hr hspare
    rw [exec_of_settled (fun _ => rfl) (by simp [Instr.wf, hu, hkind, hplace]), correctableError_of_spare hr hspare]
  case logged =>
    intro s k r a hfree hrec hroom ha
    rw [exec_of_wf (fun _ => rfl) rfl, faultRecordLogged_of_room hfree hrec hroom ha]
  case reset =>
    rintro s unit kind page f hunit hkind rfl
    rw [exec_of_wf (fun _ => rfl) (by simp [Instr.wf, hunit, hkind]), deviceReset]
  case program =>
    intro s hr hidle hfree
    rw [exec_of_via (fun _ => rfl) rfl hr, repairProgram_of_idle hidle hfree]
  case good =>
    intro s e a b c hbusy hfree _ ha hb hc hnext
    rw [exec_of_settled (fun _ => rfl) rfl, Device.svcWatched, repairProgramDone_of_good hbusy hfree hb ha hc hnext]
  case bad =>
    intro s e a b hbusy hfree hnext ha hb
    rw [exec_of_settled (fun _ => rfl) rfl, Device.svcWatched, repairProgramDone_of_bad hbusy hfree hb hnext ha]
  case moved =>
    intro s u hu hmoving
    rw [exec_of_settled (fun _ => rfl) (by simp [Instr.wf, hu]), dramRowRepairDone_of_moving hmoving]
  case retire =>
    intro s u hu hr
    rw [exec_of_via_settled (fun _ => rfl) (by simp [Instr.wf, hu]) hr, Device.svcWatched, retireUnit, if_neg (not_not.2 rfl)]
  case steep =>
    intro s u hu hr
    rw [exec_of_via (fun _ => rfl) (by simp [Instr.wf, hu]) hr, startSteeping, if_neg (not_not.2 rfl)]
  case unsteep =>
    intro s u hu hr
    rw [exec_of_via (fun _ => rfl) (by simp [Instr.wf, hu]) hr, endSteeping, if_neg (not_not.2 rfl)]
  case expiry =>
    intro s u e hu hsteeps helapsed
    rw [exec_of_wf (fun _ => rfl) (by simp [Instr.wf, hu]), steepingExpiry_of_elapsed hsteeps helapsed]

end Sys2Proof.Machine
end

section
/-! PROOFS. Membership (chapter 13): joining, heartbeats and suspicion, epochs, managers, isolation. -/

namespace Sys2Proof.Machine

/-! ### Joining and leaving -/

section Enable

variable {d a : Device} {value : Nat}
  (ha : a = ((d.wr FTP_CFG.isolate_ms 0 (bits value 31 24)).wr FTP_CFG.mgr_capable 0 (bits value 1 1)).wr FTP_CFG.enable 0 (bits value 0 0))

include ha

/-- A write of FTP_CFG leaves the device's own state of membership. -/
theorem isMemberNow_ftpCfg : a.isMemberNow = d.isMemberNow := by
  subst ha
  simp only [Device.isMemberNow]
  repeat rw [rd_wr_reg _ _ _ _ (by decide) (by decide) (by decide)]

variable (hawake : d.fnAwake 0 = true)

include hawake

/-- A write that leaves enable as it is writes the fields and no more. -/
theorem musterEnable_of_same (hsame : bit value 0 = d.on FTP_CFG.enable 0) : musterEnable 0 value d = a := by
  subst ha
  simp only [musterEnable, hawake, hsame, Bool.not_true, Bool.false_eq_true, ne_eq, not_true_eq_false, if_false, if_true]

/-- Written 1, enable starts JOIN anew (R391). -/
theorem musterEnable_of_start (hset : bit value 0 = true) (hoff : d.on FTP_CFG.enable 0 = false) (hout : d.isMemberNow = false) :
    musterEnable 0 value d = a.musterOff.tryJoin := by
  rw [← isMemberNow_ftpCfg ha] at hout
  subst ha
  simp only [musterEnable, hawake, hset, hoff, hout, Bool.not_true, Bool.false_eq_true, Bool.true_eq_false, ne_eq, not_true_eq_false, if_false]

/-- Written 0 on a device that is no member, muster is off at once (R391). -/
theorem musterEnable_of_stop (hclear : bit value 0 = false) (hon : d.on FTP_CFG.enable 0 = true) (hout : d.isMemberNow = false) :
    musterEnable 0 value d = a.musterOff := by
  rw [← isMemberNow_ftpCfg ha] at hout
  subst ha
  simp only [musterEnable, hawake, hclear, hon, hout, Bool.not_true, Bool.false_eq_true, ne_eq, not_true_eq_false, if_false, if_true]

/-- Written 0 on a member, it sends LEAVE (R391). -/
theorem musterEnable_of_leave (hclear : bit value 0 = false) (hon : d.on FTP_CFG.enable 0 = true) (hmember : d.isMemberNow = true) :
    musterEnable 0 value d = a.sendLeave := by
  rw [← isMemberNow_ftpCfg ha] at hmember
  subst ha
  simp only [musterEnable, hawake, hclear, hon, hmember, Bool.not_true, Bool.false_eq_true, ne_eq, not_true_eq_false, if_false, if_true]

end Enable

section Join

variable {d : Device} {dev : Nat} {capable : Bool}

/-- The system manager gathers an ID that is neither a member's nor gathered already (R394). -/
theorem joinRx_of_new (hsys : d.isSysMgr = true) (hnew : d.isMember dev = false) (hwaits : ∀ j ∈ d.ftp.join, j.1 ≠ dev) : joinRx dev capable d =
    { d with ftp := { d.ftp with join := d.ftp.join ++ [(dev, capable)], gatherAt := some (d.ftp.gatherAt.getD d.cycle) } } := by
  have hany : (d.ftp.join.any fun j => j.1 == dev) = false := by simpa using hwaits
  simp only [joinRx, hsys, hnew, hany, Bool.and_false, Bool.false_eq_true, if_false, if_true]

/-- Another span manager passes it on (R391). -/
theorem joinRx_of_relay (hsys : d.isSysMgr = false) (hspan : d.isSpanMgr = true) (hnew : d.isMember dev = false) :
    joinRx dev capable d = d.muster (d.rd FTP_MGR.sys_manager 0) muJoin { dev := dev, capable := if capable then [dev] else [] } := by
  simp only [joinRx, hsys, hspan, hnew, Bool.and_false, Bool.false_eq_true, if_false, if_true]

/-- An ID that a member holds is refused with the present epoch (log 40). -/
theorem joinRx_of_member (hmgr : d.isSysMgr = true ∨ d.isSpanMgr = true) (hmember : d.isMember dev = true) : joinRx dev capable d =
    d.muster dev muEpoch { dev := d.devId, epoch := d.epoch, members := d.fab.members, capable := d.ftp.capable } := by
  simp only [joinRx, hmember, Bool.and_true, (Bool.or_eq_true _ _).mpr hmgr, if_true]

end Join

/-! ### Heartbeats and suspicion -/

theorem heartbeatTick_of_member {d a : Device} (hnow : d.isMemberNow = true) (ha : a = d.sendBeats.countMisses) :
    heartbeatTick d = if a.isSpanMgr then a.ftp.suspected.foldl (fun d m => d.probe m) a else a := by
  subst ha
  simp only [heartbeatTick, hnow, Bool.not_true, Bool.false_eq_true, if_false]

section Packets

variable {d : Device} {src : Nat} (hmember : d.isMember src = true)

include hmember

theorem heartbeatRx_of_member (hnow : d.isMemberNow = true) : heartbeatRx src d = { d with ftp := { d.ftp with
    heard := src :: d.ftp.heard.filter (fun x => x != src), misses := smSet d.ftp.misses src 0 0, hearts := smIns d.ftp.hearts src d.cycle } } := by
  simp only [heartbeatRx, hnow, hmember, Bool.not_true, Bool.or_self, Bool.false_eq_true, if_false]

theorem beaconRx_of_member (hnow : d.isMemberNow = true) : beaconRx src d = { d with ftp := { d.ftp with beacons := smIns d.ftp.beacons src d.cycle } } := by
  simp only [beaconRx, hnow, hmember, Bool.not_true, Bool.or_self, Bool.false_eq_true, if_false]

theorem probeRx_of_member (hstate : d.rd FTP_STAT.state 0 ≠ 0) : probeRx src d = d.muster src muProbeAck { dev := d.devId } := by
  simp only [probeRx, hstate, hmember, decide_false, Bool.not_true, Bool.or_self, Bool.false_eq_true, if_false]

theorem removeRx_of_sysMgr {dev : Nat} (hsys : d.isSysMgr = true) : removeRx src dev d = d.gatherRemove dev := by
  simp only [removeRx, hmember, hsys, Bool.not_true, Bool.false_eq_true, if_false, if_true]

theorem leaveRx_of_manager (hmgr : d.isSpanMgr = true ∨ d.isSysMgr = true) : leaveRx src d = d.confirmLost src := by
  simp only [leaveRx, hmember, (Bool.or_eq_true _ _).mpr hmgr, Bool.and_self, if_true]

theorem isolateRx_of_member (hnow : d.isMemberNow = true) : isolateRx src d = d.isolate 3 := by
  simp only [isolateRx, hnow, hmember, Bool.and_self, if_true]

end Packets

/-- Settles O52, event by event. Where muster packets go and what they carry beyond Table 13-1, and the answer to a JOIN under a member's ID, are the model's own
choice (log 40). -/
theorem membershipCommands : Obligations.MembershipCommands := by
  unfold Obligations.MembershipCommands
  refine ⟨?start, ?same, ?stop, ?leaves, ?join, ?beat, ?heartbeat, ?beacon, ?probe, ?probeAck, ?probeTimeout, ?remove, ?gather, ?relay, ?refuse, ?leave⟩
  case start =>
    intro s value a hv hr hset ha hoff hout
    rw [exec_of_via_settled (fun _ => rfl) (by simpa [Instr.wf] using hv) hr, musterEnable_of_start ha (fnAwake_of_reaches hr) hset hoff hout]
  case same =>
    intro s value a hv hr hsame ha
    rw [exec_of_via_settled (fun _ => rfl) (by simpa [Instr.wf] using hv) hr, musterEnable_of_same ha (fnAwake_of_reaches hr) hsame]
  case stop =>
    intro s value a hv hr hclear ha hon hout
    rw [exec_of_via_settled (fun _ => rfl) (by simpa [Instr.wf] using hv) hr, musterEnable_of_stop ha (fnAwake_of_reaches hr) hclear hon hout]
  case leaves =>
    intro s value a hv hr hclear ha hon hmember
    rw [exec_of_via_settled (fun _ => rfl) (by simpa [Instr.wf] using hv) hr, musterEnable_of_leave ha (fnAwake_of_reaches hr) hclear hon hmember]
  case join =>
    intro s hjoins
    rw [exec_of_wf (fun _ => rfl) rfl, joinTick, if_pos hjoins]
  case beat =>
    intro s a hnow ha
    rw [exec_of_wf (fun _ => rfl) rfl, heartbeatTick_of_member hnow ha]
  case heartbeat =>
    intro s src hsrc hmember hnow
    rw [exec_of_wf (fun _ => rfl) (by simp [Instr.wf, hsrc]), heartbeatRx_of_member hmember hnow]
  case beacon =>
    intro s src hsrc hmember hnow
    rw [exec_of_wf (fun _ => rfl) (by simp [Instr.wf, hsrc]), beaconRx_of_member hmember hnow]
  case probe =>
    intro s src hsrc hmember hstate
    rw [exec_of_wf (fun _ => rfl) (by simp [Instr.wf, hsrc]), probeRx_of_member hmember hstate]
  case probeAck =>
    intro s src hsrc hsuspected
    rw [exec_of_wf (fun _ => rfl) (by simp [Instr.wf, hsrc]), probeAckRx, if_pos hsuspected]
  case probeTimeout =>
    intro s dev hdev hspan hsuspected
    rw [exec_of_wf (fun _ => rfl) (by simp [Instr.wf, hdev]), probeTimeout, if_pos (by rw [hspan, hsuspected]; rfl)]
  case remove =>
    intro s src dev hsrc hdev hmember hsys
    rw [exec_of_wf (fun _ => rfl) (by simp [Instr.wf, hsrc, hdev]), removeRx_of_sysMgr hmember hsys]
  case gather =>
    intro s dev capable hdev hsys hnew hwaits
    rw [exec_of_wf (fun _ => rfl) (by simp [Instr.wf, hdev]), joinRx_of_new hsys hnew hwaits]
  case relay =>
    intro s dev capable hdev hsys hspan hnew
    rw [exec_of_wf (fun _ => rfl) (by simp [Instr.wf, hdev]), joinRx_of_relay hsys hspan hnew]
  case refuse =>
    intro s dev capable hdev hmgr hmember
    rw [exec_of_wf (fun _ => rfl) (by simp [Instr.wf, hdev]), joinRx_of_member hmgr hmember]
  case leave =>
    intro s src hsrc hmember hmgr
    rw [exec_of_wf (fun _ => rfl) (by simp [Instr.wf, hsrc]), leaveRx_of_manager hmember hmgr]

/-! ### Epochs -/

/-- Muster packets that go out leave the device its ID. -/
theorem devId_muster (d : Device) (x op : Nat) (m : Muster) : (d.muster x op m).devId = d.devId := by
  rw [Device.muster]
  split <;> rfl

theorem devId_muster_foldl (op : Nat) (m : Muster) (xs : List Nat) (d : Device) : (xs.foldl (fun d x => d.muster x op m) d).devId = d.devId := by
  induction xs generalizing d with
  | nil => rfl
  | cons x xs ih => rw [List.foldl_cons, ih, devId_muster]

/-- The system manager with something gathered, no epoch issued for a millisecond, and a majority behind it, issues one epoch for all of it (R394, R399). -/
theorem epochIssue_of_gathered {d a b : Device} {lossy joins members cap : List Nat} {m : Muster} (hsys : d.isSysMgr = true)
    (hgathered : d.ftp.gatherAt.isSome = true) (hlast : ∀ t, d.ftp.lastIssue = some t → t + 1800000 ≤ d.cycle) (hmajority : d.majority = true)
    (hjoins : joins = d.ftp.join.map fun j => j.1) (hmembers : members = sortNat ((d.fab.members.filter fun x => !d.ftp.remove.contains x) ++ joins))
    (hcap : cap = (d.ftp.capable ++ (d.ftp.join.filter fun j => j.2).map fun j => j.1).filter members.contains)
    (hm : m = { dev := d.devId, epoch := (d.epoch + 1) % 2 ^ 32, members := members, capable := cap, joins := joins, lossy := lossy })
    (ha : a = { d with ftp := { d.ftp with remove := [], join := [], gatherAt := none, lastIssue := some d.cycle, acks := [] } })
    (hb : b = (((managers members cap ++ managers d.fab.members d.ftp.capable).eraseDups.filter fun x => spanOf x != spanOf d.devId) ++ a.spanTargets m).foldl
      (fun d x => d.muster x muEpoch m) a) : epochIssue lossy d = b.applyEpoch d.devId m := by
  have hdev : b.devId = d.devId := by
    rw [hb, devId_muster_foldl, ha]
    rfl
  have hwaiting : d.ftp.gatherAt.isNone = false := by simpa using hgathered
  rw [← hdev]
  subst hjoins hmembers hcap hm ha hb
  rw [epochIssue, if_neg]
  · rfl
  · cases hl : d.ftp.lastIssue with
    | none => simp [hsys, hwaiting, hmajority]
    | some t => simp [hsys, hwaiting, hmajority, hlast t hl]

/-- A member that hears of a newer epoch, and a joining device that is admitted, applies it; a span manager, of the present epoch or the new one, passes it on
(R394, R397). -/
theorem epochRx_of_newer {d a : Device} {src : Nat} {m : Muster}
    (hnew : (d.rd FTP_STAT.state 0 = 1 ∧ m.joins.contains d.devId = true) ∨ (d.rd FTP_STAT.state 0 = 2 ∧ d.isMember src = true ∧ d.newer m.epoch = true))
    (ha : a = if d.isSpanMgr || (rankOrder m.members m.capable (spanOf d.devId)).head? == some d.devId then
      (d.spanTargets m).foldl (fun d x => if x = src then d else d.muster x muEpoch m) d else d) : epochRx src m d = a.applyEpoch src m := by
  subst ha
  obtain ⟨hstate, hadmitted⟩ | ⟨hstate, hmember, hnewer⟩ := hnew
  · have hrefused : (decide (d.rd FTP_STAT.state 0 = 1) && !m.joins.contains d.devId) = false := by rw [hadmitted, Bool.not_true, Bool.and_false]
    rw [epochRx, if_neg (by rw [hrefused]; exact Bool.false_ne_true), if_neg (by simp [hstate])]
  · have hrefused : (decide (d.rd FTP_STAT.state 0 = 1) && !m.joins.contains d.devId) = false := by rw [hstate]; rfl
    rw [epochRx, if_neg (by rw [hrefused]; exact Bool.false_ne_true), if_neg (by simp [hstate, hmember, hnewer])]

/-! ### Managers and isolation -/

/-- The k-th in rank, of whose predecessors none has been heard for 3k ms, takes their role over and confirms them lost (R395). -/
theorem managerTakeover_of_silence {d e a : Device} {sys alone : Bool} {order : List Nat} {k : Nat} (hnow : d.isMemberNow = true)
    (horder : order = if sys then managers d.fab.members d.ftp.capable else rankOrder d.fab.members d.ftp.capable (spanOf d.devId))
    (hrank : findIdxFrom (fun x => x == d.devId) order 0 = some k) (hk : 0 < k) (hrole : (if sys then d.isSysMgr else d.isSpanMgr) = false)
    (hsilent : (order.take k).any (fun x => d.heardIn d.ftp.beacons x (3 * k)) = false)
    (halone : alone = (!sys && (managers d.fab.members d.ftp.capable).all fun x => spanOf x == spanOf d.devId))
    (he : e = if sys then d else d.wr FTP_MGR.span_manager 0 d.devId)
    (ha : a = (if sys || alone then (e.wr FTP_MGR.sys_manager 0 e.devId).wr FTP_STAT.sys_manager 0 1 else e).incSat FTP_CNT.takeovers 0 1) :
    managerTakeover sys d = (order.take k).foldl (fun d x => d.confirmLost x) a := by
  subst halone he ha
  simp only [managerTakeover, hnow, ← horder, hrank, hrole, hsilent, Nat.ne_of_gt hk, decide_false, Bool.not_true, Bool.or_self, Bool.false_eq_true, if_false]

theorem isolateTimeout_of_silence {d : Device} (hnow : d.isMemberNow = true) (hsilent : d.connected = false) :
    isolateTimeout d = (if d.isSpanMgr then d.spanMembers.foldl (fun d m => d.muster m muIsolate {}) d else d).isolate 3 := by
  simp only [isolateTimeout, hnow, hsilent, Bool.not_true, Bool.or_self, Bool.false_eq_true, if_false]

/-! ### The order of epochs -/

theorem epoch_lt (d : Device) : d.epoch < 2 ^ 32 := rd_lt d FTP_STAT.epoch 0

/-- An epoch number is newer where it follows the present one by less than half of the numbers (R396). -/
theorem newer_iff (d : Device) (e : Nat) :
    d.newer e = true ↔ 1 ≤ (e + 2 ^ 32 - d.epoch) % 2 ^ 32 ∧ (e + 2 ^ 32 - d.epoch) % 2 ^ 32 < 2 ^ 31 := by
  simp only [Device.newer, Bool.and_eq_true, decide_eq_true_eq]

theorem newer_succ (d : Device) : d.newer ((d.epoch + 1) % 2 ^ 32) = true := by
  have := epoch_lt d
  rw [newer_iff]
  omega

theorem newer_self (d : Device) : d.newer d.epoch = false := by
  rw [← Bool.not_eq_true, newer_iff]
  omega

theorem newer_asymm {d e : Device} (h : d.newer e.epoch = true) : e.newer d.epoch = false := by
  have hd := epoch_lt d
  have he := epoch_lt e
  rw [newer_iff] at h
  rw [← Bool.not_eq_true, newer_iff]
  omega

/-- Settles O53, event by event, with the order of epoch numbers. What a packet of an epoch carries, and what of the managers chapter 13 leaves open, are the
model's own choice (log 40). -/
theorem epochCommands : Obligations.EpochCommands := by
  unfold Obligations.EpochCommands
  refine ⟨?issue, ?arrives, ?ack, ?takeover, ?isolate, ?timeout, ?order, fun _ _ => newer_asymm⟩
  case issue =>
    intro s lossy joins members cap m a b hsys hgathered hlast hmajority hjoins hmembers hcap hm ha hb
    rw [exec_of_settled (fun _ => rfl) rfl, epochIssue_of_gathered hsys hgathered hlast hmajority hjoins hmembers hcap hm ha hb]
  case arrives =>
    rintro s src m a _ hsrc hnew ha rfl
    rw [exec_of_settled (fun _ => rfl) (by simp [Instr.wf, hsrc]), epochArrives, epochRx_of_newer hnew ha]
  case ack =>
    intro s src hsrc hmember
    rw [exec_of_wf (fun _ => rfl) (by simp [Instr.wf, hsrc]), epochAckRx, if_pos hmember]
  case takeover =>
    intro s sys order k alone e a hnow horder hrank hk hrole hsilent halone he ha
    rw [exec_of_wf (fun _ => rfl) rfl, managerTakeover_of_silence hnow horder hrank hk hrole hsilent halone he ha]
  case isolate =>
    intro s src hsrc hmember hnow
    rw [exec_of_settled (fun _ => rfl) (by simp [Instr.wf, hsrc]), isolateRx_of_member hmember hnow]
  case timeout =>
    intro s hnow hsilent
    rw [exec_of_settled (fun _ => rfl) rfl, isolateTimeout_of_silence hnow hsilent]
  case order => exact fun d => ⟨newer_succ d, newer_self d⟩

end Sys2Proof.Machine
end

section
/-! PROOFS. Shadows, mirrored input logs and the restore engine (chapter 13). -/

namespace Sys2Proof.Machine

/-! ### The protected device -/

section Generation

variable {d : Device} {t u : Nat} {g : ShadowGen} (hgen : d.ftp.gens.find? (fun x => x.1 == t) = some (u, g))

include hgen

/-- The next page of a generation is read, sent and released; the metadata follow the last (R403). -/
theorem shadowPageRead_of_page {a : Device} {idx pg : Nat} {rest : List (Nat × Nat)} {data : List Byte} (hleft : g.left = (idx, pg) :: rest)
    (hdata : data = d.peek (if encrypted (pg / 2 ^ 20) then d.tenKey t else devKey) (pg / 2 ^ 20) (pg % 2 ^ 20 * pageSize) pageSize)
    (ha : a = ({ d with ftp := { d.ftp with gens := smIns d.ftp.gens t ({ g with left := rest } : ShadowGen) },
                        sent := .shadow d.partner t g.step (.page idx data) :: d.sent } : Device).unshadow [pg]) :
    shadowPageRead t d = if rest.isEmpty then { a with sent := .shadow a.partner t g.step (.info g.count g.info) :: a.sent } else a := by
  simp only [shadowPageRead, hgen, hleft, ← hdata, ← ha]

/-- A generation without pages is its metadata alone (R403). -/
theorem shadowPageRead_of_empty (hleft : g.left = []) (hcount : g.count = 0) :
    shadowPageRead t d = { d with sent := .shadow d.partner t g.step (.info 0 g.info) :: d.sent } := by
  simp only [shadowPageRead, hgen, hleft, hcount, if_true]

variable {src : Nat} (hsrc : src = d.partner)

include hsrc

/-- A generation that the partner holds whole protects the tenancy (R403). -/
theorem shadowAckRx_of_complete {a b c e : Device} {full : List Nat} (hleft : g.left = []) (hfull : full = t :: d.ftp.full.filter fun x => x != t)
    (ha : a = { d with ftp := { d.ftp with gens := smDel d.ftp.gens t, full := full } })
    (hb : b = (a.wr FTP_TEN_STAT.gen_step t g.step).wr FTP_TEN_STAT.unprotected t 0)
    (hc : c = if (List.range 64).all fun x => !b.isProtected x || full.contains x then b.wr FTP_PARTNER.state 0 2 else b)
    (he : e = c.setInLog t { c.inLog t with gen := some g.step }) : shadowAckRx src t g.step true d =
      ((if e.rd FTP_TEN_STAT.log_state t = 2 then e.wr FTP_TEN_STAT.log_state t 0 else e).drainLogs t).commitsAcked t := by
  subst hfull ha hb hc he
  simp only [shadowAckRx, hgen, hsrc, hleft, List.isEmpty_nil, ne_eq, not_true_eq_false, decide_false, Bool.not_true, Bool.or_self, Bool.false_eq_true, if_false]

theorem shadowAckRx_of_failure : shadowAckRx src t g.step false d = d.shadowFailed t g := by
  simp only [shadowAckRx, hgen, hsrc, ne_eq, not_true_eq_false, decide_false, Bool.not_false, Bool.or_self, Bool.false_eq_true, if_false, if_true]

end Generation

/-- A hold of the input log that lasted discards the records and leaves the tenancy unprotected (R407). -/
theorem logHoldTimeout_of_held {d a b : Device} {t : Nat} (hheld : d.logHolds t = true) (ha : a = (d.setInLog t { d.inLog t with kept := [] }).drainLogs t)
    (hb : b = (a.wr FTP_TEN_STAT.log_state t 2).wr FTP_TEN_STAT.unprotected t 1) :
    logHoldTimeout t d = (b.logUncoded unitNone t (b.step t)).commitsAcked t := by
  subst ha hb
  simp only [logHoldTimeout, hheld, Bool.not_true, Bool.false_eq_true, if_false]

/-! ### The restore engine -/

section Restore

variable {d a b : Device} {value : Nat} (hawake : d.fnAwake 0 = true)
  (ha : a = ((d.wr FTP_RESTORE.tenancy 0 (bits value 60 55)).wr FTP_RESTORE.guest 0 (bits value 54 43)).wr FTP_RESTORE.source 0 (bits value 42 31))
  (hb : b = if bit value 61 then a.wr FTP_RESTORE.err 0 0 else a)

include hawake ha hb

/-- A write with go starts the restore that it names, where none is in progress (R409). -/
theorem restoreStart_of_go (hgo : bit value 63 = true) (hnone : b.ftp.restore = none) : restoreStart 0 value d =
    { b with ftp := { b.ftp with restore := some (bits value 60 55, bits value 54 43, bits value 42 31) } }.wr FTP_RESTORE.busy 0 1 := by
  subst ha hb
  simp only [restoreStart, hawake, hgo, hnone, Option.isNone_none, Bool.and_self, Bool.not_true, Bool.false_eq_true, ne_eq, not_true_eq_false, if_false, if_true]

/-- Any other write of the register writes its fields (R409; log 41). -/
theorem restoreStart_of_fields (h : bit value 63 = false ∨ b.ftp.restore.isSome = true) : restoreStart 0 value d = b := by
  have hidle : (bit value 63 && b.ftp.restore.isNone) = false := by
    obtain hgo | hbusy := h
    · rw [hgo, Bool.false_and]
    · simpa using fun _ => hbusy
  subst ha hb
  simp only [restoreStart, hawake, hidle, Bool.not_true, Bool.false_eq_true, ne_eq, not_true_eq_false, if_false]

end Restore

section Image

variable {d : Device} {ok : Bool} {img im : Restored} {t guest source : Nat} (hjob : d.ftp.restore = some (t, guest, source))

include hjob

/-- Without an image the restore ends in an error (R409). -/
theorem restoreDone_of_lost (hpeer : source ≠ d.devId) : restoreDone false img d = d.restoreEnds false := by
  simp only [restoreDone, hjob, hpeer, Bool.false_eq_true, if_false]

/-- The image is what was fetched, or what this device holds of its guest (R409). -/
theorem restoreDone_of_image (himage : (if source = d.devId then d.hostedImage guest t else if ok then some img else none) = some im) :
    restoreDone ok img d = d.placeImage t (guest == d.devId) im := by
  simp only [restoreDone, hjob, himage]

end Image

section Place

variable {d : Device} {t : Nat} {own : Bool} {im : Restored} {ps : List (Nat × List Byte)} (hps : ps = d.restorePages t own im)

include hps

/-- An image whose pages are all mapped takes its place (R409; log 41). -/
theorem placeImage_of_mapped {b : Device} (hmapped : ∀ p ∈ ps, (d.indexPage t p.1).isSome = true)
    (hb : b = (ps.foldl (Device.restorePage t) (d.restoreEnds true)).restoreTables t im.info) :
    d.placeImage t own im = if own then b else b.takeRecs t im.recs := by
  have hany : (ps.any fun p => (d.indexPage t p.1).isNone) = false := by
    simpa [Option.isSome_iff_ne_none] using hmapped
  subst hps hb
  rw [Device.placeImage, if_neg (by rw [hany]; exact Bool.false_ne_true)]

theorem placeImage_of_unmapped (hmiss : ∃ p ∈ ps, d.indexPage t p.1 = none) : d.placeImage t own im = d.restoreEnds false := by
  have hany : (ps.any fun p => (d.indexPage t p.1).isNone) = true := by simpa using hmiss
  subst hps
  rw [Device.placeImage, if_pos hany]

end Place

/-! ### The partner -/

section Partner

variable {d : Device} {guest t step : Nat}

/-- What comes for a guest without an area fails its generation (R404). -/
theorem shadowPageRx_of_no_area {x : ShadowItem} (harea : d.hostArea guest = none) :
    shadowPageRx guest t step x d = { d with sent := .shadowAck guest t step false :: d.sent } := by
  simp only [shadowPageRx, harea]

variable {i : Nat} (harea : d.hostArea guest = some i)

include harea

/-- A page lands in a free page of its guest's area (R403). -/
theorem shadowPageRx_of_free {idx p : Nat} {data : List Byte} {h g : HostGen} {a : Device} (hfree : d.hostFree i = some p) (hh : h = d.hostGen guest t step)
    (hg : g = { h with pages := h.pages.filter (fun x => x.1 != idx) ++ [(idx, p)] })
    (ha : a = { d with ftp := { d.ftp with hosted := d.ftp.hosted.filter fun h => !(h.freed && h.pages.any fun x => x.2 == p) } }) :
    shadowPageRx guest t step (.page idx data) d = ((a.poke devKey spT2 (p * pageSize) (data.take pageSize)).setHostGen g).hostDone g := by
  subst hh hg ha
  simp only [shadowPageRx, harea, hfree]

/-- Without a free page the generation fails (R404). -/
theorem shadowPageRx_of_full {idx : Nat} {data : List Byte} (hfull : d.hostFree i = none) : shadowPageRx guest t step (.page idx data) d =
    { d with ftp := { d.ftp with hosted := d.ftp.hosted.filter fun h => !(h.is guest t && !h.complete) }, sent := .shadowAck guest t step false :: d.sent } := by
  simp only [shadowPageRx, harea, hfull]

theorem shadowPageRx_of_info {n : Nat} {m : ShadowMeta} {g : HostGen} (hg : g = { d.hostGen guest t step with info := some (n, m) }) :
    shadowPageRx guest t step (.info n m) d = (d.setHostGen g).hostDone g := by
  subst hg
  simp only [shadowPageRx, harea]

end Partner

/-- Settles O54, event by event. That a restore takes what was fetched as an operand, fails where the tenancy's table does not map a page, and is not started
while another is in progress, is the model's own choice (log 41); that a partner without a free page refuses the generation is its own deduction (log 158). -/
theorem shadowCommands : Obligations.ShadowCommands := by
  unfold Obligations.ShadowCommands
  refine ⟨?page, ?empty, ?complete, ?failed, ?hold, ?start, ?fields, ?restored, ?unmapped, ?lost, ?lands, ?noArea, ?full, ?info, ?mirror, ?mirrored⟩
  case page =>
    intro s t u g idx pg rest data a ht hgen hleft hdata ha
    rw [exec_of_settled (fun _ => rfl) (by simp [Instr.wf, ht]), shadowPageRead_of_page hgen hleft hdata ha]
  case empty =>
    intro s t u g ht hgen hleft hcount
    rw [exec_of_settled (fun _ => rfl) (by simp [Instr.wf, ht]), shadowPageRead_of_empty hgen hleft hcount]
  case complete =>
    intro s src t u g full a b c e hs ht hgen hsrc hleft hfull ha hb hc he
    rw [exec_of_settled (fun _ => rfl) (by simp [Instr.wf, hs, ht]), shadowAckRx_of_complete hgen hsrc hleft hfull ha hb hc he]
  case failed =>
    intro s src t u g hs ht hgen hsrc
    rw [exec_of_settled (fun _ => rfl) (by simp [Instr.wf, hs, ht]), shadowAckRx_of_failure hgen hsrc]
  case hold =>
    intro s t a b ht hheld ha hb
    rw [exec_of_settled (fun _ => rfl) (by simp [Instr.wf, ht]), logHoldTimeout_of_held hheld ha hb]
  case start =>
    intro s value a b hv hr ha hb hgo hnone
    rw [exec_of_via (fun _ => rfl) (by simpa [Instr.wf] using hv) hr, restoreStart_of_go (fnAwake_of_reaches hr) ha hb hgo hnone]
  case fields =>
    intro s value a b hv hr ha hb h
    rw [exec_of_via (fun _ => rfl) (by simpa [Instr.wf] using hv) hr, restoreStart_of_fields (fnAwake_of_reaches hr) ha hb h]
  case restored =>
    intro s ok img im t guest source ps b hjob himage hps hmapped hb
    rw [exec_of_wf (fun _ => rfl) rfl, restoreDone_of_image hjob himage, placeImage_of_mapped hps hmapped hb]
  case unmapped =>
    intro s ok img im t guest source ps hjob himage hps hmiss
    rw [exec_of_wf (fun _ => rfl) rfl, restoreDone_of_image hjob himage, placeImage_of_unmapped hps hmiss]
  case lost =>
    intro s img t guest source hjob hpeer
    rw [exec_of_wf (fun _ => rfl) rfl, restoreDone_of_lost hjob hpeer]
  case lands =>
    intro s guest t step i idx p data h g a hguest ht harea hfree hh hg ha
    rw [exec_of_wf (fun _ => rfl) (by simp [Instr.wf, hguest, ht]), shadowPageRx_of_free harea hfree hh hg ha]
  case noArea =>
    intro s guest t step x hguest ht harea
    rw [exec_of_wf (fun _ => rfl) (by simp [Instr.wf, hguest, ht]), shadowPageRx_of_no_area harea]
  case full =>
    intro s guest t step i idx data hguest ht harea hfull
    rw [exec_of_wf (fun _ => rfl) (by simp [Instr.wf, hguest, ht]), shadowPageRx_of_full harea hfull]
  case info =>
    intro s guest t step i n m g hguest ht harea hg
    rw [exec_of_wf (fun _ => rfl) (by simp [Instr.wf, hguest, ht]), shadowPageRx_of_info harea hg]
  case mirror =>
    intro s guest t r hguest ht
    rw [exec_of_wf (fun _ => rfl) (by simp [Instr.wf, hguest, ht]), logRecordMirrorRx]
  case mirrored =>
    intro s t num ht
    rw [exec_of_wf (fun _ => rfl) (by simp [Instr.wf, ht]), logMirrorAckRx]

end Sys2Proof.Machine
end

section
/-! PROOFS. The host and its tenancies (chapter 15): quiesce, resume and reset, interrupts, queue positions, dirty-page logs, virtual functions. -/

namespace Sys2Proof.Machine

/-! ### Quiesce, resume and reset -/

/-- A write of the TEN block by tenancy 0 has its effect (R466). -/
theorem tenWrite_of_awake {d : Device} {off : Nat} {f : Device → Device} (hawake : d.fnAwake 0 = true) : d.tenWrite 0 off f = f d := by
  simp only [Device.tenWrite, hawake, Bool.not_true, Bool.false_eq_true, ne_eq, not_true_eq_false, if_false]

section Tenancy

variable {d : Device} {t : Nat}

theorem tenancyQuiesce_of_active (hawake : d.fnAwake 0 = true) (hactive : d.rd TEN_STAT.state t = 1) : tenancyQuiesce 0 t d =
    ((d.wr TEN_STAT.state t 2).queues.filter fun q => (d.wr TEN_STAT.state t 2).qTen q.1 == t).foldl (fun d q => d.unfetch q.1) (d.wr TEN_STAT.state t 2) := by
  rw [tenancyQuiesce, tenWrite_of_awake hawake]
  exact if_neg (not_not.2 hactive)

theorem tenancyQuiesced_of_idle (hquiescing : d.rd TEN_STAT.state t = 2) (hidle : d.tenIdle t = true) : tenancyQuiesced t d = d.wr TEN_STAT.state t 3 := by
  simp only [tenancyQuiesced, hquiescing, hidle, tnQuiescing, tnQuiesced, decide_true, Bool.and_self, if_true]

theorem tenancyResume_of_quiesced (hawake : d.fnAwake 0 = true) (hst : d.rd TEN_STAT.state t = 2 ∨ d.rd TEN_STAT.state t = 3) :
    tenancyResume 0 t d = d.wr TEN_STAT.state t 1 := by
  rw [tenancyResume, tenWrite_of_awake hawake]
  exact if_pos (by rw [Bool.or_eq_true, decide_eq_true_eq, decide_eq_true_eq]; exact hst)

theorem tenancyReset_of_write (hawake : d.fnAwake 0 = true) : tenancyReset 0 t false d = d.resetTenancy t := by
  rw [tenancyReset, if_neg Bool.false_ne_true, tenWrite_of_awake hawake]

theorem tenancyReset_of_flr (ht : t ≠ 0) : tenancyReset 0 t true d = d.resetTenancy t := by
  rw [tenancyReset, if_pos rfl, if_neg ht]

theorem tenancyResetDone_of_resetting (hst : d.rd TEN_STAT.state t = 4) :
    tenancyResetDone t d = d.wr TEN_STAT.state t (if d.tenExists t then 1 else 0) := if_pos hst

end Tenancy

/-! ### Interrupts -/

section Vector

variable {d : Device} {fn v : Nat} {e : Vec} (he : e = smGet d.msix (fn * 4096 + v) {})

include he

/-- Interrupts that coalesced within the gap send one message at its end (R452). -/
theorem irqGapExpiry_of_coalesced (hgap : e.gap = true) (hagain : e.again = true) : irqGapExpiry fn v d =
    Device.raise { d with msix := smSet d.msix (fn * 4096 + v) {} { e with gap := false, again := false } } fn v := by
  simp only [irqGapExpiry, ← he, hgap, hagain, Bool.not_true, Bool.false_eq_true, if_false, if_true]

/-- A vector that is unmasked while pending sends its message (R452). -/
theorem msixUnmask_of_pending (hawake : d.fnAwake fn = true) (hv : v < d.vectors fn) (hpending : e.pending = true) (hgap : e.gap = false) (hmute : d.mute fn = false) :
    msixUnmask fn v d = Device.sendVec { d with msix := smSet d.msix (fn * 4096 + v) {} { e with masked := false } } fn v := by
  have hsent (x : List (Nat × Vec)) : ({ d with msix := x } : Device).mute fn = false := hmute
  simp only [msixUnmask, ← he, hawake, Nat.not_le.2 hv, hpending, hgap, hsent, decide_false, Bool.not_true, Bool.or_self, Bool.false_eq_true, if_false]

end Vector

/-! ### Queue positions -/

/-- A Disabled queue that may be enabled starts at the positions that TEN_QPOS0 gives (R462). -/
theorem queuePositionStart_of_go {d a : Device} {value : Nat} (hawake : d.fnAwake 0 = true) (hclear : bit value 62 = false) (hgo : bit value 63 = true)
    (ha : a = (d.wr TEN_QPOS1.phase 0 (bits value 61 61)).wr TEN_QPOS1.queue 0 (bits value 11 0)) (hst : a.rd QUE_STAT.state (bits value 11 0) = qDisabled)
    (hok : a.enableOk (bits value 11 0) = true) : queuePositionStart 0 value d =
      (((a.setQueue (bits value 11 0)
        { tail := a.rd TEN_QPOS0.sq_head 0, cqHead := a.rd TEN_QPOS0.cq_tail 0, cqTail := a.rd TEN_QPOS0.cq_tail 0, phase := bit value 61 }).wr
          QUE_STAT.sq_head (bits value 11 0) (a.rd TEN_QPOS0.sq_head 0)).wr QUE_STAT.db_err (bits value 11 0) 0).wr QUE_STAT.state (bits value 11 0) 1 := by
  subst ha
  rw [queuePositionStart, tenWrite_of_awake hawake]
  simp only [hclear, hgo, hst, hok, ne_eq, not_true_eq_false, decide_false, Bool.not_true, Bool.or_self, Bool.false_eq_true, if_false]
  rfl

/-- Settles O31, event by event. That a queue starts at its positions at once, whatever fill of the event array is under way, is the model's own deduction
(log 83). -/
theorem tenancyCommands : Obligations.TenancyCommands := by
  unfold Obligations.TenancyCommands
  refine ⟨?quiesce, ?quiesced, ?resume, ?reset, ?flr, ?resetDone, ?gap, ?unmask, ?position⟩
  case quiesce =>
    intro s t ht hr hactive
    rw [exec_of_via (fun _ => rfl) (by simp [Instr.wf, ht]) hr, tenancyQuiesce_of_active (fnAwake_of_reaches hr) hactive]
  case quiesced =>
    intro s t ht hquiescing hidle
    rw [exec_of_wf (fun _ => rfl) (by simp [Instr.wf, ht]), tenancyQuiesced_of_idle hquiescing hidle]
  case resume =>
    intro s t ht hr hst
    rw [exec_of_via (fun _ => rfl) (by simp [Instr.wf, ht]) hr, tenancyResume_of_quiesced (fnAwake_of_reaches hr) hst]
  case reset =>
    intro s t ht hr
    rw [exec_of_settled (fun _ => rfl) (by simp [Instr.wf, ht]), if_neg Bool.false_ne_true, via_of_reaches hr, tenancyReset_of_write (fnAwake_of_reaches hr)]
  case flr =>
    intro s t ht hvf
    rw [exec_of_settled (fun _ => rfl) (by simp [Instr.wf, ht]), if_pos rfl, tenancyReset_of_flr hvf]
  case resetDone =>
    intro s t ht hst
    rw [exec_of_wf (fun _ => rfl) (by simp [Instr.wf, ht]), tenancyResetDone_of_resetting hst]
  case gap =>
    intro s fn v e hfn hv he hgap hagain
    rw [exec_of_wf (fun _ => rfl) (by simp [Instr.wf, hfn, hv]), irqGapExpiry_of_coalesced he hgap hagain]
  case unmask =>
    intro s fn v e hfn hv hr hvec he hpending hgap hmute
    rw [exec_of_via (fun _ => rfl) (by simp [Instr.wf, hfn, hv]) hr, msixUnmask_of_pending he (fnAwake_of_reaches hr) hvec hpending hgap hmute]
  case position =>
    intro s value a hv hr hclear hgo ha hst hok
    rw [exec_of_via (fun _ => rfl) (by simpa [Instr.wf] using hv) hr, queuePositionStart_of_go (fnAwake_of_reaches hr) hclear hgo ha hst hok]

/-! ### Dirty-page logs -/

section DirtyLog

variable {d : Device} {t value : Nat}

/-- The pages of the bitmaps stand where the registers say, whatever is stored there. -/
theorem devMapPages_zero (sp off len : Nat) : (d.zero sp off len).devMapPages t = d.devMapPages t := rfl

variable (hkeep : bit value 4 = false) (hon : bit value 0 = true)

include hkeep hon

/-- Enable set on a disabled log zeroes both bitmaps and makes A active (R457). -/
theorem dlogWrite_of_enable (hswap : bit value 1 = false) (hoff : d.on TEN_DLOG_CTL.enable t = false) : d.dlogWrite t value =
    ((((d.zero spT1 (d.devMap t false) (2 * d.devMapBytes t)).setPages ((d.zero spT1 (d.devMap t false) (2 * d.devMapBytes t)).devMapPages t) pgSystem).wr
      TEN_DLOG_CTL.b_active t 0).wr TEN_DLOG_CTL.swaps t 0).wr TEN_DLOG_CTL.enable t 1 := by
  simp only [Device.dlogWrite, hkeep, hon, hswap, hoff, devMapPages_zero, Bool.not_false, Bool.and_self, Bool.false_and, Bool.false_eq_true, if_false, if_true]

/-- A swap of an enabled log zeroes the other bitmap and makes it active (R459). -/
theorem dlogWrite_of_swap {b : Bool} (hswap : bit value 1 = true) (hwas : d.on TEN_DLOG_CTL.enable t = true) (hidle : d.on TEN_DLOG_CTL.busy t = false)
    (hb : b = !d.on TEN_DLOG_CTL.b_active t) : d.dlogWrite t value =
      ((d.zero spT1 (d.devMap t b) (d.devMapBytes t)).wr TEN_DLOG_CTL.b_active t (b2n b)).wr TEN_DLOG_CTL.busy t 1 := by
  simp only [Device.dlogWrite, hkeep, hon, hswap, hwas, hidle, ← hb, Bool.not_false, Bool.not_true, Bool.and_self, Bool.and_false, Bool.false_and, Bool.false_eq_true,
    if_false, if_true]

end DirtyLog

/-- Settles O32, event by event. That a tenancy which ceases to exist loses its work as in a reset is the model's own choice (log 43). -/
theorem logAndFunctionCommands : Obligations.LogAndFunctionCommands := by
  unfold Obligations.LogAndFunctionCommands
  refine ⟨?enable, ?swap, ?swapDone, ?functions, ?power⟩
  case enable =>
    intro s t value ht hv hr hkeep hon hswap hoff
    rw [exec_of_via (fun _ => rfl) (by simpa [Instr.wf, ht] using hv) hr, dlogEnable, tenWrite_of_awake (fnAwake_of_reaches hr),
      dlogWrite_of_enable hkeep hon hswap hoff]
  case swap =>
    intro s t value b ht hv hr hkeep hon hswap hwas hidle hb
    rw [exec_of_via (fun _ => rfl) (by simpa [Instr.wf, ht] using hv) hr, dlogSwap, tenWrite_of_awake (fnAwake_of_reaches hr),
      dlogWrite_of_swap hkeep hon hswap hwas hidle hb]
  case swapDone =>
    intro s t ht hbusy
    rw [exec_of_wf (fun _ => rfl) (by simp [Instr.wf, ht]), dlogSwapDone, if_pos hbusy]
  case functions =>
    rintro s e n _ hn rfl
    rw [exec_of_wf (fun _ => rfl) (by simp [Instr.wf, hn]), vfEnableChange]
    simp only [Bool.or_eq_true, decide_eq_true_eq]
  case power =>
    intro s fn d3 hfn
    rw [exec_of_wf (fun _ => rfl) (by simp [Instr.wf, hfn]), functionPowerStateWrite]

end Sys2Proof.Machine
end

section
/-! PROOFS. Security (chapter 16): memory under a key, the operations of the security root, anti-rollback, attestation and JTAG. -/

namespace Sys2Proof.Machine

/-! ### Memory under a key -/

/-- Settles O10: a write under a key first takes over every unit that it touches, so that the unit reads under that key as before (R475). -/
theorem memoryReadsBack : Obligations.MemoryReadsBack := fun d key sp off bs _ =>
  ⟨peek_poke_self d key sp off bs, fun _ _ ho => readB_poke_outside d key sp off bs ho⟩

/-! ### Operations of SEC_OP_CTL -/

section Operation

variable {d a b : Device} {value t : Nat} (hawake : d.fnAwake 0 = true) (hb : b = d.secAck value) (hidle : b.on SEC_OP_CTL.busy 0 = false)
  (ht : t = bits value 13 8) (ha : a = b.wr SEC_OP_CTL.tenancy 0 t)

include hawake hb hidle ht ha

/-- The operation that tenancy 0 names while none runs: what its body answers waits for the operation's end (R487). -/
theorem secOp_of_named {e : Device} {op code scope : Nat} {body : Device → Nat → Device × Nat × Nat} (hop : bits value 3 0 = op)
    (hbody : body a t = (e, code, scope)) : d.secOp 0 value op body = e.secPend { op := op, ten := t, code := code, scope := scope } := by
  subst hb ht
  rw [secOp_go hawake hop hidle ha, hbody]

/-- The owner record of a well-formed blob, signed by the owner in force where there is one, is appended (R474). -/
theorem ownerEnrol_of_signed {resp : Nat} {w : List Byte} {os : List (List Byte × List Byte)} (hop : bits value 3 0 = 1) (hblob : a.secBlob resp 1088 = some w)
    (hmagic : leAt w 0 4 = 0x09604F57) (hzero : allZero w 4 28 = true) (hroom : a.pwr.owners.length < 4)
    (hsigned : ∀ x, a.owner = some x → rsaPssVerify x.1 (bmSigned w) (bmSig w) = true) (hos : os = a.pwr.owners ++ [(bmModulus w, (w.drop 32).take 32)]) :
    ownerEnrol 0 value resp d = ({ a with pwr := { a.pwr with owners := os } }.wr SEC_BOOT_STAT.owners 0 os.length).secPend { op := 1, ten := t, code := 0 } := by
  refine secOp_of_named hawake hb hidle ht ha hop ?_
  subst hos
  cases hx : a.owner with
  | none => simp [hblob, hmagic, hzero, Nat.not_le.2 hroom]
  | some x => simp [hblob, hmagic, hzero, Nat.not_le.2 hroom, hsigned x hx]

/-- A newer key for the tenancy that opens under the owner's import key becomes its next one (R482). -/
theorem fabricKeyImport_of_newer {resp g : Nat} {w : List Byte} {x r : List Byte × List Byte} (hop : bits value 3 0 = 2) (hblob : a.secBlob resp 72 = some w)
    (howner : a.owner = some x) (hr : r = gcmUnseal x.2 ((w.drop 12).take 12) (w.take 12) ((w.drop 24).take 32)) (hg : g = leAt w 8 4)
    (hmagic : leAt w 0 4 = 0x0960464B) (hzero : allZero w 5 3 = true) (hten : leAt w 4 1 = t) (hopens : r.2 = (w.drop 56).take 16)
    (hnewer : newerGen g (a.fabKeys t).cur = true) :
    fabricKeyImport 0 value resp d = (a.setKeys t { a.fabKeys t with next := some (g, r.1) }).secPend { op := 2, ten := t, code := 0 } := by
  refine secOp_of_named hawake hb hidle ht ha hop ?_
  simp only [hblob, howner, ← hr, ← hg, hmagic, hzero, hten, hopens, hnewer, ne_eq, not_true_eq_false, decide_false, Bool.not_true, Bool.or_self,
    Bool.false_eq_true, if_false]

theorem fabricKeyActivate_of_next (hop : bits value 3 0 = 3) (hnext : (a.fabKeys t).next.isSome = true) :
    fabricKeyActivate 0 value d = (a.setKeys t { a.fabKeys t with activate := true }).secPend { op := 3, ten := t, code := 0 } := by
  refine secOp_of_named hawake hb hidle ht ha hop ?_
  have hsome : (a.fabKeys t).next.isNone = false := by simpa using hnext
  simp only [hsome, Bool.false_eq_true, if_false]

theorem fabricKeyRetirePrevious_of_named (hop : bits value 3 0 = 4) :
    fabricKeyRetirePrevious 0 value d = (a.setKeys t { a.fabKeys t with prev := none }).secPend { op := 4, ten := t, code := 0 } :=
  secOp_of_named hawake hb hidle ht ha hop rfl

/-- The memory key of a tenancy that has nothing in memory is rolled (R477). -/
theorem memoryKeyRoll_of_empty (hop : bits value 3 0 = 5) (h1 : a.rd TEN_STAT.t1_mapped t = 0) (h2 : a.rd TEN_STAT.t2_mapped t = 0)
    (hland : ∀ i, i < a.rd MEM_LAND_CFG.count t → a.landState t i = 0) (hpool : a.rd SCH_KV_POOL.pages t = 0) (hmode : a.rd FTP_TEN_CFG.mode t = 0) :
    memoryKeyRoll 0 value d =
      ({ a with rolls := smSet a.rolls t 0 (smGet a.rolls t 0 + 1) }.incWrap SEC_TEN_STAT.mkey_rolls t 1).secPend { op := 5, ten := t, code := 0 } := by
  refine secOp_of_named hawake hb hidle ht ha hop ?_
  have hlanded : ((List.range (a.rd MEM_LAND_CFG.count t)).any fun i => a.landState t i != 0) = false := by simpa using hland
  simp only [hlanded, h1, h2, hpool, hmode, ne_eq, not_true_eq_false, decide_false, Bool.or_self, Bool.false_eq_true, if_false]

theorem debugNonce_of_named (hop : bits value 3 0 = 6) : debugNonce 0 value d =
    ((List.range 4).foldl (fun d i => (d.fresh (2 ^ 64)).2.wr SEC_DBG_NONCE.nonce i (d.fresh (2 ^ 64)).1) a).secPend { op := 6, ten := t, code := 0 } :=
  secOp_of_named hawake hb hidle ht ha hop rfl

/-- A token that names this part and its nonce, signed by a key that may unlock it, opens its scope and voids the nonce (R485). -/
theorem debugUnlock_of_token {resp : Nat} {w : List Byte} (hop : bits value 3 0 = 7) (hblob : a.secBlob resp 1088 = some w) (hmagic : leAt w 0 4 = 0x09604454)
    (hscope : leAt w 4 1 < 4) (hzero6 : allZero w 6 2 = true) (hzero48 : allZero w 48 16 = true) (hserial : leAt w 8 8 = a.rd SEC_SERIAL.serial 0)
    (hnonce : (w.drop 16).take 32 = a.nonce) (hvalid : allZero a.nonce 0 32 = false) (hkey : a.tokenKey w = true)
    (hsigned : rsaPssVerify (bmModulus w) (bmSigned w) (bmSig w) = true) :
    debugUnlock 0 value resp d = a.voidNonce.secPend { op := 7, ten := t, code := 0, scope := leAt w 4 1 } := by
  refine secOp_of_named hawake hb hidle ht ha hop ?_
  simp only [hblob, hmagic, hscope, hzero6, hzero48, hserial, hnonce, hvalid, hkey, hsigned, beq_self_eq_true, decide_true, Bool.not_false, Bool.and_self, if_true]

theorem debugLock_of_named (hop : bits value 3 0 = 8) :
    debugLock 0 value d = (a.wr SEC_BOOT_STAT.dbg_scope 0 0).secPend { op := 8, ten := t, code := 0 } :=
  secOp_of_named hawake hb hidle ht ha hop rfl

/-- In recovery an image of the host that passes its checks runs the stage that waits; of another the failed check is the result (R469). -/
theorem recoveryImage_of_recovery {resp k : Nat} {w img : List Byte} (hop : bits value 3 0 = 9) (hrecovery : a.on SEC_BOOT_STAT.recovery 0 = true)
    (hboot : a.booting = true) (hblob : a.secBlob resp 1088 = some w)
    (himg : img = w ++ a.peek devKey (spHost 0) (a.rd SEC_OP_ADDR.addr 0 * 64 + 1088) (if leAt w 12 4 ≤ 8388608 then leAt w 12 4 else 0))
    (hk : k = stageKind (a.rd PWR_START_STAT.step 0)) : recoveryImage 0 value resp d =
      if a.imageCode k img = 0 then ((a.wr SEC_BOOT_STAT.recovery 0 0).runStage k 2 img).secPend { op := 9, ten := t, code := 0 }
      else a.secPend { op := 9, ten := t, code := a.imageCode k img } := by
  split
  · rename_i hgood
    refine secOp_of_named hawake hb hidle ht ha hop ?_
    simp only [hrecovery, hboot, hblob, ← himg, ← hk, hgood, Bool.not_true, Bool.or_self, Bool.false_eq_true, ne_eq, not_true_eq_false, if_false]
  · rename_i hbad
    refine secOp_of_named hawake hb hidle ht ha hop ?_
    simp only [hrecovery, hboot, hblob, ← himg, ← hk, hbad, Bool.not_true, Bool.or_self, Bool.false_eq_true, ne_eq, not_false_eq_true, if_false, if_true]

end Operation

section Ends

variable {d : Device} {x : SecOp} (hx : d.pwr.secOp = some x)

include hx

/-- A passed operation ends with ok; a passed unlock then resets the device with its scope (R485, R487). -/
theorem secOperationDone_of_passed {a : Device} (hcode : x.code = 0)
    (ha : a = (({ d with pwr := { d.pwr with secOp := none } }.wr SEC_OP_CTL.busy 0 0).wr SEC_OP_CTL.code 0 0).wr SEC_OP_CTL.ok 0 1) :
    secOperationDone d = if x.op = 7 then (a.wr SEC_BOOT_STAT.dbg_scope 0 x.scope).deviceReset 4 unitNone else a := by
  subst ha
  simp only [secOperationDone, hx, hcode, ne_eq, not_true_eq_false, if_false]

theorem secOperationDone_of_failed (hcode : x.code ≠ 0) : secOperationDone d =
    (({ d with pwr := { d.pwr with secOp := none } }.wr SEC_OP_CTL.busy 0 0).wr SEC_OP_CTL.code 0 x.code).wr SEC_OP_CTL.err 0 1 := by
  simp only [secOperationDone, hx, hcode, ne_eq, not_false_eq_true, if_true]

end Ends

/-! ### Anti-rollback -/

theorem arbAdvance_of_idle {d : Device} (hawake : d.fnAwake 0 = true) (hidle : d.on SEC_ARB.busy 0 = false) : arbAdvance 0 d = d.wr SEC_ARB.busy 0 1 := by
  simp only [arbAdvance, hawake, hidle, Bool.not_true, Bool.false_eq_true, ne_eq, not_true_eq_false, if_false]

/-- Each count rises to the number of the image that runs, and never falls (R471). -/
theorem arbProgramDone_of_busy {d a b : Device} (hbusy : d.on SEC_ARB.busy 0 = true)
    (ha : a = d.wr SEC_ARB.srf_count 0 (max (d.rd SEC_ARB.srf_count 0) (d.rd SEC_BOOT_STAT.srf_svn 0)))
    (hb : b = a.wr SEC_ARB.cpf_count 0 (max (a.rd SEC_ARB.cpf_count 0) (a.rd SEC_BOOT_STAT.cpf_svn 0))) :
    arbProgramDone d = (b.wr SEC_ARB.aof_count 0 (max (b.rd SEC_ARB.aof_count 0) (b.rd SEC_BOOT_STAT.aof_svn 0))).wr SEC_ARB.busy 0 0 := by
  subst ha hb
  simp only [arbProgramDone, hbusy, Bool.not_true, Bool.false_eq_true, if_false]

/-- Settles O55, operation by operation. That an owner record keeps the whole modulus of its key is the model's own choice (log 44); the order of the checks and the
codes of a key for another tenancy are its own deduction (log 85), as is the code of an image that fails in recovery (log 96). -/
theorem securityOperations : Obligations.SecurityOperations := by
  unfold Obligations.SecurityOperations
  refine ⟨?enrol, ?import_, ?activate, ?retire, ?roll, ?nonce, ?unlock, ?lock, ?recovery, ?passed, ?failed, ?advance, ?programmed⟩
  case enrol =>
    intro s value resp t a b w os hv hr hop hb hidle ht ha hresp hblob hmagic hzero hroom hsigned hos
    rw [exec_of_via (fun _ => rfl) (by simpa [Instr.wf, hresp] using hv) hr,
      ownerEnrol_of_signed (fnAwake_of_reaches hr) hb hidle ht ha hop hblob hmagic hzero hroom hsigned hos]
  case import_ =>
    intro s value resp g t a b w x r hv hr hop hb hidle ht ha hresp hblob howner hr' hg hmagic hzero hten hopens hnewer
    rw [exec_of_via (fun _ => rfl) (by simpa [Instr.wf, hresp] using hv) hr,
      fabricKeyImport_of_newer (fnAwake_of_reaches hr) hb hidle ht ha hop hblob howner hr' hg hmagic hzero hten hopens hnewer]
  case activate =>
    intro s value t a b hv hr hop hb hidle ht ha hnext
    rw [exec_of_via (fun _ => rfl) (by simpa [Instr.wf] using hv) hr, fabricKeyActivate_of_next (fnAwake_of_reaches hr) hb hidle ht ha hop hnext]
  case retire =>
    intro s value t a b hv hr hop hb hidle ht ha
    rw [exec_of_via (fun _ => rfl) (by simpa [Instr.wf] using hv) hr, fabricKeyRetirePrevious_of_named (fnAwake_of_reaches hr) hb hidle ht ha hop]
  case roll =>
    intro s value t a b hv hr hop hb hidle ht ha h1 h2 hland hpool hmode
    rw [exec_of_via (fun _ => rfl) (by simpa [Instr.wf] using hv) hr,
      memoryKeyRoll_of_empty (fnAwake_of_reaches hr) hb hidle ht ha hop h1 h2 hland hpool hmode]
  case nonce =>
    intro s value t a b hv hr hop hb hidle ht ha
    rw [exec_of_via (fun _ => rfl) (by simpa [Instr.wf] using hv) hr, debugNonce_of_named (fnAwake_of_reaches hr) hb hidle ht ha hop]
  case unlock =>
    intro s value resp t a b w hv hr hop hb hidle ht ha hresp hblob hmagic hscope hzero6 hzero48 hserial hnonce hvalid hkey hsigned
    rw [exec_of_via (fun _ => rfl) (by simpa [Instr.wf, hresp] using hv) hr,
      debugUnlock_of_token (fnAwake_of_reaches hr) hb hidle ht ha hop hblob hmagic hscope hzero6 hzero48 hserial hnonce hvalid hkey hsigned]
  case lock =>
    intro s value t a b hv hr hop hb hidle ht ha
    rw [exec_of_via (fun _ => rfl) (by simpa [Instr.wf] using hv) hr, debugLock_of_named (fnAwake_of_reaches hr) hb hidle ht ha hop]
  case recovery =>
    intro s value resp k t a b w img hv hr hop hb hidle ht ha hresp hrecovery hboot hblob himg hk
    rw [exec_of_via (fun _ => rfl) (by simpa [Instr.wf, hresp] using hv) hr,
      recoveryImage_of_recovery (fnAwake_of_reaches hr) hb hidle ht ha hop hrecovery hboot hblob himg hk]
  case passed =>
    intro s x a hx hcode ha
    rw [exec_of_wf (fun _ => rfl) rfl, secOperationDone_of_passed hx hcode ha]
  case failed =>
    intro s x hx hcode
    rw [exec_of_wf (fun _ => rfl) rfl, secOperationDone_of_failed hx hcode]
  case advance =>
    intro s hr hidle
    rw [exec_of_via (fun _ => rfl) rfl hr, arbAdvance_of_idle (fnAwake_of_reaches hr) hidle]
  case programmed =>
    intro s a b hbusy ha hb
    rw [exec_of_wf (fun _ => rfl) rfl, arbProgramDone_of_busy hbusy ha hb]

/-! ### Attestation and JTAG -/

section Signed

variable {d : Device} {nonce : List Byte} {r : List Byte × Device} (hr : r = d.freshBytes 32)

include hr

/-- A challenge is answered with a signature over both nonces, the certificate chain's digest and that of all measurements (R473). -/
theorem spdmChallenge_eq {chain ms : List Byte} (hchain : chain = sha512 Config.certChain) (hms : ms = sha512 (d.pwr.meas.flatMap fun m => m.2)) :
    spdmChallenge nonce d =
      (r.2.sign (nonce ++ r.1 ++ chain ++ ms)).2.answerSpdm (.challengeAuth r.1 chain ms (r.2.sign (nonce ++ r.1 ++ chain ++ ms)).1) := by
  subst hr hchain hms
  rfl

theorem spdmGetMeasurements_of_signed {index : Nat} {m : List Byte} (hm : m = nonce ++ r.1 ++ (d.measured index).flatMap fun m => m.2) :
    spdmGetMeasurements index true nonce d = (r.2.sign m).2.answerSpdm (.measurements r.1 (d.measured index) (r.2.sign m).1) := by
  subst hr hm
  rfl

end Signed

theorem jtagInstruction_of_allowed {d : Device} {ir : Nat} {isPublic : Bool} (h : isPublic = true ∨ bit (d.rd SEC_BOOT_STAT.dbg_scope 0) 1 = true) :
    jtagInstruction ir isPublic d = { d with pwr := { d.pwr with tap := some ir } } := if_pos ((Bool.or_eq_true _ _).mpr h)

theorem jtagInstruction_of_locked {d : Device} {ir : Nat} (h : bit (d.rd SEC_BOOT_STAT.dbg_scope 0) 1 = false) :
    jtagInstruction ir false d = { d with pwr := { d.pwr with tapHeld := some ir } } := if_neg (by rw [h]; exact Bool.false_ne_true)

/-- Settles O56, request by request of the mailbox, with the two ways of a JTAG instruction. That requests and answers are taken as their fields is the model's own
choice (log 86); that a private instruction waits held outside the open scope is presumed (log 87). -/
theorem attestation : Obligations.Attestation := by
  unfold Obligations.Attestation
  refine ⟨?version, ?capabilities, ?algorithms, ?digests, ?unsupported, ?certificate, ?challenge, ?unsigned, ?signed, ?runs, ?held⟩
  case version =>
    intro s
    rw [exec_of_wf (fun _ => rfl) rfl, spdmGetVersion, Device.answerSpdm]
  case capabilities =>
    intro s
    rw [exec_of_wf (fun _ => rfl) rfl, spdmGetCapabilities, Device.answerSpdm]
  case algorithms =>
    intro s
    rw [exec_of_wf (fun _ => rfl) rfl, spdmNegotiateAlgorithms, Device.answerSpdm]
  case digests =>
    intro s
    rw [exec_of_wf (fun _ => rfl) rfl, spdmGetDigests, Device.answerSpdm]
  case unsupported =>
    intro s
    rw [exec_of_wf (fun _ => rfl) rfl, spdmUnsupported, Device.answerSpdm]
  case certificate =>
    intro s off len hoff hlen
    rw [exec_of_wf (fun _ => rfl) (by simp [Instr.wf, hoff, hlen]), spdmGetCertificate, Device.answerSpdm]
  case challenge =>
    intro s nonce chain ms r hnonce hr hchain hms
    rw [exec_of_wf (fun _ => rfl) (by simp [Instr.wf, hnonce]), spdmChallenge_eq hr hchain hms]
  case unsigned =>
    intro s index nonce hindex hnonce
    rw [exec_of_wf (fun _ => rfl) (by simp [Instr.wf, hindex, hnonce]), spdmGetMeasurements, Bool.not_false, if_pos rfl]
  case signed =>
    intro s index nonce m r hindex hnonce hr hm
    rw [exec_of_wf (fun _ => rfl) (by simp [Instr.wf, hindex, hnonce]), spdmGetMeasurements_of_signed hr hm]
  case runs =>
    intro s ir isPublic h
    rw [exec_of_wf (fun _ => rfl) rfl, jtagInstruction_of_allowed h]
  case held =>
    intro s ir h
    rw [exec_of_wf (fun _ => rfl) rfl, jtagInstruction_of_locked h]

end Sys2Proof.Machine
end

section
/-! PROOFS. Power (chapter 17): power states, removal, the power-fail save, the management port; and the operations that only tenancy 0 starts. -/

namespace Sys2Proof.Machine

/-! ### Requests for a power state -/

/-- Where Deep is not armed there is nothing to clear (R491). -/
theorem disarmDeep_of_unarmed {d : Device} {src : Nat} (h : d.on PWR_STATE_STAT.deep_armed 0 = false) : d.disarmDeep src = d :=
  if_neg (Bool.eq_false_iff.mp h)

section Request

variable {d b : Device} {value : Nat} (hawake : d.fnAwake 0 = true)
  (hb : b = ((d.wr PWR_STATE_CTL.deep_port 0 (bits value 35 32)).wr PWR_STATE_CTL.idle_ms 0 (bits value 31 16)).wr PWR_STATE_CTL.auto_idle 0 (bits value 8 8))

include hawake hb

/-- A write of tenancy 0 that names a request writes the RW fields and acts (R511). -/
theorem powerCtl_of_req {req : Nat} {act : Device → Device} (hreq : bits value 1 0 = req) : d.powerCtl 0 value req act = act b := by
  subst hb
  simp only [Device.powerCtl, hawake, hreq, Bool.not_true, Bool.false_eq_true, ne_eq, not_true_eq_false, if_false, if_true]

theorem reqD0_of_idle (hreq : bits value 1 0 = 1) (harmed : b.on PWR_STATE_STAT.deep_armed 0 = false) (hidle : b.ps = psIdle) :
    reqD0 0 value d = b.leaveIdle 3 := by
  rw [reqD0, powerCtl_of_req hawake hb hreq, disarmDeep_of_unarmed harmed, if_pos hidle]

theorem reqIdleHold_of_granted (hreq : bits value 1 0 = 2) (hps : b.ps = psD0) (hdeny : b.idleDeny = 0) :
    reqIdleHold 0 value d = (b.wr PWR_STATE_STAT.deny 0 0).enterIdle := by
  rw [reqIdleHold, powerCtl_of_req hawake hb hreq, if_neg (not_not_intro hps), hdeny, if_pos rfl]

theorem reqIdleHold_of_denied (hreq : bits value 1 0 = 2) (hps : b.ps = psD0) (hdeny : b.idleDeny ≠ 0) :
    reqIdleHold 0 value d = b.wr PWR_STATE_STAT.deny 0 b.idleDeny := by
  rw [reqIdleHold, powerCtl_of_req hawake hb hreq, if_neg (not_not_intro hps), if_neg hdeny]

/-- In D0 and in Idle-hold a request for Deep is judged by the conditions of Deep (R489). -/
theorem reqDeep_of_upOrIdle (hreq : bits value 1 0 = 3) (hps : b.ps = psD0 ∨ b.ps = psIdle) :
    reqDeep 0 value d = if b.deepDeny = 0 then (b.wr PWR_STATE_STAT.deny 0 b.deepDeny).wr PWR_STATE_STAT.deep_armed 0 1
      else b.wr PWR_STATE_STAT.deny 0 b.deepDeny := by
  have hother : (decide (b.ps ≠ psD0) && decide (b.ps ≠ psIdle)) = false := by
    rcases hps with h | h <;> simp [h]
  rw [reqDeep, powerCtl_of_req hawake hb hreq, hother, if_neg Bool.false_ne_true]

end Request

theorem autoIdleExpiry_of_idle {d : Device} (hauto : d.on PWR_STATE_CTL.auto_idle 0 = true) (hps : d.ps = psD0) (hdeny : d.idleDeny = 0) :
    autoIdleExpiry d = d.enterIdle := by
  simp only [autoIdleExpiry, hauto, hps, hdeny, beq_self_eq_true, Bool.and_self, if_true]

/-- Settles O33, request by request, then the wakes. That PME_To_Ack is sent whenever the link is up is presumed (log 107). -/
theorem powerStates : Obligations.PowerStates := by
  unfold Obligations.PowerStates
  refine ⟨?d0, ?idleGranted, ?idleDenied, ?deepArmed, ?deepDenied, ?autoIdle, ?idleWake, ?deepWake, ?turnOff⟩
  case d0 =>
    intro s value b hv hr hreq hb harmed hidle
    rw [exec_of_via (fun _ => rfl) (by simpa [Instr.wf] using hv) hr, reqD0_of_idle (fnAwake_of_reaches hr) hb hreq harmed hidle]
  case idleGranted =>
    intro s value b hv hr hreq hb hps hdeny
    rw [exec_of_via (fun _ => rfl) (by simpa [Instr.wf] using hv) hr, reqIdleHold_of_granted (fnAwake_of_reaches hr) hb hreq hps hdeny]
  case idleDenied =>
    intro s value b hv hr hreq hb hps hdeny
    rw [exec_of_via (fun _ => rfl) (by simpa [Instr.wf] using hv) hr, reqIdleHold_of_denied (fnAwake_of_reaches hr) hb hreq hps hdeny]
  case deepArmed =>
    intro s value b hv hr hreq hb hps hdeny
    rw [exec_of_via (fun _ => rfl) (by simpa [Instr.wf] using hv) hr, reqDeep_of_upOrIdle (fnAwake_of_reaches hr) hb hreq hps, hdeny, if_pos rfl]
  case deepDenied =>
    intro s value b hv hr hreq hb hps hdeny
    rw [exec_of_via (fun _ => rfl) (by simpa [Instr.wf] using hv) hr, reqDeep_of_upOrIdle (fnAwake_of_reaches hr) hb hreq hps, if_neg hdeny]
  case autoIdle =>
    intro s hauto hps hdeny
    rw [exec_of_wf (fun _ => rfl) rfl, autoIdleExpiry_of_idle hauto hps hdeny]
  case idleWake =>
    intro s src hlo hhi hps
    rw [exec_of_wf (fun _ => rfl) (by simp [Instr.wf, hlo, hhi]), idleWake, if_pos hps]
  case deepWake =>
    intro s src hlo hhi hps
    rw [exec_of_wf (fun _ => rfl) (by simp [Instr.wf, hlo, hhi]), deepWake, if_neg (not_not_intro hps)]
  case turnOff =>
    intro s hup
    rw [exec_of_wf (fun _ => rfl) rfl, pmeTurnOffRx, hup, if_neg Bool.false_ne_true]

/-! ### Removal -/

theorem linkDown_of_up {d : Device} (hup : d.hostDown = false) (harmed : d.on PWR_STATE_STAT.deep_armed 0 = false) :
    linkDown d = { d.removeHost.sendLeave with pwr := { d.removeHost.sendLeave.pwr with removing := true } } := by
  simp only [linkDown, hup, harmed, Bool.or_self, Bool.false_eq_true, if_false]

/-- On the way into Deep the link down is no removal (R491). -/
theorem linkDown_of_armed {d : Device} (harmed : d.on PWR_STATE_STAT.deep_armed 0 = true) : linkDown d = d := by
  rw [linkDown, harmed, Bool.or_true, if_pos rfl]

section Perst

variable {d : Device} (hhigh : d.pwr.perst = false)

include hhigh

/-- During a save, in Saved and without its supplies a device only notes PERST#, which holds the next start-up back (R522). -/
theorem perstAssert_of_saving (h : d.pwr.saveAct = true ∨ d.ps = psSaved ∨ d.pwr.gated = true) :
    perstAssert d = { d with pwr := { d.pwr with perst := true } } := by
  have hheld : (d.pwr.saveAct || decide (d.ps = psSaved) || d.pwr.gated) = true := by
    simpa [or_assoc] using h
  rw [perstAssert, hhigh, if_neg Bool.false_ne_true, hheld, if_pos rfl]

variable (hact : d.pwr.saveAct = false) (hps : d.ps ≠ psSaved) (hgated : d.pwr.gated = false)

include hact hps hgated

omit hhigh in
theorem not_saving_of_up : (d.pwr.saveAct || decide (d.ps = psSaved) || d.pwr.gated) = false := by
  rw [hact, hgated, decide_eq_false hps, Bool.or_self, Bool.or_self]

theorem perstAssert_of_armed (harmed : d.on PWR_STATE_STAT.deep_armed 0 = true) : perstAssert d = d.enterDeep := by
  rw [perstAssert, hhigh, if_neg Bool.false_ne_true, not_saving_of_up hact hps hgated, if_neg Bool.false_ne_true, if_pos harmed]

/-- Else PERST# removes the device and resets it (R464). -/
theorem perstAssert_of_unarmed {a b : Device} (harmed : d.on PWR_STATE_STAT.deep_armed 0 = false) (ha : a = d.removeHost)
    (hb : b = (if a.on FTP_CFG.enable 0 then a.sendLeave else a).deviceReset 3 unitNone) :
    perstAssert d = { b with pwr := { b.pwr with perst := true } } := by
  rw [hb, ha, perstAssert, hhigh, if_neg Bool.false_ne_true, not_saving_of_up hact hps hgated, if_neg Bool.false_ne_true, harmed, if_neg Bool.false_ne_true]

end Perst

/-! ### The save, snapshots and restore -/

theorem powerFail_of_disarmed {d : Device} (h : d.on PWR_SAVE_STAT.armed 0 = false) : powerFail d = { d with pwr := { d.pwr with pwrfail := true } } :=
  if_neg (Bool.eq_false_iff.mp h)

theorem powerFail_of_armed {d a : Device} (ha : a = { d with pwr := { d.pwr with pwrfail := true } }) (h : a.on PWR_SAVE_STAT.armed 0 = true) :
    powerFail d = a.runSave := by
  subst ha
  exact if_pos h

/-- The header of a save stands after its sections; a save with bad blocks records them (R501, R502). -/
theorem saveComplete_of_saving {d a : Device} {bad : Nat} {hw : HwSave} {h : SaveHeader} (hsaving : d.pwr.saving = some hw)
    (hh : h = { time := hw.time, snapSeq := d.rd PWR_SAVE_STAT.snap_seq 0, torn := d.pwr.stagedTorn, validBlocks := 524288 - bad })
    (ha : a = if bad = 0 then d.copySection spStage spSave
      else ((d.copySection spStage spSave).incSat RAS_ECC_CNT.uncorrectable 5 (bad - 1)).uncorr (unitOf 6 0x016) 5 { unit := 0, sev := 2, op := 0x02 }) :
    saveComplete bad d = ({ a with pwr := { a.pwr with saving := none, saveAct := false, save := some (h, hw) } }.showSave).wr PWR_STATE_STAT.state 0 3 := by
  subst ha hh
  simp only [saveComplete, hsaving, psSaved]

theorem startSnap_of_idle {d : Device} {r : Device × Bool} (hidle : d.on PWR_SAVE_STAT.busy 0 = false) (hr : r = snapCopy (d.rd PWR_SAVE_CFG.count 0) 0 0 d) :
    d.startSnap = { r.1 with pwr := { r.1.pwr with stagedTorn := true, snapOk := some r.2 } }.wr PWR_SAVE_STAT.busy 0 1 := by
  subst hr
  rw [Device.startSnap, hidle, if_neg Bool.false_ne_true]

theorem autoSnapshot_of_idle {d : Device} {r : Device × Bool} (hauto : d.rd PWR_SAVE_CFG.auto_ms 0 ≠ 0) (hpower : d.unpowered = false)
    (hidle : d.on PWR_SAVE_STAT.busy 0 = false) (hr : r = snapCopy (d.rd PWR_SAVE_CFG.count 0) 0 0 d) :
    autoSnapshot d = { r.1 with pwr := { r.1.pwr with stagedTorn := true, snapOk := some r.2 } }.wr PWR_SAVE_STAT.busy 0 1 := by
  have hgo : (decide (d.rd PWR_SAVE_CFG.auto_ms 0 = 0) || d.unpowered) = false := by simp [hauto, hpower]
  rw [autoSnapshot, hgo, if_neg Bool.false_ne_true, startSnap_of_idle hidle hr]

theorem snapshotDone_of_good {d : Device} (hok : d.pwr.snapOk = some true) : snapshotDone d =
    ({ d with pwr := { d.pwr with snapOk := none, stagedTorn := false } }.wr PWR_SAVE_STAT.busy 0 0).incWrap PWR_SAVE_STAT.snap_seq 0 1 := by
  simp only [snapshotDone, hok, Bool.not_true, if_true]

theorem snapshotDone_of_bad {d : Device} (hbad : d.pwr.snapOk = some false) : snapshotDone d =
    ({ d with pwr := { d.pwr with snapOk := none, stagedTorn := true } }.wr PWR_SAVE_STAT.busy 0 0).wr PWR_SAVE_STAT.snap_err 0 1 := by
  simp only [snapshotDone, hbad, Bool.not_false, Bool.false_eq_true, if_false]

/-- A save stands in tier 1 once its contents are there; the bytes of the hardware section are free (R505). -/
theorem saveRestoreDone_of_filled {d a : Device} {dst : Nat} (hrestoring : d.pwr.restoring = some dst) (hfilled : d.on MEM_FILL_STAT.t1_done 0 = true)
    (ha : a = (d.mem.filter fun c => inRange c.1 (cellAt spSave swBase) swSize).foldl (fun d c => d.poke devKey spT1 (dst + (c.1 - cellAt spSave 0)) [c.2])
      ((d.scramble spT1 dst swBase).zero spT1 (dst + swBase) swSize)) :
    saveRestoreDone d = { a with pwr := { a.pwr with restoring := none, saveRead := true } }.wr PWR_SAVE_STAT.busy 0 0 := by
  subst ha
  simp only [saveRestoreDone, hrestoring, hfilled, Bool.not_true, Bool.false_eq_true, if_false]

section SaveControl

variable {d b : Device} {value : Nat} (hawake : d.fnAwake 0 = true) (hb : b = d.wr PWR_SAVE_CTL.dest 0 (bits value 39 21))

include hawake hb

/-- A write of tenancy 0 that names an operation writes the destination and acts (R511). -/
theorem saveCtl_of_op {op : Nat} {act : Device → Device} (hop : bits value 1 0 = op) : d.saveCtl 0 value op act = act b := by
  subst hb
  simp only [Device.saveCtl, hawake, hop, Bool.not_true, Bool.false_eq_true, ne_eq, not_true_eq_false, if_false, if_true]

theorem saveSnap_of_idle {r : Device × Bool} (hop : bits value 1 0 = 1) (hidle : b.on PWR_SAVE_STAT.busy 0 = false)
    (hr : r = snapCopy (b.rd PWR_SAVE_CFG.count 0) 0 0 b) :
    saveSnap 0 value d = { r.1 with pwr := { r.1.pwr with stagedTorn := true, snapOk := some r.2 } }.wr PWR_SAVE_STAT.busy 0 1 := by
  rw [saveSnap, saveCtl_of_op hawake hb hop, startSnap_of_idle hidle hr]

theorem saveRestore_of_valid (hop : bits value 1 0 = 2) (hidle : b.on PWR_SAVE_STAT.busy 0 = false) (hvalid : b.on PWR_SAVE_STAT.valid 0 = true) :
    saveRestore 0 value d = { b with pwr := { b.pwr with restoring := some (b.rd PWR_SAVE_CTL.dest 0 * pageSize) } }.wr PWR_SAVE_STAT.busy 0 1 := by
  rw [saveRestore, saveCtl_of_op hawake hb hop, hidle, hvalid, Bool.not_true, Bool.or_self, if_neg Bool.false_ne_true]

theorem saveClear_of_op (hop : bits value 1 0 = 3) : saveClear 0 value d = { b with pwr := { b.pwr with save := none } }.showSave := by
  rw [saveClear, saveCtl_of_op hawake hb hop]

end SaveControl

/-- A write of the whole PWR_SAVE_CTL by tenancy 0 acts, and uses up the lower half held for it (R10). -/
theorem exec_of_saveCtl {c : Instr} {f : Device → Device} {s : State}
    (hexec : ∀ s, exec c s = s.actIf c.wf (Device.via 0 .PWR_SAVE_CTL (Device.whole ((0 : Nat) == 0) .PWR_SAVE_CTL 0 f))) (hwf : c.wf = true)
    (hr : s.dev.reaches 0 .PWR_SAVE_CTL = true) : exec c s = .next (s.leads ((f s.dev).usedUp .PWR_SAVE_CTL 0)) := by
  rw [exec_of_via hexec hwf hr, Device.whole, beq_self_eq_true, if_pos rfl]

/-- Settles O34: the removal, PERST# in each state it meets, then the save from its start to its restore. The model's own choices in it are the cause of the reset
(log 88), the free bytes of the restored hardware section (log 91), that only a restore reads the save (log 99), and the one record of the bad blocks (log 157). -/
theorem removalAndSave : Obligations.RemovalAndSave := by
  unfold Obligations.RemovalAndSave
  refine ⟨?removal, ?intoDeep, ?removalReset, ?perstReset, ?perstDeep, ?perstHeld, ?failDisarmed, ?failArmed, ?clockLost, ?complete, ?snap, ?autoSnap, ?snapGood,
    ?snapBad, ?restore, ?restored, ?clear⟩
  case removal =>
    intro s hup harmed
    rw [exec_of_wf (fun _ => rfl) rfl, linkDown_of_up hup harmed]
  case intoDeep =>
    intro s harmed
    rw [exec_of_wf (fun _ => rfl) rfl, linkDown_of_armed harmed]
  case removalReset =>
    intro s hremoving
    rw [exec_of_wf (fun _ => rfl) rfl, removalResetTimeout, if_pos hremoving]
  case perstReset =>
    intro s a b hhigh hact hps hgated harmed ha hb
    rw [exec_of_wf (fun _ => rfl) rfl, perstAssert_of_unarmed hhigh hact hps hgated harmed ha hb]
  case perstDeep =>
    intro s hhigh hact hps hgated harmed
    rw [exec_of_wf (fun _ => rfl) rfl, perstAssert_of_armed hhigh hact hps hgated harmed]
  case perstHeld =>
    intro s hhigh h
    rw [exec_of_wf (fun _ => rfl) rfl, perstAssert_of_saving hhigh h]
  case failDisarmed =>
    intro s harmed
    rw [exec_of_wf (fun _ => rfl) rfl, powerFail_of_disarmed harmed]
  case failArmed =>
    intro s a ha harmed
    rw [exec_of_wf (fun _ => rfl) rfl, powerFail_of_armed ha harmed]
  case clockLost =>
    intro s harmed
    rw [exec_of_wf (fun _ => rfl) rfl, sysclkLoss, if_pos harmed]
  case complete =>
    intro s bad hw a hbad hsaving ha
    rw [exec_of_wf (fun _ => rfl) (by simp [Instr.wf, hbad]), saveComplete_of_saving hsaving rfl ha]
  case snap =>
    intro s value b r hv hr hop hb hidle hcopy
    rw [exec_of_saveCtl (fun _ => rfl) (by simpa [Instr.wf] using hv) hr, saveSnap_of_idle (fnAwake_of_reaches hr) hb hop hidle hcopy]
  case autoSnap =>
    intro s r hauto hpower hidle hcopy
    rw [exec_of_wf (fun _ => rfl) rfl, autoSnapshot_of_idle hauto hpower hidle hcopy]
  case snapGood =>
    intro s hok
    rw [exec_of_wf (fun _ => rfl) rfl, snapshotDone_of_good hok]
  case snapBad =>
    intro s hbad
    rw [exec_of_wf (fun _ => rfl) rfl, snapshotDone_of_bad hbad]
  case restore =>
    intro s value b hv hr hop hb hidle hvalid
    rw [exec_of_saveCtl (fun _ => rfl) (by simpa [Instr.wf] using hv) hr, saveRestore_of_valid (fnAwake_of_reaches hr) hb hop hidle hvalid]
  case restored =>
    intro s dst a hrestoring hfilled ha
    rw [exec_of_wf (fun _ => rfl) rfl, saveRestoreDone_of_filled hrestoring hfilled ha]
  case clear =>
    intro s value b hv hr hop hb
    rw [exec_of_saveCtl (fun _ => rfl) (by simpa [Instr.wf] using hv) hr, saveClear_of_op (fnAwake_of_reaches hr) hb hop]

/-! ### The management port -/

/-- A control request that may not act is denied and counted (R507). -/
theorem mgtServe_denied {d : Device} {mac : Option Nat} {r : MgtReq} (hcontrol : r.control = true) (h : d.mgtAllowed mac = false) :
    d.mgtServe mac r = (d.incSat MGT_STAT.denied 0 1, mgDenied, []) := by
  simp [Device.mgtServe, hcontrol, h]

theorem mgtDo_readReg_of_blocks {d : Device} {i3c : Bool} {off count : Nat} (hcount : count ≤ 128) (hoff : off % 8 = 0)
    (hblocks : ∀ i, i < count → mgtBlock (off + 8 * i) = true) :
    d.mgtDo i3c (.readReg off count) = (d, mgOk, (List.range count).flatMap fun i => d.regBytes (off + 8 * i)) := by
  have hall : ((List.range count).all fun i => mgtBlock (off + 8 * i)) = true := by simpa using hblocks
  simp [Device.mgtDo, Nat.not_lt.2 hcount, hoff, hall]

theorem mgtDo_readReg_of_bad {d : Device} {i3c : Bool} {off count : Nat} (hbad : 128 < count ∨ off % 8 ≠ 0 ∨ ∃ i, i < count ∧ mgtBlock (off + 8 * i) = false) :
    d.mgtDo i3c (.readReg off count) = (d, mgBad, []) := by
  refine if_pos ?_
  simpa [or_assoc] using hbad

theorem mgtDo_setPkgLimit_of_range {d : Device} {i3c : Bool} {w : Nat} (hlo : 300 ≤ w) (hhi : w ≤ 1400) :
    d.mgtDo i3c (.setPkgLimit w) = (d.wr PWR_LIMIT_CFG.pkg_limit_w 0 w, mgOk, []) := by
  simp [Device.mgtDo, Nat.not_lt.2 hlo, Nat.not_lt.2 hhi]

theorem control_other {op : Nat} (hop : op < 0x10 ∨ 0x12 < op) : (MgtReq.other op).control = false := by
  rcases hop with h | h
  · simp [MgtReq.control, MgtReq.op, Nat.not_le.2 h]
  · simp [MgtReq.control, MgtReq.op, Nat.not_le.2 h]

/-- Operands that the rows of the port share: sequence number, MAC address and IPv4 address fit their fields. -/
theorem peer_wf {seq mac : Nat} {ip : Option Nat} {up addressed : Prop} (hseq : seq < 65536) (hmac : mac < 2 ^ 48)
    (hport : up ∧ addressed ∧ (ip.all fun a => decide (a < 2 ^ 32)) = true) :
    (decide (seq < 65536) && decide (mac < 2 ^ 48) && ip.all fun a => decide (a < 2 ^ 32)) = true := by
  rw [decide_eq_true hseq, decide_eq_true hmac, hport.2.2, Bool.and_self, Bool.and_self]

/-- A well-formed datagram to this device within its window is answered with what serving it answers (R506, R507). -/
theorem exec_of_datagram {c : Instr} {s : State} {a e : Device} {seq mac st : Nat} {ip : Option Nat} {r : MgtReq} {data : List Byte}
    (hexec : ∀ s, exec c s = s.actIf c.wf (mgtDatagram seq mac ip r)) (hwf : c.wf = true) (hm : s.dev.on MGT_CFG.m0_en 0 = true)
    (hport : s.dev.aofUp = true ∧ s.dev.mgtAddressed ip = true ∧ (ip.all fun a => decide (a < 2 ^ 32)) = true)
    (hw : (s.dev.inWindow s.dev.pwr.mgtWin).2 = false) (ha : a = { s.dev with pwr := { s.dev.pwr with mgtWin := (s.dev.inWindow s.dev.pwr.mgtWin).1 } })
    (hserve : a.mgtServe (some mac) r = (e, st, data)) :
    exec c s = .next (s.leads { e with sent := .mgt false (r.answer e seq st data) :: e.sent }) := by
  obtain ⟨hup, haddr, -⟩ := hport
  rw [exec_of_wf hexec hwf, mgtDatagram_go hm hup haddr hw ha hserve]

/-- Within its window the I3C target serves a request of its controller and keeps the answer for the read (R508). -/
theorem i3cPrivateWrite_of_assigned {d a : Device} {seq : Nat} {r : MgtReq} {x : Device × Nat × List Byte} {z : MgtAns} (hen : d.on MGT_CFG.i3c_en 0 = true)
    (hdyn : d.pwr.i3cDyn.isSome = true) (hup : d.aofUp = true) (hw : (d.inWindow d.pwr.i3cWin).2 = false)
    (ha : a = { d with pwr := { d.pwr with i3cWin := (d.inWindow d.pwr.i3cWin).1 } }) (hx : x = a.mgtServe none r) (hz : z = r.answer x.1 seq x.2.1 x.2.2) :
    i3cPrivateWrite seq r d = { x.1 with pwr := { x.1.pwr with i3cAnswer := some z }, sent := .mgt true z :: x.1.sent } := by
  subst hz hx ha
  have hassigned : d.pwr.i3cDyn.isNone = false := by simpa using hdyn
  simp only [i3cPrivateWrite, hen, hassigned, hup, hw, Bool.not_true, Bool.or_self, Bool.false_eq_true, if_false]

theorem i3cAddressAssign_of_entdaa {d : Device} {static dyn : Nat} (hen : d.on MGT_CFG.i3c_en 0 = true) (hnone : d.pwr.i3cDyn = none) :
    i3cAddressAssign true static dyn d = { d with sent := .i3cId (d.rd SEC_SERIAL.serial 0 % 2 ^ 32) :: d.sent, pwr := { d.pwr with i3cDyn := some dyn } }.wr
      MGT_STAT.i3c_addr_valid 0 1 := by
  simp [i3cAddressAssign, hen, hnone]

theorem i3cAddressAssign_of_setdasa {d : Device} {static dyn : Nat} (hen : d.on MGT_CFG.i3c_en 0 = true) (hstatic : static = d.rd MGT_CFG.i3c_addr 0) :
    i3cAddressAssign false static dyn d = { d with pwr := { d.pwr with i3cDyn := some dyn } }.wr MGT_STAT.i3c_addr_valid 0 1 := by
  simp [i3cAddressAssign, hen, hstatic]

theorem telemetryTick_of_up {d a : Device} {md0 md1 iod n : Nat} (hup : d.aofUp = true) (hn : n = d.rd MGT_TELEM_STAT.head 0)
    (ha : a = { d with pwr := { d.pwr with telem := (n, d.telemRecord md0 md1 iod) :: d.pwr.telem.filter (fun r => r.1 % 6000 != n % 6000),
                                           spareMax := d.topDuty SCH_THR_STAT.spare_duty, promptMax := d.topDuty SCH_THR_STAT.prompt_duty } }) :
    telemetryTick md0 md1 iod d = a.incWrap MGT_TELEM_STAT.head 0 1 := by
  subst ha hn
  rw [telemetryTick, hup, Bool.not_true, if_neg Bool.false_ne_true]

/-- Settles O57, request by request: what serves the request answers it. The model's own choices in it are the cause of the reset (log 88), requests and answers as
their fields (log 92), the control requests of I3C (log 97), and the busy answer to a reset that cannot begin (log 98). -/
theorem managementPort : Obligations.ManagementPort := by
  unfold Obligations.ManagementPort
  refine ⟨?readReg, ?readRegBad, ?readLog, ?readTelem, ?readSave, ?wake, ?reset, ?resetBusy, ?limit, ?limitDenied, ?badRequest, ?i3cWrite, ?entdaa, ?setdasa,
    ?telemetry⟩
  case readReg =>
    intro s seq mac off count ip a hseq hmac hm hport hw ha hcount hoff hblocks
    exact exec_of_datagram (fun _ => rfl) (peer_wf hseq hmac hport) hm hport hw ha
      ((mgtServe_read rfl).trans (mgtDo_readReg_of_blocks hcount hoff hblocks))
  case readRegBad =>
    intro s seq mac off count ip a hseq hmac hm hport hw ha hbad
    exact exec_of_datagram (fun _ => rfl) (peer_wf hseq hmac hport) hm hport hw ha ((mgtServe_read rfl).trans (mgtDo_readReg_of_bad hbad))
  case readLog =>
    intro s seq mac idx count ip a hseq hmac hm hport hw ha hcount
    exact exec_of_datagram (fun _ => rfl) (peer_wf hseq hmac hport) hm hport hw ha ((mgtServe_read rfl).trans (if_neg (Nat.not_lt.2 hcount)))
  case readTelem =>
    intro s seq mac idx count ip a hseq hmac hm hport hw ha hcount
    exact exec_of_datagram (fun _ => rfl) (peer_wf hseq hmac hport) hm hport hw ha ((mgtServe_read rfl).trans (if_neg (Nat.not_lt.2 hcount)))
  case readSave =>
    intro s seq mac ip a hseq hmac hm hport hw ha
    exact exec_of_datagram (fun _ => rfl) (peer_wf hseq hmac hport) hm hport hw ha (mgtServe_read rfl)
  case wake =>
    intro s seq mac ip a hseq hmac hm hport hw ha hallowed
    exact exec_of_datagram (fun _ => rfl) (peer_wf hseq hmac hport) hm hport hw ha (mgtServe_control hallowed)
  case reset =>
    intro s seq mac ip a hseq hmac hm hport hw ha hallowed hasleep
    exact exec_of_datagram (fun _ => rfl) (peer_wf hseq hmac hport) hm hport hw ha
      ((mgtServe_control hallowed).trans (if_neg (Bool.eq_false_iff.mp hasleep)))
  case resetBusy =>
    intro s seq mac ip a hseq hmac hm hport hw ha hallowed hasleep
    exact exec_of_datagram (fun _ => rfl) (peer_wf hseq hmac hport) hm hport hw ha ((mgtServe_control hallowed).trans (if_pos hasleep))
  case limit =>
    intro s seq mac w ip a hseq hmac hm hport hw ha hallowed hlo hhi
    have hlimit : w < 65536 := by omega
    exact exec_of_datagram (fun _ => rfl) (by simp only [Instr.wf, hseq, hmac, hport.2.2, hlimit, decide_true, Bool.and_self]) hm hport hw ha
      ((mgtServe_control hallowed).trans (mgtDo_setPkgLimit_of_range hlo hhi))
  case limitDenied =>
    intro s seq mac w ip a hseq hmac hm hport hw ha hlimit hdenied
    exact exec_of_datagram (fun _ => rfl) (by simp only [Instr.wf, hseq, hmac, hport.2.2, hlimit, decide_true, Bool.and_self]) hm hport hw ha
      (mgtServe_denied rfl hdenied)
  case badRequest =>
    intro s seq mac op ip a hseq hmac hm hport hw ha hop hother
    exact exec_of_datagram (fun _ => rfl) (by simp only [Instr.wf, hseq, hmac, hport.2.2, hop, decide_true, Bool.and_self]) hm hport hw ha
      (mgtServe_read (control_other hother))
  case i3cWrite =>
    intro s seq r a x z hseq hen hdyn hup hw ha hx hz
    rw [exec_of_wf (fun _ => rfl) (by simp [Instr.wf, hseq]), i3cPrivateWrite_of_assigned hen hdyn hup hw ha hx hz]
  case entdaa =>
    intro s static dyn hstatic hdyn hen hnone
    rw [exec_of_wf (fun _ => rfl) (by simp [Instr.wf, hstatic, hdyn]), i3cAddressAssign_of_entdaa hen hnone]
  case setdasa =>
    intro s static dyn hstatic hdyn hen haddr
    rw [exec_of_wf (fun _ => rfl) (by simp [Instr.wf, hstatic, hdyn]), i3cAddressAssign_of_setdasa hen haddr]
  case telemetry =>
    intro s md0 md1 iod n a hup hn ha
    rw [exec_of_wf (fun _ => rfl) rfl, telemetryTick_of_up hup hn ha]

/-! ### Operations that only tenancy 0 starts -/

section OtherFunction

variable {d : Device} {fn value op i : Nat} {r : Reg} {act : Device → Device} {body : Device → Nat → Device × Nat × Nat} (hfn : fn ≠ 0)

include hfn

/-- What every row that only tenancy 0 may start says of another function: the error at the register's offset, and nothing else. -/
theorem exec_of_refused {c : Instr} {off : Nat} {f : Device → Device} {s : State} (hexec : ∀ s, exec c s = s.actIf c.wf (Device.via fn r f))
    (hwf : c.wf = true) (hr : s.dev.reaches fn r = true) (hf : fn ≠ 0 → s.dev.fnAwake fn = true → f s.dev = s.dev.hostErr off 0) :
    exec c s = .next (s.leads (s.dev.hostErr off 0)) := by
  rw [exec_of_via hexec hwf hr, hf hfn (fnAwake_of_reaches hr)]

theorem startSteeping_of_other (u : Nat) : startSteeping fn u d = d.hostErr 0xE00030 0 := if_pos hfn

theorem endSteeping_of_other (u : Nat) : endSteeping fn u d = d.hostErr 0xE00030 0 := if_pos hfn

variable (hawake : d.fnAwake fn = true)

include hawake

theorem secOp_of_other : d.secOp fn value op body = d.hostErr 0x1100020 0 := by
  rw [Device.secOp, hawake, Bool.not_true, if_neg Bool.false_ne_true, if_pos hfn]

theorem powerCtl_of_other : d.powerCtl fn value op act = d.hostErr 0x1200000 0 := by
  rw [Device.powerCtl, hawake, Bool.not_true, if_neg Bool.false_ne_true, if_pos hfn]

/-- No lower half is used up for a function that may not write the register. -/
theorem whole_saveCtl_of_other : Device.whole (fn == 0) r i (fun d => d.saveCtl fn value op act) d = d.hostErr 0x1200038 0 := by
  rw [Device.whole, beq_false_of_ne hfn, if_neg Bool.false_ne_true, Device.saveCtl, hawake, Bool.not_true, if_neg Bool.false_ne_true, if_pos hfn]

theorem restoreStart_of_other : restoreStart fn value d = d.hostErr 0xF00500 0 := by
  rw [restoreStart, hawake, Bool.not_true, if_neg Bool.false_ne_true, if_pos hfn]

theorem arbAdvance_of_other : arbAdvance fn d = d.hostErr 0x1100008 0 := by
  rw [arbAdvance, hawake, Bool.not_true, if_neg Bool.false_ne_true, if_pos hfn]

end OtherFunction

/-- Settles O9, row by row: a row's body looks at the function before it looks at anything else. -/
theorem onlyTenancyZeroOperates : Obligations.OnlyTenancyZeroOperates := by
  intro c fn off r s honly hwf hfn hr
  cases honly with
  | restoreStart => exact exec_of_refused hfn (fun _ => rfl) hwf hr restoreStart_of_other
  | reqD0 => exact exec_of_refused hfn (fun _ => rfl) hwf hr powerCtl_of_other
  | reqIdleHold => exact exec_of_refused hfn (fun _ => rfl) hwf hr powerCtl_of_other
  | reqDeep => exact exec_of_refused hfn (fun _ => rfl) hwf hr powerCtl_of_other
  | saveSnap => exact exec_of_refused hfn (fun _ => rfl) hwf hr whole_saveCtl_of_other
  | saveRestore => exact exec_of_refused hfn (fun _ => rfl) hwf hr whole_saveCtl_of_other
  | saveClear => exact exec_of_refused hfn (fun _ => rfl) hwf hr whole_saveCtl_of_other
  | startSteeping u => exact exec_of_refused hfn (fun _ => rfl) hwf hr fun h _ => startSteeping_of_other h u
  | endSteeping u => exact exec_of_refused hfn (fun _ => rfl) hwf hr fun h _ => endSteeping_of_other h u
  | arbAdvance => exact exec_of_refused hfn (fun _ => rfl) hwf hr arbAdvance_of_other
  | ownerEnrol => exact exec_of_refused hfn (fun _ => rfl) hwf hr secOp_of_other
  | fabricKeyImport => exact exec_of_refused hfn (fun _ => rfl) hwf hr secOp_of_other
  | fabricKeyActivate => exact exec_of_refused hfn (fun _ => rfl) hwf hr secOp_of_other
  | fabricKeyRetirePrevious => exact exec_of_refused hfn (fun _ => rfl) hwf hr secOp_of_other
  | memoryKeyRoll => exact exec_of_refused hfn (fun _ => rfl) hwf hr secOp_of_other
  | debugNonce => exact exec_of_refused hfn (fun _ => rfl) hwf hr secOp_of_other
  | debugUnlock => exact exec_of_refused hfn (fun _ => rfl) hwf hr secOp_of_other
  | debugLock => exact exec_of_refused hfn (fun _ => rfl) hwf hr secOp_of_other
  | recoveryImage => exact exec_of_refused hfn (fun _ => rfl) hwf hr secOp_of_other

end Sys2Proof.Machine
end
